-- ==== Sys2Proof/Word.lean ====
section
/-! DEFINITION. The word types of the KG460 and their plainest helpers. -/
namespace Sys2Proof

/-- A register word, 32 bits (R48). -/
abbrev Word := BitVec 32
/-- A 64-bit register pair or Headgate register. -/
abbrev DWord := BitVec 64
/-- The smallest addressable unit. -/
abbrev Byte := BitVec 8

/-- Bits `lo+w-1 : lo` of a natural number. -/
def bitsOf (n lo w : Nat) : Nat := n / 2 ^ lo % 2 ^ w

/-- `n` with bits `lo+w-1 : lo` replaced by the low `w` bits of `v`. -/
def putBits (n lo w v : Nat) : Nat :=
  n - bitsOf n lo w * 2 ^ lo + v % 2 ^ w * 2 ^ lo

/-- The two's-complement reading of a `w`-bit field. -/
def signed (w n : Nat) : Int :=
  if n % 2 ^ w < 2 ^ (w - 1) then (n % 2 ^ w : Nat) else (n % 2 ^ w : Nat) - (2 ^ w : Nat)

/-- The `w`-bit two's-complement field that stands for an integer. -/
def unsigned (w : Nat) (i : Int) : Nat := (i % ((2 ^ w : Nat) : Int)).toNat

/-- One bit as a number. -/
def bit01 (b : Bool) : Nat := if b then 1 else 0

end Sys2Proof
end

