-- ==== Sys2Proof/Types.lean ====
section
/-! DEFINITION. Operand types shared by the commands and the state. -/
namespace Sys2Proof

/-- The two access paths into BAR-0: the Host Port and the Management Block. -/
inductive Path where | host | mgmt
deriving DecidableEq, Repr

/-- The index of a path in the tables kept per path. -/
def Path.ix : Path → Nat
  | .host => 0
  | .mgmt => 1

/-- A reset of the host function (R470): HOST_PERST_N low, a hot reset, the loss of the link, a Function Level Reset. -/
inductive HostRst | perst | hot | linkDown | flr
deriving DecidableEq, Repr

/-- A configuration request to the host function: a read of a dword, a write of Bus Master Enable, of the MSI-X enable and function
mask, or of a field that PCIe 6.0 defines and that this model does not hold. -/
inductive CfgReq
  | read (off : Nat)
  | bme (on : Bool)
  | msix (en mask : Bool)
  | other
deriving DecidableEq, Repr

/-- How a completion fails: poison, or Unsupported Request, Completer Abort or a timeout (R477). -/
inductive CplErr | poison | error
deriving DecidableEq, Repr

/-- Who waits for a transfer (R266): a stream, a chain, a request of the router, a drain, a restore's region. -/
inductive Waiter
  | stream (f c slot : Nat)
  | chain (handle : Nat)
  | tag (dst tag : Nat)
  | drain (handle : Nat)
deriving DecidableEq, Repr

/-- The sources of the management path (R597). -/
inductive MSrc | smb | mctpSmb | mctpVdm | jtag
deriving DecidableEq, Repr

/-- The PEC byte of an SMBus command (R601). -/
inductive Pec | absent | good | bad
deriving DecidableEq, Repr

/-- The outcome of a unit that a boot stage tests (Table 6-8). -/
inductive BootOut | pass | fail (cause : Nat) | noPeer
deriving DecidableEq, Repr

end Sys2Proof
end

