-- ==== Sys2Proof/Syntax.lean ====
section
/-! DEFINITION. The commands of the KG460: one constructor per row of the table of operations and events. -/
namespace Sys2Proof

/-- A command (an operation of the part, or an event at it). -/
inductive Instr where
  /-- REGISTER_WRITE. A write to a register that has no row of its own, applied according to its access type. (R49) -/
  | registerWrite (p : Path) (addr size v : Nat)
  /-- UNMAPPED_ACCESS. A BAR-0 access outside every page and window reads zero or is ignored, and the Host Port counts it. (R64) -/
  | unmappedAccess (p : Path) (addr : Nat) (wr : Option Word)
  /-- LATCH_READ_LOW. A read of the low word of a 64-bit register latches the high word for that access path. (R51) -/
  | latchReadLow (p : Path) (b page off : Nat)
  /-- HIGH_WORD_WRITE. A high-word write of a 64-bit RW register commits the staged low word together with the high word. (R52) -/
  | highWordWrite (p : Path) (b page off : Nat) (v : Word)
  /-- IRQ_PEND_CLEAR. A W1C write to IRQ_PEND clears the handled bits; a hardware set in the same cycle wins, and the message is resent if the summary stays 1. (R54) -/
  | irqPendClear (p : Path) (b page : Nat) (v : Word)
  /-- IRQ_MASK_WRITE. A write to IRQ_MASK changes the summary, and the message is resent if the summary stays 1. (R56) -/
  | irqMaskWrite (p : Path) (b page : Nat) (v : Word)
  /-- IRQ_FORCE. A write to IRQ_FORCE sets IRQ_PEND bits without advancing IRQ_SEQ. (R53) -/
  | irqForce (p : Path) (b page : Nat) (v : Word)
  /-- ERR_CODE_CLEAR. Writing 1 to ERR_CODE.VALID clears ERR_CODE and both ERR_INFO registers, so that the next error is captured. (R58) -/
  | errCodeClear (p : Path) (b page : Nat)
  /-- BLOCK_RESET. BLK_CTRL.RESET ends the block's tasks, returns its registers to reset values, and discards the write's other bits. (R664) -/
  | blockReset (p : Path) (b page : Nat)
  /-- RESET_COMPLETE. RESETTING falls once the block has reached its reset state and its outstanding transfers have completed. (R663) -/
  | resetComplete (b : Nat)
  /-- BLK_FREEZE. Setting BLK_CTRL.FREEZE makes the block stop at its next task boundary. (R60) -/
  | blkFreeze (p : Path) (b page : Nat)
  /-- THAW. Clearing the effective freeze lets the block resume from where it stopped. (R60) -/
  | thaw (p : Path) (b page : Nat)
  /-- FROZEN_REACHED. The block finishes its current unit of work, sets FROZEN and fixes its mirror snapshot. (R62) -/
  | frozenReached (b : Nat)
  /-- BLK_QUIESCE. Setting QUIESCE makes the block refuse new work while it finishes accepted work. (R663) -/
  | blkQuiesce (p : Path) (b page : Nat)
  /-- QUIESCED_REACHED. The block has finished all accepted work and sets QUIESCED. (R663) -/
  | quiescedReached (b : Nat)
  /-- BLK_ENABLE. Setting ENABLE lets the block accept work, unless it is PRESENT_DISABLED. (R663) -/
  | blkEnable (p : Path) (b page : Nat)
  /-- GLOBAL_FREEZE_SET. Setting GLOBAL_CTRL.FREEZE freezes every present block that is not exempt. (R61) -/
  | globalFreezeSet (p : Path)
  /-- GLOBAL_FREEZE_CLEAR. Clearing GLOBAL_CTRL.FREEZE thaws every block that has no block freeze of its own. (R61) -/
  | globalFreezeClear (p : Path)
  /-- ALL_FROZEN. Every affected block has reached FROZEN, so ALL_FROZEN sets and GFREEZE_DONE is raised. (R61) -/
  | allFrozen
  /-- STATE_DATA_READ. A read of STATE_DATA returns the selected mirror word and advances STATE_SEL.INDEX. (R63) -/
  | stateDataRead (p : Path) (b page : Nat)
  /-- LOOP_BOUNDS_WRITE. A write to an adaptive loop's bounds is refused if inverted or if it would exclude an enabled pin, and otherwise takes effect at the next update. (R22) -/
  | loopBoundsWrite (p : Path) (b page off : Nat) (v : Word) (same : Bool)
  /-- LOOP_PIN_WRITE. A write to an adaptive loop's pin is refused outside the bounds, and otherwise takes effect at the next update. (R21) -/
  | loopPinWrite (p : Path) (b page off : Nat) (v : Word) (same : Bool)
  /-- AO_POWER_UP. The AO power-on reset releases 2 ms after VDD_AO and VDD_IO_AO are in range and REFCLK_AO runs; the straps are sampled and the AO timer starts. (R93) -/
  | aoPowerUp (straps : Nat)
  /-- AO_DOMAIN_RESET. An excursion of VDD_AO or VDD_IO_AO, or a loss of REFCLK_AO for more than 10 µs, resets the AO domain. (R649) -/
  | aoDomainReset (straps : Nat)
  /-- DEV_RESET_ASSERT. DEV_RESET_N held low for 1 µs resets the device outside the AO domain and steps the VID code towards 20. (R646) -/
  | devResetAssert
  /-- VID_STEP. The VID code changes by one Gray-coded step, at least 0.5 µs after the previous step. (R636) -/
  | vidStep
  /-- BOOT_START. The release of device reset, or an automatic, driver or management reboot, starts stage 0 and chooses BOOT_CAUSE. (R117) -/
  | bootStart (testHigh : Bool)
  /-- STAGE_AO_START. Stage 0, AO start, completes. (R117) -/
  | stageAoStart
  /-- STAGE_FUSES. Stage 1 reads the fuses and checks the secure ROM, and any failure halts the device. (R122) -/
  | stageFuses (bad : Nat) (absent : List Nat)
  /-- STAGE_IMAGE_VERIFY. Stage 2 reads and verifies the firmware image, restores the ledger if needed, or switches image and reboots. (R121) -/
  | stageImageVerify (sfdp : Bool)
  /-- STAGE_PLL_LOCK. Stage 3 locks the PLLs and starts host link training. (R117) -/
  | stagePllLock (ok : Bool)
  /-- STAGE_HBM_BRINGUP. Stage 4 trains and tests each HBM stack and disables failing pseudo-channels and stacks. (R542) -/
  | stageHbmBringup (trained : Nat) (pcs : List Nat) (chs : List Nat)
  /-- STAGE_SRAM_INIT. Stage 5 zeroes the control SRAMs and tests each Flume's memories. (R123) -/
  | stageSramInit (ok : Bool) (flumes : Nat)
  /-- STAGE_FW_LOAD. Stage 6 loads the Headgate firmware and the default wake program, and sets PROG_RUN. (R117) -/
  | stageFwLoad (ok : Bool)
  /-- STAGE_HOST_LINK. Stage 7 confirms the host link, or records NO_PEER if HOST_PERST_N stays low. (R633) -/
  | stageHostLink (fail : Bool)
  /-- STAGE_PARTNER_PORTS. Stage 8 trains each partner port. (R123) -/
  | stagePartnerPorts (outs : List BootOut)
  /-- STAGE_EXPANDER_PORTS. Stage 9 trains and enumerates each expander port and maps its capacity. (R484) -/
  | stageExpanderPorts (outs : List BootOut) (mib : List Nat)
  /-- STAGE_LATERAL_LINKS. Stage 10 trains each lateral link and records PASS, FAIL or NO_PEER. (R504) -/
  | stageLateralLinks
  /-- STAGE_SELFTEST. Stage 11 runs the golden vectors through each Siphon tile and Sluice lane. (R123) -/
  | stageSelftest (tiles : Nat) (lanes : Nat)
  /-- STAGE_MAP_PUBLISH. Stage 12 publishes the Ditch Map and enables every PRESENT block. (R40) -/
  | stageMapPublish (ok : Bool)
  /-- STAGE_READY. Stage 13 declares READY and starts the copy of the ledger to flash. (R117) -/
  | stageReady
  /-- STAGE_TIMEOUT. A stage that exceeds its budget fails with STAGE_TIMEOUT. (R117) -/
  | stageTimeout
  /-- LEDGER_COPY_DONE. A ledger copy to the flash region not written last completes, or fails with LEDGER_COPY_FAIL. (R138) -/
  | ledgerCopyDone (ok : Bool)
  /-- VERDICT_CLEAR. A write to VERDICT_CLEAR resets one verdict or all of them for the next boot, or is refused with BOOT_BUSY during a boot. (R131) -/
  | verdictClear (p : Path) (v : Word)
  /-- BOOT_REBOOT. A write of the key to BOOT_REBOOT starts a driver reboot, and any other value is refused. (R139) -/
  | bootReboot (p : Path) (v : Word)
  /-- IMAGE_PREF. A write to IMAGE_PREF selects the image that stage 2 tries first and triggers a ledger copy. (R138) -/
  | imagePref (p : Path) (v : Word)
  /-- PWR_REQ_DOZE. A request for DOZE with a wake time is checked against the permitted set, the minimum residency and the blockers. (R69) -/
  | pwrReqDoze (p : Path)
  /-- PWR_REQ_HOLD. A request for HOLD with a wake time is checked, demoted, merged or made pending, or it starts HOLD entry. (R69) -/
  | pwrReqHold (p : Path)
  /-- PWR_REQ_CANCEL. A PWR_REQ write of 0 cancels a pending request, which completes CANCELLED. (R73) -/
  | pwrReqCancel (p : Path)
  /-- HOLD_DRAIN_DONE. Once entry steps 1 and 2 end, steps 3 and 4 run (trace packet, key retention, Headgate save) and the sequencer jumps to V_ENTER. (R74) -/
  | holdDrainDone (bad : Nat)
  /-- PENDING_REQUEST_ENTER. A pending request is entered when its last blocker clears. (R71) -/
  | pendingRequestEnter
  /-- PENDING_REQUEST_DEMOTE. A pending HOLD request becomes a pending DOZE request as its wake time comes closer than HOLD_MIN. (R71) -/
  | pendingRequestDemote
  /-- PENDING_REQUEST_DROP. A pending request completes DROPPED when its wake time comes closer than every minimum residency it could still use. (R71) -/
  | pendingRequestDrop
  /-- IDLE_ENTRY. After IDLE_ENTRY_DELAY fabric cycles with no work, the device enters IDLE. (R68) -/
  | idleEntry
  /-- TC0_FIRE. tc0 reaches its compare value and starts the scheduled exit, wake source 0x01. (R103) -/
  | tc0Fire
  /-- DOZE_EXIT_COMPLETE. A DOZE exit reaches RUN within 12 µs, and the held accesses are served. (R666) -/
  | dozeExitComplete
  /-- GOVERNOR_UPDATE. Every 100 µs in RUN, the governor updates its shadow and applied frequency and VDD_CORE. (R84) -/
  | governorUpdate (p : Nat)
  /-- TJ_SAMPLE. The junction sensors are sampled every 10 µs, raising throttle and operating-range events. (R90) -/
  | tjSample (tj : Int) (sensor : Nat)
  /-- POWER_GATE. A Sluice lane or Siphon tile that has been idle for 100 µs is power-gated. (R82) -/
  | powerGate (b : Nat)
  /-- GH_PROG_RUN_SET. Setting PROG_RUN runs the load check and starts the wake program at V_MAIN, or records PROG_INVALID. (R94) -/
  | ghProgRunSet (p : Path)
  /-- GH_PROG_RUN_CLEAR. Clearing PROG_RUN returns control to the ROM program, or is refused with GH_BUSY. (R96) -/
  | ghProgRunClear (p : Path)
  /-- GH_DOORBELL. A write to GH_DOORBELL sets EVP bit 12. (R97) -/
  | ghDoorbell (p : Path) (v : Word)
  /-- GH_TIMER_FIRE. A timer channel tc1 to tc7 reaches its compare value and sets its EVP bit. (R97) -/
  | ghTimerFire (n : Nat)
  /-- GH_WAIT_MATCH. A wake-program WAIT ends when a matching EVP bit sets. (R97) -/
  | ghWaitMatch
  /-- GH_NOP. The wake-program NOP instruction. (R97) -/
  | ghNop
  /-- STOP. STOP ends a handler and restarts at V_MAIN with the return stack emptied. (R97) -/
  | ghStop
  /-- RET. RET pops the return stack into pc. (R99) -/
  | ghRet
  /-- WAKE. WAKE raises wake source 0x08 while the device is in DOZE, HOLD or HOLD entry. (R104) -/
  | ghWake
  /-- SEQ_VRET. SEQ VRET lowers the retained SRAMs to retention voltage (HOLD step 5). (R112) -/
  | seqVret
  /-- SEQ_SRE. SEQ SRE puts the HBM into self-refresh, the point of no return. (R552) -/
  | seqSre
  /-- SEQ_LINKLP. SEQ LINKLP places every port and lateral link in its low-power state. (R489) -/
  | seqLinklp (l1 : Nat)
  /-- SEQ_FASTOFF. SEQ FASTOFF powers off the fast domains, and HOLD is entered. (R74) -/
  | seqFastoff
  /-- SEQ_FASTON. SEQ FASTON closes the power switches and locks the PLLs. (R97) -/
  | seqFaston
  /-- SEQ_VOPR. SEQ VOPR returns the retained SRAMs to operating voltage. (R97) -/
  | seqVopr
  /-- SEQ_SRX. SEQ SRX starts the HBM self-refresh exit and calibration. (R552) -/
  | seqSrx (bad : Nat)
  /-- SEQ_LINKUP. SEQ LINKUP starts the link exit on every port. (R97) -/
  | seqLinkup
  /-- SEQ_RESUME. SEQ RESUME waits for the HBM and links or 150 µs, copies the keys back, re-enables the engines, and RUN is reached. (R97) -/
  | seqResume (ue : Nat)
  /-- SCRUB. SCRUB starts a retention scrub of one segment in HOLD. (R109) -/
  | scrub (ce ue : List Nat)
  /-- SCRUB_DONE. A segment scrub completes, correcting single-bit errors and setting SCRUB_DONE. (R109) -/
  | scrubDone
  /-- GH_TEMP. TEMP loads the hottest junction reading into a register. (R97) -/
  | ghTemp
  /-- GPIN. GPIN loads the GPIO input levels into a register. (R97) -/
  | gpin
  /-- EVT. EVT takes and clears the selected EVP bits. (R98) -/
  | evt
  /-- GH_WAIT. WAIT sleeps until a masked EVP bit sets. (R97) -/
  | ghWait
  /-- GH_SIG. SIG writes GH_SIGNAL and raises PROG_SIGNAL. (R97) -/
  | ghSig
  /-- LDI. LDI loads a 9-bit immediate into a register. (R97) -/
  | ldi
  /-- GH_ALU. The wake-program ALU operation selected by fn, setting Z and C. (R97) -/
  | ghAlu
  /-- GH_ADDI. ADDI adds a signed immediate to a register. (R97) -/
  | ghAddi
  /-- GH_CMPI. CMPI compares a register with an immediate. (R97) -/
  | ghCmpi
  /-- GH_B. The conditional branch of the wake program. (R97) -/
  | ghB
  /-- CALL. CALL pushes the return address and jumps. (R99) -/
  | ghCall
  /-- LDC. LDC loads a 32-bit word from the data area of program memory. (R97) -/
  | ldc
  /-- TCSET. TCSET arms a timer channel at now plus k, and faults with TIMER_OWNED on tc0. (R99) -/
  | tcset
  /-- TCCLR. TCCLR disarms a timer channel, and faults on tc0. (R99) -/
  | tcclr
  /-- TCRD. TCRD reads the remaining ticks of a channel. (R97) -/
  | tcrd
  /-- GH_TNOW. TNOW reads the low word of the AO timer. (R97) -/
  | ghTnow
  /-- TNOWH. TNOWH reads the high word of the AO timer. (R97) -/
  | tnowh
  /-- GH_LD. LD reads a scratch word into a register. (R97) -/
  | ghLd
  /-- GH_ST. ST writes a register into a scratch word. (R97) -/
  | ghSt
  /-- BTST. BTST tests one register bit into Z. (R97) -/
  | btst
  /-- GH_BUDGET_EXCEEDED. V_ENTER or V_EXIT overruns its budget and takes the fault path. (R101) -/
  | ghBudgetExceeded
  /-- ISSUE. A slot D issue copies its descriptor into a free task-table slot and writes the tag to the handle register. (R148) -/
  | issue (ue : Nat)
  /-- ISSUE_STALL_RELEASE. An issue stalled for lack of a task slot proceeds in the first cycle in which a slot is free. (R148) -/
  | issueStallRelease
  /-- TASK_DISPATCH. The task table dispatches a QUEUED task to its engine, or completes it REFUSED with ENGINE_ABSENT. (R186) -/
  | taskDispatch (tag : Nat) (ue : Bool)
  /-- RING_CONS_WRITE. A write to RING_CONS advances the consumer index, releases held records, or is ignored if out of range. (R153) -/
  | ringConsWrite (p : Path) (n : Nat) (v : Word)
  /-- RING_CONFIG_WRITE. A write to RING_BASE or RING_SIZE is accepted only while the ring is empty and unused. (R154) -/
  | ringConfigWrite (p : Path) (n : Nat) (size : Bool) (v : Word)
  /-- IMEM_WINDOW_WRITE. A write to the instruction SRAM window is accepted only while the core is stopped and not locked. (R165) -/
  | imemWindowWrite (p : Path) (off : Nat) (v : Word)
  /-- HG_START. START runs the core from HG_START_PC, or is refused with START_STATE. (R162) -/
  | hgStart (p : Path)
  /-- HG_HALT_REQ. HALT_REQ stops the core at the next bundle boundary. (R164) -/
  | hgHaltReq (p : Path)
  /-- HG_STEP. STEP executes exactly one bundle and then halts. (R164) -/
  | hgStep (p : Path) (ue : Nat)
  /-- HG_DOORBELL. A write to HG_DOORBELL sets EV bit 36. (R156) -/
  | hgDoorbell (p : Path) (v : Word)
  /-- TASK_ABORT. HG_TASK_ABORT with a tag aborts that task, or is ignored as TASK_TAG_STALE. (R169) -/
  | taskAbort (p : Path) (tag : Nat)
  /-- TASK_ABORT_ALL. HG_TASK_ABORT with ALL aborts every task in the table. (R169) -/
  | taskAbortAll (p : Path)
  /-- HG_TIMER_FIRE. A Headgate timer reaches its compare value and sets TIMER_n once per arming. (R158) -/
  | hgTimerFire (n : Nat)
  /-- HG_WAIT_END. A Headgate WAIT ends when EV AND mask becomes non-zero. (R156) -/
  | hgWaitEnd
  /-- HG_NOP. The NOP of slots A, B and C. (R173) -/
  | hgNop (ue : Nat)
  /-- HG_ALU. The register-form ALU operation selected by F. (R176) -/
  | hgAlu (ue : Nat)
  /-- HG_ALUI. The immediate-form ALU operation selected by F. (R176) -/
  | hgAlui (ue : Nat)
  /-- EXT. EXT extracts a bit field, zero- or sign-extended. (R176) -/
  | ext (ue : Nat)
  /-- DEP. DEP deposits a bit field. (R176) -/
  | dep (ue : Nat)
  /-- CNT. CNT counts leading zeros, trailing zeros or set bits. (R176) -/
  | cnt (ue : Nat)
  /-- CMP. CMP writes a register comparison to a predicate. (R176) -/
  | cmp (ue : Nat)
  /-- CMPI. CMPI writes a register-immediate comparison to a predicate. (R176) -/
  | cmpi (ue : Nat)
  /-- PLOG. PLOG performs a predicate logic operation. (R173) -/
  | plog (ue : Nat)
  /-- SEL. SEL selects one register or the other by a predicate. (R176) -/
  | sel (ue : Nat)
  /-- MFP. MFP moves the predicates into a register. (R176) -/
  | mfp (ue : Nat)
  /-- MTP. MTP moves register bits into p1 to p7. (R175) -/
  | mtp (ue : Nat)
  /-- MPEEK. MPEEK reads a field of the head mark without removing it. (R177) -/
  | mpeek (ue : Nat)
  /-- MPOP. MPOP removes the sampled head mark from a mark FIFO. (R177) -/
  | mpop (ue : Nat)
  /-- MFEV. MFEV reads EV into a register. (R176) -/
  | mfev (ue : Nat)
  /-- MFH. MFH reads a handle register. (R176) -/
  | mfh (ue : Nat)
  /-- HQRY. HQRY returns the state of the task whose tag a handle register holds. (R183) -/
  | hqry (ue : Nat)
  /-- AOT. AOT reads the AO timer. (R176) -/
  | aot (ue : Nat)
  /-- BR. BR branches to an immediate bundle. (R179) -/
  | br (ue : Nat)
  /-- BL. BL branches and links. (R179) -/
  | bl (ue : Nat)
  /-- BX. BX branches to a register value. (R179) -/
  | bx (ue : Nat)
  /-- HG_WAIT. WAIT gates the core until EV matches the mask. (R156) -/
  | hgWait (ue : Nat)
  /-- EVCLR. EVCLR clears latched EV bits. (R156) -/
  | evclr (ue : Nat)
  /-- TMR_SET. TMR SET writes a compare value, arms the timer and clears TIMER_n. (R182) -/
  | tmrSet (ue : Nat)
  /-- TMR_CLR. TMR CLR disarms a timer and clears TIMER_n. (R158) -/
  | tmrClr (ue : Nat)
  /-- SIGNAL. SIGNAL writes HG_SIGNAL and raises SIGNAL. (R180) -/
  | signal (ue : Nat)
  /-- HALT. HALT enters HALTED and raises HALTED. (R180) -/
  | halt (ue : Nat)
  /-- SLEEP. SLEEP requests DOZE or HOLD, or cancels, and stalls for the answer. (R181) -/
  | sleep (ue : Nat)
  /-- SLEEP_ANSWER. The Thermal and power block answers a SLEEP and the result is written to gd. (R181) -/
  | sleepAnswer
  /-- HABORT. HABORT aborts the task whose tag a handle register holds. (R169) -/
  | habort (ue : Nat)
  /-- HCLR. HCLR zeroes a handle register and clears its HDONE. (R149) -/
  | hclr (ue : Nat)
  /-- LD. LD loads from data SRAM. (R184) -/
  | ld (ue : Nat)
  /-- ST. ST stores to data SRAM. (R184) -/
  | st (ue : Nat)
  /-- LDV. LDV issues a register-view load. (R184) -/
  | ldv (ue : Nat)
  /-- LDV_RESPONSE. The response of a register-view load arrives and its register becomes available. (R160) -/
  | ldvResponse
  /-- STV. STV posts a register-view store. (R184) -/
  | stv (ue : Nat)
  /-- MOVW. MOVW loads a 64-bit immediate. (R173) -/
  | movw (ue : Nat)
  /-- MOVP. MOVP moves a register pair. (R173) -/
  | movp (ue : Nat)
  /-- FENCE. FENCE stalls until earlier register-view stores are acknowledged. (R185) -/
  | fence (ue : Nat)
  /-- FENCE_DONE. The last outstanding register-view store is acknowledged and the FENCE bundle proceeds. (R185) -/
  | fenceDone
  /-- ADMIT. The admission service reads and checks the image, tries the variants in order, installs the first that passes, and writes the reply. (R201) -/
  | admitPlan (img : Option (List Byte)) (parts : Nat)
  /-- UNLOAD. UNLOAD retires every plan object, releases the reservations, reloads the default wake program and replies UNLOADED. (R213) -/
  | unload
  /-- SEAL. The SEAL task moves an object to SEALED. (R226) -/
  | seal (tag : Nat)
  /-- OPEN_GATE. The OPEN_GATE task makes a SEALED object READY and writes its gate word. (R227) -/
  | openGate (tag : Nat)
  /-- DROP. The DROP task discards a SEALED object's data and makes it RECOMPUTE_PENDING. (R235) -/
  | drop (tag : Nat)
  /-- REARM. The REARM task returns an object to DRY, waiting while its REFCOUNT is not 0. (R238) -/
  | rearm (tag : Nat)
  /-- REARM_APPLY. A waiting REARM takes effect once REFCOUNT reaches 0. (R238) -/
  | rearmApply (h : Nat)
  /-- PARTNER_WINDOW_WRITE. A partner write to a window wets its granule, zero-fills on the first write, and moves the object between DRY, FILLING and WET. (R229) -/
  | partnerWindowWrite (p addr : Nat) (data : List (Option Byte)) (poison : Bool)
  /-- PARTNER_WINDOW_READ. A partner read of a window is served, held until READY, or answered with zeros or poison. (R234) -/
  | partnerWindowRead (p addr len tid : Nat) (ue : Bool)
  /-- HELD_READ_RELEASE. A held partner read completes once its object becomes READY. (R17) -/
  | heldReadRelease (p tid : Nat)
  /-- READ_EXPIRED. A read held past STALL_LIMIT.PARTNER completes under the dry-read option. (R265) -/
  | readExpired (p tid : Nat)
  /-- DEFERRED_EVICTION_START. A deferred eviction starts when the object is READY and consumed, with REFCOUNT 0 and no pending promote. (R241) -/
  | deferredEvictionStart (h : Nat)
  /-- RETIRED_RELEASE. A RETIRED object with no user, no lock and no task becomes FREE. (R246) -/
  | retiredRelease (h : Nat)
  /-- EVICT. The EVICT task releases a reservation, or runs an on-demand T1 eviction. (R251) -/
  | evict (tag : Nat)
  /-- RESERVE. The RESERVE task adds to a tier's reservation if it fits. (R251) -/
  | reserve (tag : Nat)
  /-- ALLOCATION_GRANT. A waiting C0 to C2 allocation proceeds once space is available. (R259) -/
  | allocationGrant
  /-- ARBITRATION_GRANT. An arbitration point grants one block to a task: C0 first by deadline, then deficit round robin. (R258) -/
  | arbitrationGrant (pt dir : Nat)
  /-- AGE_LOOP_UPDATE. Every 1 ms, the eviction age threshold halves, doubles or holds. (R255) -/
  | ageLoopUpdate
  /-- ENGINE_STALL_EXPIRY. A transfer waiting on a failed or silent path ends after STALL_LIMIT.ENGINE with TIER_FAIL. (R266) -/
  | engineStallExpiry (w : Waiter)
  /-- PARK. A Flume accepts a PARK stream into a free context. (R272) -/
  | park (tag : Nat)
  /-- LIFT. A Flume accepts a LIFT stream, which waits in WAIT_START or starts at once. (R273) -/
  | lift (tag : Nat)
  /-- COMPRESS. A Flume accepts a COMPRESS stream. (R272) -/
  | compress (tag : Nat)
  /-- OBSERVE. A Flume accepts an OBSERVE stream, which reads the object and writes nothing. (R278) -/
  | observe (tag : Nat)
  /-- TURNOUT. A Flume accepts a TURNOUT task into a context and starts its program. (R294) -/
  | turnout (tag : Nat)
  /-- LIFT_START. A LIFT in WAIT_START starts at its start time. (R280) -/
  | liftStart (f c : Nat)
  /-- TRANSFER_COMPLETE. A 4 KiB transfer completes and the stream issues its next transfers. (R275) -/
  | transferComplete (f c slot : Nat) (write fault : Bool)
  /-- PRI_RESPONSE. A PRI response resumes a PAGE_WAIT stream, or fails the T3 path; a stray response is discarded. (R291) -/
  | priResponse (f g pasid : Nat) (ok : Bool)
  /-- STREAM_HALT_COMPLETE. The outstanding transfers of a halting stream complete, its position is saved, and the context is HALTED. (R284) -/
  | streamHaltComplete (f c slot : Nat)
  /-- STREAM_ABORT_COMPLETE. The outstanding transfers of an aborting stream complete, and the object reverts and a REFUSED record is written. (R285) -/
  | streamAbortComplete (f c slot : Nat)
  /-- FLM_CTX_RESUME. A RESUME command restarts a HALTED stream from its saved position. (R288) -/
  | flmCtxResume (p : Path) (f c tag : Nat)
  /-- FLM_CTX_ABORT. An ABORT command ends a HALTED stream with TASK_ABORTED. (R286) -/
  | flmCtxAbort (p : Path) (f c tag : Nat)
  /-- FLM_CTX_HALT. A HALT command halts a running stream with DRIVER_HALT. (R287) -/
  | flmCtxHalt (p : Path) (f c tag : Nat)
  /-- TURNOUT_PROGRAM_WRITE. A write to the turnout program window is accepted only while no TURNOUT task is held or queued. (R295) -/
  | turnoutProgramWrite (p : Path) (f ix : Nat) (v : Word)
  /-- TURN_NOP. The turnout NOP instruction. (R297) -/
  | turnNop (f c : Nat)
  /-- END. END waits for the context's bursts and then ends the task. (R309) -/
  | turnEnd (f c : Nat)
  /-- END_RECORD. Once every burst has ended, the TURNOUT task's record is written. (R309) -/
  | endRecord (f c : Nat)
  /-- TURN_B. The conditional branch of a turnout program. (R298) -/
  | turnB (f c : Nat)
  /-- DJNZ. DJNZ decrements a register and branches if it is not zero. (R298) -/
  | djnz (f c : Nat)
  /-- TURN_ALU. The turnout ALU or CMP operation selected by fn. (R298) -/
  | turnAlu (f c : Nat)
  /-- TURN_ADDI. ADDI adds a signed immediate. (R297) -/
  | turnAddi (f c : Nat)
  /-- MOVI. MOVI loads a zero-extended immediate. (R297) -/
  | movi (f c : Nat)
  /-- MOVHI. MOVHI loads the high half of a register. (R297) -/
  | movhi (f c : Nat)
  /-- BSET. BSET sets a base register from two registers. (R297) -/
  | bset (f c : Nat)
  /-- BADD. BADD adds a shifted register to a base register. (R297) -/
  | badd (f c : Nat)
  /-- LDW. LDW loads a word from Headgate data SRAM. (R307) -/
  | ldw (f c : Nat)
  /-- LDOBJ. LDOBJ loads a word of an Allotment entry. (R306) -/
  | ldobj (f c : Nat)
  /-- LDLEAD. LDLEAD loads an object's applied prefetch lead. (R304) -/
  | ldlead (f c : Nat)
  /-- TURN_TNOW. TNOW loads the µs since the task's issue. (R306) -/
  | turnTnow (f c : Nat)
  /-- WAITT. WAITT waits until TNOW reaches a value. (R306) -/
  | waitt (f c : Nat)
  /-- WAITT_END. The time of a WAITT is reached and the program continues. (R306) -/
  | waittEnd (f c : Nat)
  /-- WAITO. WAITO waits for an object state, with a timeout. (R305) -/
  | waito (f c : Nat)
  /-- WAITO_END. The awaited object enters its state, or the handle is stale, and the WAITO ends. (R305) -/
  | waitoEnd (f c : Nat)
  /-- WAITO_TIMEOUT. The timeout of a WAITO passes and sets T. (R305) -/
  | waitoTimeout (f c : Nat)
  /-- BURST. BURST starts a stream in a burst slot with the program's settings. (R300) -/
  | burst (f c : Nat)
  /-- BURST_SLOT_FREE. A BURST stalled on a busy slot proceeds once that slot's burst ends. (R302) -/
  | burstSlotFree (f c : Nat)
  /-- WAITB. WAITB waits until the masked burst slots are idle. (R303) -/
  | waitb (f c : Nat)
  /-- WAITB_END. The masked slots become idle, and WAITB writes the status. (R303) -/
  | waitbEnd (f c : Nat)
  /-- LANES. LANES sets the lane mask for later bursts. (R297) -/
  | lanes (f c : Nat)
  /-- OBSID. OBSID sets the tensor ID for later bursts. (R297) -/
  | obsid (f c : Nat)
  /-- DLINE. DLINE sets the deadline for later bursts. (R301) -/
  | dline (f c : Nat)
  /-- TURN_SIG. SIG signals a value to the Headgate and the driver. (R308) -/
  | turnSig (f c : Nat)
  /-- BLOCK_COMPRESS. A lane finishes compressing or encrypting one block into its slot, and its queue makes room. (R315) -/
  | blockCompress (n : Nat)
  /-- ESCAPE_DECISION. A block needing an escape is decided once all lower blocks are decided, taking an index or OVER. (R319) -/
  | escapeDecision (n : Nat)
  /-- BLOCK_EXPAND. A lane checks a slot header, then decrypts and expands the block. (R322) -/
  | blockExpand (n : Nat)
  /-- KEY_DATA_WRITE. A write to KEY_DATA stages one key word. (R326) -/
  | keyDataWrite (p : Path) (v : Word)
  /-- KEY_SEL_WRITE. A write to KEY_SEL selects a slot and discards the staging. (R326) -/
  | keySelWrite (p : Path) (v : Word)
  /-- KEY_LOAD. KEY_CMD LOAD loads the staged key into an empty slot, or is refused. (R327) -/
  | keyLoad (p : Path)
  /-- KEY_CLEAR. KEY_CMD CLEAR empties a key slot at once. (R328) -/
  | keyClear (p : Path)
  /-- KEY_RETAIN_WRITE. A write to KEY_RETAIN sets each slot's retention, or is refused under X5. (R329) -/
  | keyRetainWrite (p : Path) (v : Word)
  /-- RUN_CHAIN. Siphon control accepts a RUN_CHAIN for a RECOMPUTE_PENDING output. (R375) -/
  | runChain (tag : Nat)
  /-- CHAIN_START. A chain starts when its tiles are free, after its CRC and scratch checks. (R377) -/
  | chainStart
  /-- BINDING_READY. A chain waiting on a LIFTING or RECOMPUTING binding starts reading it. (R378) -/
  | bindingReady (h : Nat)
  /-- DESCRIPTOR_EXECUTE. A tile finishes one operation descriptor of the chain. (R381) -/
  | descriptorExecute (n : Nat)
  /-- OBSERVE_BLOCK. Freeboard takes one observed block into the open step's amax, sum of squares, histogram and vote bit. (R390) -/
  | observeBlock
  /-- PUBLISH. The PUBLISH task closes a range of tensors for the step. (R393) -/
  | publish (tag : Nat)
  /-- VOTE. The VOTE task computes norms and clip factors and then enters the fleet vote. (R395) -/
  | vote (tag : Nat)
  /-- VOTE_MSG. A VOTE message is received from a child set or the device's own vote is counted, and the aggregate goes up the tree. (R397) -/
  | voteMsg (l : Nat)
  /-- VOTE_RESULT. A VOTE_RESULT is received, forwarded down the tree and published locally. (R399) -/
  | voteResult (l : Nat)
  /-- VOTE_WINDOW_CLOSE. The root's window closes and the verdict is published. (R398) -/
  | voteWindowClose
  /-- RESULT_TIMEOUT. No result has arrived within RESULT_TIMEOUT_US, so INCOMPLETE is published locally. (R401) -/
  | resultTimeout
  /-- SCALE_COMMIT. One pending tensor's per-tensor scale commit completes after PROCEED. (R405) -/
  | scaleCommit
  /-- COMMIT. The Cistern COMMIT task waits for the named regions to commit the step. (R426) -/
  | commit (tag : Nat)
  /-- TRICKLE. The TRICKLE task starts or stops trickle sending for regions. (R428) -/
  | trickle (tag : Nat)
  /-- RESTORE. The RESTORE task queries, checks and restores a region image from a neighbour. (R435) -/
  | restore (tag : Nat)
  /-- LEASE_SEND_TIMER. Every LEASE_MS / 4, the writer sends LEASE to each neighbour. (R429) -/
  | leaseSendTimer (node : Nat)
  /-- LEASE_LOST. A neighbour silent for LEASE_MS is declared LOST. (R429) -/
  | leaseLost (node : Nat)
  /-- HOST_LEASE_EXPIRY. A host slot's lease expires, and its buffers become STALE or EMPTY. (R430) -/
  | hostLeaseExpiry (n : Nat)
  /-- REOFFER_TIMER. Every LEASE_MS, the writer re-offers to a LOST neighbour. (R431) -/
  | reofferTimer (node : Nat)
  /-- HOST_SLOT_CTRL_WRITE. A host slot write empties both buffers, or is refused while its lease is live. (R434) -/
  | hostSlotCtrlWrite (p : Path) (n : Nat) (v : Word)
  /-- CK_REGION_RESUME. CK_REGION_CMD RESUME restarts a HALTED region's stream. (R284) -/
  | ckRegionResume (p : Path) (v : Word)
  /-- PARTNER_LINK_DOWN. A partner link leaves L0, the port enters HOLDING, and the hold timer starts. (R461) -/
  | partnerLinkDown (p : Nat)
  /-- PARTNER_LINK_UP. A partner port trains in CXL or aperture mode. (R444) -/
  | partnerLinkUp (p width rate : Nat) (cxl : Bool)
  /-- PARTNER_HOLD_EXPIRY. PARTNER_HOLD_MS runs out, the port becomes LOST, and its activation objects are retired. (R463) -/
  | partnerHoldExpiry (p : Nat)
  /-- PP_PERST_N_FALL. PP_PERST_N_p low resets the partner function and is a link-down. (R634) -/
  | ppPerstNFall (p : Nat)
  /-- HDM_DECODER_COMMIT. A partner commits an HDM decoder, which fails if it breaks the placement rules. (R446) -/
  | hdmDecoderCommit (p k base size ways skip : Nat)
  /-- MARK_DOORBELL. A partner's mark is written, ordered and delivered to its mark FIFO, or discarded. (R454) -/
  | markDoorbell (p off size : Nat) (v : Word)
  /-- HINT_WRITE. A partner hint write is stored and copied host-side, and HINT is raised. (R459) -/
  | hintWrite (p h : Nat) (v : Word)
  /-- GATE_MIRROR_READ. An 8-byte gate mirror read returns the partner's gate word, or zero as a violation. (R457) -/
  | gateMirrorRead (p off size tid : Nat)
  /-- MEMSPECRD. A CXL MemSpecRd is accepted and dropped. (R445) -/
  | memspecrd (p addr : Nat)
  /-- MEM_UNSUPPORTED. An unsupported M2S opcode or aperture request is answered as Table 20-4 gives. (R466) -/
  | memUnsupported (p addr tid : Nat) (rd : Bool)
  /-- GET_EVENT_RECORDS. The mailbox returns event log records. (R445) -/
  | getEventRecords (p log : Nat)
  /-- CLEAR_EVENT_RECORDS. The mailbox clears event records. (R445) -/
  | clearEventRecords (p log n : Nat)
  /-- GET_SUPPORTED_LOGS. The mailbox lists the Command Effects Log. (R445) -/
  | getSupportedLogs (p : Nat)
  /-- GET_LOG. The mailbox returns the Command Effects Log. (R445) -/
  | getLog (p : Nat)
  /-- IDENTIFY_MEMORY_DEVICE. The mailbox reports 2 TiB of volatile capacity. (R445) -/
  | identifyMemoryDevice (p : Nat)
  /-- GET_HEALTH_INFO. The mailbox reports the device temperature. (R445) -/
  | getHealthInfo (p : Nat)
  /-- MAILBOX_UNSUPPORTED. Any other mailbox opcode completes with Unsupported. (R445) -/
  | mailboxUnsupported (p op : Nat)
  /-- HOST_RESET. A Conventional Reset, link-down or FLR of the host function resets only the host side. (R470) -/
  | hostReset (k : HostRst)
  /-- HOST_PERST_RELEASE. HOST_PERST_N rising lets the host link train. (R633) -/
  | hostPerstRelease
  /-- BAR4_ALIAS_WRITE. A BAR-4 alias write acts as the same write to its BAR-0 register. (R472) -/
  | bar4AliasWrite (off : Nat) (v : Word)
  /-- APERTURE_READ. A BAR-2 read through a sub-window is served from its bound object, or answered as a fault. (R481) -/
  | apertureRead (addr len tid : Nat)
  /-- APERTURE_WRITE. A BAR-2 write through a sub-window writes its bound object, or is discarded. (R480) -/
  | apertureWrite (addr : Nat) (data : List (Option Byte))
  /-- ATS_INVALIDATION. An ATS invalidation request arrives and waits for the transfers under its translations. (R476) -/
  | atsInvalidation (itag addr len : Nat)
  /-- ATS_INVALIDATION_COMPLETE. The invalidation completes once its transfers have completed or STALL_LIMIT.ENGINE has passed. (R476) -/
  | atsInvalidationComplete (itag : Nat)
  /-- TIER_COMPLETION_ERROR. A poisoned or erroneous T3 or T2 completion fails its transfer at once. (R477) -/
  | tierCompletionError (f c slot : Nat) (e : CplErr)
  /-- EXPANDER_LINK_DOWN. An expander link leaves L0, its path fails, and it retrains. (R487) -/
  | expanderLinkDown (e : Nat)
  /-- EXPANDER_LINK_UP. An expander link returns to L0, or a late expander appears. (R485) -/
  | expanderLinkUp (e width rate : Nat) (flit256 : Bool)
  /-- EXPANDER_DOWN_LIMIT. EXP_DOWN_LIMIT expires, and the port becomes PRESENT_DISABLED with its objects DAMAGED. (R487) -/
  | expanderDownLimit (e : Nat)
  /-- EXPANDER_EVENT_POLL. Every 100 ms, the expander event logs are polled and cleared. (R490) -/
  | expanderEventPoll (e warn fail : Nat)
  /-- FEC_GROUP_RECEIVE. A lateral FEC group is decoded, and its flits are checked for HCRC and SEQ and delivered. (R495) -/
  | fecGroupReceive (l : Nat) (lanes : List (List Nat))
  /-- NAK. A received NAK makes the sender replay from EXPECT. (R499) -/
  | nak (l : Nat)
  /-- CREDIT. A received CREDIT flit updates the cumulative freed counts per VC. (R502) -/
  | credit (l : Nat)
  /-- PARAM. A received PARAM is checked, LL_PEER is recorded, and PARAM_ACK is sent. (R505) -/
  | param (l : Nat)
  /-- PARAM_ACK. A received PARAM_ACK completes the exchange, and the link enters ACTIVE. (R505) -/
  | paramAck (l : Nat)
  /-- LANE_DROP. A received LANE_DROP makes the link keep the named lane. (R509) -/
  | laneDrop (l : Nat)
  /-- LANE_DROP_ACK. A received LANE_DROP_ACK completes a lane drop. (R509) -/
  | laneDropAck (l : Nat)
  /-- LP_REQ. A received LP_REQ is answered LP_ACK once the replay buffer is empty. (R507) -/
  | lpReq (l : Nat)
  /-- LP_ACK. A received LP_ACK puts both ends into LOW_POWER. (R507) -/
  | lpAck (l : Nat)
  /-- LINK_RESUME. A received RESUME after a retrain makes the sender replay from the peer's EXPECT. (R501) -/
  | linkResume (l : Nat)
  /-- NAK_REPEAT_TIMER. Every 1 µs, a NAK is repeated while the expected flit is still missing. (R498) -/
  | nakRepeatTimer (l : Nat)
  /-- ACK_TIMEOUT. ACK has not advanced for LL_ACK_TIMEOUT, so the sender replays. (R499) -/
  | ackTimeout (l : Nat)
  /-- CREDIT_SEND. A CREDIT flit is sent on an advance or its timers. (R503) -/
  | creditSend (l : Nat)
  /-- ENERGY_DETECT. Energy on a lane in DETECT moves the link to CDR. (R504) -/
  | energyDetect (l : Nat)
  /-- TS_FRAME. A received TS frame advances training through lock, equalisation and alignment. (R504) -/
  | tsFrame (l bits peer : Nat) (eq : Bool)
  /-- TRAIN_TIMEOUT. A training state times out, falling back a lane or a rate, or entering FAILED. (R504) -/
  | trainTimeout (l : Nat)
  /-- LINK_RETRY_TIMER. A FAILED link retries from DETECT every LL_RETRY_MS. (R506) -/
  | linkRetryTimer (l : Nat)
  /-- FEC_WINDOW. At each FEC window end, the counts are compared with the thresholds, giving a degrade trigger. (R508) -/
  | fecWindow (l : Nat)
  /-- PROMOTE_PERIOD. A clean PERIOD_S doubles the shadow rate and retrains. (R511) -/
  | promotePeriod (l : Nat)
  /-- RETRAIN. LL_CTRL.RETRAIN retrains the link at the applied rate. (R512) -/
  | retrain (p : Path) (l : Nat) (v : Word)
  /-- LINK_WAKE_SIGNAL. A TS burst on a LOW_POWER link brings both ends out, and it is wake source 0x04. (R507) -/
  | linkWakeSignal (l : Nat)
  /-- WRITE. A received WRITE lands in the source's hosting window, or is forwarded. (R516) -/
  | write (l : Nat)
  /-- READ_REQ. A received READ_REQ is answered from the hosting window or checkpoint space. (R516) -/
  | readReq (l : Nat)
  /-- FLUSH_ANSWER. A flush is answered FLUSH once earlier flits on its link are consumed. (R519) -/
  | flushAnswer (l : Nat)
  /-- READ_RSP. A received READ_RSP piece completes a read, or is discarded as late or a duplicate. (R523) -/
  | readRsp (l : Nat)
  /-- BARRIER. The BARRIER task arrives for a group and step and sends ARRIVE up once the children have arrived. (R536) -/
  | barrier (tag : Nat)
  /-- BARRIER_ARRIVE. A received ARRIVE adds a child's count, and the root releases at FLEET_SIZE. (R536) -/
  | barrierArrive (l : Nat)
  /-- BARRIER_RELEASE. A received RELEASE is forwarded and completes the BARRIER task. (R536) -/
  | barrierRelease (l : Nat)
  /-- BARRIER_ROOT_TIMEOUT. At TIMEOUT_US after the first arrival, the root sends RELEASE INCOMPLETE. (R536) -/
  | barrierRootTimeout (g step : Nat)
  /-- BARRIER_TIMEOUT. No RELEASE within 2·TIMEOUT_US, so the task ends BARRIER_TIMEOUT. (R536) -/
  | barrierTimeout (g step : Nat)
  /-- CKPT_OFFER_FIRST. A host receives a first offer for a slot and accepts or refuses it. (R432) -/
  | ckptOfferFirst (l : Nat)
  /-- CKPT_OFFER_EPOCH. A host receives an epoch offer. (R432) -/
  | ckptOfferEpoch (l : Nat)
  /-- CKPT_OFFER_REJOIN. A host receives a rejoin offer. (R431) -/
  | ckptOfferRejoin (l : Nat)
  /-- CKPT_OFFER_QUERY. A host answers a restore query with RECORD or NO_RECORD. (R436) -/
  | ckptOfferQuery (l : Nat)
  /-- CKPT_OFFER_ACCEPT. A writer receives acceptance and opens the epoch or rejoin on that neighbour. (R431) -/
  | ckptOfferAccept (l : Nat)
  /-- CKPT_OFFER_REFUSE. A writer receives a refusal and treats it as loss of that neighbour. (R432) -/
  | ckptOfferRefuse (l : Nat)
  /-- CKPT_DATA. A host writes a received checkpoint data flit into the FILLING buffer, or discards it. (R521) -/
  | ckptData (l : Nat)
  /-- CKPT_COMMIT_COMMIT. A host writes a commit record, marks the buffer COMMITTED and acknowledges. (R423) -/
  | ckptCommitCommit (l : Nat)
  /-- CKPT_COMMIT_ACK. A writer receives the acknowledgement, and the epoch commits once every live neighbour has acknowledged. (R423) -/
  | ckptCommitAck (l : Nat)
  /-- CKPT_COMMIT_RECORD. A restorer receives an image record and runs the restore checks. (R436) -/
  | ckptCommitRecord (l : Nat)
  /-- CKPT_COMMIT_NO_RECORD. A restorer receives NO_RECORD and the restore is refused. (R436) -/
  | ckptCommitNoRecord (l : Nat)
  /-- LEASE_RENEW. A host receives a lease renewal and answers it. (R429) -/
  | leaseRenew (l : Nat)
  /-- LEASE_ANSWER. A writer receives a lease answer. (R429) -/
  | leaseAnswer (l : Nat)
  /-- FENCE_FENCE. A host receives a FENCE, raises GEN and supersedes older buffers. (R433) -/
  | fenceFence (l : Nat)
  /-- FENCE_ACK. A restorer receives fence acknowledgements, and the restore completes SERVED. (R438) -/
  | fenceAck (l : Nat)
  /-- LR_APPLY. APPLY checks the topology and rebuilds the route table, or refuses it with TOPO_INVALID. (R525) -/
  | lrApply (p : Path)
  /-- LR_QUARANTINE. QUARANTINE disables a link until the next boot and marks it PRESENT_DISABLED. (R535) -/
  | lrQuarantine (l : Nat)
  /-- LR_ROUTE_DATA_WRITE. A write overwrites a single route table entry. (R526) -/
  | lrRouteDataWrite (p : Path) (v : Word)
  /-- LR_HOST_CTRL_WRITE. Enabling a hosting window allocates it, and clearing frees it. (R517) -/
  | lrHostCtrlWrite (p : Path) (n : Nat) (v : Word)
  /-- REFRESH_DUE. A refresh reaching its postponement limit is issued ahead of waiting requests. (R546) -/
  | refreshDue (n pc : Nat) (waits : Bool)
  /-- HBM_TEMP_READ. Every 1 ms, the stack temperature is read and the refresh rate is set. (R547) -/
  | hbmTempRead (n : Nat) (t : Int)
  /-- HBM_CALIBRATION. A periodic channel calibration runs, and a failure loses the stack. (R548) -/
  | hbmCalibration (n c : Nat) (ok : Bool)
  /-- CA_PARITY_ERROR. A command parity error is retried, and on the fourth failure the stack is lost. (R548) -/
  | caParityError (n k : Nat)
  /-- HBM_ILV_WRITE. A write to HBM_ILV sets the granule for every stack, or is refused while a plan is admitted. (R541) -/
  | hbmIlvWrite (p : Path) (n : Nat) (v : Word)
  /-- TRACE_IDLE_FLUSH. The open line is written after TRC_FLUSH_IDLE cycles without a packet. (R566) -/
  | traceIdleFlush
  /-- TRC_FLUSH. TRC_CTRL.FLUSH writes the open line now. (R556) -/
  | trcFlush (p : Path)
  /-- SYNC_PERIODIC. A SYNC packet is written every SYNC_PERIOD cycles. (R558) -/
  | syncPeriodic
  /-- STOP_AFTER_DONE. After TRIG_POST_LINES lines, recording stops and STOPPED is raised. (R564) -/
  | stopAfterDone
  /-- TRC_RECORD_WRITE. A write to TRC_CTRL.RECORD starts or stops recording. (R563) -/
  | trcRecordWrite (p : Path) (v : Word) (hits : Nat)
  /-- TRC_RD_WRITE. A write to TRC_RD advances the STREAM consumer, or is refused if out of range. (R568) -/
  | trcRdWrite (p : Path) (v : Word)
  /-- TRC_SW_HI_WRITE. A write to TRC_SW_HI records an SW packet. (R571) -/
  | trcSwHiWrite (p : Path) (v : Word)
  /-- UE_FIRST_CLEAR. Clearing UE_FIRST_ADDR.VALID releases the capture of the first uncorrectable error. (R580) -/
  | ueFirstClear (p : Path)
  /-- MGMT_CTRL_WRITE. A host-path write to MGMT_CTRL sets the management permissions; a management-path write is denied. (R603) -/
  | mgmtCtrlWrite (p : Path) (v : Word)
  /-- REG_READ. The SMBus or MCTP REG_READ command reads a register on the management path. (R599) -/
  | regRead (src : MSrc) (pec : Pec) (off : Nat)
  /-- REG_WRITE. The REG_WRITE command writes a register if REG_WR_EN allows. (R603) -/
  | regWrite (src : MSrc) (pec : Pec) (off : Nat) (v : Word)
  /-- REG_READ64. The REG_READ64 command reads both words of a 64-bit register as one unit. (R599) -/
  | regRead64 (src : MSrc) (pec : Pec) (off : Nat)
  /-- REG_WRITE64. The REG_WRITE64 command writes both words of a 64-bit register as one unit. (R599) -/
  | regWrite64 (src : MSrc) (pec : Pec) (off : Nat) (lo hi : Word)
  /-- STATUS. The STATUS command returns the power, boot and fatal state and the temperature, with no wake. (R605) -/
  | status (src : MSrc) (pec : Pec)
  /-- TEMP. The TEMP command returns TJ_NOW, with no wake. (R605) -/
  | temp (src : MSrc) (pec : Pec)
  /-- LEDGER_READ. The LEDGER_READ command returns ledger slot bytes. (R605) -/
  | ledgerRead (src : MSrc) (pec : Pec) (slot off count : Nat)
  /-- VERDICT_READ. The VERDICT_READ command returns a verdict word. (R605) -/
  | verdictRead (src : MSrc) (pec : Pec) (ix : Nat)
  /-- MGMT_VERDICT_CLEAR. The management VERDICT_CLEAR command clears a verdict. (R131) -/
  | mgmtVerdictClear (src : MSrc) (pec : Pec) (ix : Nat)
  /-- IMAGE_PREF_WRITE. The IMAGE_PREF_WRITE command sets IMAGE_PREF if FLASH_WR_EN allows. (R138) -/
  | imagePrefWrite (src : MSrc) (pec : Pec) (v : Nat)
  /-- REBOOT. The management REBOOT command reboots with MGMT_REBOOT. (R139) -/
  | reboot (src : MSrc) (pec : Pec) (key : Nat)
  /-- FLASH_READ. The SMBus FLASH_READ command reads flash bytes. (R611) -/
  | flashRead (src : MSrc) (pec : Pec) (addr len : Nat)
  /-- FLASH_PROGRAM. The SMBus FLASH_PROGRAM command programs flash. (R612) -/
  | flashProgram (src : MSrc) (pec : Pec) (addr : Nat) (data : List Byte)
  /-- FLASH_ERASE. The SMBus FLASH_ERASE command erases a flash sector. (R612) -/
  | flashErase (src : MSrc) (pec : Pec) (addr size : Nat)
  /-- FLASH_STATUS. The FLASH_STATUS command returns the management path's flash status. (R605) -/
  | flashStatus (src : MSrc) (pec : Pec)
  /-- FLASH_CMD_READ. FLASH_CMD READ starts a flash read on the writing path. (R611) -/
  | flashCmdRead (p : Path)
  /-- FLASH_CMD_PROGRAM. FLASH_CMD PROGRAM starts a verified flash program. (R613) -/
  | flashCmdProgram (p : Path)
  /-- FLASH_CMD_ERASE_4K. FLASH_CMD ERASE_4K starts a 4 KiB erase. (R612) -/
  | flashCmdErase4k (p : Path)
  /-- FLASH_CMD_ERASE_64K. FLASH_CMD ERASE_64K starts a 64 KiB erase. (R612) -/
  | flashCmdErase64k (p : Path)
  /-- FLASH_COMMAND_DONE. A flash command completes, sets RESULT and raises FLASH_DONE. (R611) -/
  | flashCommandDone (bad : Bool)
  /-- SMB_STRETCH_TIMEOUT. An access not done after 20 ms of clock stretching is answered BUSY. (R602) -/
  | smbStretchTimeout
  /-- SMB_CLOCK_LOW_TIMEOUT. A 35 ms clock-low timeout resets the SMBus interface. (R602) -/
  | smbClockLowTimeout
  /-- SET_ENDPOINT_ID. The MCTP Set Endpoint ID command. (R607) -/
  | setEndpointId (src : MSrc) (eid : Nat)
  /-- GET_ENDPOINT_ID. The MCTP Get Endpoint ID command. (R607) -/
  | getEndpointId (src : MSrc)
  /-- GET_ENDPOINT_UUID. The MCTP Get Endpoint UUID command. (R607) -/
  | getEndpointUuid (src : MSrc)
  /-- GET_MCTP_VERSION_SUPPORT. The MCTP Get MCTP Version Support command. (R605) -/
  | getMctpVersionSupport (src : MSrc) (type : Nat)
  /-- GET_MESSAGE_TYPE_SUPPORT. The MCTP Get Message Type Support command. (R605) -/
  | getMessageTypeSupport (src : MSrc)
  /-- GET_VENDOR_DEFINED_MESSAGE_SUPPORT. The MCTP Get Vendor Defined Message Support command. (R605) -/
  | getVendorDefinedMessageSupport (src : MSrc)
  /-- GETTID. The PLDM GetTID command. (R605) -/
  | gettid (src : MSrc)
  /-- SETTID. The PLDM SetTID command. (R605) -/
  | settid (src : MSrc) (tid : Nat)
  /-- GETPLDMVERSION. The PLDM GetPLDMVersion command. (R605) -/
  | getpldmversion (src : MSrc) (type : Nat)
  /-- GETPLDMTYPES. The PLDM GetPLDMTypes command. (R605) -/
  | getpldmtypes (src : MSrc)
  /-- GETPLDMCOMMANDS. The PLDM GetPLDMCommands command. (R605) -/
  | getpldmcommands (src : MSrc) (type : Nat)
  /-- GETSENSORREADING. The PLDM GetSensorReading command returns a numeric sensor. (R608) -/
  | getsensorreading (src : MSrc) (id : Nat)
  /-- GETSTATESENSORREADINGS. The PLDM GetStateSensorReadings command returns a state sensor. (R608) -/
  | getstatesensorreadings (src : MSrc) (id : Nat)
  /-- GETPDRREPOSITORYINFO. The PLDM GetPDRRepositoryInfo command. (R605) -/
  | getpdrrepositoryinfo (src : MSrc)
  /-- GETPDR. The PLDM GetPDR command. (R605) -/
  | getpdr (src : MSrc) (handle : Nat)
  /-- SETEVENTRECEIVER. The PLDM SetEventReceiver command sets the event receiver. (R609) -/
  | seteventreceiver (src : MSrc) (eid : Nat)
  /-- EXTEST. The JTAG EXTEST instruction, taken only in reset or halt. (R615) -/
  | extest
  /-- IDCODE. The JTAG IDCODE instruction. (R615) -/
  | idcode
  /-- SAMPLE_PRELOAD. The JTAG SAMPLE/PRELOAD instruction. (R615) -/
  | samplePreload
  /-- HIGHZ. The JTAG HIGHZ instruction, taken only in reset or halt. (R615) -/
  | highz
  /-- CLAMP. The JTAG CLAMP instruction, taken only in reset or halt. (R615) -/
  | clamp
  /-- EXTEST_PULSE. The IEEE 1149.6 EXTEST_PULSE instruction. (R615) -/
  | extestPulse
  /-- EXTEST_TRAIN. The IEEE 1149.6 EXTEST_TRAIN instruction. (R615) -/
  | extestTrain
  /-- BYPASS. The JTAG BYPASS instruction, also taken by reserved codes. (R615) -/
  | bypass
  /-- MGMT_ACCESS. A MGMT_ACCESS Update-DR starts one register access on the management path. (R616) -/
  | mgmtAccess (wr : Bool) (off : Nat) (v : Word)
  /-- TRST_N_RESET. TRST_N held low resets the TAP to Test-Logic-Reset. (R656) -/
  | trstNReset
  /-- GPIO_INPUT_EDGE. A filtered GPIO input change sets its edge bit and can raise a wake or an EVP rule. (R618) -/
  | gpioInputEdge (n : Nat) (high : Bool)
  /-- FLEET_ALERT_WIRE. A filtered assertion of FLEET_ALERT_N raises FLEET_ALERT. (R620) -/
  | fleetAlertWire (low : Bool)
  /-- REGISTER_READ. A BAR-0 register read is served, wakes the device from DOZE or HOLD unless R79 exempts it, or returns all ones and records BAD_ACCESS_SIZE when misaligned. (R79) -/
  | registerRead (p : Path) (addr size : Nat)
  /-- HOST_CONFIG_REQUEST. A configuration request to the host function is answered with Request Retry Status during boot or served normally, changing Bus Master Enable or MSI-X enable. (R129) -/
  | hostConfigRequest (c : CfgReq) (tid : Nat)
  /-- MSI_X_TABLE_WRITE. A host write to the MSI-X table or its vector mask in BAR-4 unmasks a vector and sends any message whose pending bit is set. (R471) -/
  | msiXTableWrite (v w : Nat) (x : Word)
  /-- HOST_LINK_UP. The host link reaches L0 after training or retraining, raising LINK_UP and ending the failed T3 path condition. (R471) -/
  | hostLinkUp (width rate : Nat)
  /-- PORT_REGISTER_BLOCK_ACCESS. A partner access to its port register block other than the doorbell, hint or gate-mirror read is served, or is answered as a MIRROR_WRITE or PORT_ACCESS violation. (R453) -/
  | portRegisterBlockAccess (p off size : Nat) (v : Option Nat) (tid : Nat)
  /-- ILLEGAL_BUNDLE. A Headgate bundle whose encoding is undefined or breaks the decode checks faults at decode with ILLEGAL_BUNDLE. (R173) -/
  | illegalBundle (ue : Nat)
  /-- TURN_ILLEGAL. A turnout word with an undefined opcode faults the program with TURN_ILLEGAL when executed. (R298) -/
  | turnIllegal (f c : Nat) (ue : Bool)
  /-- UNLISTED_SMBUS_COMMAND. An SMBus command byte not listed in Table 27-1, or 0x0F outside an MCTP packet, is NACKed. (R600) -/
  | unlistedSmbusCommand (code : Nat)
  /-- REFERENCE_CLOCK_LOSS. REFCLK_SYS or the lateral SerDes reference stops or leaves its limits while DEV_RESET_N is high, leaving the device undefined until the next device reset. (R650) -/
  | referenceClockLoss
  /-- MAIN_RAIL_EXCURSION. A main rail leaves its range or is removed, leaving the device undefined and, for VDD_CORE below 0.30 V, setting the presence flag that selects RAILS_ON. (R649) -/
  | mainRailExcursion (core : Bool)
  /-- PARTNER_CONFIG_REQUEST. A configuration request from a partner, including a Function Level Reset of the partner function, is served, and a reset clears the decoders and event logs. (R462) -/
  | partnerConfigRequest (p : Nat) (flr : Bool)
deriving DecidableEq, Repr

end Sys2Proof
end

