-- ==== Sys2Proof/WellFormed.lean ====
section
/-! DEFINITION. Well-formed commands: every operand in the range its field or its sender can hold (Table 3-1 and the chapter of each unit). -/
namespace Sys2Proof

/-- `n` fits in a field of `w` bits. -/
def fitsIn (w n : Nat) : Bool := decide (n < 2 ^ w)
/-- A byte address of BAR-0, 64 MiB (R46). -/
def inBar0 (addr : Nat) : Bool := fitsIn 26 addr
/-- The size of one access in bytes: the ones that are not 4 or 8 are answered as errors (R48), so they are well formed. -/
def accessSize (size : Nat) : Bool := decide (1 ≤ size) && decide (size ≤ 64)
/-- A register: block index, page, aligned offset (R46). -/
def place (b page off : Nat) : Bool := decide (b < 111) && decide (page < 8) && decide (off < 4096) && off % 4 == 0
/-- A partner port. -/
def isPartner (p : Nat) : Bool := decide (p < 8)
/-- A context of a Flume (R273). -/
def isContext (f c : Nat) : Bool := decide (f < 32) && decide (c < 16)
/-- An object handle (R221): 32 bits, not zero. -/
def isHandle (h : Nat) : Bool := decide (1 ≤ h) && fitsIn 32 h
/-- A node number of the lateral network. -/
def isNode (n : Nat) : Bool := fitsIn 12 n
/-- A width of a PCIe link. -/
def isWidth (w : Nat) : Bool := [1, 2, 4, 8, 16].contains w

/-- A transfer's owner in range. -/
def Waiter.wf : Waiter → Bool
  | .stream f c slot => isContext f c && decide (slot < 4)
  | .chain h => isHandle h
  | .tag dst t => isNode dst && fitsIn 12 t
  | .drain h => isHandle h

/-- A command whose operands are in range. -/
def Instr.wf : Instr → Bool
  | .registerWrite _ addr size v => inBar0 addr && accessSize size && fitsIn (8 * size) v
  | .unmappedAccess _ addr _ => inBar0 addr
  | .latchReadLow _ b page off | .highWordWrite _ b page off _ => place b page off
  | .irqPendClear _ b page _ | .irqMaskWrite _ b page _ | .irqForce _ b page _ | .errCodeClear _ b page | .blockReset _ b page =>
    decide (b < 111) && decide (page < 8)
  | .resetComplete b => decide (b < 111)
  | .blkFreeze _ b page | .thaw _ b page => decide (b < 111) && decide (page < 8)
  | .frozenReached b => decide (b < 111)
  | .blkQuiesce _ b page => decide (b < 111) && decide (page < 8)
  | .quiescedReached b => decide (b < 111)
  | .blkEnable _ b page => decide (b < 111) && decide (page < 8)
  | .globalFreezeSet _ | .globalFreezeClear _ | .allFrozen => true
  | .stateDataRead _ b page => decide (b < 111) && decide (page < 8)
  | .loopBoundsWrite _ b page off _ _ | .loopPinWrite _ b page off _ _ => place b page off
  | .aoPowerUp straps | .aoDomainReset straps => fitsIn 3 straps
  | .devResetAssert | .vidStep | .bootStart _ | .stageAoStart => true
  | .stageFuses _ absent => absent.all (fun b => decide (b < 111))
  | .stageImageVerify _ | .stagePllLock _ => true
  | .stageHbmBringup trained pcs chs => fitsIn 4 trained && pcs.all (fun x => decide (x < 128)) && chs.all (fun x => decide (x < 64))
  | .stageSramInit _ flumes => fitsIn 32 flumes
  | .stageFwLoad _ | .stageHostLink _ => true
  | .stagePartnerPorts outs => decide (outs.length = 8)
  | .stageExpanderPorts outs mib => decide (outs.length = 4) && decide (mib.length = 4)
  | .stageLateralLinks => true
  | .stageSelftest tiles ls => fitsIn 16 tiles && fitsIn 8 ls
  | .stageMapPublish _ | .stageReady | .stageTimeout | .ledgerCopyDone _ | .verdictClear _ _ | .bootReboot _ _ | .imagePref _ _
  | .pwrReqDoze _ | .pwrReqHold _ | .pwrReqCancel _ | .pendingRequestEnter | .pendingRequestDemote | .pendingRequestDrop
  | .idleEntry | .tc0Fire | .dozeExitComplete => true
  | .governorUpdate p => fitsIn 32 p
  | .tjSample _ sensor => decide (sensor < 16)
  | .powerGate b => decide (b < 111)
  | .ghProgRunSet _ | .ghProgRunClear _ | .ghDoorbell _ _ => true
  | .ghTimerFire n => decide (1 ≤ n) && decide (n < 8)
  | .ghWaitMatch | .ghNop | .ghStop | .ghRet | .ghWake | .seqVret | .seqSre => true
  | .seqLinklp l1 => fitsIn 5 l1
  | .seqFastoff | .seqFaston | .seqVopr => true
  | .seqSrx bad => fitsIn 4 bad
  | .seqLinkup => true
  | .seqResume ue | .holdDrainDone ue => fitsIn 16 ue
  | .scrub ce ue => (ce ++ ue).all fun w => decide (w < 16384)
  | .scrubDone => true
  | .ghTemp | .gpin | .evt | .ghWait | .ghSig | .ldi | .ghAlu | .ghAddi | .ghCmpi | .ghB | .ghCall | .ldc | .tcset | .tcclr | .tcrd
  | .ghTnow | .tnowh | .ghLd | .ghSt | .btst | .ghBudgetExceeded | .issue _ | .issueStallRelease => true
  | .taskDispatch tag _ => fitsIn 16 tag
  | .ringConsWrite _ n _ | .ringConfigWrite _ n _ _ => decide (n < 8)
  | .imemWindowWrite _ off _ => fitsIn 20 off && off % 4 == 0
  | .hgStart _ | .hgHaltReq _ | .hgStep _ _ | .hgDoorbell _ _ => true
  | .taskAbort _ tag => fitsIn 16 tag
  | .taskAbortAll _ => true
  | .hgTimerFire n => decide (n < 4)
  | .hgWaitEnd | .hgNop _ | .hgAlu _ | .hgAlui _ | .ext _ | .dep _ | .cnt _ | .cmp _ | .cmpi _ | .plog _ | .sel _ | .mfp _ | .mtp _
  | .mpeek _ | .mpop _ | .mfev _ | .mfh _ | .hqry _ | .aot _ | .br _ | .bl _ | .bx _ | .hgWait _ | .evclr _ | .tmrSet _ | .tmrClr _
  | .signal _ | .halt _ | .sleep _ | .sleepAnswer | .habort _ | .hclr _ | .ld _ | .st _ | .ldv _ | .ldvResponse | .stv _ | .movw _
  | .movp _ | .fence _ | .fenceDone => true
  | .admitPlan img _ => (img.getD []).length < 2 ^ 32
  | .unload => true
  | .seal tag | .openGate tag | .drop tag | .rearm tag => fitsIn 16 tag
  | .rearmApply h => isHandle h
  | .partnerWindowWrite p addr _ _ => isPartner p && fitsIn 64 addr
  | .partnerWindowRead p addr len _ _ => isPartner p && fitsIn 64 addr && decide (1 ≤ len)
  | .heldReadRelease p _ | .readExpired p _ => isPartner p
  | .deferredEvictionStart h | .retiredRelease h => isHandle h
  | .evict tag | .reserve tag => fitsIn 16 tag
  | .allocationGrant => true
  | .arbitrationGrant pt dir => decide (pt < 14) && decide (dir < 2)
  | .ageLoopUpdate => true
  | .engineStallExpiry w => w.wf
  | .park tag | .lift tag | .compress tag | .observe tag | .turnout tag => fitsIn 16 tag
  | .liftStart f c => isContext f c
  | .transferComplete f c slot _ _ => isContext f c && decide (slot < 4)
  | .priResponse f g pasid _ => decide (f < 32) && decide (g < 512) && fitsIn 20 pasid
  | .streamHaltComplete f c slot | .streamAbortComplete f c slot => isContext f c && decide (slot < 4)
  | .flmCtxResume _ f c tag | .flmCtxAbort _ f c tag | .flmCtxHalt _ f c tag => isContext f c && fitsIn 16 tag
  | .turnoutProgramWrite _ f ix _ => decide (f < 32) && decide (ix < 512)
  | .turnNop f c | .turnEnd f c | .endRecord f c | .turnB f c | .djnz f c | .turnAlu f c | .turnAddi f c | .movi f c | .movhi f c
  | .bset f c | .badd f c | .ldw f c | .ldobj f c | .ldlead f c | .turnTnow f c | .waitt f c | .waittEnd f c | .waito f c | .waitoEnd f c
  | .waitoTimeout f c | .burst f c | .burstSlotFree f c | .waitb f c | .waitbEnd f c | .lanes f c | .obsid f c | .dline f c | .turnSig f c =>
    isContext f c
  | .blockCompress n | .escapeDecision n | .blockExpand n => decide (n < 8)
  | .keyDataWrite _ _ | .keySelWrite _ _ | .keyLoad _ | .keyClear _ | .keyRetainWrite _ _ => true
  | .runChain tag => fitsIn 16 tag
  | .chainStart => true
  | .bindingReady h => isHandle h
  | .descriptorExecute n => decide (n < 16)
  | .observeBlock => true
  | .publish tag | .vote tag => fitsIn 16 tag
  | .voteMsg l | .voteResult l => decide (l < 24)
  | .voteWindowClose | .resultTimeout | .scaleCommit => true
  | .commit tag | .trickle tag | .restore tag => fitsIn 16 tag
  | .leaseSendTimer node | .leaseLost node => isNode node
  | .hostLeaseExpiry n => decide (n < 8)
  | .reofferTimer node => isNode node
  | .hostSlotCtrlWrite _ n _ => decide (n < 8)
  | .ckRegionResume _ _ => true
  | .partnerLinkDown p => isPartner p
  | .partnerLinkUp p width rate _ => isPartner p && isWidth width && decide (1 ≤ rate) && decide (rate < 7)
  | .partnerHoldExpiry p | .ppPerstNFall p => isPartner p
  | .hdmDecoderCommit p _ base size _ skip => isPartner p && fitsIn 64 base && fitsIn 64 size && fitsIn 64 skip
  | .markDoorbell p off _ _ => isPartner p && fitsIn 24 off
  | .hintWrite p h _ => isPartner p && decide (h < 4)
  | .gateMirrorRead p off _ _ => isPartner p && fitsIn 23 off
  | .memspecrd p addr | .memUnsupported p addr _ _ => isPartner p && fitsIn 64 addr
  | .getEventRecords p log | .clearEventRecords p log _ => isPartner p && decide (log < 4)
  | .getSupportedLogs p | .getLog p | .identifyMemoryDevice p | .getHealthInfo p => isPartner p
  | .mailboxUnsupported p op => isPartner p && fitsIn 16 op
  | .hostReset _ | .hostPerstRelease => true
  | .bar4AliasWrite off _ => fitsIn 20 off
  | .apertureRead addr len _ => fitsIn 36 addr && decide (1 ≤ len)
  | .apertureWrite addr _ => fitsIn 36 addr
  | .atsInvalidation _ addr _ => fitsIn 64 addr
  | .atsInvalidationComplete _ => true
  | .tierCompletionError f c slot _ => isContext f c && decide (slot < 4)
  | .expanderLinkDown e => decide (e < 4)
  | .expanderLinkUp e width rate _ => decide (e < 4) && isWidth width && decide (1 ≤ rate) && decide (rate < 7)
  | .expanderDownLimit e | .expanderEventPoll e _ _ => decide (e < 4)
  | .fecGroupReceive l _ | .nak l | .credit l | .param l | .paramAck l | .laneDrop l | .laneDropAck l | .lpReq l | .lpAck l | .linkResume l
  | .nakRepeatTimer l | .ackTimeout l | .creditSend l | .energyDetect l => decide (l < 24)
  | .tsFrame l bits peer _ => decide (l < 24) && fitsIn 128 bits && decide (peer < 65536)
  | .trainTimeout l | .linkRetryTimer l | .fecWindow l | .promotePeriod l | .retrain _ l _ | .linkWakeSignal l | .write l | .readReq l
  | .flushAnswer l | .readRsp l => decide (l < 24)
  | .barrier tag => fitsIn 16 tag
  | .barrierArrive l | .barrierRelease l => decide (l < 24)
  | .barrierRootTimeout g _ | .barrierTimeout g _ => decide (g < 16)
  | .ckptOfferFirst l | .ckptOfferEpoch l | .ckptOfferRejoin l | .ckptOfferQuery l | .ckptOfferAccept l | .ckptOfferRefuse l | .ckptData l
  | .ckptCommitCommit l | .ckptCommitAck l | .ckptCommitRecord l | .ckptCommitNoRecord l | .leaseRenew l | .leaseAnswer l | .fenceFence l
  | .fenceAck l => decide (l < 24)
  | .lrApply _ => true
  | .lrQuarantine l => decide (l < 24)
  | .lrRouteDataWrite _ _ => true
  | .lrHostCtrlWrite _ n _ => decide (n < 8)
  | .refreshDue n pc _ => decide (n < 4) && decide (pc < 32)
  | .hbmTempRead n _ => decide (n < 4)
  | .hbmCalibration n c _ => decide (n < 4) && decide (c < 16)
  | .caParityError n k => decide (n < 4) && decide (k < 5)
  | .hbmIlvWrite _ n _ => decide (n < 4)
  | .traceIdleFlush | .trcFlush _ | .syncPeriodic | .stopAfterDone | .trcRecordWrite _ _ _ | .trcRdWrite _ _ | .trcSwHiWrite _ _
  | .ueFirstClear _ | .mgmtCtrlWrite _ _ => true
  | .regRead _ _ off | .regWrite _ _ off _ | .regRead64 _ _ off | .regWrite64 _ _ off _ _ => fitsIn 32 off
  | .status _ _ | .temp _ _ => true
  | .ledgerRead _ _ slot off count => fitsIn 8 slot && fitsIn 16 off && fitsIn 8 count
  | .verdictRead _ _ ix | .mgmtVerdictClear _ _ ix => fitsIn 8 ix
  | .imagePrefWrite _ _ v => fitsIn 8 v
  | .reboot _ _ key => fitsIn 32 key
  | .flashRead _ _ addr len => fitsIn 32 addr && fitsIn 8 len
  | .flashProgram _ _ addr data => fitsIn 32 addr && decide (data.length < 256)
  | .flashErase _ _ addr size => fitsIn 32 addr && fitsIn 8 size
  | .flashStatus _ _ | .flashCmdRead _ | .flashCmdProgram _ | .flashCmdErase4k _ | .flashCmdErase64k _ | .flashCommandDone _
  | .smbStretchTimeout | .smbClockLowTimeout => true
  | .setEndpointId _ eid => fitsIn 8 eid
  | .getEndpointId _ | .getEndpointUuid _ => true
  | .getMctpVersionSupport _ type => fitsIn 8 type
  | .getMessageTypeSupport _ | .getVendorDefinedMessageSupport _ | .gettid _ => true
  | .settid _ tid => fitsIn 8 tid
  | .getpldmversion _ type => fitsIn 8 type
  | .getpldmtypes _ => true
  | .getpldmcommands _ type => fitsIn 8 type
  | .getsensorreading _ id | .getstatesensorreadings _ id => fitsIn 16 id
  | .getpdrrepositoryinfo _ => true
  | .getpdr _ handle => fitsIn 32 handle
  | .seteventreceiver _ eid => fitsIn 8 eid
  | .extest | .idcode | .samplePreload | .highz | .clamp | .extestPulse | .extestTrain | .bypass => true
  | .mgmtAccess _ off _ => fitsIn 26 off
  | .trstNReset => true
  | .gpioInputEdge n _ => decide (n < 8)
  | .fleetAlertWire _ => true
  | .registerRead _ addr size => inBar0 addr && accessSize size
  | .hostConfigRequest _ _ => true
  | .msiXTableWrite v w _ => decide (v < 256) && decide (w < 4)
  | .hostLinkUp width rate => isWidth width && decide (1 ≤ rate) && decide (rate < 7)
  | .portRegisterBlockAccess p off size _ _ => isPartner p && fitsIn 24 off && accessSize size
  | .illegalBundle _ => true
  | .turnIllegal f c _ => isContext f c
  | .unlistedSmbusCommand code => fitsIn 8 code
  | .referenceClockLoss | .mainRailExcursion _ => true
  | .partnerConfigRequest p _ => isPartner p

end Sys2Proof
end

