-- ==== Sys2Proof/Decode.lean ====
section
/-! DEFINITION. The command that a word spells by the table's bits. No row of the table of operations gives bits (the commands of this
block are operations and events, each with operands of its own), so no word spells a command. -/
namespace Sys2Proof

/-- No row has bits: no word is a command. -/
def decodeTableWord (_nbits _w : Nat) : Option Instr := none

end Sys2Proof
end

