-- ==== Sys2Proof/Machine/Crypto.lean ====
section
/-! DEFINITION. The cryptographic standards the spec cites by name: SHA-384 (FIPS 180-4), ECDSA over P-384 (FIPS 186),
AES-256 (FIPS 197) and AES-256-XTS (IEEE 1619). The spec gives their inputs' byte forms (Table 6-3, Key slots of
chapter 14) and leaves the functions to the standards; they are taken from there (PRESUMED, notes/assumptions/36.md). -/
namespace Sys2Proof.Machine

/-! ### Helpers -/

/-- The number a byte list spells, most significant byte first. -/
def beNat (l : List Byte) : Nat := l.foldl (fun a b => 256 * a + b.toNat) 0

/-- `n` bytes of a number, most significant first. -/
def beBytes (n v : Nat) : List Byte := (List.range n).map fun i => BitVec.ofNat 8 (v / 256 ^ (n - 1 - i))

/-- The integer `k`-th root, by its bits from bit `n - 1` down. -/
def iroot (k v : Nat) : Nat → Nat → Nat
  | 0, r => r
  | n + 1, r => iroot k v n (if (r + 2 ^ n) ^ k ≤ v then r + 2 ^ n else r)

/-- `b ^ e` modulo `m`, for an exponent below `2 ^ 384`. -/
def powMod (b e m : Nat) : Nat :=
  (List.range 384).foldl (fun a i => let a := a * a % m; if e.testBit (383 - i) then a * b % m else a) (1 % m)

/-! ### SHA-384 -/

/-- The first 80 primes. -/
def shaPrimes : List Nat := (List.range 410).filter fun p => decide (1 < p) && (List.range p).all fun q => q < 2 || p % q != 0

/-- The round constants: the first 64 bits of the fractional parts of the primes' cube roots. -/
def shaK : List Nat := shaPrimes.map fun p => iroot 3 (p * 2 ^ 192) 67 0 % 2 ^ 64

/-- The initial hash of SHA-384: the same of the square roots of the ninth to sixteenth primes. -/
def shaH0 : List Nat := ((shaPrimes.drop 8).take 8).map fun p => iroot 2 (p * 2 ^ 128) 70 0 % 2 ^ 64

/-- Rotation right of a 64-bit word. -/
def rotr64 (x k : Nat) : Nat := x / 2 ^ k + x % 2 ^ k * 2 ^ (64 - k)

/-- The padded message: a one bit, zeros, and the length in bits as 128 bits. -/
def shaPad (m : List Byte) : List Byte :=
  m ++ [0x80#8] ++ List.replicate ((239 - m.length % 128) % 128) 0 ++ beBytes 16 (8 * m.length)

/-- The message schedule of one 128-byte block, the newest word first. -/
def shaSchedule (b : List Byte) : List Nat :=
  (List.range 64).foldl (fun w _ =>
    let x := w.getD 14 0
    let y := w.getD 1 0
    let s0 := rotr64 x 1 ^^^ rotr64 x 8 ^^^ x / 2 ^ 7
    let s1 := rotr64 y 19 ^^^ rotr64 y 61 ^^^ y / 2 ^ 6
    ((s1 + w.getD 6 0 + s0 + w.getD 15 0) % 2 ^ 64) :: w)
    ((List.range 16).map fun i => beNat ((b.drop (8 * (15 - i))).take 8))

/-- One round on the eight working words. -/
def shaRound (v : List Nat) (kw : Nat × Nat) : List Nat :=
  match v with
  | [a, b, c, d, e, f, g, h] =>
    let s1 := rotr64 e 14 ^^^ rotr64 e 18 ^^^ rotr64 e 41
    let ch := (e &&& f) ^^^ ((2 ^ 64 - 1 - e) &&& g)
    let t1 := h + s1 + ch + kw.1 + kw.2
    let s0 := rotr64 a 28 ^^^ rotr64 a 34 ^^^ rotr64 a 39
    let mj := (a &&& b) ^^^ (a &&& c) ^^^ (b &&& c)
    [(t1 + s0 + mj) % 2 ^ 64, a, b, c, (d + t1) % 2 ^ 64, e, f, g]
  | _ => v

/-- One block into the hash. -/
def shaBlock (h : List Nat) (b : List Byte) : List Nat :=
  (h.zip ((shaK.zip (shaSchedule b).reverse).foldl shaRound h)).map fun p => (p.1 + p.2) % 2 ^ 64

/-- The hash over `n` blocks. -/
def shaBlocks : Nat → List Nat → List Byte → List Nat
  | 0, h, _ => h
  | n + 1, h, p => shaBlocks n (shaBlock h (p.take 128)) (p.drop 128)

/-- SHA-384. -/
def sha384 (m : List Byte) : List Byte :=
  let p := shaPad m
  ((shaBlocks (p.length / 128) shaH0 p).take 6).flatMap (beBytes 8)

/-! ### ECDSA over P-384 -/

/-- The field of P-384. -/
def p384P : Nat := 2 ^ 384 - 2 ^ 128 - 2 ^ 96 + 2 ^ 32 - 1
/-- The curve's coefficient b; the coefficient a is -3. -/
def p384B : Nat := 0xB3312FA7E23EE7E4988E056BE3F82D19181D9C6EFE8141120314088F5013875AC656398D8A2ED19D2A85C8EDD3EC2AEF
/-- The order of the base point. -/
def p384N : Nat := 0xFFFFFFFFFFFFFFFFFFFFFFFFFFFFFFFFFFFFFFFFFFFFFFFFC7634D81F4372DDF581A0DB248B0A77AECEC196ACCC52973
/-- The base point. -/
def p384G : Nat × Nat :=
  (0xAA87CA22BE8B05378EB1C71EF320AD746E1D3B628BA79B9859F741E082542A385502F25DBF55296C3A545E3872760AB7,
   0x3617DE4A96262C6F5D9E98BF9292DC29F8F41DBD289A147CE9DA3113B5F0B8C00A60B1CE1D7E819D7A431D7C90EA0E5F)

/-- The sum of two points; none is the point at infinity. -/
def ecAdd : Option (Nat × Nat) → Option (Nat × Nat) → Option (Nat × Nat)
  | none, q => q
  | p, none => p
  | some (x1, y1), some (x2, y2) =>
    let p := p384P
    if x1 = x2 ∧ (y1 + y2) % p = 0 then none
    else
      let l := if x1 = x2 then (3 * x1 * x1 + p - 3) * powMod (2 * y1) (p - 2) p % p
        else (y2 + p - y1) * powMod (x2 + p - x1) (p - 2) p % p
      let x := (l * l + 2 * p - x1 - x2) % p
      some (x, (l * (x1 + p - x) + p - y1) % p)

/-- A multiple of a point, by doubling and adding from the highest bit. -/
def ecMul (k : Nat) (q : Option (Nat × Nat)) : Option (Nat × Nat) :=
  (List.range 384).foldl (fun a i => let a := ecAdd a a; if k.testBit (383 - i) then ecAdd a q else a) none

/-- Is the point on the curve? -/
def ecOn (x y : Nat) : Bool :=
  decide (x < p384P) && decide (y < p384P) && y * y % p384P == (x * x * x + (p384P - 3) * x + p384B) % p384P

/-- The check of a signature (r, s) of a digest under a point, by FIPS 186. -/
def ecVerify (e x y r s : Nat) : Bool :=
  let w := powMod s (p384N - 2) p384N
  match ecAdd (ecMul (e * w % p384N) (some p384G)) (ecMul (r * w % p384N) (some (x, y))) with
  | none => false
  | some (vx, _) => vx % p384N == r

/-- ECDSA P-384 with SHA-384: the message, the 97-byte public key and the 96-byte signature of Table 6-3. -/
def ecdsaP384 (msg key sig : List Byte) : Bool :=
  let x := beNat ((key.drop 1).take 48)
  let y := beNat ((key.drop 49).take 48)
  let r := beNat (sig.take 48)
  let s := beNat ((sig.drop 48).take 48)
  key.head? == some 4 && ecOn x y && decide (0 < r) && decide (r < p384N) && decide (0 < s) && decide (s < p384N) &&
    ecVerify (beNat (sha384 msg)) x y r s

/-! ### AES-256 -/

/-- Multiplication by x in GF(2^8). -/
def xtime (a : Nat) : Nat := if a < 128 then 2 * a else (2 * a) ^^^ 0x11B

/-- Multiplication in GF(2^8). -/
def gfMul8 (a b : Nat) : Nat :=
  (List.range 8).foldl (fun r i => xtime r ^^^ (if b.testBit (7 - i) then a else 0)) 0

/-- The inverse in GF(2^8), the 254th power; 0 for 0. -/
def gfInv8 (a : Nat) : Nat := (List.range 8).foldl (fun r i => let r := gfMul8 r r; if i < 7 then gfMul8 r a else r) 1

/-- Rotation left of a byte. -/
def rotl8 (x k : Nat) : Nat := x * 2 ^ k % 256 + x / 2 ^ (8 - k)

/-- The S-box and its inverse, as tables. -/
def sboxTab : List Nat := (List.range 256).map fun a =>
  let b := gfInv8 a
  b ^^^ rotl8 b 1 ^^^ rotl8 b 2 ^^^ rotl8 b 3 ^^^ rotl8 b 4 ^^^ 0x63
def invSboxTab : List Nat := (List.range 256).map fun a => sboxTab.findIdx (· == a)

/-- XOR of byte lists. -/
def xorL (a b : List Nat) : List Nat := a.zipWith Nat.xor b

/-- The 60 words of the key schedule, the newest first. -/
def aesWords (key : List Nat) : List (List Nat) :=
  (List.range 52).foldl (fun w n =>
    let i := n + 8
    let t := w.headD []
    let sub := fun (l : List Nat) => l.map fun x => sboxTab.getD x 0
    let t := if i % 8 = 0 then xorL (sub (t.drop 1 ++ t.take 1)) [2 ^ (i / 8 - 1), 0, 0, 0] else if i % 8 = 4 then sub t else t
    xorL (w.getD 7 []) t :: w)
    ((List.range 8).map fun i => (key.drop (4 * (7 - i))).take 4)

/-- The fifteen round keys of 16 bytes. -/
def aesKeys (key : List Nat) : List (List Nat) :=
  let w := (aesWords key).reverse
  (List.range 15).map fun r => ((w.drop (4 * r)).take 4).flatten

/-- ShiftRows by `k` times the row, column by column. -/
def aesShift (k : Nat) (s : List Nat) : List Nat :=
  (List.range 16).map fun i => s.getD (i % 4 + 4 * ((i / 4 + k * (i % 4)) % 4)) 0

/-- MixColumns with the first row of its matrix. -/
def aesMix (row : List Nat) (s : List Nat) : List Nat :=
  (List.range 16).map fun i =>
    (List.range 4).foldl (fun a j => a ^^^ gfMul8 (s.getD (4 * (i / 4) + j) 0) (row.getD ((j + 4 - i % 4) % 4) 0)) 0

/-- The cipher on one block, with the round keys. -/
def aesEnc (ks : List (List Nat)) (b : List Nat) : List Nat :=
  (List.range 14).foldl (fun s n =>
    let s := aesShift 1 (s.map fun x => sboxTab.getD x 0)
    xorL (if n = 13 then s else aesMix [2, 3, 1, 1] s) (ks.getD (n + 1) [])) (xorL b (ks.getD 0 []))

/-- The inverse cipher. -/
def aesDec (ks : List (List Nat)) (b : List Nat) : List Nat :=
  (List.range 14).foldl (fun s n =>
    let s := xorL ((aesShift 3 s).map fun x => invSboxTab.getD x 0) (ks.getD (13 - n) [])
    if n = 13 then s else aesMix [14, 11, 13, 9] s) (xorL b (ks.getD 14 []))

/-! ### XTS -/

/-- The next block's tweak: times α in GF(2^128), the first byte lowest. -/
def xtsNext (t : List Nat) : List Nat :=
  let v := t.foldr (fun b a => 256 * a + b) 0
  let v := if v < 2 ^ 127 then 2 * v else (2 * v - 2 ^ 128) ^^^ 0x87
  (List.range 16).map fun i => v / 256 ^ i % 256

/-- XTS over `n` 16-byte blocks of a data unit, given the cipher and the first tweak. -/
def xtsBlocks (f : List Nat → List Nat) : Nat → List Nat → List Byte → List Byte
  | 0, _, _ => []
  | n + 1, t, data =>
    (xorL (f (xorL ((data.take 16).map BitVec.toNat) t)) t).map (BitVec.ofNat 8) ++ xtsBlocks f n (xtsNext t) (data.drop 16)

/-- The first tweak: the data unit number, its low byte first, under key 2. -/
def xtsTweak (key : List Byte) (tw : Nat) : List Nat :=
  aesEnc (aesKeys ((key.drop 32).map BitVec.toNat)) ((List.range 16).map fun i => tw / 256 ^ i % 256)

/-- AES-256-XTS encryption: the 64-byte key (key 1, key 2), the tweak, the data unit, which on this device is always a whole number
of 16-byte blocks (R324). -/
def xtsEncrypt (key : List Byte) (tw : Nat) (data : List Byte) : List Byte :=
  let ks := aesKeys ((key.take 32).map BitVec.toNat)
  xtsBlocks (aesEnc ks) (data.length / 16) (xtsTweak key tw) data

/-- AES-256-XTS decryption. -/
def xtsDecrypt (key : List Byte) (tw : Nat) (data : List Byte) : List Byte :=
  let ks := aesKeys ((key.take 32).map BitVec.toNat)
  xtsBlocks (aesDec ks) (data.length / 16) (xtsTweak key tw) data

end Sys2Proof.Machine
end

