-- ==== Sys2Proof/Machine/Fec.lean ====
section
/-! DEFINITION. The lateral link's FEC group (Table 22-2, R494, R495): RS(544,514) over GF(2^10), the bit stream, the
scrambler, the interleave; and the header CRC-16. -/
namespace Sys2Proof.Machine

/-! ### GF(2^10), x^10 + x^3 + 1 -/

/-- Multiply by x. -/
def gfX (a : Nat) : Nat := if a < 512 then 2 * a else (2 * a) ^^^ 0x409

/-- Multiply by bits `n` of `b`, least significant first. -/
def gfMulN : Nat → Nat → Nat → Nat
  | 0, _, _ => 0
  | n + 1, a, b => (if b % 2 = 1 then a else 0) ^^^ gfMulN n (gfX a) (b / 2)

def gfMul (a b : Nat) : Nat := gfMulN 10 a b

/-- a^n. -/
def gfPow (a : Nat) : Nat → Nat
  | 0 => 1
  | n + 1 => gfMul a (gfPow a n)

/-- The inverse: a^1022, by squarings. -/
def gfInvN : Nat → Nat → Nat
  | 0, _ => 1
  | n + 1, s => gfMul s (gfInvN n (gfMul s s))
def gfInv (a : Nat) : Nat := gfInvN 9 (gfMul a a)

/-- Polynomials are lists of coefficients, the constant first. -/
def gfAdd : List Nat → List Nat → List Nat
  | [], q => q
  | p, [] => p
  | a :: p, b :: q => (a ^^^ b) :: gfAdd p q

def gfScale (c : Nat) (p : List Nat) : List Nat := p.map (gfMul c)

def gfPolyMul : List Nat → List Nat → List Nat
  | [], _ => []
  | a :: p, q => gfAdd (gfScale a q) (0 :: gfPolyMul p q)

def gfEval (p : List Nat) (x : Nat) : Nat := p.foldr (fun c a => c ^^^ gfMul x a) 0

/-- The powers α^i, α^(i+1), ... -/
def gfPowers : Nat → Nat → List Nat
  | 0, _ => []
  | n + 1, a => a :: gfPowers n (gfX a)

/-- The generator Π(x − α^i), i = 0 to 29. -/
def rsGen : List Nat := (gfPowers 30 1).foldl (fun g a => gfAdd (0 :: g) (gfScale a g)) [1]

/-- One step of the division by the generator: `r` is the remainder, highest power first. -/
def rsStep (g r : List Nat) (s : Nat) : List Nat :=
  let f := r.headD 0 ^^^ s
  (r.drop 1 ++ [0]).zipWith (fun a b => a ^^^ gfMul f b) g

/-- The 30 parity symbols of 514 data symbols; the first symbol is the highest power. -/
def rsParity (data : List Nat) : List Nat :=
  data.foldl (rsStep (rsGen.reverse.drop 1)) (List.replicate 30 0)

/-- Syndromes r(α^i). -/
def rsSyn (cw : List Nat) : List Nat :=
  (gfPowers 30 1).map fun a => cw.foldl (fun acc c => c ^^^ gfMul a acc) 0

/-- Berlekamp–Massey: from the error locator `c`, its predecessor `b`, length `l`, gap `m` and last discrepancy `bb`. -/
def rsBM (syn : List Nat) : Nat → Nat → List Nat → List Nat → Nat → Nat → Nat → List Nat
  | 0, _, c, _, _, _, _ => c
  | f + 1, n, c, b, l, m, bb =>
    let d := (List.range (l + 1)).foldl (fun a i => a ^^^ gfMul (c.getD i 0) (syn.getD (n - i) 0)) 0
    if d = 0 then rsBM syn f (n + 1) c b l (m + 1) bb
    else
      let c' := gfAdd c (List.replicate m 0 ++ gfScale (gfMul d (gfInv bb)) b)
      if 2 * l ≤ n then rsBM syn f (n + 1) c' c (n + 1 - l) 1 d
      else rsBM syn f (n + 1) c' b l (m + 1) bb

/-- The degree of a polynomial, leading zeros dropped. -/
def gfTrim (p : List Nat) : List Nat := (p.reverse.dropWhile (· == 0)).reverse

/-- The derivative of a polynomial in characteristic 2. -/
def gfDeriv (p : List Nat) : List Nat := (p.drop 1).mapIdx fun i c => if i % 2 = 0 then c else 0

/-- The positions of a codeword, each with the inverse of its locator α^(543−i). -/
def rsInvLoc : List Nat := gfPowers 544 (gfInv (gfPow 2 543))

/-- Decode a codeword: the word, and the positions corrected; none where it cannot be corrected (more than 15 errors). -/
def rsDecode (cw : List Nat) : Option (List Nat × List Nat) :=
  let syn := rsSyn cw
  if syn.all (· == 0) then some (cw, [])
  else
    let lam := gfTrim (rsBM syn 30 0 [1] [1] 0 1 1)
    let deg := lam.length - 1
    let om := (gfPolyMul syn lam).take 30
    let dl := gfDeriv lam
    let err := (cw.zip rsInvLoc).map fun e =>
      if gfEval lam e.2 = 0 then
        gfMul (gfInv e.2) (gfMul (gfEval om e.2) (gfInv (gfEval dl e.2)))
      else 0
    let pos := (err.mapIdx fun i e => (i, e)).filterMap fun e => if e.2 = 0 then none else some e.1
    let out := cw.zipWith (· ^^^ ·) err
    if 15 < deg ∨ pos.length ≠ deg ∨ !((rsSyn out).all (· == 0)) then none else some (out, pos)

/-! ### Bits, symbols, the scrambler -/

/-- The bits of a byte, bit 7 first. -/
def byteBits (b : Byte) : List Bool := (List.range 8).map fun i => bitsOf b.toNat (7 - i) 1 == 1

/-- A number from its bits, most significant first. -/
def bitsNat (l : List Bool) : Nat := l.foldl (fun a b => 2 * a + bit01 b) 0

/-- Cut a list into `n` pieces of `k`. -/
def cutEvery {α : Type} (k : Nat) : Nat → List α → List (List α)
  | 0, _ => []
  | n + 1, l => l.take k :: cutEvery k n (l.drop k)

/-- The 10-bit symbols of 1,285 bytes. -/
def bytesSyms (l : List Byte) : List Nat := (cutEvery 10 1028 (l.flatMap byteBits)).map bitsNat

/-- The bytes of 1,028 symbols. -/
def symsBytes (l : List Nat) : List Byte :=
  (cutEvery 8 1285 (l.flatMap fun s => (List.range 10).map fun i => bitsOf s (9 - i) 1 == 1)).map
    fun b => BitVec.ofNat 8 (bitsNat b)

/-- One byte of the scrambler x^31 + x^28 + 1: each feedback bit is both the keystream bit and the bit shifted in
(the spec names the polynomial only: DESIGN CHOICE, notes/assumptions/11.md). -/
def scrByte : Nat → Nat → Nat → Nat × Nat
  | 0, s, acc => (acc, s)
  | n + 1, s, acc =>
    let f := (bitsOf s 30 1 + bitsOf s 27 1) % 2
    scrByte n (2 * s % 2 ^ 31 + f) (2 * acc + f)

/-- Scramble or descramble bytes from a state. -/
def scramble : Nat → List Byte → List Byte
  | _, [] => []
  | s, b :: t =>
    let r := scrByte 8 s 0
    BitVec.ofNat 8 (b.toNat ^^^ r.1) :: scramble r.2 t

/-! ### Groups -/

/-- Even and odd members of a list. -/
def evens {α : Type} : List α → List α
  | a :: _ :: t => a :: evens t
  | [a] => [a]
  | [] => []
def odds {α : Type} (l : List α) : List α := evens (l.drop 1)

/-- Alternate two lists. -/
def alternate {α : Type} : List α → List α → List α
  | a :: p, b :: q => a :: b :: alternate p q
  | _, _ => []

/-- The tag: TAG_MARK and GCOUNT, little-endian. -/
def groupTag (gc : Nat) : List Byte := (List.range 5).map fun i => BitVec.ofNat 8 ((0xC5 * 2 ^ 32 + gc % 2 ^ 32) / 2 ^ (8 * i))

/-- What the lanes send for a group of five flits (1,280 bytes): one list of symbols per lane in use. -/
def groupEncode (two : Bool) (gc : Nat) (flits : List Byte) : List (List Nat) :=
  let syms := bytesSyms (groupTag gc ++ scramble (gc % 2 ^ 31 ||| 1) flits)
  let a := evens syms
  let b := odds syms
  let a := a ++ rsParity a
  let b := b ++ rsParity b
  if two then [alternate (a.take 272) (b.take 272), alternate (a.drop 272) (b.drop 272)] else [alternate a b]

/-- A received group: the flit bytes, the tag, the corrected symbols of each lane, uncorrectable codewords, and whether
codeword A held no error. -/
structure Group where
  flits : List Byte
  mark : Nat
  gcount : Nat
  corr : List Nat
  uncorr : Nat
  aClean : Bool
deriving DecidableEq, Repr

/-- Decode what the lanes delivered. A codeword that cannot be corrected is passed on as received (the decoder's output
on a failure is not stated: DESIGN CHOICE, notes/assumptions/11.md). -/
def groupDecode (lanes : List (List Nat)) : Group :=
  let l0 := lanes.headD []
  let l1 := lanes.getD 1 []
  let two := decide (2 ≤ lanes.length)
  let a := if two then evens l0 ++ evens l1 else evens l0
  let b := if two then odds l0 ++ odds l1 else odds l0
  let ra := rsDecode a
  let rb := rsDecode b
  let a' := (ra.getD (a, [])).1
  let b' := (rb.getD (b, [])).1
  let pos := (ra.getD (a, [])).2 ++ (rb.getD (b, [])).2
  let n1 := if two then (pos.filter fun p => decide (272 ≤ p)).length else 0
  let bytes := symsBytes (alternate (a'.take 514) (b'.take 514))
  let tag := (bytes.take 5).reverse.foldl (fun x y => 256 * x + y.toNat) 0
  { flits := scramble (tag % 2 ^ 31 ||| 1) (bytes.drop 5), mark := tag / 2 ^ 32, gcount := tag % 2 ^ 32,
    corr := [pos.length - n1, n1], uncorr := bit01 ra.isNone + bit01 rb.isNone,
    aClean := match ra with
      | some r => r.2.isEmpty
      | none => false }

/-! ### CRC-16 (polynomial 0x1021, initial 0xFFFF) -/

def crc16Bit (c : Nat) : Nat := if 2 ^ 15 ≤ c then (2 * c) % 2 ^ 16 ^^^ 0x1021 else 2 * c

def crc16Byte (c : Nat) (b : Byte) : Nat :=
  crc16Bit (crc16Bit (crc16Bit (crc16Bit (crc16Bit (crc16Bit (crc16Bit (crc16Bit (c ^^^ b.toNat * 256))))))))

def crc16 (l : List Byte) : Nat := l.foldl crc16Byte 0xFFFF

end Sys2Proof.Machine
end

