-- ==== Sys2Proof/Machine/Fp.lean ====
section
/-! DEFINITION. Number formats, FP32 arithmetic, conversions, Philox and CRC-32C (chapters 15 and 16; the two named
algorithms as their publications define them: PRESUMED, notes/assumptions/9.md). -/
namespace Sys2Proof.Machine

/-! ### CRC-32C and Philox -/

/-- One bit of the reflected CRC-32C. -/
def crcBit (c : Nat) : Nat := if c % 2 = 1 then c / 2 ^^^ 0x82F63B78 else c / 2

def crcByte (c : Nat) (b : Byte) : Nat :=
  let x := c ^^^ b.toNat
  crcBit (crcBit (crcBit (crcBit (crcBit (crcBit (crcBit (crcBit x)))))))

/-- CRC-32C of bytes. -/
def crc32c (l : List Byte) : Nat := l.foldl crcByte 0xFFFFFFFF ^^^ 0xFFFFFFFF

/-- The rounds of Philox-4x32. -/
def philoxRounds : Nat → Nat × Nat × Nat × Nat → Nat → Nat → Nat × Nat × Nat × Nat
  | 0, c, _, _ => c
  | n + 1, (c0, c1, c2, c3), k0, k1 =>
    let p0 := 0xD2511F53 * c0
    let p1 := 0xCD9E8D57 * c2
    philoxRounds n (p1 / 2 ^ 32 ^^^ c1 ^^^ k0, p1 % 2 ^ 32, p0 / 2 ^ 32 ^^^ c3 ^^^ k1, p0 % 2 ^ 32)
      ((k0 + 0x9E3779B9) % 2 ^ 32) ((k1 + 0xBB67AE85) % 2 ^ 32)

/-- Philox-4x32-10: word `w` of the output for a counter and a key. -/
def philox (c0 c1 c2 c3 k0 k1 w : Nat) : Nat :=
  let r := philoxRounds 10 (c0, c1, c2, c3) k0 k1
  if w = 0 then r.1 else if w = 1 then r.2.1 else if w = 2 then r.2.2.1 else r.2.2.2

/-! ### Values -/

/-- An exact value: m·2^e with a sign, an infinity, or a NaN with its significand left-aligned in 23 bits. -/
inductive Val where
  | fin (neg : Bool) (m : Nat) (e : Int)
  | inf (neg : Bool)
  | nan (neg : Bool) (sig : Nat) (signalling : Bool)
deriving DecidableEq, Repr

/-- A format's exponent bits, significand bits and bias (Table 15-1), by code (Table 15-2). -/
def fmtExp (c : Nat) : Nat := if c = 0 ∨ c = 4 then 8 else if c = 1 ∨ c = 3 then 5 else 4
def fmtMan (c : Nat) : Nat := if c = 4 then 23 else if c = 0 then 7 else if c = 1 then 10 else if c = 2 then 3 else 2
def fmtBias (c : Nat) : Nat := if c = 0 ∨ c = 4 then 127 else if c = 1 ∨ c = 3 then 15 else 7

/-- The format of a block: its entry's class and its partner's policy. -/
def blockFmt (cls policy : Nat) : Nat :=
  if cls = 0 then (if bitsOf policy 0 1 = 1 then 1 else 0)
  else if cls = 1 then (if bitsOf policy 1 1 = 1 then 3 else 2) else 4

/-- Bits of an element of a format. -/
def fmtBits (c : Nat) : Nat :=
  if c = 4 ∨ c = 7 then 32 else if c = 0 ∨ c = 1 then 16 else if c = 6 then 4 else 8

/-- The exact value of an encoding (R335, R337 to R339). -/
def decodeFmt (c bits : Nat) : Val :=
  if c = 5 ∨ c = 6 ∨ c = 7 then
    let w := fmtBits c
    let i := signed w bits
    .fin (decide (i < 0)) i.natAbs 0
  else
    let mb := fmtMan c
    let eb := fmtExp c
    let neg := bitsOf bits (mb + eb) 1 == 1
    let ex := bitsOf bits mb eb
    let sg := bitsOf bits 0 mb
    let top := 2 ^ eb - 1
    if c = 2 then
      if ex = 15 ∧ sg = 7 then .nan neg 0x700000 false
      else if ex = 0 then .fin neg sg (-9) else .fin neg (8 + sg) ((ex : Int) - 10)
    else if ex = top then
      if sg = 0 then .inf neg else .nan neg (sg * 2 ^ (23 - mb)) (bitsOf sg (mb - 1) 1 == 0)
    else if ex = 0 then .fin neg sg (1 - (fmtBias c : Int) - mb)
    else .fin neg (2 ^ mb + sg) ((ex : Int) - fmtBias c - mb)

/-- Is the encoding a subnormal of its own format? -/
def isSubnormal (c bits : Nat) : Bool :=
  c < 5 && bitsOf bits (fmtMan c) (fmtExp c) == 0 && bitsOf bits 0 (fmtMan c) != 0

/-- m·2^e at quantum 2^q, rounded to nearest even. -/
def rneAt (m : Nat) (e q : Int) : Nat :=
  if q ≤ e then m * 2 ^ (e - q).toNat
  else
    let s := (q - e).toNat
    let n := m / 2 ^ s
    let r := m % 2 ^ s
    let half := 2 ^ (s - 1)
    if half < r ∨ (r = half ∧ n % 2 = 1) then n + 1 else n

/-- m·2^e at quantum 2^q, truncated. -/
def truncAt (m : Nat) (e q : Int) : Nat := if q ≤ e then m * 2 ^ (e - q).toNat else m / 2 ^ (q - e).toNat

/-- Signed zero, infinity and quiet NaN of a floating-point format. -/
def fpSign (c : Nat) (neg : Bool) : Nat := bit01 neg * 2 ^ (fmtMan c + fmtExp c)
def fpInf (c : Nat) (neg : Bool) : Nat := fpSign c neg + (2 ^ fmtExp c - 1) * 2 ^ fmtMan c

/-- Encode a finite value in a floating-point format: the bits, and whether it overflowed (R344, R345, Table 15-4; `ieee`
is the overflow mode). -/
def encodeFp (c : Nat) (ieee neg : Bool) (m : Nat) (e : Int) : Nat × Bool :=
  if m = 0 then (fpSign c neg, false)
  else
    let mb := fmtMan c
    let emin : Int := 1 - fmtBias c
    let x : Int := (Nat.log2 m : Int) + e
    let q := max x emin - mb
    let n0 := rneAt m e q
    let carry := n0 == 2 ^ (mb + 1)
    let n := if carry then n0 / 2 else n0
    let q := if carry then q + 1 else q
    if n = 0 then (fpSign c neg, false)
    else if n < 2 ^ mb then (fpSign c neg + n, false)
    else
      let ex := (q + mb + fmtBias c).toNat
      let sg := n - 2 ^ mb
      let ovr := if c = 2 then decide (15 < ex) || (ex == 15 && sg == 7) else decide (2 ^ fmtExp c - 1 ≤ ex)
      if ovr then
        (if c = 2 then (if ieee then fpSign c neg + 0x7F else fpSign c neg + 0x7E)
         else if c = 3 ∧ !ieee then fpSign c neg + 0x7B else fpInf c neg, true)
      else (fpSign c neg + ex * 2 ^ mb + sg, false)

/-- An integer target (INT8, INT4, INT32): saturated. -/
def encodeInt (c : Nat) (neg : Bool) (m : Nat) (e : Int) : Nat × Bool :=
  let w := fmtBits c
  let n := rneAt m e 0
  if neg then (if 2 ^ (w - 1) < n then (2 ^ (w - 1), true) else (unsigned w (-(n : Int)), false))
  else if 2 ^ (w - 1) ≤ n then (2 ^ (w - 1) - 1, true) else (n, false)

/-- A conversion (R344 to R346): the bits, OVERFLOW and INVALID. -/
def convert (c : Nat) (ieee : Bool) (v : Val) : Nat × Bool × Bool :=
  let int := c == 5 || c == 6 || c == 7
  match v with
  | .fin neg m e =>
    let r := if int then encodeInt c neg m e else encodeFp c ieee neg m e
    (r.1, r.2, false)
  | .inf neg =>
    if int then (if neg then 2 ^ (fmtBits c - 1) else 2 ^ (fmtBits c - 1) - 1, true, false)
    else if c = 2 then (fpSign c neg + (if ieee then 0x7F else 0x7E), true, false)
    else (fpInf c neg, false, false)
  | .nan neg sig sn =>
    if int then (0, false, true)
    else if c = 2 then (fpSign c neg + 0x7F, false, sn)
    else
      let mb := fmtMan c
      (fpInf c neg + (sig / 2 ^ (23 - mb) ||| 2 ^ (mb - 1)), false, sn)

/-- Multiply a value by 2^n exactly. -/
def Val.scale (v : Val) (n : Int) : Val :=
  match v with
  | .fin s m e => .fin s m (e + n)
  | w => w

/-! ### FP32 arithmetic: each operation rounded to nearest even, subnormals kept (R314, R366) -/

def f32 (w : Nat) : Val := decodeFmt 4 w

/-- FP32 of an exact value. -/
def toF32 (v : Val) : Nat := (convert 4 true v).1

/-- The NaN made by arithmetic (R362). -/
def qnan : Nat := 0x7FC00000

/-- A NaN operand, quieted; the first one wins. -/
def nanOf (a b : Val) : Option Nat :=
  match a, b with
  | .nan s g _, _ => some (fpInf 4 s + (g ||| 2 ^ 22))
  | _, .nan s g _ => some (fpInf 4 s + (g ||| 2 ^ 22))
  | _, _ => none

/-- The exact sum of two finite values. -/
def addFin (n1 : Bool) (m1 : Nat) (e1 : Int) (n2 : Bool) (m2 : Nat) (e2 : Int) : Val :=
  if m1 = 0 ∧ m2 = 0 then .fin (n1 && n2) 0 0
  else
    let q := min e1 e2
    let a : Int := (if n1 then -1 else 1) * (m1 * 2 ^ (e1 - q).toNat : Nat)
    let b : Int := (if n2 then -1 else 1) * (m2 * 2 ^ (e2 - q).toNat : Nat)
    .fin (decide (a + b < 0)) (a + b).natAbs q

/-- binary32 addition. -/
def fadd (x y : Nat) : Nat :=
  let a := f32 x
  let b := f32 y
  match nanOf a b with
  | some w => w
  | none => match a, b with
    | .inf s, .inf t => if s = t then x else qnan
    | .inf _, _ => x
    | _, .inf _ => y
    | .fin n1 m1 e1, .fin n2 m2 e2 => toF32 (addFin n1 m1 e1 n2 m2 e2)
    | _, _ => qnan

def fneg (x : Nat) : Nat := x ^^^ 2 ^ 31

def fsub (x y : Nat) : Nat := match f32 y with
  | .nan _ _ _ => fadd x y
  | _ => fadd x (fneg y)

/-- binary32 multiplication. -/
def fmul (x y : Nat) : Nat :=
  let a := f32 x
  let b := f32 y
  match nanOf a b with
  | some w => w
  | none => match a, b with
    | .fin n1 m1 e1, .fin n2 m2 e2 => toF32 (.fin (n1 != n2) (m1 * m2) (e1 + e2))
    | .inf s, .inf t => fpInf 4 (s != t)
    | .inf s, .fin n m _ => if m = 0 then qnan else fpInf 4 (s != n)
    | .fin n m _, .inf s => if m = 0 then qnan else fpInf 4 (s != n)
    | _, _ => qnan

/-- binary32 division: a quotient with its remainder's sticky bit, then one rounding. -/
def fdiv (x y : Nat) : Nat :=
  let a := f32 x
  let b := f32 y
  match nanOf a b with
  | some w => w
  | none => match a, b with
    | .fin n1 m1 e1, .fin n2 m2 e2 =>
      if m2 = 0 then (if m1 = 0 then qnan else fpInf 4 (n1 != n2))
      else
        let k := 32 + Nat.log2 m2
        let n := m1 * 2 ^ k
        toF32 (.fin (n1 != n2) (2 * (n / m2) + (if n % m2 = 0 then 0 else 1)) (e1 - e2 - k - 1))
    | .inf _, .inf _ => qnan
    | .inf s, .fin n _ _ => fpInf 4 (s != n)
    | .fin n _ _, .inf s => fpSign 4 (n != s)
    | _, _ => qnan

/-- Integer square root by bits, from bit `k` down. -/
def isqrtBits : Nat → Nat → Nat → Nat
  | 0, _, r => r
  | k + 1, n, r => let t := r + 2 ^ k
                   if t * t ≤ n then isqrtBits k n t else isqrtBits k n r

def isqrt (n : Nat) : Nat := isqrtBits (Nat.log2 n / 2 + 1) n 0

/-- binary32 square root. -/
def fsqrt (x : Nat) : Nat :=
  match f32 x with
  | .nan s g _ => fpInf 4 s + (g ||| 2 ^ 22)
  | .inf s => if s then qnan else x
  | .fin s m e =>
    if m = 0 then x else if s then qnan
    else
      let k : Nat := if e % 2 = 0 then 64 else 65
      let n := m * 2 ^ k
      let r := isqrt n
      toF32 (.fin false (2 * r + (if r * r = n then 0 else 1)) ((e - k) / 2 - 1))

/-- Numeric order of FP32 words that are not NaN: x ≤ y, with -0 = +0. -/
def fkey (x : Nat) : Int := if x < 2 ^ 31 then x else -((x - 2 ^ 31 : Nat) : Int)
def fle (x y : Nat) : Bool := decide (fkey x ≤ fkey y)
def flt (x y : Nat) : Bool := decide (fkey x < fkey y)

def isNan32 (x : Nat) : Bool := decide (0x7F800000 < x % 2 ^ 31)
def isInf32 (x : Nat) : Bool := x % 2 ^ 31 == 0x7F800000

/-- Sums in ascending order from +0 (R314). -/
def fsum (l : List Nat) : Nat := l.foldl fadd 0
def fsumsq (l : List Nat) : Nat := l.foldl (fun a x => fadd a (fmul x x)) 0
def fdot (l m : List Nat) : Nat := (l.zip m).foldl (fun a p => fadd a (fmul p.1 p.2)) 0

/-- FP32 of an integer. -/
def fOfInt (i : Int) : Nat := toF32 (.fin (decide (i < 0)) i.natAbs 0)

/-- x·2^n in FP32. -/
def fscale (x : Nat) (n : Int) : Nat := toF32 ((f32 x).scale n)

/-- maximum and minimum, NaN-propagating, with -0 below +0 (R371). -/
def fmax (x y : Nat) : Nat :=
  match nanOf (f32 x) (f32 y) with
  | some w => w
  | none => if flt x y || (fkey x == fkey y && decide (2 ^ 31 ≤ x)) then y else x
def fmin (x y : Nat) : Nat :=
  match nanOf (f32 x) (f32 y) with
  | some w => w
  | none => if flt y x || (fkey x == fkey y && decide (2 ^ 31 ≤ y)) then y else x

/-! ### The functions of the array, correctly rounded: 400-bit fixed point, then one rounding (notes/assumptions/10.md) -/

/-- Fraction bits of the fixed-point evaluation. -/
def fxP : Nat := 400
def fxOne : Int := 2 ^ fxP

/-- Terms `k` on of the Taylor series of the exponential at `r`, the next term being `t`. -/
def expTaylor (r : Int) : Nat → Nat → Int → Int
  | 0, _, _ => 0
  | f + 1, k, t => t + expTaylor r f (k + 1) (t * r / fxOne / ((k + 1 : Nat) : Int))

/-- Square `n` times. -/
def fxSquare : Nat → Int → Int
  | 0, y => y
  | n + 1, y => fxSquare n (y * y / fxOne)

/-- e^x in fixed point. -/
def fxExp (x : Int) : Int := fxSquare 10 (expTaylor (x / 1024) 64 0 fxOne)

/-- m·2^e in fixed point. -/
def fxOf (neg : Bool) (m : Nat) (e : Int) : Int := (if neg then -1 else 1) * ((m * 2 ^ (e + fxP).toNat : Nat) : Int)

/-- A fixed-point value rounded to FP32. -/
def fxRound (neg : Bool) (y : Int) : Nat := toF32 (.fin neg y.natAbs (-(fxP : Int)))

/-- exp. -/
def fexp (x : Nat) : Nat :=
  match f32 x with
  | .nan s g _ => fpInf 4 s + (g ||| 2 ^ 22)
  | .inf s => if s then 0 else x
  | .fin s m e =>
    if 128 ≤ truncAt m e 0 then (if s then 0 else fpInf 4 false) else fxRound false (fxExp (fxOf s m e))

/-- tanh. -/
def ftanh (x : Nat) : Nat :=
  match f32 x with
  | .nan s g _ => fpInf 4 s + (g ||| 2 ^ 22)
  | .inf s => fpSign 4 s + 0x3F800000
  | .fin s m e =>
    if 16 ≤ truncAt m e 0 then fpSign 4 s + 0x3F800000
    else
      let t := fxExp (2 * fxOf false m e)
      fxRound s ((t - fxOne) * fxOne / (t + fxOne))

/-- arctan(1/k)·2^P, `f` terms from index `i` on, `p` being 2^P/k^(2i+1). -/
def fxAtan (k : Nat) : Nat → Nat → Int → Int
  | 0, _, _ => 0
  | f + 1, i, p => (if i % 2 = 0 then 1 else -1) * (p / ((2 * i + 1 : Nat) : Int)) + fxAtan k f (i + 1) (p / ((k * k : Nat) : Int))

/-- π (Machin), and 2/√π. -/
def fxPi : Int := 16 * fxAtan 5 200 0 (fxOne / 5) - 4 * fxAtan 239 60 0 (fxOne / 239)
def fxTwoRootPi : Int := (isqrt (4 * 2 ^ (3 * fxP) / fxPi.toNat) : Nat)

/-- The series of erf at x (its square `q`), from index `i`, `u` being x^(2i+1)/i!. -/
def erfSeries (q : Int) : Nat → Nat → Int → Int
  | 0, _, _ => 0
  | f + 1, i, u => (if i % 2 = 0 then 1 else -1) * (u / ((2 * i + 1 : Nat) : Int))
      + erfSeries q f (i + 1) (u * q / fxOne / ((i + 1 : Nat) : Int))

/-- erf. -/
def ferf (x : Nat) : Nat :=
  match f32 x with
  | .nan s g _ => fpInf 4 s + (g ||| 2 ^ 22)
  | .inf s => fpSign 4 s + 0x3F800000
  | .fin s m e =>
    if 4 ≤ truncAt m e 0 then fpSign 4 s + 0x3F800000
    else
      let v := fxOf false m e
      fxRound s (erfSeries (v * v / fxOne) 220 0 v * fxTwoRootPi / fxOne)

/-- rsqrt: an integer square root with its sticky bit. -/
def frsqrt (x : Nat) : Nat :=
  match f32 x with
  | .nan s g _ => fpInf 4 s + (g ||| 2 ^ 22)
  | .inf s => if s then qnan else 0
  | .fin s m e =>
    if m = 0 then fpInf 4 s
    else if s then qnan
    else
      let m2 := if e % 2 = 0 then m else 2 * m
      let e2 := if e % 2 = 0 then e else e - 1
      let k := 64 + Nat.log2 m2
      let r := isqrt (2 ^ (2 * k) / m2)
      toF32 (.fin false (2 * r + (if r * r * m2 = 2 ^ (2 * k) then 0 else 1)) (-(k : Int) - 1 - e2 / 2))

end Sys2Proof.Machine
end

