-- ==== Sys2Proof/Config.lean ====
section
/-! DEFINITION. What one part or its surroundings fixes and the spec leaves open: free values, each an opaque
constant with no body, and the fused tables. -/
namespace Sys2Proof.Config

/-- FREE VALUE. A value the spec leaves undefined or does not state, read at a point of `State.free`
(notes/assumptions/2.md). -/
opaque freeNat : Nat → Nat

/-- FREE VALUE. The word form of `freeNat`. -/
opaque freeWord : Nat → Word

/-- The fused step table before the monotone closure of `vfused` (R86, R87: fused for this part). -/
opaque fusedMv : Nat → Nat

/-- The fused key hash of this part (stage 1). -/
opaque fusedKeyHash : Unit → List Byte

/-- The fused minimum security version (stage 1). -/
opaque fusedSvn : Unit → Nat

/-- The fused retention minimum in mV (R112). -/
opaque fusedRetMv : Unit → Nat

/-- Vothal's PCI Vendor ID and JEDEC manufacturer code, which the spec names and does not give. -/
opaque vendorId : Unit → Nat
opaque jedecMfr : Unit → Nat

/-- The version and capability words of a block class that the spec does not give (Table 3-7), and the ATOMIC_WORD bit of a
mirror space that its chapter does not state. -/
opaque blkVer : Nat → Word
opaque blkCaps : Nat → Word
opaque mirrorAtomic : Nat → Nat → Bool

/-- The size of the board's flash in MiB (R610: at least 64). -/
opaque flashMib : Unit → Nat

/-- What the MCTP and PLDM commands answer and the spec does not give: the endpoint UUID, versions by message type and by PLDM type, the
PDR repository's information and its records (DSP0236, DSP0240, DSP0248). -/
opaque endpointUuid : Unit → Nat
opaque mctpVersions : Nat → List Nat
opaque pldmVersions : Nat → List Nat
opaque pdrInfo : Unit → List Nat
opaque pdrRecord : Nat → List Nat

/-- FREE VALUE. What memory reads as, by address, after it lost its content: memory that Table 4-3 marks as not kept in HOLD (R81), and
memory that a reset leaves with no stated content. The first argument tells the losses apart (notes/assumptions/18.md). -/
opaque lostByte : Nat → Nat → Byte

/-- FREE VALUE. The PHY code that an HBM controller's training chose, by boot, stack, pseudo-channel and word (Table 3-14: read delay, write
delay, reference voltage), and the refreshes that it has postponed, by AO time, stack and pseudo-channel (notes/assumptions/135.md). -/
opaque phyCode : Nat → Nat → Nat → Nat → Byte
opaque refreshesPostponed : Nat → Nat → Nat → Nat

/-- vfused of step `i` in mV: the fused figures, made non-decreasing as R86 says they are, within the rail's
650 to 850 mV. -/
def vfused : Nat → Nat
  | 0 => max 650 (min 850 (fusedMv 0))
  | i + 1 => max (vfused i) (min 850 (fusedMv (i + 1)))

end Sys2Proof.Config
end

