-- ==== Sys2Proof/Machine/Regs.lean ====
section
/-! DEFINITION. The register pages: one row per register of the spec's register tables, with its fields' bits,
access types (R49, Table 3-5) and reset values; and a Lean name for every register and every field.

Rows follow Tables 3-11, 4-10, 5-7, 5-8, 6-12, 6-13, 7-9 to 7-11, 10-9, 10-10, 11-8 to 11-11, 12-6, 12-7, 13-8, 14-5,
14-6, 17-8, 17-9, 18-8, 18-9, 19-12, 19-13, 20-6, 20-7, 21-5, 21-7, 22-9, 22-10, 23-6, 23-7, 24-6, 24-7, 25-4, 26-8, 27-12.
Where a table gives no reset value (a dash, "retained", "fused", "strap") the row holds 0 but for five fields
(DESIGN CHOICE, notes/assumptions/3.md). -/
namespace Sys2Proof.Machine

/-- Access types of Table 3-5. -/
inductive Access where | ro | rw | w1c | w1s | wo | rwl
deriving DecidableEq, Repr

/-- One field: its bits, access type and reset value. -/
structure FieldRow where
  hi : Nat
  lo : Nat
  acc : Access
  rst : Nat
deriving DecidableEq, Repr

/-- One register (or an array of `count` registers `stride` bytes apart). `wide`: 1 the low word of a 64-bit
register, 2 its high word, 0 neither. -/
structure RegRow where
  page : Nat
  off : Nat
  count : Nat
  stride : Nat
  wide : Nat
  flds : List FieldRow
deriving DecidableEq, Repr

/-- A register of a block class: page and offset. -/
structure Reg where
  cls : Nat
  page : Nat
  off : Nat
deriving DecidableEq, Repr

/-- A field of a register: lowest bit and width. -/
structure Fld where
  reg : Reg
  lo : Nat
  w : Nat
deriving DecidableEq, Repr

namespace Reg

def GLOBAL_CTRL : Reg := ⟨0xe0, 0, 0x80⟩
def GLOBAL_STATUS : Reg := ⟨0xe0, 0, 0x84⟩
def PWR_STATE : Reg := ⟨0xe1, 0, 0x80⟩
def PWR_PERMIT_MASK : Reg := ⟨0xe1, 0, 0x84⟩
def PWR_EFFECTIVE : Reg := ⟨0xe1, 0, 0x88⟩
def PWR_REQ : Reg := ⟨0xe1, 0, 0x8c⟩
def PWR_WAKE_AT_LO : Reg := ⟨0xe1, 0, 0x90⟩
def PWR_WAKE_AT_HI : Reg := ⟨0xe1, 0, 0x94⟩
def PWR_REQ_STATUS : Reg := ⟨0xe1, 0, 0x98⟩
def PWR_MIN_RESIDENCY : Reg := ⟨0xe1, 0, 0x9c⟩
def RES_IDLE_LO : Reg := ⟨0xe1, 0, 0xa0⟩
def RES_IDLE_HI : Reg := ⟨0xe1, 0, 0xa4⟩
def RES_DOZE_LO : Reg := ⟨0xe1, 0, 0xa8⟩
def RES_DOZE_HI : Reg := ⟨0xe1, 0, 0xac⟩
def RES_HOLD_LO : Reg := ⟨0xe1, 0, 0xb0⟩
def RES_HOLD_HI : Reg := ⟨0xe1, 0, 0xb4⟩
def WAKE_COUNTS : Reg := ⟨0xe1, 0, 0xb8⟩
def IDLE_ENTRY_DELAY : Reg := ⟨0xe1, 0, 0xbc⟩
def TJ_NOW : Reg := ⟨0xe1, 0, 0xc0⟩
def TJ_PEAK : Reg := ⟨0xe1, 0, 0xc4⟩
def THROTTLE_THRESH : Reg := ⟨0xe1, 0, 0xc8⟩
def POWER_CAP : Reg := ⟨0xe1, 0, 0xcc⟩
def POWER_NOW : Reg := ⟨0xe1, 0, 0xd0⟩
def GOV_FREQ_BOUNDS : Reg := ⟨0xe1, 0, 0xd4⟩
def GOV_VOLT_BOUNDS : Reg := ⟨0xe1, 0, 0xd8⟩
def GOV_PIN : Reg := ⟨0xe1, 0, 0xdc⟩
def GOV_APPLIED : Reg := ⟨0xe1, 0, 0xe0⟩
def GOV_SHADOW : Reg := ⟨0xe1, 0, 0xe4⟩
def GOV_CLAMP_COUNT : Reg := ⟨0xe1, 0, 0xe8⟩
def GATE_CTL : Reg := ⟨0xe1, 0, 0xec⟩
def GATE_WAKE_COUNT : Reg := ⟨0xe1, 0, 0xf0⟩
def TRIP_STATUS : Reg := ⟨0xe1, 0, 0xf4⟩
def PWR_BLOCKERS : Reg := ⟨0xe1, 0, 0xf8⟩
def GOV_VF_SEL : Reg := ⟨0xe1, 0, 0xfc⟩
def GOV_VF_MV : Reg := ⟨0xe1, 0, 0x100⟩
def GH_CTRL : Reg := ⟨0x10, 0, 0x80⟩
def GH_STATUS : Reg := ⟨0x10, 0, 0x84⟩
def GH_PROG_LEN : Reg := ⟨0x10, 0, 0x88⟩
def AO_TIME_LO : Reg := ⟨0x10, 0, 0x8c⟩
def AO_TIME_HI : Reg := ⟨0x10, 0, 0x90⟩
def GH_EVP : Reg := ⟨0x10, 0, 0x94⟩
def GH_GPIO_WAKE : Reg := ⟨0x10, 0, 0x98⟩
def GH_TJ_ALARM : Reg := ⟨0x10, 0, 0x9c⟩
def GH_RET_MV : Reg := ⟨0x10, 0, 0xa0⟩
def GH_BUDGET : Reg := ⟨0x10, 0, 0xa4⟩
def WAKE_SRC_SEEN : Reg := ⟨0x10, 0, 0xa8⟩
def GH_SIGNAL : Reg := ⟨0x10, 0, 0xac⟩
def SCRUB_COUNT : Reg := ⟨0x10, 0, 0xb0⟩
def SCRUB_CE_COUNT : Reg := ⟨0x10, 0, 0xb4⟩
def SCRUB_UE_INFO : Reg := ⟨0x10, 0, 0xb8⟩
def SCRUB_ABORT_COUNT : Reg := ⟨0x10, 0, 0xbc⟩
def HOLD_BLOCKED_COUNT : Reg := ⟨0x10, 0, 0xc0⟩
def KEY_RET_STATUS : Reg := ⟨0x10, 0, 0xc4⟩
def GH_DOORBELL : Reg := ⟨0x10, 0, 0xc8⟩
def EXIT_LATE_COUNT : Reg := ⟨0x10, 0, 0xcc⟩
def TC_ARMED : Reg := ⟨0x10, 1, 0x80⟩
def TC_CMP_LO (i : Nat) : Reg := ⟨0x10, 1, 0x100 + 8 * i⟩
def TC_CMP_HI (i : Nat) : Reg := ⟨0x10, 1, 0x104 + 8 * i⟩
def SCRATCH (i : Nat) : Reg := ⟨0x10, 1, 0x400 + 4 * i⟩
def GH_PROG (i : Nat) : Reg := ⟨0x10, 1, 0x800 + 4 * i⟩
def BOOT_STATUS : Reg := ⟨0x11, 0, 0x80⟩
def BOOT_SEQ : Reg := ⟨0x11, 0, 0x84⟩
def BOOT_HALT_CAUSE : Reg := ⟨0x11, 0, 0x88⟩
def BOOT_READY_TIME : Reg := ⟨0x11, 0, 0x8c⟩
def IMAGE_PREF : Reg := ⟨0x11, 0, 0x90⟩
def AUTO_LIMIT : Reg := ⟨0x11, 0, 0x94⟩
def VERDICT_CLEAR : Reg := ⟨0x11, 0, 0x98⟩
def BOOT_REBOOT : Reg := ⟨0x11, 0, 0x9c⟩
def LEDGER_FLASH : Reg := ⟨0x11, 0, 0xa0⟩
def SVN_STATUS : Reg := ⟨0x11, 0, 0xa4⟩
def BOOT_VERDICT (i : Nat) : Reg := ⟨0x11, 1, 0x80 + 4 * i⟩
def HG_CTRL : Reg := ⟨0x20, 0, 0x80⟩
def HG_STATE : Reg := ⟨0x20, 0, 0x84⟩
def HG_PC : Reg := ⟨0x20, 0, 0x88⟩
def HG_START_PC : Reg := ⟨0x20, 0, 0x8c⟩
def HG_FAULT : Reg := ⟨0x20, 0, 0x90⟩
def HG_FAULT_ADDR_LO : Reg := ⟨0x20, 0, 0x94⟩
def HG_FAULT_ADDR_HI : Reg := ⟨0x20, 0, 0x98⟩
def HG_EV_LO : Reg := ⟨0x20, 0, 0x9c⟩
def HG_EV_HI : Reg := ⟨0x20, 0, 0xa0⟩
def HG_WAIT_MASK_LO : Reg := ⟨0x20, 0, 0xa4⟩
def HG_WAIT_MASK_HI : Reg := ⟨0x20, 0, 0xa8⟩
def HG_DOORBELL : Reg := ⟨0x20, 0, 0xac⟩
def HG_SIGNAL : Reg := ⟨0x20, 0, 0xb0⟩
def HG_IMEM_LOCK : Reg := ⟨0x20, 0, 0xb4⟩
def HG_CYCLE_LO : Reg := ⟨0x20, 0, 0xb8⟩
def HG_CYCLE_HI : Reg := ⟨0x20, 0, 0xbc⟩
def HG_BUNDLES_LO : Reg := ⟨0x20, 0, 0xc0⟩
def HG_BUNDLES_HI : Reg := ⟨0x20, 0, 0xc4⟩
def HG_STALL_TABLE : Reg := ⟨0x20, 0, 0xc8⟩
def HG_ECC_CE_COUNT : Reg := ⟨0x20, 0, 0xcc⟩
def HG_BP (i : Nat) : Reg := ⟨0x20, 0, 0xd0 + 4 * i⟩
def RING_BASE (i : Nat) : Reg := ⟨0x20, 1, 0x80 + 16 * i⟩
def RING_SIZE (i : Nat) : Reg := ⟨0x20, 1, 0x84 + 16 * i⟩
def RING_PROD (i : Nat) : Reg := ⟨0x20, 1, 0x88 + 16 * i⟩
def RING_CONS (i : Nat) : Reg := ⟨0x20, 1, 0x8c + 16 * i⟩
def RING_FULL_COUNT : Reg := ⟨0x20, 1, 0x100⟩
def ORPHAN_COUNT : Reg := ⟨0x20, 1, 0x104⟩
def HG_TMR_LO (i : Nat) : Reg := ⟨0x20, 2, 0x80 + 8 * i⟩
def HG_TMR_HI (i : Nat) : Reg := ⟨0x20, 2, 0x84 + 8 * i⟩
def HG_TMR_ARMED : Reg := ⟨0x20, 2, 0xa0⟩
def MARK_LEVEL (i : Nat) : Reg := ⟨0x20, 2, 0xc0 + 4 * i⟩
def MARK_LOST (i : Nat) : Reg := ⟨0x20, 2, 0xe0 + 4 * i⟩
def HG_TASKS : Reg := ⟨0x20, 3, 0x80⟩
def HG_TASK_ABORT : Reg := ⟨0x20, 3, 0x84⟩
def ALLOT_STATUS : Reg := ⟨0x30, 0, 0x80⟩
def ALLOT_MAP_BYTES_LO : Reg := ⟨0x30, 0, 0x84⟩
def ALLOT_MAP_BYTES_HI : Reg := ⟨0x30, 0, 0x88⟩
def DRY_READ_COUNT : Reg := ⟨0x30, 0, 0x8c⟩
def DRY_READ_HANDLE : Reg := ⟨0x30, 0, 0x90⟩
def DRY_READ_OFFSET_LO : Reg := ⟨0x30, 0, 0x94⟩
def DRY_READ_OFFSET_HI : Reg := ⟨0x30, 0, 0x98⟩
def DAMAGED_COUNT : Reg := ⟨0x30, 0, 0x9c⟩
def DAMAGED_HANDLE : Reg := ⟨0x30, 0, 0xa0⟩
def DAMAGED_READ_COUNT : Reg := ⟨0x30, 0, 0xa4⟩
def WRITE_DISCARD_COUNT : Reg := ⟨0x30, 0, 0xa8⟩
def WRITE_DISCARD_HANDLE : Reg := ⟨0x30, 0, 0xac⟩
def DEFER_COUNT : Reg := ⟨0x30, 0, 0xb0⟩
def DRAIN_TO_LIFT_COUNT : Reg := ⟨0x30, 0, 0xb4⟩
def STALE_COUNT : Reg := ⟨0x30, 0, 0xb8⟩
def STALE_HANDLE : Reg := ⟨0x30, 0, 0xbc⟩
def REFCOUNT_WAIT_COUNT : Reg := ⟨0x30, 0, 0xc0⟩
def RETIRED_COUNT : Reg := ⟨0x30, 0, 0xc4⟩
def STATE_COUNT (i : Nat) : Reg := ⟨0x30, 1, 0x80 + 4 * i⟩
def POOL_STATUS : Reg := ⟨0x31, 0, 0x80⟩
def SVC_WEIGHT : Reg := ⟨0x31, 0, 0x84⟩
def STALL_LIMIT : Reg := ⟨0x31, 0, 0x88⟩
def AGE_LOW : Reg := ⟨0x31, 0, 0x8c⟩
def AGE_HIGH : Reg := ⟨0x31, 0, 0x90⟩
def AGE_PIN : Reg := ⟨0x31, 0, 0x94⟩
def AGE_APPLIED : Reg := ⟨0x31, 0, 0x98⟩
def AGE_SHADOW : Reg := ⟨0x31, 0, 0x9c⟩
def AGE_CLAMP_COUNT : Reg := ⟨0x31, 0, 0xa0⟩
def REGRET_COUNT : Reg := ⟨0x31, 0, 0xa4⟩
def EVICT_COUNT : Reg := ⟨0x31, 0, 0xa8⟩
def NO_DEST_COUNT : Reg := ⟨0x31, 0, 0xac⟩
def QUOTA_REFUSE_COUNT : Reg := ⟨0x31, 0, 0xb0⟩
def QUOTA_OVER_COUNT : Reg := ⟨0x31, 0, 0xb4⟩
def SPACE_REFUSE_COUNT : Reg := ⟨0x31, 0, 0xb8⟩
def EVICT_BYTES_T1_LO : Reg := ⟨0x31, 0, 0xbc⟩
def EVICT_BYTES_T1_HI : Reg := ⟨0x31, 0, 0xc0⟩
def RELIFT_BYTES_T1_LO : Reg := ⟨0x31, 0, 0xc4⟩
def RELIFT_BYTES_T1_HI : Reg := ⟨0x31, 0, 0xc8⟩
def TIER_LATE_NS (t : Nat) : Reg := ⟨0x31, 0, 0xcc + 4 * (t - 2)⟩
def CAPACITY_T_LO (i : Nat) : Reg := ⟨0x31, 1, 0x80 + 32 * i⟩
def CAPACITY_T_HI (i : Nat) : Reg := ⟨0x31, 1, 0x84 + 32 * i⟩
def RESERVED_T_LO (i : Nat) : Reg := ⟨0x31, 1, 0x88 + 32 * i⟩
def RESERVED_T_HI (i : Nat) : Reg := ⟨0x31, 1, 0x8c + 32 * i⟩
def USED_T_LO (i : Nat) : Reg := ⟨0x31, 1, 0x90 + 32 * i⟩
def USED_T_HI (i : Nat) : Reg := ⟨0x31, 1, 0x94 + 32 * i⟩
def SOFT_WM_T (i : Nat) : Reg := ⟨0x31, 1, 0x98 + 32 * i⟩
def WM_CROSS_COUNT_T (i : Nat) : Reg := ⟨0x31, 1, 0x9c + 32 * i⟩
def NODE (i : Nat) : Reg := ⟨0x31, 1, 0x140 + 16 * i⟩
def NODE_GRANT (i : Nat) : Reg := ⟨0x31, 1, 0x144 + 16 * i⟩
def NODE_USED (i : Nat) : Reg := ⟨0x31, 1, 0x148 + 16 * i⟩
def NODE_STATUS (i : Nat) : Reg := ⟨0x31, 1, 0x14c + 16 * i⟩
def QUOTA (p t : Nat) : Reg := ⟨0x31, 2, 0x80 + 0x20 * p + 4 * (t - 1)⟩
def USAGE (p t : Nat) : Reg := ⟨0x31, 2, 0x90 + 0x20 * p + 4 * (t - 1)⟩
def STALL_COUNT (i : Nat) : Reg := ⟨0x31, 3, 0x80 + 16 * i⟩
def STALL_NS_LO (i : Nat) : Reg := ⟨0x31, 3, 0x84 + 16 * i⟩
def STALL_NS_HI (i : Nat) : Reg := ⟨0x31, 3, 0x88 + 16 * i⟩
def FLM_STATUS : Reg := ⟨0x40, 0, 0x80⟩
def FLM_OUT : Reg := ⟨0x40, 0, 0x84⟩
def FLM_OUT_LIMIT : Reg := ⟨0x40, 0, 0x88⟩
def FLM_CTX_CMD : Reg := ⟨0x40, 0, 0x8c⟩
def FLM_RESUME_LANES : Reg := ⟨0x40, 0, 0x90⟩
def FLM_BYTES_IN_LO : Reg := ⟨0x40, 0, 0x94⟩
def FLM_BYTES_IN_HI : Reg := ⟨0x40, 0, 0x98⟩
def FLM_BYTES_OUT_LO : Reg := ⟨0x40, 0, 0x9c⟩
def FLM_BYTES_OUT_HI : Reg := ⟨0x40, 0, 0xa0⟩
def HALT_COUNT : Reg := ⟨0x40, 0, 0xa4⟩
def FAULT_ABORT_COUNT : Reg := ⟨0x40, 0, 0xa8⟩
def PRI_REQ_COUNT : Reg := ⟨0x40, 0, 0xac⟩
def PRI_FAIL_COUNT : Reg := ⟨0x40, 0, 0xb0⟩
def CTX_W0 (i : Nat) : Reg := ⟨0x40, 1, 0x80 + 16 * i⟩
def CTX_W1 (i : Nat) : Reg := ⟨0x40, 1, 0x84 + 16 * i⟩
def CTX_W2 (i : Nat) : Reg := ⟨0x40, 1, 0x88 + 16 * i⟩
def CTX_W3 (i : Nat) : Reg := ⟨0x40, 1, 0x8c + 16 * i⟩
def LEAD_LOW : Reg := ⟨0x40, 1, 0x200⟩
def LEAD_HIGH : Reg := ⟨0x40, 1, 0x204⟩
def LEAD_PIN : Reg := ⟨0x40, 1, 0x208⟩
def LEAD_MARGIN : Reg := ⟨0x40, 1, 0x20c⟩
def LEAD_CLAMP_COUNT : Reg := ⟨0x40, 1, 0x210⟩
def LEAD_SLOTS : Reg := ⟨0x40, 1, 0x214⟩
def LEAD_SEL : Reg := ⟨0x40, 1, 0x218⟩
def LEAD_APPLIED : Reg := ⟨0x40, 1, 0x21c⟩
def LEAD_SHADOW : Reg := ⟨0x40, 1, 0x220⟩
def TURN_STATUS : Reg := ⟨0x40, 1, 0x300⟩
def TSIG_VALUE : Reg := ⟨0x40, 1, 0x304⟩
def SIG_COUNT : Reg := ⟨0x40, 1, 0x308⟩
def TURN_FAULT : Reg := ⟨0x40, 1, 0x30c⟩
def TURN_FAULT_INSN : Reg := ⟨0x40, 1, 0x310⟩
def BURST_FAIL_COUNT : Reg := ⟨0x40, 1, 0x314⟩
def WAITO_TIMEOUT_COUNT : Reg := ⟨0x40, 1, 0x318⟩
def TURN_INSN_LO : Reg := ⟨0x40, 1, 0x31c⟩
def TURN_INSN_HI : Reg := ⟨0x40, 1, 0x320⟩
def FLM_PROG (i : Nat) : Reg := ⟨0x40, 1, 0x800 + 4 * i⟩
def LANE_STATUS : Reg := ⟨0x50, 0, 0x80⟩
def QUEUE_PEAK : Reg := ⟨0x50, 0, 0x84⟩
def BLK_COMP_COUNT : Reg := ⟨0x50, 0, 0x88⟩
def BLK_EXP_COUNT : Reg := ⟨0x50, 0, 0x8c⟩
def ITER_COUNT (i : Nat) : Reg := ⟨0x50, 0, 0x90 + 4 * i⟩
def SMALLER_COUNT : Reg := ⟨0x50, 0, 0xa0⟩
def ESCAPE_COUNT : Reg := ⟨0x50, 0, 0xa4⟩
def OVER_COUNT : Reg := ⟨0x50, 0, 0xa8⟩
def ESC_EXHAUST_COUNT : Reg := ⟨0x50, 0, 0xac⟩
def NONFINITE_COUNT : Reg := ⟨0x50, 0, 0xb0⟩
def CHECK_FAIL_COUNT : Reg := ⟨0x50, 0, 0xb4⟩
def CHECK_FAIL_HANDLE : Reg := ⟨0x50, 0, 0xb8⟩
def CHECK_FAIL_CAUSE : Reg := ⟨0x50, 0, 0xbc⟩
def CHECK_FAIL_BLOCK : Reg := ⟨0x50, 0, 0xc0⟩
def QUEUE_FULL_COUNT : Reg := ⟨0x50, 0, 0xc4⟩
def LANE_BYTES_IN_LO : Reg := ⟨0x50, 0, 0xc8⟩
def LANE_BYTES_IN_HI : Reg := ⟨0x50, 0, 0xcc⟩
def LANE_BYTES_OUT_LO : Reg := ⟨0x50, 0, 0xd0⟩
def LANE_BYTES_OUT_HI : Reg := ⟨0x50, 0, 0xd4⟩
def KEY_FAIL_COUNT : Reg := ⟨0x50, 0, 0xd8⟩
def SLC_POLICY (i : Nat) : Reg := ⟨0x51, 0, 0x80 + 4 * i⟩
def KEY_SEL : Reg := ⟨0x51, 0, 0xa0⟩
def KEY_DATA : Reg := ⟨0x51, 0, 0xa4⟩
def KEY_CMD : Reg := ⟨0x51, 0, 0xa8⟩
def KEY_STATUS : Reg := ⟨0x51, 0, 0xac⟩
def KEY_RETAIN : Reg := ⟨0x51, 0, 0xb0⟩
def KEY_USE_FAIL_COUNT : Reg := ⟨0x51, 0, 0xb4⟩
def SPH_STATUS : Reg := ⟨0x61, 0, 0x80⟩
def SPH_CHAIN_BASE_LO : Reg := ⟨0x61, 0, 0x84⟩
def SPH_CHAIN_BASE_HI : Reg := ⟨0x61, 0, 0x88⟩
def SPH_CHAIN_ENTRIES : Reg := ⟨0x61, 0, 0x8c⟩
def CHAINS_DONE : Reg := ⟨0x61, 0, 0x90⟩
def CRC_FAIL_COUNT : Reg := ⟨0x61, 0, 0x94⟩
def SCRATCH_REFUSE_COUNT : Reg := ⟨0x61, 0, 0x98⟩
def AUTO_RECOMPUTE_COUNT : Reg := ⟨0x61, 0, 0x9c⟩
def AUTO_RECOMPUTE_FAIL : Reg := ⟨0x61, 0, 0xa0⟩
def LAST_FAIL : Reg := ⟨0x61, 0, 0xa4⟩
def LAST_FAIL_HANDLE : Reg := ⟨0x61, 0, 0xa8⟩
def LAST_CHAIN_FLAGS : Reg := ⟨0x61, 0, 0xac⟩
def TILE_STATUS : Reg := ⟨0x60, 0, 0x80⟩
def TILE_ARITH : Reg := ⟨0x60, 0, 0x84⟩
def SCRATCH_USED : Reg := ⟨0x60, 0, 0x88⟩
def SCRATCH_PEAK : Reg := ⟨0x60, 0, 0x8c⟩
def DESC_COUNT : Reg := ⟨0x60, 0, 0x90⟩
def MAC_CYCLES_LO : Reg := ⟨0x60, 0, 0x94⟩
def MAC_CYCLES_HI : Reg := ⟨0x60, 0, 0x98⟩
def LAST_OVF : Reg := ⟨0x60, 0, 0x9c⟩
def LAST_INV : Reg := ⟨0x60, 0, 0xa0⟩
def LAST_SAT : Reg := ⟨0x60, 0, 0xa4⟩
def LAST_CONV_OVF : Reg := ⟨0x60, 0, 0xa8⟩
def LAST_CONV_INV : Reg := ⟨0x60, 0, 0xac⟩
def TOTAL_OVF : Reg := ⟨0x60, 0, 0xb0⟩
def TOTAL_INV : Reg := ⟨0x60, 0, 0xb4⟩
def TOTAL_SAT : Reg := ⟨0x60, 0, 0xb8⟩
def TOTAL_CONV_OVF : Reg := ⟨0x60, 0, 0xbc⟩
def TOTAL_CONV_INV : Reg := ⟨0x60, 0, 0xc0⟩
def FB_OPEN_STEP : Reg := ⟨0x70, 0, 0x80⟩
def FB_STATUS : Reg := ⟨0x70, 0, 0x84⟩
def LS_BOUNDS : Reg := ⟨0x70, 0, 0x88⟩
def LS_START : Reg := ⟨0x70, 0, 0x8c⟩
def LS_PIN : Reg := ⟨0x70, 0, 0x90⟩
def LS_APPLIED : Reg := ⟨0x70, 0, 0x94⟩
def LS_SHADOW : Reg := ⟨0x70, 0, 0x98⟩
def LS_CLEAN : Reg := ⟨0x70, 0, 0x9c⟩
def LS_CLAMP_COUNT : Reg := ⟨0x70, 0, 0xa0⟩
def VOTE_CFG : Reg := ⟨0x70, 0, 0xa4⟩
def VOTE_FLEET : Reg := ⟨0x70, 0, 0xa8⟩
def VOTE_WINDOW : Reg := ⟨0x70, 0, 0xac⟩
def PROCEED_COUNT : Reg := ⟨0x70, 0, 0xb0⟩
def SKIP_COUNT : Reg := ⟨0x70, 0, 0xb4⟩
def INCOMPLETE_COUNT : Reg := ⟨0x70, 0, 0xb8⟩
def MISSED_COUNT : Reg := ⟨0x70, 0, 0xbc⟩
def LATE_VOTES : Reg := ⟨0x70, 0, 0xc0⟩
def RESULT_TIMEOUT_COUNT : Reg := ⟨0x70, 0, 0xc4⟩
def CHILD_WAIT : Reg := ⟨0x70, 0, 0xc8⟩
def LAST_VERDICT : Reg := ⟨0x70, 0, 0xcc⟩
def LAST_VERDICT_STEP : Reg := ⟨0x70, 0, 0xd0⟩
def PTS_BOUNDS : Reg := ⟨0x70, 1, 0x80⟩
def PTS_SEL : Reg := ⟨0x70, 1, 0x84⟩
def PTS_PIN : Reg := ⟨0x70, 1, 0x88⟩
def PTS_CLAMP_COUNT : Reg := ⟨0x70, 1, 0x8c⟩
def FB_T1_BASE_LO : Reg := ⟨0x70, 1, 0x90⟩
def FB_T1_BASE_HI : Reg := ⟨0x70, 1, 0x94⟩
def FB_T1_BYTES_LO : Reg := ⟨0x70, 1, 0x98⟩
def FB_T1_BYTES_HI : Reg := ⟨0x70, 1, 0x9c⟩
def HIST_BANK : Reg := ⟨0x70, 1, 0xa0⟩
def STEP_MISMATCH_COUNT : Reg := ⟨0x70, 1, 0xa4⟩
def LATE_OBSERVE_COUNT : Reg := ⟨0x70, 1, 0xa8⟩
def TBL_WIN_SEL : Reg := ⟨0x70, 1, 0xb0⟩
def CONV_OVF (i : Nat) : Reg := ⟨0x70, 1, 0xc0 + 8 * i⟩
def CONV_INV (i : Nat) : Reg := ⟨0x70, 1, 0xc4 + 8 * i⟩
def CLIP_MAX (i : Nat) : Reg := ⟨0x70, 2, 0x80 + 4 * i⟩
def GROUP_NORM (i : Nat) : Reg := ⟨0x70, 3, 0x80 + 4 * i⟩
def GROUP_CLIP (i : Nat) : Reg := ⟨0x70, 3, 0x180 + 4 * i⟩
def CK_STATUS : Reg := ⟨0x80, 0, 0x80⟩
def CK_GEN : Reg := ⟨0x80, 0, 0x84⟩
def CK_NEXT_STEP : Reg := ⟨0x80, 0, 0x88⟩
def CK_REGION_SEL : Reg := ⟨0x80, 0, 0x8c⟩
def CK_REGION_STATUS : Reg := ⟨0x80, 0, 0x90⟩
def CK_EPOCH_LO : Reg := ⟨0x80, 0, 0x94⟩
def CK_EPOCH_HI : Reg := ⟨0x80, 0, 0x98⟩
def CK_REGION_CMD : Reg := ⟨0x80, 0, 0x9c⟩
def LEASE_MS : Reg := ⟨0x80, 0, 0xa0⟩
def CK_COMMIT_COUNT : Reg := ⟨0x80, 0, 0xa4⟩
def CK_LAST_COMMIT_US : Reg := ⟨0x80, 0, 0xa8⟩
def RESIDUE_BYTES_LO : Reg := ⟨0x80, 0, 0xac⟩
def RESIDUE_BYTES_HI : Reg := ⟨0x80, 0, 0xb0⟩
def TRICKLE_BYTES_LO : Reg := ⟨0x80, 0, 0xb4⟩
def TRICKLE_BYTES_HI : Reg := ⟨0x80, 0, 0xb8⟩
def HELD_WRITE_COUNT : Reg := ⟨0x80, 0, 0xbc⟩
def LEASE_LOST_COUNT : Reg := ⟨0x80, 0, 0xc0⟩
def UNPROTECTED_COUNT : Reg := ⟨0x80, 0, 0xc4⟩
def COMMIT_QUEUED_COUNT : Reg := ⟨0x80, 0, 0xc8⟩
def CK_MAP_BYTES_LO : Reg := ⟨0x80, 0, 0xcc⟩
def CK_MAP_BYTES_HI : Reg := ⟨0x80, 0, 0xd0⟩
def HOST_TIER : Reg := ⟨0x80, 1, 0x80⟩
def HOST_SLOT_CTRL (i : Nat) : Reg := ⟨0x80, 1, 0x90 + 16 * i⟩
def HOST_SLOT_BYTES (i : Nat) : Reg := ⟨0x80, 1, 0x94 + 16 * i⟩
def HOST_SLOT_STATE (i : Nat) : Reg := ⟨0x80, 1, 0x98 + 16 * i⟩
def HOST_SLOT_LEASE (i : Nat) : Reg := ⟨0x80, 1, 0x9c + 16 * i⟩
def HOST_SEL : Reg := ⟨0x80, 1, 0x120⟩
def HOST_EPOCH_LO : Reg := ⟨0x80, 1, 0x124⟩
def HOST_EPOCH_HI : Reg := ⟨0x80, 1, 0x128⟩
def HOST_REFUSE_COUNT : Reg := ⟨0x80, 1, 0x12c⟩
def RESTORE_STATUS : Reg := ⟨0x80, 2, 0x80⟩
def RESTORE_BYTES_LO : Reg := ⟨0x80, 2, 0x84⟩
def RESTORE_BYTES_HI : Reg := ⟨0x80, 2, 0x88⟩
def RESTORE_COUNT : Reg := ⟨0x80, 2, 0x8c⟩
def PORT_STATUS : Reg := ⟨0x90, 0, 0x80⟩
def PORT_HOLD : Reg := ⟨0x90, 0, 0x84⟩
def HDM_STATUS : Reg := ⟨0x90, 0, 0x88⟩
def HDM_SIZE_0 : Reg := ⟨0x90, 0, 0x8c⟩
def HDM_SIZE_1 : Reg := ⟨0x90, 0, 0x90⟩
def HINT (i : Nat) : Reg := ⟨0x90, 0, 0x94 + 4 * i⟩
def HINT_COUNT : Reg := ⟨0x90, 0, 0xa4⟩
def MARK_COUNT : Reg := ⟨0x90, 0, 0xa8⟩
def PP_RETRAIN_COUNT : Reg := ⟨0x90, 0, 0xac⟩
def HOLD_EXPIRE_COUNT : Reg := ⟨0x90, 0, 0xb0⟩
def BYTES_WR_LO : Reg := ⟨0x90, 0, 0xb4⟩
def BYTES_WR_HI : Reg := ⟨0x90, 0, 0xb8⟩
def BYTES_RD_LO : Reg := ⟨0x90, 0, 0xbc⟩
def BYTES_RD_HI : Reg := ⟨0x90, 0, 0xc0⟩
def POISON_RETURN_COUNT : Reg := ⟨0x90, 0, 0xc4⟩
def VIOL_FIRST : Reg := ⟨0x90, 1, 0x80⟩
def VIOL_ADDR_LO : Reg := ⟨0x90, 1, 0x84⟩
def VIOL_ADDR_HI : Reg := ⟨0x90, 1, 0x88⟩
def VIOL_HANDLE : Reg := ⟨0x90, 1, 0x8c⟩
def PP_VIOL_COUNT (i : Nat) : Reg := ⟨0x90, 1, 0x8c + 4 * i⟩
def HOST_LINK : Reg := ⟨0xa0, 0, 0x80⟩
def HOST_T3_BASE_LO : Reg := ⟨0xa0, 0, 0x84⟩
def HOST_T3_BASE_HI : Reg := ⟨0xa0, 0, 0x88⟩
def HOST_T3_BYTES_LO : Reg := ⟨0xa0, 0, 0x8c⟩
def HOST_T3_BYTES_HI : Reg := ⟨0xa0, 0, 0x90⟩
def HOST_T3_PASID : Reg := ⟨0xa0, 0, 0x94⟩
def UNMAPPED_COUNT : Reg := ⟨0xa0, 0, 0x98⟩
def T3_RANGE_COUNT : Reg := ⟨0xa0, 0, 0x9c⟩
def ATS_INVAL_COUNT : Reg := ⟨0xa0, 0, 0xa0⟩
def PRI_STRAY_COUNT : Reg := ⟨0xa0, 0, 0xa4⟩
def T3_CPL_ERR_COUNT : Reg := ⟨0xa0, 0, 0xa8⟩
def AP_FAULT_COUNT : Reg := ⟨0xa0, 0, 0xac⟩
def AP_FAULT_INFO : Reg := ⟨0xa0, 0, 0xb0⟩
def AP_CTRL (i : Nat) : Reg := ⟨0xa0, 0, 0x100 + 16 * i⟩
def AP_BIND (i : Nat) : Reg := ⟨0xa0, 0, 0x104 + 16 * i⟩
def AP_OFF (i : Nat) : Reg := ⟨0xa0, 0, 0x108 + 16 * i⟩
def EXP_STATUS : Reg := ⟨0xa1, 0, 0x80⟩
def EXP_DOWN_LIMIT : Reg := ⟨0xa1, 0, 0x84⟩
def EXP_RETRAIN_COUNT : Reg := ⟨0xa1, 0, 0x88⟩
def POISON_RX_COUNT : Reg := ⟨0xa1, 0, 0x8c⟩
def CPL_ERR_COUNT : Reg := ⟨0xa1, 0, 0x90⟩
def AER_CE_COUNT : Reg := ⟨0xa1, 0, 0x94⟩
def AER_UE_COUNT : Reg := ⟨0xa1, 0, 0x98⟩
def EXP_WARN_COUNT : Reg := ⟨0xa1, 0, 0x9c⟩
def EXP_FAIL_COUNT : Reg := ⟨0xa1, 0, 0xa0⟩
def EXP_USED_BYTES_LO : Reg := ⟨0xa1, 0, 0xa4⟩
def EXP_USED_BYTES_HI : Reg := ⟨0xa1, 0, 0xa8⟩
def LL_STATUS : Reg := ⟨0xb0, 0, 0x80⟩
def LL_CTRL : Reg := ⟨0xb0, 0, 0x84⟩
def LL_PEER : Reg := ⟨0xb0, 0, 0x88⟩
def LL_RATE_BOUNDS : Reg := ⟨0xb0, 0, 0x8c⟩
def LL_RATE_PIN : Reg := ⟨0xb0, 0, 0x90⟩
def LL_RATE_APPLIED : Reg := ⟨0xb0, 0, 0x94⟩
def LL_RATE_SHADOW : Reg := ⟨0xb0, 0, 0x98⟩
def LL_CLAMP_COUNT : Reg := ⟨0xb0, 0, 0x9c⟩
def FEC_THRESH : Reg := ⟨0xb0, 0, 0xa0⟩
def FEC_WINDOW : Reg := ⟨0xb0, 0, 0xa4⟩
def LL_PROMOTE : Reg := ⟨0xb0, 0, 0xa8⟩
def FEC_CORR_SYM_LO (i : Nat) : Reg := ⟨0xb0, 0, 0xac + 8 * i⟩
def FEC_CORR_SYM_HI (i : Nat) : Reg := ⟨0xb0, 0, 0xb0 + 8 * i⟩
def FEC_CW_LO : Reg := ⟨0xb0, 0, 0xbc⟩
def FEC_CW_HI : Reg := ⟨0xb0, 0, 0xc0⟩
def FEC_UNCORR_CW : Reg := ⟨0xb0, 0, 0xc4⟩
def HCRC_FAIL_COUNT : Reg := ⟨0xb0, 0, 0xc8⟩
def DEGRADE_COUNT : Reg := ⟨0xb0, 0, 0xcc⟩
def PROMOTE_COUNT : Reg := ⟨0xb0, 0, 0xd0⟩
def LL_RETRAIN_COUNT : Reg := ⟨0xb0, 0, 0xd4⟩
def LP_ENTRY_COUNT : Reg := ⟨0xb0, 0, 0xd8⟩
def LL_SEQ : Reg := ⟨0xb0, 1, 0x80⟩
def LL_REPLAY : Reg := ⟨0xb0, 1, 0x84⟩
def LL_ACK_TIMEOUT : Reg := ⟨0xb0, 1, 0x88⟩
def LL_REPLAY_LIMIT : Reg := ⟨0xb0, 1, 0x8c⟩
def LL_RETRY_MS : Reg := ⟨0xb0, 1, 0x90⟩
def NAK_TX_COUNT : Reg := ⟨0xb0, 1, 0x94⟩
def NAK_RX_COUNT : Reg := ⟨0xb0, 1, 0x98⟩
def REPLAY_FLITS : Reg := ⟨0xb0, 1, 0x9c⟩
def CREDIT_AVAIL (i : Nat) : Reg := ⟨0xb0, 1, 0xa0 + 4 * i⟩
def RX_FREE (i : Nat) : Reg := ⟨0xb0, 1, 0xb0 + 4 * i⟩
def VC_FLITS (i : Nat) : Reg := ⟨0xb0, 1, 0xc0 + 4 * i⟩
def LR_TOPO : Reg := ⟨0xb1, 0, 0x80⟩
def LR_DIM_XY : Reg := ⟨0xb1, 0, 0x84⟩
def LR_DIM_Z : Reg := ⟨0xb1, 0, 0x88⟩
def LR_CMD : Reg := ⟨0xb1, 0, 0x8c⟩
def LR_CFG_STATUS : Reg := ⟨0xb1, 0, 0x90⟩
def LR_ROUTE_SEL : Reg := ⟨0xb1, 0, 0x94⟩
def LR_ROUTE_DATA : Reg := ⟨0xb1, 0, 0x98⟩
def LR_QUAR_CFG : Reg := ⟨0xb1, 0, 0x9c⟩
def LR_QUARANTINED : Reg := ⟨0xb1, 0, 0xa0⟩
def LR_BARRIER : Reg := ⟨0xb1, 0, 0xa4⟩
def FWD_FLITS_LO : Reg := ⟨0xb1, 0, 0xa8⟩
def FWD_FLITS_HI : Reg := ⟨0xb1, 0, 0xac⟩
def DETOUR_COUNT : Reg := ⟨0xb1, 0, 0xb0⟩
def UNREACH_COUNT : Reg := ⟨0xb1, 0, 0xb4⟩
def RESEND_MSG_COUNT : Reg := ⟨0xb1, 0, 0xb8⟩
def LATE_RSP_COUNT : Reg := ⟨0xb1, 0, 0xbc⟩
def DUP_DISCARD_COUNT : Reg := ⟨0xb1, 0, 0xc0⟩
def LR_LINK_SET (i : Nat) : Reg := ⟨0xb1, 1, 0x80 + 4 * i⟩
def LR_VIOL_FIRST : Reg := ⟨0xb1, 1, 0x90⟩
def LR_VIOL_INFO : Reg := ⟨0xb1, 1, 0x94⟩
def LR_VIOL_HDR0 : Reg := ⟨0xb1, 1, 0x98⟩
def LR_VIOL_COUNT (i : Nat) : Reg := ⟨0xb1, 1, 0x9c + 4 * i⟩
def LR_HOST_CTRL (i : Nat) : Reg := ⟨0xb1, 1, 0x100 + 16 * i⟩
def LR_HOST_BLOCKS (i : Nat) : Reg := ⟨0xb1, 1, 0x104 + 16 * i⟩
def LR_HOST_BASE_LO (i : Nat) : Reg := ⟨0xb1, 1, 0x108 + 16 * i⟩
def LR_HOST_BASE_HI (i : Nat) : Reg := ⟨0xb1, 1, 0x10c + 16 * i⟩
def HBM_STATUS : Reg := ⟨0xc0, 0, 0x80⟩
def HBM_ILV : Reg := ⟨0xc0, 0, 0x84⟩
def HBM_PC_MASK : Reg := ⟨0xc0, 0, 0x88⟩
def HBM_TEMP : Reg := ⟨0xc0, 0, 0x8c⟩
def HBM_TEMP_ALARM : Reg := ⟨0xc0, 0, 0x90⟩
def REF_BLOCK_COUNT : Reg := ⟨0xc0, 0, 0x94⟩
def CA_PAR_COUNT : Reg := ⟨0xc0, 0, 0x98⟩
def CAL_COUNT : Reg := ⟨0xc0, 0, 0x9c⟩
def RD_BYTES_LO : Reg := ⟨0xc0, 0, 0xa0⟩
def RD_BYTES_HI : Reg := ⟨0xc0, 0, 0xa4⟩
def WR_BYTES_LO : Reg := ⟨0xc0, 0, 0xa8⟩
def WR_BYTES_HI : Reg := ⟨0xc0, 0, 0xac⟩
def HBM_USED_BYTES_LO : Reg := ⟨0xc0, 0, 0xb0⟩
def HBM_USED_BYTES_HI : Reg := ⟨0xc0, 0, 0xb4⟩
def PC_STATUS (i : Nat) : Reg := ⟨0xc0, 1, 0x80 + 4 * i⟩
def TRC_CTRL : Reg := ⟨0xd0, 0, 0x80⟩
def TRC_STATUS : Reg := ⟨0xd0, 0, 0x84⟩
def TRC_WRITTEN_LO : Reg := ⟨0xd0, 0, 0x88⟩
def TRC_WRITTEN_HI : Reg := ⟨0xd0, 0, 0x8c⟩
def TRC_VALID_FROM_LO : Reg := ⟨0xd0, 0, 0x90⟩
def TRC_VALID_FROM_HI : Reg := ⟨0xd0, 0, 0x94⟩
def TRC_RD_LO : Reg := ⟨0xd0, 0, 0x98⟩
def TRC_RD_HI : Reg := ⟨0xd0, 0, 0x9c⟩
def TRC_SRC_EN : Reg := ⟨0xd0, 0, 0xa0⟩
def TRC_TYPE_EN : Reg := ⟨0xd0, 0, 0xa4⟩
def TRC_FILTER : Reg := ⟨0xd0, 0, 0xa8⟩
def TRC_HANDLE_MATCH : Reg := ⟨0xd0, 0, 0xac⟩
def TRC_HANDLE_MASK : Reg := ⟨0xd0, 0, 0xb0⟩
def TRC_SYNC_PERIOD : Reg := ⟨0xd0, 0, 0xb4⟩
def TRC_WATERMARK : Reg := ⟨0xd0, 0, 0xb8⟩
def TRC_FLUSH_IDLE : Reg := ⟨0xd0, 0, 0xbc⟩
def TRC_SW_LO : Reg := ⟨0xd0, 0, 0xc0⟩
def TRC_SW_HI : Reg := ⟨0xd0, 0, 0xc4⟩
def TRC_TIME_LO : Reg := ⟨0xd0, 0, 0xc8⟩
def TRC_TIME_HI : Reg := ⟨0xd0, 0, 0xcc⟩
def TRC_LOST_TOTAL : Reg := ⟨0xd0, 0, 0xd0⟩
def TRIG_POST_LINES : Reg := ⟨0xd0, 0, 0xd4⟩
def TRIG_CTRL (i : Nat) : Reg := ⟨0xd0, 0, 0x100 + 16 * i⟩
def TRIG_VALUE (i : Nat) : Reg := ⟨0xd0, 0, 0x104 + 16 * i⟩
def TRIG_MASK (i : Nat) : Reg := ⟨0xd0, 0, 0x108 + 16 * i⟩
def TRIG_HITS (i : Nat) : Reg := ⟨0xd0, 0, 0x10c + 16 * i⟩
def GLOBAL_EPOCH_LO : Reg := ⟨0xe0, 0, 0x88⟩
def GLOBAL_EPOCH_HI : Reg := ⟨0xe0, 0, 0x8c⟩
def DEV_ERR_MAP (i : Nat) : Reg := ⟨0xe0, 0, 0x90 + 4 * i⟩
def DEV_FATAL : Reg := ⟨0xe0, 0, 0xa0⟩
def CTRL_CE_TOTAL : Reg := ⟨0xe0, 0, 0xa4⟩
def CTRL_UE_TOTAL : Reg := ⟨0xe0, 0, 0xa8⟩
def UE_FIRST_SRC : Reg := ⟨0xe0, 0, 0xac⟩
def UE_FIRST_ADDR : Reg := ⟨0xe0, 0, 0xb0⟩
def ATTACH_TOKEN : Reg := ⟨0xe0, 0, 0xb4⟩
def MGMT_CTRL : Reg := ⟨0xe0, 0, 0xb8⟩
def SMB_CFG : Reg := ⟨0xe0, 0, 0xbc⟩
def SMB_PEC_ERR_COUNT : Reg := ⟨0xe0, 0, 0xc0⟩
def SMB_TIMEOUT_COUNT : Reg := ⟨0xe0, 0, 0xc4⟩
def MCTP_EID : Reg := ⟨0xe0, 0, 0xc8⟩
def MGMT_DENIED_COUNT : Reg := ⟨0xe0, 0, 0xcc⟩
def JTAG_REFUSED_COUNT : Reg := ⟨0xe0, 0, 0xd0⟩
def PLDM_EVENT_DROP_COUNT : Reg := ⟨0xe0, 0, 0xd4⟩
def GPIO_FUNC : Reg := ⟨0xe0, 0, 0xe0⟩
def GPIO_OUT : Reg := ⟨0xe0, 0, 0xe4⟩
def GPIO_IN : Reg := ⟨0xe0, 0, 0xe8⟩
def GPIO_EDGE_EN : Reg := ⟨0xe0, 0, 0xec⟩
def GPIO_EDGE : Reg := ⟨0xe0, 0, 0xf0⟩
def FA_CTRL : Reg := ⟨0xe0, 0, 0xf8⟩
def FA_STATUS : Reg := ⟨0xe0, 0, 0xfc⟩
def FLASH_ADDR : Reg := ⟨0xe0, 0, 0x100⟩
def FLASH_LEN : Reg := ⟨0xe0, 0, 0x104⟩
def FLASH_CMD : Reg := ⟨0xe0, 0, 0x108⟩
def FLASH_STATUS : Reg := ⟨0xe0, 0, 0x10c⟩
def FLASH_INFO : Reg := ⟨0xe0, 0, 0x110⟩
def FLASH_PREEMPT_COUNT : Reg := ⟨0xe0, 0, 0x114⟩
def FLASH_BUF (i : Nat) : Reg := ⟨0xe0, 0, 0x200 + 4 * i⟩
end Reg

namespace Fld

def GLOBAL_CTRL_FREEZE : Fld := ⟨.GLOBAL_CTRL, 0, 1⟩
def GLOBAL_STATUS_FREEZE_PENDING : Fld := ⟨.GLOBAL_STATUS, 1, 1⟩
def GLOBAL_STATUS_ALL_FROZEN : Fld := ⟨.GLOBAL_STATUS, 0, 1⟩
def PWR_STATE_LAST_WAKE_SRC : Fld := ⟨.PWR_STATE, 8, 8⟩
def PWR_STATE_IN_TRANSITION : Fld := ⟨.PWR_STATE, 3, 1⟩
def PWR_STATE_STATE : Fld := ⟨.PWR_STATE, 0, 3⟩
def PWR_PERMIT_MASK_MASK : Fld := ⟨.PWR_PERMIT_MASK, 0, 3⟩
def PWR_EFFECTIVE_SET : Fld := ⟨.PWR_EFFECTIVE, 0, 3⟩
def PWR_REQ_TARGET : Fld := ⟨.PWR_REQ, 0, 2⟩
def PWR_WAKE_AT_LO_WAKE_LO : Fld := ⟨.PWR_WAKE_AT_LO, 0, 32⟩
def PWR_WAKE_AT_HI_WAKE_HI : Fld := ⟨.PWR_WAKE_AT_HI, 0, 32⟩
def PWR_REQ_STATUS_CAUSE : Fld := ⟨.PWR_REQ_STATUS, 16, 16⟩
def PWR_REQ_STATUS_RESULT : Fld := ⟨.PWR_REQ_STATUS, 8, 8⟩
def PWR_REQ_STATUS_STATE_ENTERED : Fld := ⟨.PWR_REQ_STATUS, 0, 3⟩
def PWR_MIN_RESIDENCY_HOLD_MIN : Fld := ⟨.PWR_MIN_RESIDENCY, 16, 16⟩
def PWR_MIN_RESIDENCY_DOZE_MIN : Fld := ⟨.PWR_MIN_RESIDENCY, 0, 16⟩
def WAKE_COUNTS_DEMAND : Fld := ⟨.WAKE_COUNTS, 16, 16⟩
def WAKE_COUNTS_SCHEDULED : Fld := ⟨.WAKE_COUNTS, 0, 16⟩
def IDLE_ENTRY_DELAY_CYCLES : Fld := ⟨.IDLE_ENTRY_DELAY, 0, 16⟩
def TJ_NOW_SENSOR : Fld := ⟨.TJ_NOW, 16, 4⟩
def TJ_NOW_TJ : Fld := ⟨.TJ_NOW, 0, 16⟩
def TJ_PEAK_TJ : Fld := ⟨.TJ_PEAK, 0, 16⟩
def THROTTLE_THRESH_OFF : Fld := ⟨.THROTTLE_THRESH, 16, 16⟩
def THROTTLE_THRESH_ON : Fld := ⟨.THROTTLE_THRESH, 0, 16⟩
def POWER_CAP_WATTS : Fld := ⟨.POWER_CAP, 0, 16⟩
def POWER_NOW_POWER : Fld := ⟨.POWER_NOW, 0, 16⟩
def GOV_FREQ_BOUNDS_HIGH : Fld := ⟨.GOV_FREQ_BOUNDS, 16, 16⟩
def GOV_FREQ_BOUNDS_LOW : Fld := ⟨.GOV_FREQ_BOUNDS, 0, 16⟩
def GOV_VOLT_BOUNDS_HIGH : Fld := ⟨.GOV_VOLT_BOUNDS, 16, 16⟩
def GOV_VOLT_BOUNDS_LOW : Fld := ⟨.GOV_VOLT_BOUNDS, 0, 16⟩
def GOV_PIN_PIN_EN : Fld := ⟨.GOV_PIN, 31, 1⟩
def GOV_PIN_FREQ : Fld := ⟨.GOV_PIN, 0, 16⟩
def GOV_APPLIED_MV : Fld := ⟨.GOV_APPLIED, 16, 16⟩
def GOV_APPLIED_MHZ : Fld := ⟨.GOV_APPLIED, 0, 16⟩
def GOV_SHADOW_MV : Fld := ⟨.GOV_SHADOW, 16, 16⟩
def GOV_SHADOW_MHZ : Fld := ⟨.GOV_SHADOW, 0, 16⟩
def GATE_CTL_SIPHON_PG : Fld := ⟨.GATE_CTL, 1, 1⟩
def GATE_CTL_SLUICE_PG : Fld := ⟨.GATE_CTL, 0, 1⟩
def TRIP_STATUS_TRIP_COUNT : Fld := ⟨.TRIP_STATUS, 16, 16⟩
def TRIP_STATUS_TJ_AT_TRIP : Fld := ⟨.TRIP_STATUS, 0, 16⟩
def PWR_BLOCKERS_BLOCKERS : Fld := ⟨.PWR_BLOCKERS, 0, 6⟩
def GOV_VF_SEL_STEP : Fld := ⟨.GOV_VF_SEL, 0, 5⟩
def GOV_VF_MV_MV : Fld := ⟨.GOV_VF_MV, 0, 16⟩
def GH_CTRL_PROG_RUN : Fld := ⟨.GH_CTRL, 0, 1⟩
def GH_STATUS_PC : Fld := ⟨.GH_STATUS, 16, 10⟩
def GH_STATUS_SEQ_POS : Fld := ⟨.GH_STATUS, 12, 4⟩
def GH_STATUS_SCRUB_BUSY : Fld := ⟨.GH_STATUS, 2, 1⟩
def GH_STATUS_ROM_ACTIVE : Fld := ⟨.GH_STATUS, 1, 1⟩
def GH_STATUS_RUNNING : Fld := ⟨.GH_STATUS, 0, 1⟩
def GH_PROG_LEN_LEN : Fld := ⟨.GH_PROG_LEN, 0, 11⟩
def AO_TIME_LO_TIME : Fld := ⟨.AO_TIME_LO, 0, 32⟩
def AO_TIME_HI_TIME : Fld := ⟨.AO_TIME_HI, 0, 32⟩
def GH_EVP_EVENTS : Fld := ⟨.GH_EVP, 0, 16⟩
def GH_GPIO_WAKE_LEVEL : Fld := ⟨.GH_GPIO_WAKE, 8, 8⟩
def GH_GPIO_WAKE_EN : Fld := ⟨.GH_GPIO_WAKE, 0, 8⟩
def GH_TJ_ALARM_TJ : Fld := ⟨.GH_TJ_ALARM, 0, 16⟩
def GH_RET_MV_MV : Fld := ⟨.GH_RET_MV, 0, 16⟩
def GH_BUDGET_EXIT : Fld := ⟨.GH_BUDGET, 16, 16⟩
def GH_BUDGET_ENTER : Fld := ⟨.GH_BUDGET, 0, 16⟩
def WAKE_SRC_SEEN_SRC : Fld := ⟨.WAKE_SRC_SEEN, 0, 8⟩
def GH_SIGNAL_VALUE : Fld := ⟨.GH_SIGNAL, 0, 8⟩
def SCRUB_UE_INFO_SEGMENT : Fld := ⟨.SCRUB_UE_INFO, 16, 16⟩
def SCRUB_UE_INFO_ROW : Fld := ⟨.SCRUB_UE_INFO, 0, 16⟩
def KEY_RET_STATUS_LOST : Fld := ⟨.KEY_RET_STATUS, 16, 16⟩
def KEY_RET_STATUS_HELD : Fld := ⟨.KEY_RET_STATUS, 0, 16⟩
def TC_ARMED_ARMED : Fld := ⟨.TC_ARMED, 0, 8⟩
def TC_CMP_LO_CMP (i : Nat) : Fld := ⟨.TC_CMP_LO i, 0, 32⟩
def TC_CMP_HI_CMP (i : Nat) : Fld := ⟨.TC_CMP_HI i, 0, 32⟩
def GH_PROG_ODD (i : Nat) : Fld := ⟨.GH_PROG i, 16, 16⟩
def GH_PROG_EVEN (i : Nat) : Fld := ⟨.GH_PROG i, 0, 16⟩
def BOOT_STATUS_BOOT_CAUSE : Fld := ⟨.BOOT_STATUS, 24, 8⟩
def BOOT_STATUS_STAGE : Fld := ⟨.BOOT_STATUS, 16, 8⟩
def BOOT_STATUS_RESULT : Fld := ⟨.BOOT_STATUS, 12, 4⟩
def BOOT_STATUS_ATTEMPT : Fld := ⟨.BOOT_STATUS, 1, 7⟩
def BOOT_STATUS_IMAGE : Fld := ⟨.BOOT_STATUS, 0, 1⟩
def BOOT_SEQ_SEQ : Fld := ⟨.BOOT_SEQ, 0, 32⟩
def BOOT_HALT_CAUSE_CAUSE : Fld := ⟨.BOOT_HALT_CAUSE, 0, 16⟩
def BOOT_READY_TIME_TIME : Fld := ⟨.BOOT_READY_TIME, 0, 32⟩
def IMAGE_PREF_PREF : Fld := ⟨.IMAGE_PREF, 0, 1⟩
def AUTO_LIMIT_LIMIT : Fld := ⟨.AUTO_LIMIT, 0, 3⟩
def VERDICT_CLEAR_ALL : Fld := ⟨.VERDICT_CLEAR, 31, 1⟩
def VERDICT_CLEAR_INDEX : Fld := ⟨.VERDICT_CLEAR, 0, 7⟩
def BOOT_REBOOT_KEY : Fld := ⟨.BOOT_REBOOT, 0, 32⟩
def LEDGER_FLASH_COPY_FAIL : Fld := ⟨.LEDGER_FLASH, 17, 1⟩
def LEDGER_FLASH_COPY_PENDING : Fld := ⟨.LEDGER_FLASH, 16, 1⟩
def LEDGER_FLASH_COPY_SEQ : Fld := ⟨.LEDGER_FLASH, 0, 16⟩
def SVN_STATUS_IMAGE_SVN : Fld := ⟨.SVN_STATUS, 8, 8⟩
def SVN_STATUS_FUSE_SVN_MIN : Fld := ⟨.SVN_STATUS, 0, 8⟩
def BOOT_VERDICT_CAUSE (i : Nat) : Fld := ⟨.BOOT_VERDICT i, 16, 16⟩
def BOOT_VERDICT_NEXT (i : Nat) : Fld := ⟨.BOOT_VERDICT i, 6, 2⟩
def BOOT_VERDICT_ALT (i : Nat) : Fld := ⟨.BOOT_VERDICT i, 4, 2⟩
def BOOT_VERDICT_FAILS (i : Nat) : Fld := ⟨.BOOT_VERDICT i, 0, 4⟩
def HG_CTRL_STEP : Fld := ⟨.HG_CTRL, 2, 1⟩
def HG_CTRL_HALT_REQ : Fld := ⟨.HG_CTRL, 1, 1⟩
def HG_CTRL_START : Fld := ⟨.HG_CTRL, 0, 1⟩
def HG_STATE_STATE : Fld := ⟨.HG_STATE, 0, 4⟩
def HG_PC_PC : Fld := ⟨.HG_PC, 0, 14⟩
def HG_START_PC_PC : Fld := ⟨.HG_START_PC, 0, 14⟩
def HG_FAULT_SLOT : Fld := ⟨.HG_FAULT, 30, 2⟩
def HG_FAULT_PC : Fld := ⟨.HG_FAULT, 16, 14⟩
def HG_FAULT_CODE : Fld := ⟨.HG_FAULT, 0, 16⟩
def HG_EV_LO_EV : Fld := ⟨.HG_EV_LO, 0, 32⟩
def HG_EV_HI_EV : Fld := ⟨.HG_EV_HI, 0, 32⟩
def HG_WAIT_MASK_LO_MASK : Fld := ⟨.HG_WAIT_MASK_LO, 0, 32⟩
def HG_WAIT_MASK_HI_MASK : Fld := ⟨.HG_WAIT_MASK_HI, 0, 32⟩
def HG_SIGNAL_VALUE : Fld := ⟨.HG_SIGNAL, 0, 32⟩
def HG_IMEM_LOCK_LOCK : Fld := ⟨.HG_IMEM_LOCK, 0, 1⟩
def HG_BP_EN (i : Nat) : Fld := ⟨.HG_BP i, 31, 1⟩
def HG_BP_PC (i : Nat) : Fld := ⟨.HG_BP i, 0, 14⟩
def RING_BASE_BASE (i : Nat) : Fld := ⟨.RING_BASE i, 5, 16⟩
def RING_SIZE_NOTIFY (i : Nat) : Fld := ⟨.RING_SIZE i, 31, 1⟩
def RING_SIZE_LOG2 (i : Nat) : Fld := ⟨.RING_SIZE i, 0, 4⟩
def RING_PROD_PROD (i : Nat) : Fld := ⟨.RING_PROD i, 0, 16⟩
def RING_CONS_CONS (i : Nat) : Fld := ⟨.RING_CONS i, 0, 16⟩
def HG_TMR_LO_CMP (i : Nat) : Fld := ⟨.HG_TMR_LO i, 0, 32⟩
def HG_TMR_HI_CMP (i : Nat) : Fld := ⟨.HG_TMR_HI i, 0, 32⟩
def HG_TMR_ARMED_ARMED : Fld := ⟨.HG_TMR_ARMED, 0, 4⟩
def MARK_LEVEL_LEVEL (i : Nat) : Fld := ⟨.MARK_LEVEL i, 0, 7⟩
def HG_TASKS_PEAK : Fld := ⟨.HG_TASKS, 16, 9⟩
def HG_TASKS_INFLIGHT : Fld := ⟨.HG_TASKS, 0, 9⟩
def HG_TASK_ABORT_ALL : Fld := ⟨.HG_TASK_ABORT, 31, 1⟩
def HG_TASK_ABORT_TAG : Fld := ⟨.HG_TASK_ABORT, 0, 16⟩
def ALLOT_STATUS_IN_USE : Fld := ⟨.ALLOT_STATUS, 0, 21⟩
def DRY_READ_HANDLE_HANDLE : Fld := ⟨.DRY_READ_HANDLE, 0, 32⟩
def DRY_READ_OFFSET_LO_OFFSET : Fld := ⟨.DRY_READ_OFFSET_LO, 0, 32⟩
def DRY_READ_OFFSET_HI_OFFSET : Fld := ⟨.DRY_READ_OFFSET_HI, 0, 32⟩
def DAMAGED_HANDLE_HANDLE : Fld := ⟨.DAMAGED_HANDLE, 0, 32⟩
def WRITE_DISCARD_HANDLE_HANDLE : Fld := ⟨.WRITE_DISCARD_HANDLE, 0, 32⟩
def STALE_HANDLE_HANDLE : Fld := ⟨.STALE_HANDLE, 0, 32⟩
def RETIRED_COUNT_COUNT : Fld := ⟨.RETIRED_COUNT, 0, 21⟩
def STATE_COUNT_COUNT (i : Nat) : Fld := ⟨.STATE_COUNT i, 0, 21⟩
def POOL_STATUS_T4_FAILED : Fld := ⟨.POOL_STATUS, 14, 1⟩
def POOL_STATUS_T3_FAILED : Fld := ⟨.POOL_STATUS, 13, 1⟩
def POOL_STATUS_T2_FAILED : Fld := ⟨.POOL_STATUS, 9, 4⟩
def POOL_STATUS_ABOVE_WM : Fld := ⟨.POOL_STATUS, 1, 4⟩
def SVC_WEIGHT_C1 : Fld := ⟨.SVC_WEIGHT, 12, 4⟩
def SVC_WEIGHT_C2 : Fld := ⟨.SVC_WEIGHT, 8, 4⟩
def SVC_WEIGHT_C3 : Fld := ⟨.SVC_WEIGHT, 4, 4⟩
def SVC_WEIGHT_C4 : Fld := ⟨.SVC_WEIGHT, 0, 4⟩
def STALL_LIMIT_ENGINE : Fld := ⟨.STALL_LIMIT, 16, 16⟩
def STALL_LIMIT_PARTNER : Fld := ⟨.STALL_LIMIT, 0, 16⟩
def AGE_LOW_US : Fld := ⟨.AGE_LOW, 0, 26⟩
def AGE_HIGH_US : Fld := ⟨.AGE_HIGH, 0, 26⟩
def AGE_PIN_PIN_EN : Fld := ⟨.AGE_PIN, 31, 1⟩
def AGE_PIN_US : Fld := ⟨.AGE_PIN, 0, 26⟩
def SOFT_WM_T_PERCENT (i : Nat) : Fld := ⟨.SOFT_WM_T i, 0, 8⟩
def NODE_VALID (i : Nat) : Fld := ⟨.NODE i, 31, 1⟩
def NODE_NODE (i : Nat) : Fld := ⟨.NODE i, 0, 12⟩
def NODE_GRANT_BLOCKS (i : Nat) : Fld := ⟨.NODE_GRANT i, 0, 32⟩
def NODE_USED_BLOCKS (i : Nat) : Fld := ⟨.NODE_USED i, 0, 32⟩
def NODE_STATUS_DEGRADED (i : Nat) : Fld := ⟨.NODE_STATUS i, 1, 1⟩
def NODE_STATUS_FAILED (i : Nat) : Fld := ⟨.NODE_STATUS i, 0, 1⟩
def FLM_STATUS_HALTED : Fld := ⟨.FLM_STATUS, 16, 16⟩
def FLM_STATUS_BUSY : Fld := ⟨.FLM_STATUS, 0, 16⟩
def FLM_OUT_PEAK : Fld := ⟨.FLM_OUT, 16, 9⟩
def FLM_OUT_NOW : Fld := ⟨.FLM_OUT, 0, 9⟩
def FLM_OUT_LIMIT_LIMIT : Fld := ⟨.FLM_OUT_LIMIT, 0, 9⟩
def FLM_CTX_CMD_TAG : Fld := ⟨.FLM_CTX_CMD, 16, 16⟩
def FLM_CTX_CMD_CMD : Fld := ⟨.FLM_CTX_CMD, 8, 2⟩
def FLM_CTX_CMD_CTX : Fld := ⟨.FLM_CTX_CMD, 0, 4⟩
def FLM_RESUME_LANES_MASK : Fld := ⟨.FLM_RESUME_LANES, 0, 8⟩
def CTX_W0_TAG (i : Nat) : Fld := ⟨.CTX_W0 i, 16, 16⟩
def CTX_W0_STATE (i : Nat) : Fld := ⟨.CTX_W0 i, 0, 4⟩
def CTX_W1_CAUSE (i : Nat) : Fld := ⟨.CTX_W1 i, 16, 16⟩
def CTX_W1_OP (i : Nat) : Fld := ⟨.CTX_W1 i, 8, 8⟩
def CTX_W1_FAULT_MODE (i : Nat) : Fld := ⟨.CTX_W1 i, 0, 1⟩
def CTX_W2_HANDLE (i : Nat) : Fld := ⟨.CTX_W2 i, 0, 32⟩
def CTX_W3_GRANULE (i : Nat) : Fld := ⟨.CTX_W3 i, 24, 4⟩
def CTX_W3_NEXT_BLOCK (i : Nat) : Fld := ⟨.CTX_W3 i, 0, 24⟩
def LEAD_LOW_US : Fld := ⟨.LEAD_LOW, 0, 13⟩
def LEAD_HIGH_US : Fld := ⟨.LEAD_HIGH, 0, 13⟩
def LEAD_PIN_PIN_EN : Fld := ⟨.LEAD_PIN, 31, 1⟩
def LEAD_PIN_US : Fld := ⟨.LEAD_PIN, 0, 13⟩
def LEAD_MARGIN_US : Fld := ⟨.LEAD_MARGIN, 0, 10⟩
def LEAD_SLOTS_COUNT : Fld := ⟨.LEAD_SLOTS, 0, 13⟩
def LEAD_SEL_SLOT : Fld := ⟨.LEAD_SEL, 0, 12⟩
def LEAD_APPLIED_US : Fld := ⟨.LEAD_APPLIED, 0, 13⟩
def LEAD_SHADOW_US : Fld := ⟨.LEAD_SHADOW, 0, 13⟩
def TURN_STATUS_WAITING : Fld := ⟨.TURN_STATUS, 16, 16⟩
def TURN_STATUS_RUNNING : Fld := ⟨.TURN_STATUS, 0, 16⟩
def TSIG_VALUE_VALUE : Fld := ⟨.TSIG_VALUE, 0, 32⟩
def TURN_FAULT_CODE : Fld := ⟨.TURN_FAULT, 16, 16⟩
def TURN_FAULT_CTX : Fld := ⟨.TURN_FAULT, 12, 4⟩
def TURN_FAULT_PC : Fld := ⟨.TURN_FAULT, 0, 9⟩
def TURN_FAULT_INSN_INSN : Fld := ⟨.TURN_FAULT_INSN, 0, 32⟩
def FLM_PROG_INSN (i : Nat) : Fld := ⟨.FLM_PROG i, 0, 32⟩
def LANE_STATUS_BUSY : Fld := ⟨.LANE_STATUS, 31, 1⟩
def LANE_STATUS_QUEUE_BYTES : Fld := ⟨.LANE_STATUS, 0, 23⟩
def QUEUE_PEAK_BYTES : Fld := ⟨.QUEUE_PEAK, 0, 23⟩
def CHECK_FAIL_HANDLE_HANDLE : Fld := ⟨.CHECK_FAIL_HANDLE, 0, 32⟩
def CHECK_FAIL_CAUSE_CODE : Fld := ⟨.CHECK_FAIL_CAUSE, 0, 16⟩
def CHECK_FAIL_BLOCK_BLOCK : Fld := ⟨.CHECK_FAIL_BLOCK, 0, 24⟩
def SLC_POLICY_TOLX (i : Nat) : Fld := ⟨.SLC_POLICY i, 8, 5⟩
def SLC_POLICY_QMAX (i : Nat) : Fld := ⟨.SLC_POLICY i, 4, 2⟩
def SLC_POLICY_E5M2 (i : Nat) : Fld := ⟨.SLC_POLICY i, 1, 1⟩
def SLC_POLICY_FP16 (i : Nat) : Fld := ⟨.SLC_POLICY i, 0, 1⟩
def KEY_SEL_SLOT : Fld := ⟨.KEY_SEL, 0, 4⟩
def KEY_DATA_WORD : Fld := ⟨.KEY_DATA, 0, 32⟩
def KEY_CMD_CMD : Fld := ⟨.KEY_CMD, 0, 2⟩
def KEY_STATUS_STAGED : Fld := ⟨.KEY_STATUS, 16, 5⟩
def KEY_STATUS_LOADED : Fld := ⟨.KEY_STATUS, 0, 16⟩
def KEY_RETAIN_RETAIN : Fld := ⟨.KEY_RETAIN, 0, 16⟩
def SPH_STATUS_TILES_BUSY : Fld := ⟨.SPH_STATUS, 16, 16⟩
def SPH_STATUS_QUEUED : Fld := ⟨.SPH_STATUS, 0, 5⟩
def SPH_CHAIN_ENTRIES_COUNT : Fld := ⟨.SPH_CHAIN_ENTRIES, 0, 17⟩
def LAST_FAIL_CAUSE : Fld := ⟨.LAST_FAIL, 16, 16⟩
def LAST_FAIL_CHAIN : Fld := ⟨.LAST_FAIL, 0, 16⟩
def LAST_FAIL_HANDLE_HANDLE : Fld := ⟨.LAST_FAIL_HANDLE, 0, 32⟩
def LAST_CHAIN_FLAGS_CONV_INVALID : Fld := ⟨.LAST_CHAIN_FLAGS, 4, 1⟩
def LAST_CHAIN_FLAGS_CONV_OVERFLOW : Fld := ⟨.LAST_CHAIN_FLAGS, 3, 1⟩
def LAST_CHAIN_FLAGS_INT_SAT : Fld := ⟨.LAST_CHAIN_FLAGS, 2, 1⟩
def LAST_CHAIN_FLAGS_INVALID : Fld := ⟨.LAST_CHAIN_FLAGS, 1, 1⟩
def LAST_CHAIN_FLAGS_OVERFLOW : Fld := ⟨.LAST_CHAIN_FLAGS, 0, 1⟩
def TILE_STATUS_BUSY : Fld := ⟨.TILE_STATUS, 31, 1⟩
def TILE_STATUS_OP_INDEX : Fld := ⟨.TILE_STATUS, 16, 8⟩
def TILE_STATUS_CHAIN : Fld := ⟨.TILE_STATUS, 0, 16⟩
def TILE_ARITH_MODE : Fld := ⟨.TILE_ARITH, 0, 4⟩
def SCRATCH_USED_BYTES : Fld := ⟨.SCRATCH_USED, 0, 23⟩
def SCRATCH_PEAK_BYTES : Fld := ⟨.SCRATCH_PEAK, 0, 23⟩
def FB_OPEN_STEP_STEP : Fld := ⟨.FB_OPEN_STEP, 0, 32⟩
def FB_STATUS_OPEN : Fld := ⟨.FB_STATUS, 31, 1⟩
def FB_STATUS_VOTE_OPEN : Fld := ⟨.FB_STATUS, 30, 1⟩
def FB_STATUS_COMMIT_BUSY : Fld := ⟨.FB_STATUS, 29, 1⟩
def FB_STATUS_RANGE_MODE : Fld := ⟨.FB_STATUS, 0, 2⟩
def LS_BOUNDS_HIGH : Fld := ⟨.LS_BOUNDS, 8, 8⟩
def LS_BOUNDS_LOW : Fld := ⟨.LS_BOUNDS, 0, 8⟩
def LS_START_EXP : Fld := ⟨.LS_START, 0, 8⟩
def LS_PIN_PIN_EN : Fld := ⟨.LS_PIN, 31, 1⟩
def LS_PIN_EXP : Fld := ⟨.LS_PIN, 0, 8⟩
def LS_APPLIED_EXP : Fld := ⟨.LS_APPLIED, 0, 8⟩
def LS_SHADOW_EXP : Fld := ⟨.LS_SHADOW, 0, 16⟩
def LS_CLEAN_INTERVAL : Fld := ⟨.LS_CLEAN, 16, 16⟩
def LS_CLEAN_CLEAN : Fld := ⟨.LS_CLEAN, 0, 16⟩
def VOTE_CFG_ENABLE : Fld := ⟨.VOTE_CFG, 31, 1⟩
def VOTE_CFG_ROOT : Fld := ⟨.VOTE_CFG, 30, 1⟩
def VOTE_CFG_PARENT_SET : Fld := ⟨.VOTE_CFG, 27, 3⟩
def VOTE_CFG_CHILD_SETS : Fld := ⟨.VOTE_CFG, 20, 6⟩
def VOTE_FLEET_FLEET_SIZE : Fld := ⟨.VOTE_FLEET, 0, 13⟩
def VOTE_WINDOW_RESULT_TIMEOUT_US : Fld := ⟨.VOTE_WINDOW, 16, 16⟩
def VOTE_WINDOW_WINDOW_US : Fld := ⟨.VOTE_WINDOW, 0, 16⟩
def CHILD_WAIT_SETS : Fld := ⟨.CHILD_WAIT, 0, 6⟩
def LAST_VERDICT_VERDICT : Fld := ⟨.LAST_VERDICT, 28, 4⟩
def LAST_VERDICT_CAUSE : Fld := ⟨.LAST_VERDICT, 0, 16⟩
def LAST_VERDICT_STEP_STEP : Fld := ⟨.LAST_VERDICT_STEP, 0, 32⟩
def PTS_BOUNDS_HIGH : Fld := ⟨.PTS_BOUNDS, 8, 8⟩
def PTS_BOUNDS_LOW : Fld := ⟨.PTS_BOUNDS, 0, 8⟩
def PTS_SEL_TENSOR : Fld := ⟨.PTS_SEL, 0, 12⟩
def PTS_PIN_PIN_EN : Fld := ⟨.PTS_PIN, 31, 1⟩
def PTS_PIN_SCALE : Fld := ⟨.PTS_PIN, 0, 8⟩
def HIST_BANK_BANK : Fld := ⟨.HIST_BANK, 0, 1⟩
def TBL_WIN_SEL_VIEW : Fld := ⟨.TBL_WIN_SEL, 0, 3⟩
def CLIP_MAX_FP32 (i : Nat) : Fld := ⟨.CLIP_MAX i, 0, 32⟩
def GROUP_NORM_FP32 (i : Nat) : Fld := ⟨.GROUP_NORM i, 0, 32⟩
def GROUP_CLIP_FP32 (i : Nat) : Fld := ⟨.GROUP_CLIP i, 0, 32⟩
def CK_STATUS_RESTORING : Fld := ⟨.CK_STATUS, 31, 1⟩
def CK_STATUS_ACTIVE : Fld := ⟨.CK_STATUS, 0, 16⟩
def CK_GEN_GEN : Fld := ⟨.CK_GEN, 0, 16⟩
def CK_NEXT_STEP_STEP : Fld := ⟨.CK_NEXT_STEP, 0, 32⟩
def CK_REGION_SEL_REGION : Fld := ⟨.CK_REGION_SEL, 0, 4⟩
def CK_REGION_STATUS_PHASE : Fld := ⟨.CK_REGION_STATUS, 28, 4⟩
def CK_REGION_STATUS_NB_PRIMARY : Fld := ⟨.CK_REGION_STATUS, 26, 2⟩
def CK_REGION_STATUS_NB_SECONDARY : Fld := ⟨.CK_REGION_STATUS, 24, 2⟩
def CK_EPOCH_LO_EPOCH : Fld := ⟨.CK_EPOCH_LO, 0, 32⟩
def CK_EPOCH_HI_EPOCH : Fld := ⟨.CK_EPOCH_HI, 0, 32⟩
def CK_REGION_CMD_CMD : Fld := ⟨.CK_REGION_CMD, 8, 2⟩
def CK_REGION_CMD_REGION : Fld := ⟨.CK_REGION_CMD, 0, 4⟩
def LEASE_MS_MS : Fld := ⟨.LEASE_MS, 0, 16⟩
def HOST_TIER_TIER : Fld := ⟨.HOST_TIER, 0, 2⟩
def HOST_SLOT_CTRL_EN (i : Nat) : Fld := ⟨.HOST_SLOT_CTRL i, 31, 1⟩
def HOST_SLOT_CTRL_REGION (i : Nat) : Fld := ⟨.HOST_SLOT_CTRL i, 16, 8⟩
def HOST_SLOT_CTRL_SOURCE (i : Nat) : Fld := ⟨.HOST_SLOT_CTRL i, 0, 12⟩
def HOST_SLOT_BYTES_BLOCKS (i : Nat) : Fld := ⟨.HOST_SLOT_BYTES i, 0, 32⟩
def HOST_SLOT_STATE_GEN (i : Nat) : Fld := ⟨.HOST_SLOT_STATE i, 16, 16⟩
def HOST_SLOT_STATE_BUF_1 (i : Nat) : Fld := ⟨.HOST_SLOT_STATE i, 4, 4⟩
def HOST_SLOT_STATE_BUF_0 (i : Nat) : Fld := ⟨.HOST_SLOT_STATE i, 0, 4⟩
def HOST_SEL_SLOT : Fld := ⟨.HOST_SEL, 1, 3⟩
def HOST_SEL_BUF : Fld := ⟨.HOST_SEL, 0, 1⟩
def HOST_EPOCH_LO_EPOCH : Fld := ⟨.HOST_EPOCH_LO, 0, 32⟩
def HOST_EPOCH_HI_EPOCH : Fld := ⟨.HOST_EPOCH_HI, 0, 32⟩
def RESTORE_STATUS_BUSY : Fld := ⟨.RESTORE_STATUS, 31, 1⟩
def RESTORE_STATUS_LAST_CAUSE : Fld := ⟨.RESTORE_STATUS, 0, 16⟩
def PORT_STATUS_LINK : Fld := ⟨.PORT_STATUS, 28, 4⟩
def PORT_STATUS_MODE : Fld := ⟨.PORT_STATUS, 26, 2⟩
def PORT_STATUS_WIDTH : Fld := ⟨.PORT_STATUS, 16, 5⟩
def PORT_STATUS_RATE : Fld := ⟨.PORT_STATUS, 8, 8⟩
def PORT_HOLD_HOLD_MS : Fld := ⟨.PORT_HOLD, 16, 16⟩
def PORT_HOLD_HOLD_LEFT_MS : Fld := ⟨.PORT_HOLD, 0, 16⟩
def HDM_STATUS_COMMITTED : Fld := ⟨.HDM_STATUS, 0, 2⟩
def HDM_SIZE_0_UNITS : Fld := ⟨.HDM_SIZE_0, 0, 16⟩
def HDM_SIZE_1_UNITS : Fld := ⟨.HDM_SIZE_1, 0, 16⟩
def HINT_VALUE (i : Nat) : Fld := ⟨.HINT i, 0, 32⟩
def VIOL_FIRST_VALID : Fld := ⟨.VIOL_FIRST, 31, 1⟩
def VIOL_FIRST_CODE : Fld := ⟨.VIOL_FIRST, 0, 16⟩
def VIOL_HANDLE_HANDLE : Fld := ⟨.VIOL_HANDLE, 0, 32⟩
def HOST_LINK_STATE : Fld := ⟨.HOST_LINK, 28, 4⟩
def HOST_LINK_WIDTH : Fld := ⟨.HOST_LINK, 16, 5⟩
def HOST_LINK_RATE : Fld := ⟨.HOST_LINK, 8, 8⟩
def HOST_LINK_BME : Fld := ⟨.HOST_LINK, 0, 1⟩
def HOST_T3_PASID_PV : Fld := ⟨.HOST_T3_PASID, 31, 1⟩
def HOST_T3_PASID_PASID : Fld := ⟨.HOST_T3_PASID, 0, 20⟩
def AP_FAULT_INFO_CAUSE : Fld := ⟨.AP_FAULT_INFO, 16, 16⟩
def AP_FAULT_INFO_SUBWIN : Fld := ⟨.AP_FAULT_INFO, 0, 4⟩
def AP_CTRL_WR_EN (i : Nat) : Fld := ⟨.AP_CTRL i, 1, 1⟩
def AP_CTRL_EN (i : Nat) : Fld := ⟨.AP_CTRL i, 0, 1⟩
def AP_BIND_HANDLE (i : Nat) : Fld := ⟨.AP_BIND i, 0, 32⟩
def AP_OFF_BLOCK (i : Nat) : Fld := ⟨.AP_OFF i, 0, 24⟩
def EXP_STATUS_STATE : Fld := ⟨.EXP_STATUS, 28, 4⟩
def EXP_STATUS_PATH_FAILED : Fld := ⟨.EXP_STATUS, 27, 1⟩
def EXP_STATUS_WIDTH : Fld := ⟨.EXP_STATUS, 16, 5⟩
def EXP_STATUS_RATE : Fld := ⟨.EXP_STATUS, 8, 8⟩
def EXP_STATUS_FLIT256 : Fld := ⟨.EXP_STATUS, 0, 1⟩
def EXP_DOWN_LIMIT_MS : Fld := ⟨.EXP_DOWN_LIMIT, 0, 16⟩
def LL_STATUS_STATE : Fld := ⟨.LL_STATUS, 28, 4⟩
def LL_STATUS_LANES : Fld := ⟨.LL_STATUS, 26, 2⟩
def LL_STATUS_LANE_MASK : Fld := ⟨.LL_STATUS, 24, 2⟩
def LL_STATUS_RATE : Fld := ⟨.LL_STATUS, 16, 8⟩
def LL_STATUS_TRAIN_FAIL_CAUSE : Fld := ⟨.LL_STATUS, 12, 4⟩
def LL_CTRL_RETRAIN : Fld := ⟨.LL_CTRL, 2, 1⟩
def LL_CTRL_LANE_ALLOW : Fld := ⟨.LL_CTRL, 0, 2⟩
def LL_PEER_LINK_INDEX : Fld := ⟨.LL_PEER, 24, 8⟩
def LL_PEER_NODE : Fld := ⟨.LL_PEER, 0, 12⟩
def LL_RATE_BOUNDS_HIGH : Fld := ⟨.LL_RATE_BOUNDS, 8, 8⟩
def LL_RATE_BOUNDS_LOW : Fld := ⟨.LL_RATE_BOUNDS, 0, 8⟩
def LL_RATE_PIN_PIN_EN : Fld := ⟨.LL_RATE_PIN, 31, 1⟩
def LL_RATE_PIN_RATE : Fld := ⟨.LL_RATE_PIN, 0, 8⟩
def LL_RATE_APPLIED_RATE : Fld := ⟨.LL_RATE_APPLIED, 0, 8⟩
def LL_RATE_SHADOW_RATE : Fld := ⟨.LL_RATE_SHADOW, 0, 16⟩
def FEC_THRESH_CORR : Fld := ⟨.FEC_THRESH, 8, 24⟩
def FEC_THRESH_UNCORR : Fld := ⟨.FEC_THRESH, 0, 8⟩
def FEC_WINDOW_US : Fld := ⟨.FEC_WINDOW, 0, 16⟩
def LL_PROMOTE_EN : Fld := ⟨.LL_PROMOTE, 31, 1⟩
def LL_PROMOTE_PERIOD_S : Fld := ⟨.LL_PROMOTE, 0, 16⟩
def LL_SEQ_NEXT_SEQ : Fld := ⟨.LL_SEQ, 16, 12⟩
def LL_SEQ_EXPECT : Fld := ⟨.LL_SEQ, 0, 12⟩
def LL_REPLAY_OCC : Fld := ⟨.LL_REPLAY, 16, 10⟩
def LL_REPLAY_ACKED : Fld := ⟨.LL_REPLAY, 0, 12⟩
def LL_ACK_TIMEOUT_NS : Fld := ⟨.LL_ACK_TIMEOUT, 0, 16⟩
def LL_REPLAY_LIMIT_COUNT : Fld := ⟨.LL_REPLAY_LIMIT, 0, 4⟩
def LL_RETRY_MS_MS : Fld := ⟨.LL_RETRY_MS, 0, 16⟩
def CREDIT_AVAIL_FLITS (i : Nat) : Fld := ⟨.CREDIT_AVAIL i, 0, 16⟩
def RX_FREE_FLITS (i : Nat) : Fld := ⟨.RX_FREE i, 0, 16⟩
def LR_TOPO_KIND : Fld := ⟨.LR_TOPO, 30, 2⟩
def LR_TOPO_NODE : Fld := ⟨.LR_TOPO, 0, 12⟩
def LR_DIM_XY_X : Fld := ⟨.LR_DIM_XY, 16, 13⟩
def LR_DIM_XY_Y : Fld := ⟨.LR_DIM_XY, 0, 13⟩
def LR_DIM_Z_Z : Fld := ⟨.LR_DIM_Z, 0, 13⟩
def LR_CMD_CMD : Fld := ⟨.LR_CMD, 24, 8⟩
def LR_CMD_LINK : Fld := ⟨.LR_CMD, 0, 5⟩
def LR_CFG_STATUS_RESULT : Fld := ⟨.LR_CFG_STATUS, 28, 4⟩
def LR_CFG_STATUS_CAUSE : Fld := ⟨.LR_CFG_STATUS, 0, 16⟩
def LR_ROUTE_SEL_NODE : Fld := ⟨.LR_ROUTE_SEL, 0, 12⟩
def LR_ROUTE_DATA_SET : Fld := ⟨.LR_ROUTE_DATA, 0, 4⟩
def LR_QUAR_CFG_FLAPS : Fld := ⟨.LR_QUAR_CFG, 24, 8⟩
def LR_QUAR_CFG_VIOL : Fld := ⟨.LR_QUAR_CFG, 0, 16⟩
def LR_QUARANTINED_LINKS : Fld := ⟨.LR_QUARANTINED, 0, 24⟩
def LR_BARRIER_TIMEOUT_US : Fld := ⟨.LR_BARRIER, 0, 16⟩
def LR_LINK_SET_SETS (i : Nat) : Fld := ⟨.LR_LINK_SET i, 0, 24⟩
def LR_VIOL_FIRST_VALID : Fld := ⟨.LR_VIOL_FIRST, 31, 1⟩
def LR_VIOL_FIRST_CODE : Fld := ⟨.LR_VIOL_FIRST, 0, 16⟩
def LR_VIOL_INFO_LINK : Fld := ⟨.LR_VIOL_INFO, 24, 5⟩
def LR_VIOL_INFO_SRC : Fld := ⟨.LR_VIOL_INFO, 0, 12⟩
def LR_VIOL_HDR0_WORD : Fld := ⟨.LR_VIOL_HDR0, 0, 32⟩
def LR_HOST_CTRL_EN (i : Nat) : Fld := ⟨.LR_HOST_CTRL i, 31, 1⟩
def LR_HOST_CTRL_TIER (i : Nat) : Fld := ⟨.LR_HOST_CTRL i, 30, 1⟩
def LR_HOST_CTRL_SOURCE (i : Nat) : Fld := ⟨.LR_HOST_CTRL i, 0, 12⟩
def LR_HOST_BLOCKS_BLOCKS (i : Nat) : Fld := ⟨.LR_HOST_BLOCKS i, 0, 32⟩
def HBM_STATUS_STATE : Fld := ⟨.HBM_STATUS, 28, 4⟩
def HBM_STATUS_REF_2X : Fld := ⟨.HBM_STATUS, 27, 1⟩
def HBM_STATUS_HOME : Fld := ⟨.HBM_STATUS, 26, 1⟩
def HBM_STATUS_RATE_MBPS : Fld := ⟨.HBM_STATUS, 0, 16⟩
def HBM_ILV_GRANULE : Fld := ⟨.HBM_ILV, 0, 2⟩
def HBM_PC_MASK_MASK : Fld := ⟨.HBM_PC_MASK, 0, 32⟩
def HBM_TEMP_DEG_C : Fld := ⟨.HBM_TEMP, 0, 8⟩
def HBM_TEMP_ALARM_DEG_C : Fld := ⟨.HBM_TEMP_ALARM, 0, 8⟩
def PC_STATUS_ENABLED (i : Nat) : Fld := ⟨.PC_STATUS i, 31, 1⟩
def PC_STATUS_BOOT_RESULT (i : Nat) : Fld := ⟨.PC_STATUS i, 28, 3⟩
def PC_STATUS_CAL_AGE_MS (i : Nat) : Fld := ⟨.PC_STATUS i, 0, 16⟩
def TRC_CTRL_MODE : Fld := ⟨.TRC_CTRL, 4, 2⟩
def TRC_CTRL_HANDLE_EN : Fld := ⟨.TRC_CTRL, 3, 1⟩
def TRC_CTRL_FLUSH : Fld := ⟨.TRC_CTRL, 2, 1⟩
def TRC_CTRL_RECORD : Fld := ⟨.TRC_CTRL, 1, 1⟩
def TRC_STATUS_RECORDING : Fld := ⟨.TRC_STATUS, 31, 1⟩
def TRC_STATUS_STOP_CAUSE : Fld := ⟨.TRC_STATUS, 28, 3⟩
def TRC_STATUS_ARMED : Fld := ⟨.TRC_STATUS, 24, 4⟩
def TRC_STATUS_OPEN_BYTES : Fld := ⟨.TRC_STATUS, 0, 6⟩
def TRC_WRITTEN_LO_LINES : Fld := ⟨.TRC_WRITTEN_LO, 0, 32⟩
def TRC_WRITTEN_HI_LINES : Fld := ⟨.TRC_WRITTEN_HI, 0, 32⟩
def TRC_VALID_FROM_LO_LINES : Fld := ⟨.TRC_VALID_FROM_LO, 0, 32⟩
def TRC_VALID_FROM_HI_LINES : Fld := ⟨.TRC_VALID_FROM_HI, 0, 32⟩
def TRC_RD_LO_LINES : Fld := ⟨.TRC_RD_LO, 0, 32⟩
def TRC_RD_HI_LINES : Fld := ⟨.TRC_RD_HI, 0, 32⟩
def TRC_SRC_EN_MASK : Fld := ⟨.TRC_SRC_EN, 0, 32⟩
def TRC_TYPE_EN_MASK : Fld := ⟨.TRC_TYPE_EN, 0, 32⟩
def TRC_FILTER_SVC_MASK : Fld := ⟨.TRC_FILTER, 8, 5⟩
def TRC_FILTER_PARTNER_MASK : Fld := ⟨.TRC_FILTER, 0, 8⟩
def TRC_HANDLE_MATCH_HANDLE : Fld := ⟨.TRC_HANDLE_MATCH, 0, 32⟩
def TRC_HANDLE_MASK_MASK : Fld := ⟨.TRC_HANDLE_MASK, 0, 32⟩
def TRC_SYNC_PERIOD_CYCLES : Fld := ⟨.TRC_SYNC_PERIOD, 0, 17⟩
def TRC_WATERMARK_LINES : Fld := ⟨.TRC_WATERMARK, 0, 17⟩
def TRC_FLUSH_IDLE_CYCLES : Fld := ⟨.TRC_FLUSH_IDLE, 0, 17⟩
def TRC_SW_LO_VALUE : Fld := ⟨.TRC_SW_LO, 0, 32⟩
def TRC_SW_HI_VALUE : Fld := ⟨.TRC_SW_HI, 0, 32⟩
def TRC_TIME_LO_CYCLES : Fld := ⟨.TRC_TIME_LO, 0, 32⟩
def TRC_TIME_HI_CYCLES : Fld := ⟨.TRC_TIME_HI, 0, 32⟩
def TRIG_POST_LINES_LINES : Fld := ⟨.TRIG_POST_LINES, 0, 16⟩
def TRIG_CTRL_TYPE (i : Nat) : Fld := ⟨.TRIG_CTRL i, 8, 5⟩
def TRIG_CTRL_ACTION (i : Nat) : Fld := ⟨.TRIG_CTRL i, 0, 3⟩
def TRIG_VALUE_VALUE (i : Nat) : Fld := ⟨.TRIG_VALUE i, 0, 32⟩
def TRIG_MASK_MASK (i : Nat) : Fld := ⟨.TRIG_MASK i, 0, 32⟩
def GLOBAL_EPOCH_LO_PLAN_SEQ : Fld := ⟨.GLOBAL_EPOCH_LO, 0, 32⟩
def GLOBAL_EPOCH_HI_BOOT_SEQ : Fld := ⟨.GLOBAL_EPOCH_HI, 0, 32⟩
def DEV_ERR_MAP_ERROR (i : Nat) : Fld := ⟨.DEV_ERR_MAP i, 0, 32⟩
def DEV_FATAL_CAUSE : Fld := ⟨.DEV_FATAL, 16, 16⟩
def DEV_FATAL_LEVEL : Fld := ⟨.DEV_FATAL, 0, 2⟩
def UE_FIRST_SRC_CLASS : Fld := ⟨.UE_FIRST_SRC, 16, 16⟩
def UE_FIRST_SRC_INSTANCE : Fld := ⟨.UE_FIRST_SRC, 8, 8⟩
def UE_FIRST_SRC_MEMORY : Fld := ⟨.UE_FIRST_SRC, 0, 8⟩
def UE_FIRST_ADDR_VALID : Fld := ⟨.UE_FIRST_ADDR, 31, 1⟩
def UE_FIRST_ADDR_WORD : Fld := ⟨.UE_FIRST_ADDR, 0, 24⟩
def ATTACH_TOKEN_TOKEN : Fld := ⟨.ATTACH_TOKEN, 0, 32⟩
def MGMT_CTRL_LOCK : Fld := ⟨.MGMT_CTRL, 31, 1⟩
def MGMT_CTRL_JTAG_ACCESS_EN : Fld := ⟨.MGMT_CTRL, 2, 1⟩
def MGMT_CTRL_FLASH_WR_EN : Fld := ⟨.MGMT_CTRL, 1, 1⟩
def MGMT_CTRL_REG_WR_EN : Fld := ⟨.MGMT_CTRL, 0, 1⟩
def SMB_CFG_PEC_REQ : Fld := ⟨.SMB_CFG, 8, 1⟩
def SMB_CFG_ADDR : Fld := ⟨.SMB_CFG, 0, 7⟩
def MCTP_EID_VDM : Fld := ⟨.MCTP_EID, 8, 8⟩
def MCTP_EID_SMB : Fld := ⟨.MCTP_EID, 0, 8⟩
def GPIO_FUNC_FUNC : Fld := ⟨.GPIO_FUNC, 0, 24⟩
def GPIO_OUT_OUT : Fld := ⟨.GPIO_OUT, 0, 8⟩
def GPIO_IN_IN : Fld := ⟨.GPIO_IN, 0, 8⟩
def GPIO_EDGE_EN_FALL : Fld := ⟨.GPIO_EDGE_EN, 8, 8⟩
def GPIO_EDGE_EN_RISE : Fld := ⟨.GPIO_EDGE_EN, 0, 8⟩
def GPIO_EDGE_FALL : Fld := ⟨.GPIO_EDGE, 8, 8⟩
def GPIO_EDGE_RISE : Fld := ⟨.GPIO_EDGE, 0, 8⟩
def FA_CTRL_SW_ASSERT : Fld := ⟨.FA_CTRL, 8, 1⟩
def FA_CTRL_EN : Fld := ⟨.FA_CTRL, 0, 6⟩
def FA_STATUS_WIRE : Fld := ⟨.FA_STATUS, 31, 1⟩
def FA_STATUS_DRIVING : Fld := ⟨.FA_STATUS, 30, 1⟩
def FA_STATUS_ACTIVE : Fld := ⟨.FA_STATUS, 0, 6⟩
def FLASH_LEN_LEN : Fld := ⟨.FLASH_LEN, 0, 9⟩
def FLASH_CMD_CMD : Fld := ⟨.FLASH_CMD, 0, 4⟩
def FLASH_STATUS_BUSY : Fld := ⟨.FLASH_STATUS, 31, 1⟩
def FLASH_STATUS_OWNER : Fld := ⟨.FLASH_STATUS, 30, 1⟩
def FLASH_STATUS_SUSPENDED : Fld := ⟨.FLASH_STATUS, 29, 1⟩
def FLASH_STATUS_RESULT : Fld := ⟨.FLASH_STATUS, 0, 16⟩
def FLASH_INFO_SUSPEND_OK : Fld := ⟨.FLASH_INFO, 16, 1⟩
def FLASH_INFO_CAPACITY_MIB : Fld := ⟨.FLASH_INFO, 0, 16⟩
end Fld

/-- Registers of block class 0x00e0. -/
def rowsMGMT : List RegRow := [
  ⟨0, 0x80, 1, 0, 0, [⟨0, 0, .rw, 0⟩]⟩,
  ⟨0, 0x84, 1, 0, 0, [⟨1, 1, .ro, 0⟩, ⟨0, 0, .ro, 0⟩]⟩,
  ⟨0, 0x88, 1, 0, 1, [⟨31, 0, .ro, 0⟩]⟩,
  ⟨0, 0x8c, 1, 0, 2, [⟨31, 0, .ro, 0⟩]⟩,
  ⟨0, 0x90, 4, 4, 0, [⟨31, 0, .ro, 0⟩]⟩,
  ⟨0, 0xa0, 1, 0, 0, [⟨31, 16, .ro, 0⟩, ⟨1, 0, .ro, 0⟩]⟩,
  ⟨0, 0xa4, 1, 0, 0, [⟨31, 0, .ro, 0⟩]⟩,
  ⟨0, 0xa8, 1, 0, 0, [⟨31, 0, .ro, 0⟩]⟩,
  ⟨0, 0xac, 1, 0, 0, [⟨31, 16, .ro, 0⟩, ⟨15, 8, .ro, 0⟩, ⟨7, 0, .ro, 0⟩]⟩,
  ⟨0, 0xb0, 1, 0, 0, [⟨31, 31, .w1c, 0⟩, ⟨23, 0, .ro, 0⟩]⟩,
  ⟨0, 0xb4, 1, 0, 0, [⟨31, 0, .rw, 0⟩]⟩,
  ⟨0, 0xb8, 1, 0, 0, [⟨31, 31, .rw, 0⟩, ⟨2, 2, .rwl, 1⟩, ⟨1, 1, .rwl, 1⟩, ⟨0, 0, .rwl, 1⟩]⟩,
  ⟨0, 0xbc, 1, 0, 0, [⟨8, 8, .rw, 0⟩, ⟨6, 0, .ro, 90⟩]⟩,
  ⟨0, 0xc0, 1, 0, 0, [⟨31, 0, .ro, 0⟩]⟩,
  ⟨0, 0xc4, 1, 0, 0, [⟨31, 0, .ro, 0⟩]⟩,
  ⟨0, 0xc8, 1, 0, 0, [⟨15, 8, .ro, 0⟩, ⟨7, 0, .ro, 0⟩]⟩,
  ⟨0, 0xcc, 1, 0, 0, [⟨31, 0, .ro, 0⟩]⟩,
  ⟨0, 0xd0, 1, 0, 0, [⟨31, 0, .ro, 0⟩]⟩,
  ⟨0, 0xd4, 1, 0, 0, [⟨31, 0, .ro, 0⟩]⟩,
  ⟨0, 0xe0, 1, 0, 0, [⟨23, 0, .rw, 0⟩]⟩,
  ⟨0, 0xe4, 1, 0, 0, [⟨7, 0, .rw, 0⟩]⟩,
  ⟨0, 0xe8, 1, 0, 0, [⟨7, 0, .ro, 0⟩]⟩,
  ⟨0, 0xec, 1, 0, 0, [⟨15, 8, .rw, 0⟩, ⟨7, 0, .rw, 0⟩]⟩,
  ⟨0, 0xf0, 1, 0, 0, [⟨15, 8, .w1c, 0⟩, ⟨7, 0, .w1c, 0⟩]⟩,
  ⟨0, 0xf8, 1, 0, 0, [⟨8, 8, .rw, 0⟩, ⟨5, 0, .rw, 0⟩]⟩,
  ⟨0, 0xfc, 1, 0, 0, [⟨31, 31, .ro, 0⟩, ⟨30, 30, .ro, 0⟩, ⟨5, 0, .w1c, 0⟩]⟩,
  ⟨0, 0x100, 1, 0, 0, [⟨31, 0, .rw, 0⟩]⟩,
  ⟨0, 0x104, 1, 0, 0, [⟨8, 0, .rw, 0⟩]⟩,
  ⟨0, 0x108, 1, 0, 0, [⟨3, 0, .wo, 0⟩]⟩,
  ⟨0, 0x10c, 1, 0, 0, [⟨31, 31, .ro, 0⟩, ⟨30, 30, .ro, 0⟩, ⟨29, 29, .ro, 0⟩, ⟨15, 0, .ro, 0⟩]⟩,
  ⟨0, 0x110, 1, 0, 0, [⟨16, 16, .ro, 1⟩, ⟨15, 0, .ro, 64⟩]⟩,
  ⟨0, 0x114, 1, 0, 0, [⟨31, 0, .ro, 0⟩]⟩,
  ⟨0, 0x200, 64, 4, 0, [⟨31, 0, .rw, 0⟩]⟩]

/-- Registers of block class 0x00e1. -/
def rowsPWR : List RegRow := [
  ⟨0, 0x80, 1, 0, 0, [⟨15, 8, .ro, 0⟩, ⟨3, 3, .ro, 0⟩, ⟨2, 0, .ro, 0⟩]⟩,
  ⟨0, 0x84, 1, 0, 0, [⟨2, 0, .rw, 7⟩]⟩,
  ⟨0, 0x88, 1, 0, 0, [⟨2, 0, .ro, 0⟩]⟩,
  ⟨0, 0x8c, 1, 0, 0, [⟨1, 0, .wo, 0⟩]⟩,
  ⟨0, 0x90, 1, 0, 1, [⟨31, 0, .rw, 0⟩]⟩,
  ⟨0, 0x94, 1, 0, 2, [⟨31, 0, .rw, 0⟩]⟩,
  ⟨0, 0x98, 1, 0, 0, [⟨31, 16, .ro, 0⟩, ⟨15, 8, .ro, 0⟩, ⟨2, 0, .ro, 0⟩]⟩,
  ⟨0, 0x9c, 1, 0, 0, [⟨31, 16, .rw, 100⟩, ⟨15, 0, .rw, 10⟩]⟩,
  ⟨0, 0xa0, 1, 0, 1, [⟨31, 0, .ro, 0⟩]⟩,
  ⟨0, 0xa4, 1, 0, 2, [⟨31, 0, .ro, 0⟩]⟩,
  ⟨0, 0xa8, 1, 0, 1, [⟨31, 0, .ro, 0⟩]⟩,
  ⟨0, 0xac, 1, 0, 2, [⟨31, 0, .ro, 0⟩]⟩,
  ⟨0, 0xb0, 1, 0, 1, [⟨31, 0, .ro, 0⟩]⟩,
  ⟨0, 0xb4, 1, 0, 2, [⟨31, 0, .ro, 0⟩]⟩,
  ⟨0, 0xb8, 1, 0, 0, [⟨31, 16, .ro, 0⟩, ⟨15, 0, .ro, 0⟩]⟩,
  ⟨0, 0xbc, 1, 0, 0, [⟨15, 0, .rw, 64⟩]⟩,
  ⟨0, 0xc0, 1, 0, 0, [⟨19, 16, .ro, 0⟩, ⟨15, 0, .ro, 0⟩]⟩,
  ⟨0, 0xc4, 1, 0, 0, [⟨15, 0, .ro, 0⟩]⟩,
  ⟨0, 0xc8, 1, 0, 0, [⟨31, 16, .rw, 368⟩, ⟨15, 0, .rw, 380⟩]⟩,
  ⟨0, 0xcc, 1, 0, 0, [⟨15, 0, .rw, 300⟩]⟩,
  ⟨0, 0xd0, 1, 0, 0, [⟨15, 0, .ro, 0⟩]⟩,
  ⟨0, 0xd4, 1, 0, 0, [⟨31, 16, .rw, 1600⟩, ⟨15, 0, .rw, 1000⟩]⟩,
  ⟨0, 0xd8, 1, 0, 0, [⟨31, 16, .rw, 850⟩, ⟨15, 0, .rw, 650⟩]⟩,
  ⟨0, 0xdc, 1, 0, 0, [⟨31, 31, .rw, 0⟩, ⟨15, 0, .rw, 1600⟩]⟩,
  ⟨0, 0xe0, 1, 0, 0, [⟨31, 16, .ro, 750⟩, ⟨15, 0, .ro, 1600⟩]⟩,
  ⟨0, 0xe4, 1, 0, 0, [⟨31, 16, .ro, 750⟩, ⟨15, 0, .ro, 1600⟩]⟩,
  ⟨0, 0xe8, 1, 0, 0, [⟨31, 0, .ro, 0⟩]⟩,
  ⟨0, 0xec, 1, 0, 0, [⟨1, 1, .rw, 1⟩, ⟨0, 0, .rw, 1⟩]⟩,
  ⟨0, 0xf0, 1, 0, 0, [⟨31, 0, .ro, 0⟩]⟩,
  ⟨0, 0xf4, 1, 0, 0, [⟨31, 16, .ro, 0⟩, ⟨15, 0, .ro, 0⟩]⟩,
  ⟨0, 0xf8, 1, 0, 0, [⟨5, 0, .ro, 0⟩]⟩,
  ⟨0, 0xfc, 1, 0, 0, [⟨4, 0, .rw, 0⟩]⟩,
  ⟨0, 0x100, 1, 0, 0, [⟨15, 0, .ro, 0⟩]⟩]

/-- Registers of block class 0x0010. -/
def rowsGH : List RegRow := [
  ⟨0, 0x80, 1, 0, 0, [⟨0, 0, .rw, 0⟩]⟩,
  ⟨0, 0x84, 1, 0, 0, [⟨25, 16, .ro, 0⟩, ⟨15, 12, .ro, 0⟩, ⟨2, 2, .ro, 0⟩, ⟨1, 1, .ro, 1⟩, ⟨0, 0, .ro, 1⟩]⟩,
  ⟨0, 0x88, 1, 0, 0, [⟨10, 0, .rw, 0⟩]⟩,
  ⟨0, 0x8c, 1, 0, 1, [⟨31, 0, .ro, 0⟩]⟩,
  ⟨0, 0x90, 1, 0, 2, [⟨31, 0, .ro, 0⟩]⟩,
  ⟨0, 0x94, 1, 0, 0, [⟨15, 0, .ro, 0⟩]⟩,
  ⟨0, 0x98, 1, 0, 0, [⟨15, 8, .rw, 0⟩, ⟨7, 0, .rw, 0⟩]⟩,
  ⟨0, 0x9c, 1, 0, 0, [⟨15, 0, .rw, 380⟩]⟩,
  ⟨0, 0xa0, 1, 0, 0, [⟨15, 0, .rw, 650⟩]⟩,
  ⟨0, 0xa4, 1, 0, 0, [⟨31, 16, .rw, 3456⟩, ⟨15, 0, .rw, 960⟩]⟩,
  ⟨0, 0xa8, 1, 0, 0, [⟨7, 0, .ro, 0⟩]⟩,
  ⟨0, 0xac, 1, 0, 0, [⟨7, 0, .ro, 0⟩]⟩,
  ⟨0, 0xb0, 1, 0, 0, [⟨31, 0, .ro, 0⟩]⟩,
  ⟨0, 0xb4, 1, 0, 0, [⟨31, 0, .ro, 0⟩]⟩,
  ⟨0, 0xb8, 1, 0, 0, [⟨31, 16, .ro, 0⟩, ⟨15, 0, .ro, 0⟩]⟩,
  ⟨0, 0xbc, 1, 0, 0, [⟨31, 0, .ro, 0⟩]⟩,
  ⟨0, 0xc0, 1, 0, 0, [⟨31, 0, .ro, 0⟩]⟩,
  ⟨0, 0xc4, 1, 0, 0, [⟨31, 16, .ro, 0⟩, ⟨15, 0, .ro, 0⟩]⟩,
  ⟨0, 0xc8, 1, 0, 0, [⟨31, 0, .wo, 0⟩]⟩,
  ⟨0, 0xcc, 1, 0, 0, [⟨31, 0, .ro, 0⟩]⟩,
  ⟨1, 0x80, 1, 0, 0, [⟨7, 0, .ro, 0⟩]⟩,
  ⟨1, 0x100, 8, 8, 1, [⟨31, 0, .ro, 0⟩]⟩,
  ⟨1, 0x104, 8, 8, 2, [⟨31, 0, .ro, 0⟩]⟩,
  ⟨1, 0x400, 32, 4, 0, [⟨31, 0, .ro, 0⟩]⟩,
  ⟨1, 0x800, 512, 4, 0, [⟨31, 16, .rw, 0⟩, ⟨15, 0, .rw, 0⟩]⟩,
  ⟨2, 0x100, 960, 4, 0, [⟨31, 0, .ro, 0⟩]⟩,
  ⟨3, 0x100, 960, 4, 0, [⟨31, 0, .ro, 0⟩]⟩]

/-- Registers of block class 0x0011. -/
def rowsBOOT : List RegRow := [
  ⟨0, 0x80, 1, 0, 0, [⟨31, 24, .ro, 0⟩, ⟨23, 16, .ro, 0⟩, ⟨15, 12, .ro, 0⟩, ⟨7, 1, .ro, 1⟩, ⟨0, 0, .ro, 0⟩]⟩,
  ⟨0, 0x84, 1, 0, 0, [⟨31, 0, .ro, 0⟩]⟩,
  ⟨0, 0x88, 1, 0, 0, [⟨15, 0, .ro, 0⟩]⟩,
  ⟨0, 0x8c, 1, 0, 0, [⟨31, 0, .ro, 0⟩]⟩,
  ⟨0, 0x90, 1, 0, 0, [⟨0, 0, .rw, 0⟩]⟩,
  ⟨0, 0x94, 1, 0, 0, [⟨2, 0, .ro, 0⟩]⟩,
  ⟨0, 0x98, 1, 0, 0, [⟨31, 31, .wo, 0⟩, ⟨6, 0, .wo, 0⟩]⟩,
  ⟨0, 0x9c, 1, 0, 0, [⟨31, 0, .wo, 0⟩]⟩,
  ⟨0, 0xa0, 1, 0, 0, [⟨17, 17, .ro, 0⟩, ⟨16, 16, .ro, 0⟩, ⟨15, 0, .ro, 0⟩]⟩,
  ⟨0, 0xa4, 1, 0, 0, [⟨15, 8, .ro, 0⟩, ⟨7, 0, .ro, 0⟩]⟩,
  ⟨1, 0x80, 128, 4, 0, [⟨31, 16, .ro, 0⟩, ⟨7, 6, .ro, 0⟩, ⟨5, 4, .ro, 0⟩, ⟨3, 0, .ro, 0⟩]⟩]

/-- Registers of block class 0x0020. -/
def rowsHG : List RegRow := [
  ⟨0, 0x80, 1, 0, 0, [⟨2, 2, .w1s, 0⟩, ⟨1, 1, .w1s, 0⟩, ⟨0, 0, .w1s, 0⟩]⟩,
  ⟨0, 0x84, 1, 0, 0, [⟨3, 0, .ro, 0⟩]⟩,
  ⟨0, 0x88, 1, 0, 0, [⟨13, 0, .ro, 0⟩]⟩,
  ⟨0, 0x8c, 1, 0, 0, [⟨13, 0, .rw, 0⟩]⟩,
  ⟨0, 0x90, 1, 0, 0, [⟨31, 30, .ro, 0⟩, ⟨29, 16, .ro, 0⟩, ⟨15, 0, .ro, 0⟩]⟩,
  ⟨0, 0x94, 1, 0, 1, [⟨31, 0, .ro, 0⟩]⟩,
  ⟨0, 0x98, 1, 0, 2, [⟨31, 0, .ro, 0⟩]⟩,
  ⟨0, 0x9c, 1, 0, 1, [⟨31, 0, .ro, 0⟩]⟩,
  ⟨0, 0xa0, 1, 0, 2, [⟨31, 0, .ro, 0⟩]⟩,
  ⟨0, 0xa4, 1, 0, 1, [⟨31, 0, .ro, 0⟩]⟩,
  ⟨0, 0xa8, 1, 0, 2, [⟨31, 0, .ro, 0⟩]⟩,
  ⟨0, 0xac, 1, 0, 0, [⟨31, 0, .wo, 0⟩]⟩,
  ⟨0, 0xb0, 1, 0, 0, [⟨31, 0, .ro, 0⟩]⟩,
  ⟨0, 0xb4, 1, 0, 0, [⟨0, 0, .rw, 0⟩]⟩,
  ⟨0, 0xb8, 1, 0, 1, [⟨31, 0, .ro, 0⟩]⟩,
  ⟨0, 0xbc, 1, 0, 2, [⟨31, 0, .ro, 0⟩]⟩,
  ⟨0, 0xc0, 1, 0, 1, [⟨31, 0, .ro, 0⟩]⟩,
  ⟨0, 0xc4, 1, 0, 2, [⟨31, 0, .ro, 0⟩]⟩,
  ⟨0, 0xc8, 1, 0, 0, [⟨31, 0, .ro, 0⟩]⟩,
  ⟨0, 0xcc, 1, 0, 0, [⟨31, 0, .ro, 0⟩]⟩,
  ⟨0, 0xd0, 2, 4, 0, [⟨31, 31, .rw, 0⟩, ⟨13, 0, .rw, 0⟩]⟩,
  ⟨1, 0x80, 8, 16, 0, [⟨20, 5, .rw, 0⟩]⟩,
  ⟨1, 0x84, 8, 16, 0, [⟨31, 31, .rw, 0⟩, ⟨3, 0, .rw, 0⟩]⟩,
  ⟨1, 0x88, 8, 16, 0, [⟨15, 0, .ro, 0⟩]⟩,
  ⟨1, 0x8c, 8, 16, 0, [⟨15, 0, .rw, 0⟩]⟩,
  ⟨1, 0x100, 1, 0, 0, [⟨31, 0, .ro, 0⟩]⟩,
  ⟨1, 0x104, 1, 0, 0, [⟨31, 0, .ro, 0⟩]⟩,
  ⟨2, 0x80, 4, 8, 1, [⟨31, 0, .ro, 0⟩]⟩,
  ⟨2, 0x84, 4, 8, 2, [⟨31, 0, .ro, 0⟩]⟩,
  ⟨2, 0xa0, 1, 0, 0, [⟨3, 0, .ro, 0⟩]⟩,
  ⟨2, 0xc0, 8, 4, 0, [⟨6, 0, .ro, 0⟩]⟩,
  ⟨2, 0xe0, 8, 4, 0, [⟨31, 0, .ro, 0⟩]⟩,
  ⟨3, 0x80, 1, 0, 0, [⟨24, 16, .ro, 0⟩, ⟨8, 0, .ro, 0⟩]⟩,
  ⟨3, 0x84, 1, 0, 0, [⟨31, 31, .wo, 0⟩, ⟨15, 0, .wo, 0⟩]⟩]

/-- Registers of block class 0x0030. -/
def rowsALLOT : List RegRow := [
  ⟨0, 0x80, 1, 0, 0, [⟨20, 0, .ro, 0⟩]⟩,
  ⟨0, 0x84, 1, 0, 1, [⟨31, 0, .ro, 0⟩]⟩,
  ⟨0, 0x88, 1, 0, 2, [⟨31, 0, .ro, 0⟩]⟩,
  ⟨0, 0x8c, 1, 0, 0, [⟨31, 0, .ro, 0⟩]⟩,
  ⟨0, 0x90, 1, 0, 0, [⟨31, 0, .ro, 0⟩]⟩,
  ⟨0, 0x94, 1, 0, 1, [⟨31, 0, .ro, 0⟩]⟩,
  ⟨0, 0x98, 1, 0, 2, [⟨31, 0, .ro, 0⟩]⟩,
  ⟨0, 0x9c, 1, 0, 0, [⟨31, 0, .ro, 0⟩]⟩,
  ⟨0, 0xa0, 1, 0, 0, [⟨31, 0, .ro, 0⟩]⟩,
  ⟨0, 0xa4, 1, 0, 0, [⟨31, 0, .ro, 0⟩]⟩,
  ⟨0, 0xa8, 1, 0, 0, [⟨31, 0, .ro, 0⟩]⟩,
  ⟨0, 0xac, 1, 0, 0, [⟨31, 0, .ro, 0⟩]⟩,
  ⟨0, 0xb0, 1, 0, 0, [⟨31, 0, .ro, 0⟩]⟩,
  ⟨0, 0xb4, 1, 0, 0, [⟨31, 0, .ro, 0⟩]⟩,
  ⟨0, 0xb8, 1, 0, 0, [⟨31, 0, .ro, 0⟩]⟩,
  ⟨0, 0xbc, 1, 0, 0, [⟨31, 0, .ro, 0⟩]⟩,
  ⟨0, 0xc0, 1, 0, 0, [⟨31, 0, .ro, 0⟩]⟩,
  ⟨0, 0xc4, 1, 0, 0, [⟨20, 0, .ro, 0⟩]⟩,
  ⟨1, 0x80, 14, 4, 0, [⟨20, 0, .ro, 0⟩]⟩]

/-- Registers of block class 0x0031. -/
def rowsPOOL : List RegRow := [
  ⟨0, 0x80, 1, 0, 0, [⟨14, 14, .ro, 0⟩, ⟨13, 13, .ro, 0⟩, ⟨12, 9, .ro, 0⟩, ⟨4, 1, .ro, 0⟩]⟩,
  ⟨0, 0x84, 1, 0, 0, [⟨15, 12, .rw, 8⟩, ⟨11, 8, .rw, 4⟩, ⟨7, 4, .rw, 2⟩, ⟨3, 0, .rw, 1⟩]⟩,
  ⟨0, 0x88, 1, 0, 0, [⟨31, 16, .rw, 2000⟩, ⟨15, 0, .rw, 2000⟩]⟩,
  ⟨0, 0x8c, 1, 0, 0, [⟨25, 0, .rw, 1000⟩]⟩,
  ⟨0, 0x90, 1, 0, 0, [⟨25, 0, .rw, 60000000⟩]⟩,
  ⟨0, 0x94, 1, 0, 0, [⟨31, 31, .rw, 0⟩, ⟨25, 0, .rw, 10000⟩]⟩,
  ⟨0, 0x98, 1, 0, 0, [⟨31, 0, .ro, 10000⟩]⟩,
  ⟨0, 0x9c, 1, 0, 0, [⟨31, 0, .ro, 10000⟩]⟩,
  ⟨0, 0xa0, 1, 0, 0, [⟨31, 0, .ro, 0⟩]⟩,
  ⟨0, 0xa4, 1, 0, 0, [⟨31, 0, .ro, 0⟩]⟩,
  ⟨0, 0xa8, 1, 0, 0, [⟨31, 0, .ro, 0⟩]⟩,
  ⟨0, 0xac, 1, 0, 0, [⟨31, 0, .ro, 0⟩]⟩,
  ⟨0, 0xb0, 1, 0, 0, [⟨31, 0, .ro, 0⟩]⟩,
  ⟨0, 0xb4, 1, 0, 0, [⟨31, 0, .ro, 0⟩]⟩,
  ⟨0, 0xb8, 1, 0, 0, [⟨31, 0, .ro, 0⟩]⟩,
  ⟨0, 0xbc, 1, 0, 1, [⟨31, 0, .ro, 0⟩]⟩,
  ⟨0, 0xc0, 1, 0, 2, [⟨31, 0, .ro, 0⟩]⟩,
  ⟨0, 0xc4, 1, 0, 1, [⟨31, 0, .ro, 0⟩]⟩,
  ⟨0, 0xc8, 1, 0, 2, [⟨31, 0, .ro, 0⟩]⟩,
  ⟨0, 0xcc, 3, 4, 0, [⟨31, 0, .rw, 2000⟩]⟩,
  ⟨1, 0x80, 5, 32, 1, [⟨31, 0, .ro, 0⟩]⟩,
  ⟨1, 0x84, 5, 32, 2, [⟨31, 0, .ro, 0⟩]⟩,
  ⟨1, 0x88, 5, 32, 1, [⟨31, 0, .ro, 0⟩]⟩,
  ⟨1, 0x8c, 5, 32, 2, [⟨31, 0, .ro, 0⟩]⟩,
  ⟨1, 0x90, 5, 32, 1, [⟨31, 0, .ro, 0⟩]⟩,
  ⟨1, 0x94, 5, 32, 2, [⟨31, 0, .ro, 0⟩]⟩,
  ⟨1, 0x98, 5, 32, 0, [⟨7, 0, .ro, 100⟩]⟩,
  ⟨1, 0x9c, 5, 32, 0, [⟨31, 0, .ro, 0⟩]⟩,
  ⟨1, 0x140, 4, 16, 0, [⟨31, 31, .ro, 0⟩, ⟨11, 0, .ro, 0⟩]⟩,
  ⟨1, 0x144, 4, 16, 0, [⟨31, 0, .ro, 0⟩]⟩,
  ⟨1, 0x148, 4, 16, 0, [⟨31, 0, .ro, 0⟩]⟩,
  ⟨1, 0x14c, 4, 16, 0, [⟨1, 1, .ro, 0⟩, ⟨0, 0, .ro, 0⟩]⟩,
  ⟨2, 0x80, 4, 4, 0, [⟨31, 0, .rw, 4294967295⟩]⟩,
  ⟨2, 0xa0, 4, 4, 0, [⟨31, 0, .rw, 4294967295⟩]⟩,
  ⟨2, 0xc0, 4, 4, 0, [⟨31, 0, .rw, 4294967295⟩]⟩,
  ⟨2, 0xe0, 4, 4, 0, [⟨31, 0, .rw, 4294967295⟩]⟩,
  ⟨2, 0x100, 4, 4, 0, [⟨31, 0, .rw, 4294967295⟩]⟩,
  ⟨2, 0x120, 4, 4, 0, [⟨31, 0, .rw, 4294967295⟩]⟩,
  ⟨2, 0x140, 4, 4, 0, [⟨31, 0, .rw, 4294967295⟩]⟩,
  ⟨2, 0x160, 4, 4, 0, [⟨31, 0, .rw, 4294967295⟩]⟩] ++
[
  ⟨2, 0x90, 4, 4, 0, [⟨31, 0, .ro, 0⟩]⟩,
  ⟨2, 0xb0, 4, 4, 0, [⟨31, 0, .ro, 0⟩]⟩,
  ⟨2, 0xd0, 4, 4, 0, [⟨31, 0, .ro, 0⟩]⟩,
  ⟨2, 0xf0, 4, 4, 0, [⟨31, 0, .ro, 0⟩]⟩,
  ⟨2, 0x110, 4, 4, 0, [⟨31, 0, .ro, 0⟩]⟩,
  ⟨2, 0x130, 4, 4, 0, [⟨31, 0, .ro, 0⟩]⟩,
  ⟨2, 0x150, 4, 4, 0, [⟨31, 0, .ro, 0⟩]⟩,
  ⟨2, 0x170, 4, 4, 0, [⟨31, 0, .ro, 0⟩]⟩,
  ⟨3, 0x80, 10, 16, 0, [⟨31, 0, .ro, 0⟩]⟩,
  ⟨3, 0x84, 10, 16, 1, [⟨31, 0, .ro, 0⟩]⟩,
  ⟨3, 0x88, 10, 16, 2, [⟨31, 0, .ro, 0⟩]⟩]

/-- Registers of block class 0x0040. -/
def rowsFLM : List RegRow := [
  ⟨0, 0x80, 1, 0, 0, [⟨31, 16, .ro, 0⟩, ⟨15, 0, .ro, 0⟩]⟩,
  ⟨0, 0x84, 1, 0, 0, [⟨24, 16, .ro, 0⟩, ⟨8, 0, .ro, 0⟩]⟩,
  ⟨0, 0x88, 1, 0, 0, [⟨8, 0, .rw, 256⟩]⟩,
  ⟨0, 0x8c, 1, 0, 0, [⟨31, 16, .wo, 0⟩, ⟨9, 8, .wo, 0⟩, ⟨3, 0, .wo, 0⟩]⟩,
  ⟨0, 0x90, 1, 0, 0, [⟨7, 0, .rw, 0⟩]⟩,
  ⟨0, 0x94, 1, 0, 1, [⟨31, 0, .ro, 0⟩]⟩,
  ⟨0, 0x98, 1, 0, 2, [⟨31, 0, .ro, 0⟩]⟩,
  ⟨0, 0x9c, 1, 0, 1, [⟨31, 0, .ro, 0⟩]⟩,
  ⟨0, 0xa0, 1, 0, 2, [⟨31, 0, .ro, 0⟩]⟩,
  ⟨0, 0xa4, 1, 0, 0, [⟨31, 0, .ro, 0⟩]⟩,
  ⟨0, 0xa8, 1, 0, 0, [⟨31, 0, .ro, 0⟩]⟩,
  ⟨0, 0xac, 1, 0, 0, [⟨31, 0, .ro, 0⟩]⟩,
  ⟨0, 0xb0, 1, 0, 0, [⟨31, 0, .ro, 0⟩]⟩,
  ⟨1, 0x80, 16, 16, 0, [⟨31, 16, .ro, 0⟩, ⟨3, 0, .ro, 0⟩]⟩,
  ⟨1, 0x84, 16, 16, 0, [⟨31, 16, .ro, 0⟩, ⟨15, 8, .ro, 0⟩, ⟨0, 0, .ro, 0⟩]⟩,
  ⟨1, 0x88, 16, 16, 0, [⟨31, 0, .ro, 0⟩]⟩,
  ⟨1, 0x8c, 16, 16, 0, [⟨27, 24, .ro, 0⟩, ⟨23, 0, .ro, 0⟩]⟩,
  ⟨1, 0x200, 1, 0, 0, [⟨12, 0, .rw, 25⟩]⟩,
  ⟨1, 0x204, 1, 0, 0, [⟨12, 0, .rw, 5000⟩]⟩,
  ⟨1, 0x208, 1, 0, 0, [⟨31, 31, .rw, 0⟩, ⟨12, 0, .rw, 900⟩]⟩,
  ⟨1, 0x20c, 1, 0, 0, [⟨9, 0, .rw, 50⟩]⟩,
  ⟨1, 0x210, 1, 0, 0, [⟨31, 0, .ro, 0⟩]⟩,
  ⟨1, 0x214, 1, 0, 0, [⟨12, 0, .ro, 0⟩]⟩,
  ⟨1, 0x218, 1, 0, 0, [⟨11, 0, .rw, 0⟩]⟩,
  ⟨1, 0x21c, 1, 0, 0, [⟨12, 0, .ro, 0⟩]⟩,
  ⟨1, 0x220, 1, 0, 0, [⟨12, 0, .ro, 0⟩]⟩,
  ⟨1, 0x300, 1, 0, 0, [⟨31, 16, .ro, 0⟩, ⟨15, 0, .ro, 0⟩]⟩,
  ⟨1, 0x304, 1, 0, 0, [⟨31, 0, .ro, 0⟩]⟩,
  ⟨1, 0x308, 1, 0, 0, [⟨31, 0, .ro, 0⟩]⟩,
  ⟨1, 0x30c, 1, 0, 0, [⟨31, 16, .ro, 0⟩, ⟨15, 12, .ro, 0⟩, ⟨8, 0, .ro, 0⟩]⟩,
  ⟨1, 0x310, 1, 0, 0, [⟨31, 0, .ro, 0⟩]⟩,
  ⟨1, 0x314, 1, 0, 0, [⟨31, 0, .ro, 0⟩]⟩,
  ⟨1, 0x318, 1, 0, 0, [⟨31, 0, .ro, 0⟩]⟩,
  ⟨1, 0x31c, 1, 0, 1, [⟨31, 0, .ro, 0⟩]⟩,
  ⟨1, 0x320, 1, 0, 2, [⟨31, 0, .ro, 0⟩]⟩,
  ⟨1, 0x800, 512, 4, 0, [⟨31, 0, .rw, 0⟩]⟩]

/-- Registers of block class 0x0050. -/
def rowsLANE : List RegRow := [
  ⟨0, 0x80, 1, 0, 0, [⟨31, 31, .ro, 0⟩, ⟨22, 0, .ro, 0⟩]⟩,
  ⟨0, 0x84, 1, 0, 0, [⟨22, 0, .ro, 0⟩]⟩,
  ⟨0, 0x88, 1, 0, 0, [⟨31, 0, .ro, 0⟩]⟩,
  ⟨0, 0x8c, 1, 0, 0, [⟨31, 0, .ro, 0⟩]⟩,
  ⟨0, 0x90, 4, 4, 0, [⟨31, 0, .ro, 0⟩]⟩,
  ⟨0, 0xa0, 1, 0, 0, [⟨31, 0, .ro, 0⟩]⟩,
  ⟨0, 0xa4, 1, 0, 0, [⟨31, 0, .ro, 0⟩]⟩,
  ⟨0, 0xa8, 1, 0, 0, [⟨31, 0, .ro, 0⟩]⟩,
  ⟨0, 0xac, 1, 0, 0, [⟨31, 0, .ro, 0⟩]⟩,
  ⟨0, 0xb0, 1, 0, 0, [⟨31, 0, .ro, 0⟩]⟩,
  ⟨0, 0xb4, 1, 0, 0, [⟨31, 0, .ro, 0⟩]⟩,
  ⟨0, 0xb8, 1, 0, 0, [⟨31, 0, .ro, 0⟩]⟩,
  ⟨0, 0xbc, 1, 0, 0, [⟨15, 0, .ro, 0⟩]⟩,
  ⟨0, 0xc0, 1, 0, 0, [⟨23, 0, .ro, 0⟩]⟩,
  ⟨0, 0xc4, 1, 0, 0, [⟨31, 0, .ro, 0⟩]⟩,
  ⟨0, 0xc8, 1, 0, 1, [⟨31, 0, .ro, 0⟩]⟩,
  ⟨0, 0xcc, 1, 0, 2, [⟨31, 0, .ro, 0⟩]⟩,
  ⟨0, 0xd0, 1, 0, 1, [⟨31, 0, .ro, 0⟩]⟩,
  ⟨0, 0xd4, 1, 0, 2, [⟨31, 0, .ro, 0⟩]⟩,
  ⟨0, 0xd8, 1, 0, 0, [⟨31, 0, .ro, 0⟩]⟩]

/-- Registers of block class 0x0051. -/
def rowsSLC : List RegRow := [
  ⟨0, 0x80, 8, 4, 0, [⟨12, 8, .rw, 7⟩, ⟨5, 4, .rw, 3⟩, ⟨1, 1, .rw, 0⟩, ⟨0, 0, .rw, 0⟩]⟩,
  ⟨0, 0xa0, 1, 0, 0, [⟨3, 0, .rw, 0⟩]⟩,
  ⟨0, 0xa4, 1, 0, 0, [⟨31, 0, .wo, 0⟩]⟩,
  ⟨0, 0xa8, 1, 0, 0, [⟨1, 0, .wo, 0⟩]⟩,
  ⟨0, 0xac, 1, 0, 0, [⟨20, 16, .ro, 0⟩, ⟨15, 0, .ro, 0⟩]⟩,
  ⟨0, 0xb0, 1, 0, 0, [⟨15, 0, .rw, 65535⟩]⟩,
  ⟨0, 0xb4, 1, 0, 0, [⟨31, 0, .ro, 0⟩]⟩]

/-- Registers of block class 0x0061. -/
def rowsSPH : List RegRow := [
  ⟨0, 0x80, 1, 0, 0, [⟨31, 16, .ro, 0⟩, ⟨4, 0, .ro, 0⟩]⟩,
  ⟨0, 0x84, 1, 0, 1, [⟨31, 0, .ro, 0⟩]⟩,
  ⟨0, 0x88, 1, 0, 2, [⟨31, 0, .ro, 0⟩]⟩,
  ⟨0, 0x8c, 1, 0, 0, [⟨16, 0, .ro, 0⟩]⟩,
  ⟨0, 0x90, 1, 0, 0, [⟨31, 0, .ro, 0⟩]⟩,
  ⟨0, 0x94, 1, 0, 0, [⟨31, 0, .ro, 0⟩]⟩,
  ⟨0, 0x98, 1, 0, 0, [⟨31, 0, .ro, 0⟩]⟩,
  ⟨0, 0x9c, 1, 0, 0, [⟨31, 0, .ro, 0⟩]⟩,
  ⟨0, 0xa0, 1, 0, 0, [⟨31, 0, .ro, 0⟩]⟩,
  ⟨0, 0xa4, 1, 0, 0, [⟨31, 16, .ro, 0⟩, ⟨15, 0, .ro, 0⟩]⟩,
  ⟨0, 0xa8, 1, 0, 0, [⟨31, 0, .ro, 0⟩]⟩,
  ⟨0, 0xac, 1, 0, 0, [⟨4, 4, .ro, 0⟩, ⟨3, 3, .ro, 0⟩, ⟨2, 2, .ro, 0⟩, ⟨1, 1, .ro, 0⟩, ⟨0, 0, .ro, 0⟩]⟩]

/-- Registers of block class 0x0060. -/
def rowsTILE : List RegRow := [
  ⟨0, 0x80, 1, 0, 0, [⟨31, 31, .ro, 0⟩, ⟨23, 16, .ro, 0⟩, ⟨15, 0, .ro, 0⟩]⟩,
  ⟨0, 0x84, 1, 0, 0, [⟨3, 0, .rw, 1⟩]⟩,
  ⟨0, 0x88, 1, 0, 0, [⟨22, 0, .ro, 0⟩]⟩,
  ⟨0, 0x8c, 1, 0, 0, [⟨22, 0, .ro, 0⟩]⟩,
  ⟨0, 0x90, 1, 0, 0, [⟨31, 0, .ro, 0⟩]⟩,
  ⟨0, 0x94, 1, 0, 1, [⟨31, 0, .ro, 0⟩]⟩,
  ⟨0, 0x98, 1, 0, 2, [⟨31, 0, .ro, 0⟩]⟩,
  ⟨0, 0x9c, 1, 0, 0, [⟨31, 0, .ro, 0⟩]⟩,
  ⟨0, 0xa0, 1, 0, 0, [⟨31, 0, .ro, 0⟩]⟩,
  ⟨0, 0xa4, 1, 0, 0, [⟨31, 0, .ro, 0⟩]⟩,
  ⟨0, 0xa8, 1, 0, 0, [⟨31, 0, .ro, 0⟩]⟩,
  ⟨0, 0xac, 1, 0, 0, [⟨31, 0, .ro, 0⟩]⟩,
  ⟨0, 0xb0, 1, 0, 0, [⟨31, 0, .ro, 0⟩]⟩,
  ⟨0, 0xb4, 1, 0, 0, [⟨31, 0, .ro, 0⟩]⟩,
  ⟨0, 0xb8, 1, 0, 0, [⟨31, 0, .ro, 0⟩]⟩,
  ⟨0, 0xbc, 1, 0, 0, [⟨31, 0, .ro, 0⟩]⟩,
  ⟨0, 0xc0, 1, 0, 0, [⟨31, 0, .ro, 0⟩]⟩]

/-- Registers of block class 0x0070. -/
def rowsFB : List RegRow := [
  ⟨0, 0x80, 1, 0, 0, [⟨31, 0, .ro, 0⟩]⟩,
  ⟨0, 0x84, 1, 0, 0, [⟨31, 31, .ro, 0⟩, ⟨30, 30, .ro, 0⟩, ⟨29, 29, .ro, 0⟩, ⟨1, 0, .ro, 0⟩]⟩,
  ⟨0, 0x88, 1, 0, 0, [⟨15, 8, .rw, 24⟩, ⟨7, 0, .rw, 0⟩]⟩,
  ⟨0, 0x8c, 1, 0, 0, [⟨7, 0, .rw, 16⟩]⟩,
  ⟨0, 0x90, 1, 0, 0, [⟨31, 31, .rw, 0⟩, ⟨7, 0, .rw, 16⟩]⟩,
  ⟨0, 0x94, 1, 0, 0, [⟨7, 0, .ro, 16⟩]⟩,
  ⟨0, 0x98, 1, 0, 0, [⟨15, 0, .ro, 16⟩]⟩,
  ⟨0, 0x9c, 1, 0, 0, [⟨31, 16, .rw, 2000⟩, ⟨15, 0, .ro, 0⟩]⟩,
  ⟨0, 0xa0, 1, 0, 0, [⟨31, 0, .ro, 0⟩]⟩,
  ⟨0, 0xa4, 1, 0, 0, [⟨31, 31, .rw, 0⟩, ⟨30, 30, .rw, 0⟩, ⟨29, 27, .rw, 0⟩, ⟨25, 20, .rw, 0⟩]⟩,
  ⟨0, 0xa8, 1, 0, 0, [⟨12, 0, .rw, 1⟩]⟩,
  ⟨0, 0xac, 1, 0, 0, [⟨31, 16, .rw, 1000⟩, ⟨15, 0, .rw, 200⟩]⟩,
  ⟨0, 0xb0, 1, 0, 0, [⟨31, 0, .ro, 0⟩]⟩,
  ⟨0, 0xb4, 1, 0, 0, [⟨31, 0, .ro, 0⟩]⟩,
  ⟨0, 0xb8, 1, 0, 0, [⟨31, 0, .ro, 0⟩]⟩,
  ⟨0, 0xbc, 1, 0, 0, [⟨31, 0, .ro, 0⟩]⟩,
  ⟨0, 0xc0, 1, 0, 0, [⟨31, 0, .ro, 0⟩]⟩,
  ⟨0, 0xc4, 1, 0, 0, [⟨31, 0, .ro, 0⟩]⟩,
  ⟨0, 0xc8, 1, 0, 0, [⟨5, 0, .ro, 0⟩]⟩,
  ⟨0, 0xcc, 1, 0, 0, [⟨31, 28, .ro, 0⟩, ⟨15, 0, .ro, 0⟩]⟩,
  ⟨0, 0xd0, 1, 0, 0, [⟨31, 0, .ro, 0⟩]⟩,
  ⟨1, 0x80, 1, 0, 0, [⟨15, 8, .rw, 64⟩, ⟨7, 0, .rw, 192⟩]⟩,
  ⟨1, 0x84, 1, 0, 0, [⟨11, 0, .rw, 0⟩]⟩,
  ⟨1, 0x88, 1, 0, 0, [⟨31, 31, .rw, 0⟩, ⟨7, 0, .rw, 127⟩]⟩,
  ⟨1, 0x8c, 1, 0, 0, [⟨31, 0, .ro, 0⟩]⟩,
  ⟨1, 0x90, 1, 0, 1, [⟨31, 0, .ro, 0⟩]⟩,
  ⟨1, 0x94, 1, 0, 2, [⟨31, 0, .ro, 0⟩]⟩,
  ⟨1, 0x98, 1, 0, 1, [⟨31, 0, .ro, 0⟩]⟩,
  ⟨1, 0x9c, 1, 0, 2, [⟨31, 0, .ro, 0⟩]⟩,
  ⟨1, 0xa0, 1, 0, 0, [⟨0, 0, .ro, 0⟩]⟩,
  ⟨1, 0xa4, 1, 0, 0, [⟨31, 0, .ro, 0⟩]⟩,
  ⟨1, 0xa8, 1, 0, 0, [⟨31, 0, .ro, 0⟩]⟩,
  ⟨1, 0xb0, 1, 0, 0, [⟨2, 0, .rw, 0⟩]⟩,
  ⟨1, 0xc0, 8, 8, 0, [⟨31, 0, .ro, 0⟩]⟩,
  ⟨1, 0xc4, 8, 8, 0, [⟨31, 0, .ro, 0⟩]⟩,
  ⟨2, 0x80, 64, 4, 0, [⟨31, 0, .rw, 0⟩]⟩,
  ⟨3, 0x80, 64, 4, 0, [⟨31, 0, .ro, 0⟩]⟩,
  ⟨3, 0x180, 64, 4, 0, [⟨31, 0, .ro, 1065353216⟩]⟩]

/-- Registers of block class 0x0080. -/
def rowsCK : List RegRow := [
  ⟨0, 0x80, 1, 0, 0, [⟨31, 31, .ro, 0⟩, ⟨15, 0, .ro, 0⟩]⟩,
  ⟨0, 0x84, 1, 0, 0, [⟨15, 0, .rw, 1⟩]⟩,
  ⟨0, 0x88, 1, 0, 0, [⟨31, 0, .rw, 0⟩]⟩,
  ⟨0, 0x8c, 1, 0, 0, [⟨3, 0, .rw, 0⟩]⟩,
  ⟨0, 0x90, 1, 0, 0, [⟨31, 28, .ro, 0⟩, ⟨27, 26, .ro, 0⟩, ⟨25, 24, .ro, 0⟩]⟩,
  ⟨0, 0x94, 1, 0, 1, [⟨31, 0, .ro, 0⟩]⟩,
  ⟨0, 0x98, 1, 0, 2, [⟨31, 0, .ro, 0⟩]⟩,
  ⟨0, 0x9c, 1, 0, 0, [⟨9, 8, .wo, 0⟩, ⟨3, 0, .wo, 0⟩]⟩,
  ⟨0, 0xa0, 1, 0, 0, [⟨15, 0, .ro, 0⟩]⟩,
  ⟨0, 0xa4, 1, 0, 0, [⟨31, 0, .ro, 0⟩]⟩,
  ⟨0, 0xa8, 1, 0, 0, [⟨31, 0, .ro, 0⟩]⟩,
  ⟨0, 0xac, 1, 0, 1, [⟨31, 0, .ro, 0⟩]⟩,
  ⟨0, 0xb0, 1, 0, 2, [⟨31, 0, .ro, 0⟩]⟩,
  ⟨0, 0xb4, 1, 0, 1, [⟨31, 0, .ro, 0⟩]⟩,
  ⟨0, 0xb8, 1, 0, 2, [⟨31, 0, .ro, 0⟩]⟩,
  ⟨0, 0xbc, 1, 0, 0, [⟨31, 0, .ro, 0⟩]⟩,
  ⟨0, 0xc0, 1, 0, 0, [⟨31, 0, .ro, 0⟩]⟩,
  ⟨0, 0xc4, 1, 0, 0, [⟨31, 0, .ro, 0⟩]⟩,
  ⟨0, 0xc8, 1, 0, 0, [⟨31, 0, .ro, 0⟩]⟩,
  ⟨0, 0xcc, 1, 0, 1, [⟨31, 0, .ro, 0⟩]⟩,
  ⟨0, 0xd0, 1, 0, 2, [⟨31, 0, .ro, 0⟩]⟩,
  ⟨1, 0x80, 1, 0, 0, [⟨1, 0, .rw, 2⟩]⟩,
  ⟨1, 0x90, 8, 16, 0, [⟨31, 31, .rw, 0⟩, ⟨23, 16, .rw, 0⟩, ⟨11, 0, .rw, 0⟩]⟩,
  ⟨1, 0x94, 8, 16, 0, [⟨31, 0, .rw, 0⟩]⟩,
  ⟨1, 0x98, 8, 16, 0, [⟨31, 16, .ro, 0⟩, ⟨7, 4, .ro, 0⟩, ⟨3, 0, .ro, 0⟩]⟩,
  ⟨1, 0x9c, 8, 16, 0, [⟨31, 0, .ro, 0⟩]⟩,
  ⟨1, 0x120, 1, 0, 0, [⟨3, 1, .rw, 0⟩, ⟨0, 0, .rw, 0⟩]⟩,
  ⟨1, 0x124, 1, 0, 1, [⟨31, 0, .ro, 0⟩]⟩,
  ⟨1, 0x128, 1, 0, 2, [⟨31, 0, .ro, 0⟩]⟩,
  ⟨1, 0x12c, 1, 0, 0, [⟨31, 0, .ro, 0⟩]⟩,
  ⟨2, 0x80, 1, 0, 0, [⟨31, 31, .ro, 0⟩, ⟨15, 0, .ro, 0⟩]⟩,
  ⟨2, 0x84, 1, 0, 1, [⟨31, 0, .ro, 0⟩]⟩,
  ⟨2, 0x88, 1, 0, 2, [⟨31, 0, .ro, 0⟩]⟩,
  ⟨2, 0x8c, 1, 0, 0, [⟨31, 0, .ro, 0⟩]⟩]

/-- Registers of block class 0x0090. -/
def rowsPP : List RegRow := [
  ⟨0, 0x80, 1, 0, 0, [⟨31, 28, .ro, 0⟩, ⟨27, 26, .ro, 0⟩, ⟨20, 16, .ro, 0⟩, ⟨15, 8, .ro, 0⟩]⟩,
  ⟨0, 0x84, 1, 0, 0, [⟨31, 16, .ro, 0⟩, ⟨15, 0, .ro, 0⟩]⟩,
  ⟨0, 0x88, 1, 0, 0, [⟨1, 0, .ro, 0⟩]⟩,
  ⟨0, 0x8c, 1, 0, 0, [⟨15, 0, .ro, 0⟩]⟩,
  ⟨0, 0x90, 1, 0, 0, [⟨15, 0, .ro, 0⟩]⟩,
  ⟨0, 0x94, 4, 4, 0, [⟨31, 0, .ro, 0⟩]⟩,
  ⟨0, 0xa4, 1, 0, 0, [⟨31, 0, .ro, 0⟩]⟩,
  ⟨0, 0xa8, 1, 0, 0, [⟨31, 0, .ro, 0⟩]⟩,
  ⟨0, 0xac, 1, 0, 0, [⟨31, 0, .ro, 0⟩]⟩,
  ⟨0, 0xb0, 1, 0, 0, [⟨31, 0, .ro, 0⟩]⟩,
  ⟨0, 0xb4, 1, 0, 1, [⟨31, 0, .ro, 0⟩]⟩,
  ⟨0, 0xb8, 1, 0, 2, [⟨31, 0, .ro, 0⟩]⟩,
  ⟨0, 0xbc, 1, 0, 1, [⟨31, 0, .ro, 0⟩]⟩,
  ⟨0, 0xc0, 1, 0, 2, [⟨31, 0, .ro, 0⟩]⟩,
  ⟨0, 0xc4, 1, 0, 0, [⟨31, 0, .ro, 0⟩]⟩,
  ⟨1, 0x80, 1, 0, 0, [⟨31, 31, .w1c, 0⟩, ⟨15, 0, .ro, 0⟩]⟩,
  ⟨1, 0x84, 1, 0, 1, [⟨31, 0, .ro, 0⟩]⟩,
  ⟨1, 0x88, 1, 0, 2, [⟨31, 0, .ro, 0⟩]⟩,
  ⟨1, 0x8c, 1, 0, 0, [⟨31, 0, .ro, 0⟩]⟩,
  ⟨1, 0x90, 12, 4, 0, [⟨31, 0, .ro, 0⟩]⟩]

/-- Registers of block class 0x00a0. -/
def rowsHOST : List RegRow := [
  ⟨0, 0x80, 1, 0, 0, [⟨31, 28, .ro, 0⟩, ⟨20, 16, .ro, 0⟩, ⟨15, 8, .ro, 0⟩, ⟨0, 0, .ro, 0⟩]⟩,
  ⟨0, 0x84, 1, 0, 1, [⟨31, 0, .rw, 0⟩]⟩,
  ⟨0, 0x88, 1, 0, 2, [⟨31, 0, .rw, 0⟩]⟩,
  ⟨0, 0x8c, 1, 0, 1, [⟨31, 0, .rw, 0⟩]⟩,
  ⟨0, 0x90, 1, 0, 2, [⟨31, 0, .rw, 0⟩]⟩,
  ⟨0, 0x94, 1, 0, 0, [⟨31, 31, .rw, 0⟩, ⟨19, 0, .rw, 0⟩]⟩,
  ⟨0, 0x98, 1, 0, 0, [⟨31, 0, .ro, 0⟩]⟩,
  ⟨0, 0x9c, 1, 0, 0, [⟨31, 0, .ro, 0⟩]⟩,
  ⟨0, 0xa0, 1, 0, 0, [⟨31, 0, .ro, 0⟩]⟩,
  ⟨0, 0xa4, 1, 0, 0, [⟨31, 0, .ro, 0⟩]⟩,
  ⟨0, 0xa8, 1, 0, 0, [⟨31, 0, .ro, 0⟩]⟩,
  ⟨0, 0xac, 1, 0, 0, [⟨31, 0, .ro, 0⟩]⟩,
  ⟨0, 0xb0, 1, 0, 0, [⟨31, 16, .ro, 0⟩, ⟨3, 0, .ro, 0⟩]⟩,
  ⟨0, 0x100, 16, 16, 0, [⟨1, 1, .rw, 0⟩, ⟨0, 0, .rw, 0⟩]⟩,
  ⟨0, 0x104, 16, 16, 0, [⟨31, 0, .rw, 0⟩]⟩,
  ⟨0, 0x108, 16, 16, 0, [⟨23, 0, .rw, 0⟩]⟩]

/-- Registers of block class 0x00a1. -/
def rowsEXP : List RegRow := [
  ⟨0, 0x80, 1, 0, 0, [⟨31, 28, .ro, 0⟩, ⟨27, 27, .ro, 0⟩, ⟨20, 16, .ro, 0⟩, ⟨15, 8, .ro, 0⟩, ⟨0, 0, .ro, 0⟩]⟩,
  ⟨0, 0x84, 1, 0, 0, [⟨15, 0, .rw, 1000⟩]⟩,
  ⟨0, 0x88, 1, 0, 0, [⟨31, 0, .ro, 0⟩]⟩,
  ⟨0, 0x8c, 1, 0, 0, [⟨31, 0, .ro, 0⟩]⟩,
  ⟨0, 0x90, 1, 0, 0, [⟨31, 0, .ro, 0⟩]⟩,
  ⟨0, 0x94, 1, 0, 0, [⟨31, 0, .ro, 0⟩]⟩,
  ⟨0, 0x98, 1, 0, 0, [⟨31, 0, .ro, 0⟩]⟩,
  ⟨0, 0x9c, 1, 0, 0, [⟨31, 0, .ro, 0⟩]⟩,
  ⟨0, 0xa0, 1, 0, 0, [⟨31, 0, .ro, 0⟩]⟩,
  ⟨0, 0xa4, 1, 0, 1, [⟨31, 0, .ro, 0⟩]⟩,
  ⟨0, 0xa8, 1, 0, 2, [⟨31, 0, .ro, 0⟩]⟩]

/-- Registers of block class 0x00b0. -/
def rowsLL : List RegRow := [
  ⟨0, 0x80, 1, 0, 0, [⟨31, 28, .ro, 0⟩, ⟨27, 26, .ro, 0⟩, ⟨25, 24, .ro, 0⟩, ⟨23, 16, .ro, 0⟩, ⟨15, 12, .ro, 0⟩]⟩,
  ⟨0, 0x84, 1, 0, 0, [⟨2, 2, .w1s, 0⟩, ⟨1, 0, .rw, 3⟩]⟩,
  ⟨0, 0x88, 1, 0, 0, [⟨31, 24, .ro, 0⟩, ⟨11, 0, .ro, 0⟩]⟩,
  ⟨0, 0x8c, 1, 0, 0, [⟨15, 8, .rw, 224⟩, ⟨7, 0, .rw, 56⟩]⟩,
  ⟨0, 0x90, 1, 0, 0, [⟨31, 31, .rw, 0⟩, ⟨7, 0, .rw, 224⟩]⟩,
  ⟨0, 0x94, 1, 0, 0, [⟨7, 0, .ro, 0⟩]⟩,
  ⟨0, 0x98, 1, 0, 0, [⟨15, 0, .ro, 0⟩]⟩,
  ⟨0, 0x9c, 1, 0, 0, [⟨31, 0, .ro, 0⟩]⟩,
  ⟨0, 0xa0, 1, 0, 0, [⟨31, 8, .rw, 4096⟩, ⟨7, 0, .rw, 1⟩]⟩,
  ⟨0, 0xa4, 1, 0, 0, [⟨15, 0, .rw, 1000⟩]⟩,
  ⟨0, 0xa8, 1, 0, 0, [⟨31, 31, .rw, 1⟩, ⟨15, 0, .rw, 600⟩]⟩,
  ⟨0, 0xac, 2, 8, 1, [⟨31, 0, .ro, 0⟩]⟩,
  ⟨0, 0xb0, 2, 8, 2, [⟨31, 0, .ro, 0⟩]⟩,
  ⟨0, 0xbc, 1, 0, 1, [⟨31, 0, .ro, 0⟩]⟩,
  ⟨0, 0xc0, 1, 0, 2, [⟨31, 0, .ro, 0⟩]⟩,
  ⟨0, 0xc4, 1, 0, 0, [⟨31, 0, .ro, 0⟩]⟩,
  ⟨0, 0xc8, 1, 0, 0, [⟨31, 0, .ro, 0⟩]⟩,
  ⟨0, 0xcc, 1, 0, 0, [⟨31, 0, .ro, 0⟩]⟩,
  ⟨0, 0xd0, 1, 0, 0, [⟨31, 0, .ro, 0⟩]⟩,
  ⟨0, 0xd4, 1, 0, 0, [⟨31, 0, .ro, 0⟩]⟩,
  ⟨0, 0xd8, 1, 0, 0, [⟨31, 0, .ro, 0⟩]⟩,
  ⟨1, 0x80, 1, 0, 0, [⟨27, 16, .ro, 0⟩, ⟨11, 0, .ro, 0⟩]⟩,
  ⟨1, 0x84, 1, 0, 0, [⟨25, 16, .ro, 0⟩, ⟨11, 0, .ro, 0⟩]⟩,
  ⟨1, 0x88, 1, 0, 0, [⟨15, 0, .rw, 2000⟩]⟩,
  ⟨1, 0x8c, 1, 0, 0, [⟨3, 0, .rw, 8⟩]⟩,
  ⟨1, 0x90, 1, 0, 0, [⟨15, 0, .rw, 1000⟩]⟩,
  ⟨1, 0x94, 1, 0, 0, [⟨31, 0, .ro, 0⟩]⟩,
  ⟨1, 0x98, 1, 0, 0, [⟨31, 0, .ro, 0⟩]⟩,
  ⟨1, 0x9c, 1, 0, 0, [⟨31, 0, .ro, 0⟩]⟩,
  ⟨1, 0xa0, 4, 4, 0, [⟨15, 0, .ro, 0⟩]⟩,
  ⟨1, 0xb0, 4, 4, 0, [⟨15, 0, .ro, 0⟩]⟩,
  ⟨1, 0xc0, 4, 4, 0, [⟨31, 0, .ro, 0⟩]⟩]

/-- Registers of block class 0x00b1. -/
def rowsLR : List RegRow := [
  ⟨0, 0x80, 1, 0, 0, [⟨31, 30, .rw, 0⟩, ⟨11, 0, .rw, 0⟩]⟩,
  ⟨0, 0x84, 1, 0, 0, [⟨28, 16, .rw, 1⟩, ⟨12, 0, .rw, 1⟩]⟩,
  ⟨0, 0x88, 1, 0, 0, [⟨12, 0, .rw, 1⟩]⟩,
  ⟨0, 0x8c, 1, 0, 0, [⟨31, 24, .wo, 0⟩, ⟨4, 0, .wo, 0⟩]⟩,
  ⟨0, 0x90, 1, 0, 0, [⟨31, 28, .ro, 0⟩, ⟨15, 0, .ro, 0⟩]⟩,
  ⟨0, 0x94, 1, 0, 0, [⟨11, 0, .rw, 0⟩]⟩,
  ⟨0, 0x98, 1, 0, 0, [⟨3, 0, .rw, 15⟩]⟩,
  ⟨0, 0x9c, 1, 0, 0, [⟨31, 24, .rw, 16⟩, ⟨15, 0, .rw, 64⟩]⟩,
  ⟨0, 0xa0, 1, 0, 0, [⟨23, 0, .ro, 0⟩]⟩,
  ⟨0, 0xa4, 1, 0, 0, [⟨15, 0, .rw, 10000⟩]⟩,
  ⟨0, 0xa8, 1, 0, 1, [⟨31, 0, .ro, 0⟩]⟩,
  ⟨0, 0xac, 1, 0, 2, [⟨31, 0, .ro, 0⟩]⟩,
  ⟨0, 0xb0, 1, 0, 0, [⟨31, 0, .ro, 0⟩]⟩,
  ⟨0, 0xb4, 1, 0, 0, [⟨31, 0, .ro, 0⟩]⟩,
  ⟨0, 0xb8, 1, 0, 0, [⟨31, 0, .ro, 0⟩]⟩,
  ⟨0, 0xbc, 1, 0, 0, [⟨31, 0, .ro, 0⟩]⟩,
  ⟨0, 0xc0, 1, 0, 0, [⟨31, 0, .ro, 0⟩]⟩,
  ⟨1, 0x80, 3, 4, 0, [⟨23, 0, .rw, 16777215⟩]⟩,
  ⟨1, 0x90, 1, 0, 0, [⟨31, 31, .w1c, 0⟩, ⟨15, 0, .ro, 0⟩]⟩,
  ⟨1, 0x94, 1, 0, 0, [⟨28, 24, .ro, 0⟩, ⟨11, 0, .ro, 0⟩]⟩,
  ⟨1, 0x98, 1, 0, 0, [⟨31, 0, .ro, 0⟩]⟩,
  ⟨1, 0xa0, 12, 4, 0, [⟨31, 0, .ro, 0⟩]⟩,
  ⟨1, 0x100, 8, 16, 0, [⟨31, 31, .rw, 0⟩, ⟨30, 30, .rw, 1⟩, ⟨11, 0, .rw, 0⟩]⟩,
  ⟨1, 0x104, 8, 16, 0, [⟨31, 0, .rw, 0⟩]⟩,
  ⟨1, 0x108, 8, 16, 1, [⟨31, 0, .ro, 0⟩]⟩,
  ⟨1, 0x10c, 8, 16, 2, [⟨31, 0, .ro, 0⟩]⟩]

/-- Registers of block class 0x00c0. -/
def rowsHBM : List RegRow := [
  ⟨0, 0x80, 1, 0, 0, [⟨31, 28, .ro, 0⟩, ⟨27, 27, .ro, 0⟩, ⟨26, 26, .ro, 0⟩, ⟨15, 0, .ro, 0⟩]⟩,
  ⟨0, 0x84, 1, 0, 0, [⟨1, 0, .rw, 0⟩]⟩,
  ⟨0, 0x88, 1, 0, 0, [⟨31, 0, .ro, 0⟩]⟩,
  ⟨0, 0x8c, 1, 0, 0, [⟨7, 0, .ro, 0⟩]⟩,
  ⟨0, 0x90, 1, 0, 0, [⟨7, 0, .rw, 95⟩]⟩,
  ⟨0, 0x94, 1, 0, 0, [⟨31, 0, .ro, 0⟩]⟩,
  ⟨0, 0x98, 1, 0, 0, [⟨31, 0, .ro, 0⟩]⟩,
  ⟨0, 0x9c, 1, 0, 0, [⟨31, 0, .ro, 0⟩]⟩,
  ⟨0, 0xa0, 1, 0, 1, [⟨31, 0, .ro, 0⟩]⟩,
  ⟨0, 0xa4, 1, 0, 2, [⟨31, 0, .ro, 0⟩]⟩,
  ⟨0, 0xa8, 1, 0, 1, [⟨31, 0, .ro, 0⟩]⟩,
  ⟨0, 0xac, 1, 0, 2, [⟨31, 0, .ro, 0⟩]⟩,
  ⟨0, 0xb0, 1, 0, 1, [⟨31, 0, .ro, 0⟩]⟩,
  ⟨0, 0xb4, 1, 0, 2, [⟨31, 0, .ro, 0⟩]⟩,
  ⟨1, 0x80, 32, 4, 0, [⟨31, 31, .ro, 0⟩, ⟨30, 28, .ro, 0⟩, ⟨15, 0, .ro, 0⟩]⟩]

/-- Registers of block class 0x00d0. -/
def rowsTRC : List RegRow := [
  ⟨0, 0x80, 1, 0, 0, [⟨5, 4, .rw, 0⟩, ⟨3, 3, .rw, 0⟩, ⟨2, 2, .w1s, 0⟩, ⟨1, 1, .rw, 0⟩]⟩,
  ⟨0, 0x84, 1, 0, 0, [⟨31, 31, .ro, 0⟩, ⟨30, 28, .ro, 0⟩, ⟨27, 24, .ro, 0⟩, ⟨5, 0, .ro, 0⟩]⟩,
  ⟨0, 0x88, 1, 0, 1, [⟨31, 0, .ro, 0⟩]⟩,
  ⟨0, 0x8c, 1, 0, 2, [⟨31, 0, .ro, 0⟩]⟩,
  ⟨0, 0x90, 1, 0, 1, [⟨31, 0, .ro, 0⟩]⟩,
  ⟨0, 0x94, 1, 0, 2, [⟨31, 0, .ro, 0⟩]⟩,
  ⟨0, 0x98, 1, 0, 1, [⟨31, 0, .rw, 0⟩]⟩,
  ⟨0, 0x9c, 1, 0, 2, [⟨31, 0, .rw, 0⟩]⟩,
  ⟨0, 0xa0, 1, 0, 0, [⟨16, 0, .rw, 131071⟩]⟩,
  ⟨0, 0xa4, 1, 0, 0, [⟨31, 0, .rw, 4294967295⟩]⟩,
  ⟨0, 0xa8, 1, 0, 0, [⟨12, 8, .rw, 31⟩, ⟨7, 0, .rw, 255⟩]⟩,
  ⟨0, 0xac, 1, 0, 0, [⟨31, 0, .rw, 0⟩]⟩,
  ⟨0, 0xb0, 1, 0, 0, [⟨31, 0, .rw, 0⟩]⟩,
  ⟨0, 0xb4, 1, 0, 0, [⟨16, 0, .rw, 65536⟩]⟩,
  ⟨0, 0xb8, 1, 0, 0, [⟨16, 0, .rw, 49152⟩]⟩,
  ⟨0, 0xbc, 1, 0, 0, [⟨16, 0, .rw, 4096⟩]⟩,
  ⟨0, 0xc0, 1, 0, 1, [⟨31, 0, .wo, 0⟩]⟩,
  ⟨0, 0xc4, 1, 0, 2, [⟨31, 0, .wo, 0⟩]⟩,
  ⟨0, 0xc8, 1, 0, 1, [⟨31, 0, .ro, 0⟩]⟩,
  ⟨0, 0xcc, 1, 0, 2, [⟨31, 0, .ro, 0⟩]⟩,
  ⟨0, 0xd0, 1, 0, 0, [⟨31, 0, .ro, 0⟩]⟩,
  ⟨0, 0xd4, 1, 0, 0, [⟨15, 0, .rw, 1024⟩]⟩,
  ⟨0, 0x100, 4, 16, 0, [⟨12, 8, .rw, 0⟩, ⟨2, 0, .rw, 0⟩]⟩,
  ⟨0, 0x104, 4, 16, 0, [⟨31, 0, .rw, 0⟩]⟩,
  ⟨0, 0x108, 4, 16, 0, [⟨31, 0, .rw, 0⟩]⟩,
  ⟨0, 0x10c, 4, 16, 0, [⟨31, 0, .ro, 0⟩]⟩]

/-- The register rows of a block class (the codes of Table 0-3). -/
def rowsOf (cls : Nat) : List RegRow :=
  if cls = 0xe0 then rowsMGMT
  else if cls = 0xe1 then rowsPWR
  else if cls = 0x10 then rowsGH
  else if cls = 0x11 then rowsBOOT
  else if cls = 0x20 then rowsHG
  else if cls = 0x30 then rowsALLOT
  else if cls = 0x31 then rowsPOOL
  else if cls = 0x40 then rowsFLM
  else if cls = 0x50 then rowsLANE
  else if cls = 0x51 then rowsSLC
  else if cls = 0x61 then rowsSPH
  else if cls = 0x60 then rowsTILE
  else if cls = 0x70 then rowsFB
  else if cls = 0x80 then rowsCK
  else if cls = 0x90 then rowsPP
  else if cls = 0xa0 then rowsHOST
  else if cls = 0xa1 then rowsEXP
  else if cls = 0xb0 then rowsLL
  else if cls = 0xb1 then rowsLR
  else if cls = 0xc0 then rowsHBM
  else if cls = 0xd0 then rowsTRC
  else []

end Sys2Proof.Machine
end

