-- ==== Sys2Proof/Machine/Sparse.lean ====
section
/-! DEFINITION. Sparse storage: a list of (key, value) pairs in one canonical form.

Keys rise strictly and no entry equals what an unlisted key reads as, so that equal contents are equal lists.
Registers, memories and tables are all held this way. -/
namespace Sys2Proof.Machine.Sparse

variable {α : Type}

/-- The value at key `k`; an unlisted key reads `d k`. -/
def get (d : Nat → α) (l : List (Nat × α)) (k : Nat) : α :=
  match l with
  | [] => d k
  | p :: t => if p.1 = k then p.2 else get d t k

/-- Insert at the place that keeps the keys rising. -/
def ins (l : List (Nat × α)) (k : Nat) (v : α) : List (Nat × α) :=
  match l with
  | [] => [(k, v)]
  | p :: t => if k < p.1 then (k, v) :: p :: t else p :: ins t k v

/-- Remove every entry of key `k`. -/
def del (l : List (Nat × α)) (k : Nat) : List (Nat × α) :=
  match l with
  | [] => []
  | p :: t => if p.1 = k then del t k else p :: del t k

/-- Write `v` at `k`; writing what an unlisted key reads as removes the entry. -/
def put [DecidableEq α] (d : Nat → α) (l : List (Nat × α)) (k : Nat) (v : α) : List (Nat × α) :=
  if v = d k then del l k else ins (del l k) k v

/-- Write the values `vs` at `k`, `k+1`, …. -/
def putMany [DecidableEq α] (d : Nat → α) (l : List (Nat × α)) (k : Nat) (vs : List α) :
    List (Nat × α) :=
  match vs with
  | [] => l
  | v :: t => putMany d (put d l k v) (k + 1) t

/-- Read `n` values from `k` up. -/
def getMany (d : Nat → α) (l : List (Nat × α)) (k n : Nat) : List α :=
  match n with
  | 0 => []
  | m + 1 => get d l k :: getMany d l (k + 1) m

/-- The canonical form: keys strictly rising, no entry at its unlisted value. -/
def wf [DecidableEq α] (d : Nat → α) : List (Nat × α) → Bool
  | [] => true
  | [p] => decide (p.2 ≠ d p.1)
  | p :: q :: t => decide (p.2 ≠ d p.1) && decide (p.1 < q.1) && wf d (q :: t)

end Sys2Proof.Machine.Sparse
end

