-- ==== Sys2Proof/Machine/Dev.lean ====
section
/-! DEFINITION. The device's state as plain data, part by part: `Dev` is everything but the command queue. -/
namespace Sys2Proof.Machine

/-- What the device sends or answers, in order (the model's own log of its outputs). `partner` and `host` answer a read: status 0
data, 1 poison, 2 completer abort, 3 unsupported request, 4 request retry. `ats` is the completion of an ATS invalidation; `mgmt` a
response of Table 27-2, `nack` a refusal on the bus, `mctp` an answer to a control or PLDM command by its values, `event` a
PlatformEventMessage, `tdo` what a JTAG data register captures, `hostRead` the read of a plan image, `pageReq` a PRI page request of a
Flume's group under a PASID. -/
inductive Output where
  | msix (vec addr data : Nat)
  | readData (p : Path) (addr data : Nat)
  | group (link : Nat) (lanes : List (List Nat))
  | energy (link : Nat)
  | partner (port tid status : Nat) (data : List Byte)
  | mailbox (port op : Nat) (ok : Bool) (vals : List Nat)
  | host (tid status : Nat) (data : List Byte)
  | ats (itag : Nat)
  | mgmt (src : MSrc) (status code : Nat) (data : List Byte)
  | nack (src : MSrc)
  | mctp (src : MSrc) (cmd : Nat) (vals : List Nat)
  | event (vdm : Bool) (sensor level : Nat)
  | tdo (ir : Nat) (bits : Nat)
  | hostRead (addr len : Nat) (pasid : Option Nat)
  | pageReq (flume group pasid addr : Nat)
deriving DecidableEq, Repr

/-- MSI-X of the host function (R56, R114, R471). `tbl` is keyed by 4·vector + word, `pba` and `defer` are bit sets. -/
structure Msix where
  en : Bool
  fmask : Bool
  tbl : List (Nat × Word)
  pba : Nat
  defer : Nat
deriving DecidableEq, Repr

/-- The Trace Unit's own state beside its registers and buffer. `loaded`: TRC_TIME
runs (boot stage 3 reached); `held`: its value while HOLD stops it; `line`: the open line; `cnt`: LOST_COUNT_s; `lostN`, `lostMask`: drops
since the last LOST packet; `post`: lines left to write after STOP_AFTER; `rateAt`, `rate`, `lines`: an AO tick, the packets of each source
taken in it and the lines written in it (R573); `hitAt`: when a filter last hit. -/
structure Trc where
  loaded : Bool
  held : Option Nat
  last : Nat
  lastSync : Nat
  line : List Byte
  cnt : List (Nat × Nat)
  lostN : Nat
  lostMask : Nat
  post : Option Nat
  wrapped : Bool
  gapEntry : Nat
  gapOpen : Bool
  rateAt : Nat
  rate : List (Nat × Nat)
  lines : Nat
  hitAt : Option Nat
deriving DecidableEq, Repr

/-- The scrub in progress (R109): its segment, when it started, and what it will find: the words (by index in the segment) whose error
it corrects, and those it finds uncorrectable. -/
structure ScrubJob where
  seg : Nat
  since : Nat
  ce : List Nat
  ue : List Nat
deriving DecidableEq, Repr

/-- The Gauge House sequencer and the AO domain beside its registers. `handler`: 0 main loop, 1 V_ENTER, 2 V_EXIT; `ueFirst`:
SCRUB_UE_INFO holds the first failure; `atRet`: the memories stand at the retention voltage, but for segment `segUp`, which a scrub left at
the operating voltage (R109, R110); `keyBad`: key-store slots that a copy-back will find uncorrectable (R108); `wakeAt`: when the exit or
the abort in whose tick further sources still count began, `tc0At`: when tc0 was last disarmed, with its compare value reached (R105). -/
structure Gh where
  timer : Nat
  k : List Nat
  z : Bool
  c : Bool
  stack : List Nat
  wait : Option Nat
  handler : Nat
  scrub : Option ScrubJob
  ueFirst : Bool
  atRet : Bool
  segUp : Option Nat
  keyBad : Nat
  wakeAt : Option Nat
  tc0At : Option Nat
  keyStore : List (Nat × List Byte)
  enterAt : Option Nat
  exitAt : Option Nat
  gpio : Nat
  retMv : Nat
deriving DecidableEq, Repr

/-- A DOZE or HOLD request in flight: its present target (2 DOZE, 3 HOLD), wake time, whether it was demoted. -/
structure PwrReq where
  target : Nat
  wake : Nat
  demoted : Bool
deriving DecidableEq, Repr

/-- Power state beside its registers. `entry`: 0 no entry, n the step of Table 4-5 reached; `exiting`: an exit runs; `wakeAfter`: the
wake source reported of those seen from step 6 on, `afterAt` the tick of it, `afterMask` all of them; `gated`: power-gated blocks; `tj`: the
junction in 0.25 °C; `vid`, `vidTarget`: the VDD_CORE code driven and asked for, `stepped` when the code last changed; `ask`: the frequency
and voltage of a rise that waits for VDD_CORE (R85); `hgWas`: the Headgate's state before HOLD. -/
structure Pwr where
  pend : Option PwrReq
  entry : Nat
  cur : Option PwrReq
  exiting : Bool
  srx : Bool
  wakeAfter : Nat
  afterAt : Nat
  afterMask : Nat
  gated : List Nat
  tripped : Bool
  tj : Int
  vid : Nat
  vidTarget : Nat
  stepped : Nat
  ask : Option (Nat × Nat)
  hgWas : Nat
deriving DecidableEq, Repr

/-- Times that a periodic event counts from: `run` ticks in RUN since the governor's last update (R84), `quiet` ticks in RUN without work (R68),
`busy` the last tick at which a lane or a tile, by block, had work (R82). -/
structure Due where
  run : Nat
  quiet : Nat
  busy : List (Nat × Nat)
deriving DecidableEq, Repr

/-- A task-table slot that is not FREE (chapter 07). `st`: 1 QUEUED, 2 ACCEPTED, 3 RECORD_PENDING; `sent`: dispatched
to its engine; `hdr`, `w1`, `w2`, `w3`: the descriptor; `wait`: the wait in progress (cause, AO time it began);
`waits`: AO ticks waited per cause; `outcome`, `cause`, `moved`: what its record says; `orphan`: its record is discarded
(R166); `full`: its record has been counted as one whose ring is full (R152). -/
structure Task where
  tag : Nat
  st : Nat
  sent : Bool
  hdr : Nat
  w1 : Nat
  w2 : Nat
  w3 : Nat
  issued : Nat
  moved : Nat
  winner : Nat
  wait : Option (Nat × Nat)
  waits : List (Nat × Nat)
  outcome : Nat
  cause : Nat
  orphan : Bool
  full : Bool
deriving DecidableEq, Repr

/-- A bundle stalled before it commits: its eight words, why (0 task table, 1 FENCE), and the mark entries that slots A and B sampled
(FIFO and entry). -/
structure Stall where
  words : List Nat
  why : Nat
  sample : List (Option (Nat × Nat))
deriving DecidableEq, Repr

/-- The Headgate beside its registers. `ev`: the latched bits of EV; `marks`: the mark FIFOs, each mark with the AO time of its entry; `fired`: timers whose event has been set since they
were armed; `kept`: the interrupted WAIT's mask; `fz`: the state a freeze interrupted; `ldv`: register-view loads whose response has not come;
`inD`: the bundle at pc has begun and waits in D, or commits (R164); `stv`: stores not yet acknowledged; `sleep`: a SLEEP that waits for its answer (gd, state, wake time) and
`sleepGd`: where a HOLD's result goes on resume, `sleepVal` that result once HOLD is entered; `seqs`: the sequence number per slot; `recQ`: tags in RECORD_PENDING, oldest first. -/
structure Hg where
  g : List DWord
  p : BitVec 8
  h : List Word
  ev : Nat
  fired : Nat
  marks : List (List (Nat × Nat))
  kept : Option Nat
  fz : Option Nat
  stepping : Bool
  haltReq : Bool
  stall : Option Stall
  ldv : List (Nat × DWord)
  inD : Bool
  stv : Nat
  sleep : Option (Nat × Nat × Nat)
  sleepGd : Option Nat
  sleepVal : Option Nat
  seqs : List (Nat × Nat)
  tasks : List Task
  recQ : List Nat
deriving DecidableEq, Repr

/-- A Ditch Map entry's changing fields (Table 3-2). -/
structure Ent where
  status : Nat
  cause : Nat
  origin : Nat
  stage : Nat
deriving DecidableEq, Repr

/-- The Ditch Map (R40 to R45): published, PUBLISH_SEQ, the entries that differ from PRESENT, the status fields of
parameter records by (block, record offset). -/
structure DMap where
  published : Bool
  seq : Nat
  ents : List (Nat × Ent)
  params : List (Nat × Nat)
deriving DecidableEq, Repr

/-- A place in a tier: tier number, node (T4 only), byte address, size in bytes. -/
structure Place where
  tier : Nat
  node : Nat
  addr : Nat
  size : Nat
deriving DecidableEq, Repr

/-- An Allotment entry (Table 10-2; `node` is the manifest's NODE, R253, R272) with the manifest fields other blocks keep: escape blocks, chain, region, tensor,
eviction age, LAST_TOUCH, the places it still leaves behind (R237), the home's allocation, a waiting REARM (tag, MB,
STEP), whether DAMAGED_POLICY has run since the last REARM, when a capacity eviction last took it from T1,
whether the home holds slots or encrypted blocks (`packed`), the lead slot,
OVER (ACCEPT), and whether an uncorrectable control error forced it to DAMAGED (R582). -/
structure Obj where
  handle : Nat
  state : Nat
  partner : Nat
  kind : Nat
  fate : Nat
  codec : Nat
  format : Nat
  tier : Nat
  liftLock : Bool
  drainLock : Bool
  evictAfter : Bool
  wetAll : Bool
  poison : Bool
  policy : Nat
  stateWin : Bool
  enc : Bool
  key : Nat
  blocks : Nat
  refs : Nat
  window : Nat
  winBlock : Nat
  loc : Nat
  node : Nat
  consumed : Bool
  mb : Nat
  step : Nat
  escBlocks : Nat
  chain : Nat
  region : Nat
  tensor : Nat
  touch : Nat
  home : Option Place
  leaving : List Place
  rearm : Option (Nat × Nat × Nat)
  rebuilt : Bool
  evictedAt : Option Nat
  relift : Bool
  packed : Bool
  slot : Option Nat
  accept : Bool
  ue : Bool
deriving DecidableEq, Repr

/-- A partner window (R447): state window or activation window, its blocks, base, and the T1 address of its block records. -/
structure Win where
  partner : Nat
  index : Nat
  state : Bool
  blocks : Nat
  base : Nat
  recs : Nat
deriving DecidableEq, Repr

/-- An eviction drain of the Pool Manager: grants held at its two points, blocks moved, the EVICT task it serves, the object's state
before it; `counted`: it is a user in REFCOUNT; `refWait`: its wait to become one has been counted; `lost`: a grant has gone to another
since its own last; `blocked`: since when it has waited on a failed path; `keep`: it is the move of a kept T0 object to T1 before HOLD (O8),
which changes no state. -/
structure Drain where
  handle : Nat
  svc : Nat
  dst : Place
  gSrc : Nat
  gDst : Nat
  moved : Nat
  tag : Option Nat
  capacity : Bool
  since : Nat
  prior : Nat
  counted : Bool
  refWait : Bool
  lost : Bool
  blocked : Option Nat
  keep : Bool
deriving DecidableEq, Repr

/-- Pool Manager state beside its registers: allocations, waits and regrets since the last age update, the drains, the
deficit round robin position per point and direction (class, blocks taken in its turn), failed node paths, RESERVE
per partner and tier, the places charged to no partner (R251), what the admitted variant fixes (HORIZON_US), the blocks freed for EVICT
tasks in progress, and the ticks of RUN and IDLE since the last age update. -/
structure Pool where
  allocs : List Place
  uncharged : List Place
  fullWaits : Nat
  regrets : Nat
  waiting : List Nat
  drains : List Drain
  arb : List (Nat × (Nat × Nat))
  resv : List (Nat × Nat)
  horizon : Nat
  evicting : List (Nat × Nat)
  ageRun : Nat
deriving DecidableEq, Repr

/-- A write that a stream has ready: block (relative), address, bytes, whether it is the block's last. -/
structure WPiece where
  blk : Nat
  addr : Nat
  bytes : List Byte
  last : Bool
deriving DecidableEq, Repr

/-- A stream of a Flume context, or of a burst slot of a turnout context. `st` is the CTX state code; `low` the lowest
relative block not landed, `fin` those above it that have; `rd` counts source pieces issued, `rdDone` those read in order, `ahead` holds
those read before an earlier one; `rdq` the outstanding reads (piece, AO time of issue); `cur` the block being put together; `wq` the writes
ready, of which `wi` are issued, at the AO times `wiq`; `pgR`, `pgW` the reads and (with their AO times) the writes that wait for a host page
(R290); `full` the blocks dealt again (block, lane, bytes) that wait for a lane's queue (R276), `queued` the last block counted as one that waited for one;
`seen` the blocks Freeboard has had (R278); `keyIn`: its first block has entered a lane with its key; `recCause` what its record says where
that is not `cause` (R244); `counted`, `refWait`, `lost`, `blocked` as for a drain. -/
structure Stream where
  flume : Nat
  ctx : Nat
  slot : Nat
  tag : Nat
  st : Nat
  cause : Nat
  op : Nat
  handle : Nat
  first : Nat
  count : Nat
  abort : Bool
  gate : Bool
  obs : Bool
  step : Nat
  mb : Nat
  tensor : Nat
  svc : Nat
  deadlineUs : Nat
  mask : Nat
  lanes : List Nat
  prior : Nat
  src : Place
  dst : Option Place
  gSrc : Nat
  gDst : Nat
  rd : Nat
  rdDone : Nat
  rdq : List (Nat × Nat)
  ahead : List (Nat × List Byte)
  cur : List Byte
  wq : List WPiece
  wi : Nat
  wiq : List Nat
  pgR : List Nat
  pgW : List (Nat × WPiece)
  full : List (Nat × (Nat × List Byte))
  low : Nat
  fin : List Nat
  gran : Nat
  esc : Nat
  escAt : List (Nat × Nat)
  seen : List Nat
  startAt : Option Nat
  lead : Option Nat
  entered : Bool
  chained : Bool
  dest : Nat
  keyIn : Bool
  recCause : Nat
  queued : Option Nat
  counted : Bool
  refWait : Bool
  lost : Bool
  blocked : Option Nat
deriving DecidableEq, Repr

/-- What a turnout program waits for. -/
inductive TWait where
  | none
  | waitt (until_ : Nat)
  | waito (d : Nat) (handle st : Nat) (m : Bool) (limit : Option Nat) (hit : Bool)
  | waitb (d mask : Nat)
  | burst (insn : Nat)
  | ending (fail : Bool)
deriving DecidableEq, Repr

/-- A turnout program in a context (Table 13-1): registers, flags, pc, lanes, tensor, deadline, the status and use of its
four burst slots, what it waits for, what its record gathers, and whether it only waits for its record to be written (R294). -/
structure Turn where
  flume : Nat
  ctx : Nat
  tag : Nat
  a : List Nat
  b : List Nat
  z : Bool
  n : Bool
  t : Bool
  pc : Nat
  lanes : Nat
  tid : Nat
  dl : Nat
  status : List Nat
  wait : TWait
  halted : Bool
  ending : Option Nat
  failed : Bool
  late : Bool
  moved : Nat
  fault : Nat
  done : Bool
deriving DecidableEq, Repr

/-- A block in a Sluice lane's queue: its stream, its object block, direction (0 compress or encrypt, 1 expand or
decrypt), its bytes, the policy latched when it entered (R330), and whether an escape decision is open. -/
structure LaneBlk where
  lane : Nat
  flume : Nat
  ctx : Nat
  slot : Nat
  tag : Nat
  handle : Nat
  rel : Nat
  dir : Nat
  data : List Byte
  policy : Nat
  escape : Bool
deriving DecidableEq, Repr

/-- The prefetch-lead table (R281, R282): per slot (applied, shadow), and the T1 address of the lead map. -/
structure Lead where
  tab : List (Nat × (Nat × Nat))
  map : Option Nat
deriving DecidableEq, Repr

/-- A PRI page request (R290): the Flume and its group, none while all 8 are in use; the stream it is for, and its transfer: a write at a
byte offset of the destination, or a read by its piece; the T3 address. -/
structure Pri where
  flume : Nat
  group : Option Nat
  ctx : Nat
  slot : Nat
  write : Bool
  piece : Nat
  addr : Nat
deriving DecidableEq, Repr

/-- The Flumes: streams, turnout programs, PRI page requests in order, the lead table, and per Flume the context that its sequencer served
last (R297), the contexts whose turn at the transfer buffers is next and, per context, the burst slots' (R302), and the AO time and tag of the
last stream that completed in each context (R289). -/
structure Flm where
  streams : List Stream
  turns : List Turn
  pri : List Pri
  lead : Lead
  served : List (Nat × Nat)
  turn : List (Nat × Nat)
  slotTurn : List (Nat × Nat)
  ended : List ((Nat × Nat) × (Nat × Nat))
deriving DecidableEq, Repr

/-- The Sluice: lane queues in order of entry, staged key words per path. -/
structure Slc where
  q : List LaneBlk
  keyStage : List (List Word)
deriving DecidableEq, Repr

/-- A request for an automatic recompute (R244): the object and what it takes from the failing task. -/
structure AutoReq where
  handle : Nat
  svc : Nat
  deadline : Nat
  ring : Nat
  step : Nat
  mb : Nat
  tag : Option Nat
deriving DecidableEq, Repr

/-- A variant record of an admission reply (Table 9-11). -/
structure VRec where
  result : Nat
  code : Nat
  place : Nat
  index : Nat
  flumes : Nat
  partners : Nat
  tiles : Nat
  lanes : Nat
  demand : List Nat
  short : List Nat
deriving DecidableEq, Repr

/-- An admission reply before its words are laid out (Table 9-10). -/
structure Reply where
  status : Nat
  admitted : Nat
  mode : Nat
  closest : Nat
  measures : Nat
  planId : Nat
  caps : List Nat
  extras : List Nat
  cause : Nat
  sect : Nat
  recs : List VRec
deriving DecidableEq, Repr

/-- The admission service between two of its bundles (R204, R211): the image it read, PUBLISH_SEQ as it was when capacity was last measured,
the reply so far, and how many parts of the installation have been done. -/
structure AdmJob where
  img : List Byte
  seq : Nat
  reply : Reply
  part : Nat
deriving DecidableEq, Repr

/-- What the admitted plan fixes (chapter 09): the variant, its permitted power states and lease time, the home
stack and its loss, the longest HOLD interval, and the places in T1 that installation took for its tables; and the admission
service's own work while it runs. -/
structure Plan where
  admitted : Bool
  variant : Nat
  power : Nat
  leaseMs : Nat
  home : Option Nat
  homeLost : Bool
  maxHoldUs : Nat
  areas : List Place
  job : Option AdmJob
deriving DecidableEq, Repr

/-- A block on its way to Freeboard's observe path: its object, tensor and STEP, its elements' format code as the latched
policy names it, and its raw bytes. -/
structure ObsBlk where
  handle : Nat
  tensor : Nat
  step : Nat
  fmt : Nat
  data : List Byte
deriving DecidableEq, Repr

/-- A scratch buffer of a chain: its number, format, shape and element encodings, row-major. -/
structure Scratch where
  id : Nat
  fmt : Nat
  rows : Nat
  cols : Nat
  data : List Nat
deriving DecidableEq, Repr

/-- A chain that Siphon control has accepted. `tag` its RUN_CHAIN task, `found` the task that an automatic recompute
answers for; `st`: 0 queued, 1 running, 2 waiting for a binding; `op` the descriptor in progress, `left` the tiles that
have not finished it, `modes` what each tile latched (R355), `res` its finished rows; `users` the bindings it reads; `need` the grants of
tier bandwidth it still asks for before it runs (point and direction, blocks), `lost` as for a drain, `waitAt` since when it waits for a binding. -/
structure Chain where
  tag : Option Nat
  found : Option Nat
  auto : Bool
  handle : Nat
  index : Nat
  mask : Nat
  arith : Nat
  mb : Nat
  step : Nat
  gate : Bool
  svc : Nat
  deadline : Nat
  issued : Nat
  st : Nat
  tiles : List Nat
  op : Nat
  opened : Bool
  left : List Nat
  modes : List (Nat × Nat)
  res : List (Nat × List Nat)
  scratch : List Scratch
  users : List Nat
  flags : Nat
  need : List (Nat × Nat)
  lost : Bool
  waitAt : Option Nat
deriving DecidableEq, Repr

/-- A flit of a lateral link: its header fields (Table 22-3) but the checksum, and its valid payload. A sequenced message is
one flit (Table 23-1). -/
structure Flit where
  type : Nat
  vc : Nat
  dst : Nat
  src : Nat
  seq : Nat
  ack : Nat
  hops : Nat
  msgA : Nat
  msgB : Nat
  body : List Byte
deriving DecidableEq, Repr

/-- A lateral link beside its registers (chapter 22). `replay`: unacknowledged flits in order; `txq`: messages that wait for
the link, with the credit each needs; `rxq`: accepted sequenced flits not consumed, in arrival order; `rxl`: received link-local flits not yet
handled; `sent`, `freed`, `cred`: per virtual channel, flits sent, the peer's freed count, its advertised buffer; `took`, `told`:
flits consumed here and the count last sent in a CREDIT; `nak`: the EXPECT of the NAK outstanding; `resent`: resends of the
oldest flit with no advance of ACK; `lpWant`, `lpOwe`, `lpSent`, `lpWake`: the low-power exchange; `exit`: leaving LOW_POWER;
`locked`: lanes locked at both ends; `eq`, `aligned`: consecutive EQ_DONE frames and good groups; `again`: ALIGN has gone back
to CDR once; `gotParam`, `gotAck`: the PARAM exchange; `taps`: the transmitter's PRE, MAIN and POST per lane; `rate`: the rate
being trained; `resume`: the peer's RESUME is awaited; `dropTo`: the lane kept by a LANE_DROP in flight; `win`: corrected
symbols per lane and uncorrectable codewords of the window; `cleanSince`: the start of the clean period; `old`: the
configuration a promotion left (rate, lane mask); `offer`: the lanes it goes back to; `wrote`: software wrote the loop's bounds, pin or
RETRAIN in this window (R512); `viol`, `flaps`: times of the counted violations and retrains; `wired`: the peer is the
neighbour the topology names; `hist`: the training history; and AO times: `stAt` the state began, `exitAt` the exit from LOW_POWER, `nakAt` the
last NAK went, `ackAt` ACK last moved or the oldest flit went, `credAt` the last CREDIT went, `tookAt` the first flit consumed since, `winAt`
the FEC window began. -/
structure Link where
  nextSeq : Nat
  expect : Nat
  replay : List Flit
  txq : List (Nat × Flit)
  rxq : List Flit
  rxl : List Flit
  sent : List Nat
  freed : List Nat
  cred : List Nat
  took : List Nat
  told : List Nat
  gcount : Nat
  nak : Option Nat
  resent : Nat
  lpWant : Bool
  lpOwe : Bool
  lpSent : Bool
  lpWake : Bool
  exit : Bool
  locked : Nat
  eq : Nat
  aligned : Nat
  again : Bool
  gotParam : Bool
  gotAck : Bool
  taps : List Int
  rate : Nat
  resume : Bool
  dropTo : Option Nat
  win : List Nat
  cleanSince : Nat
  old : Option (Nat × Nat)
  offer : Option Nat
  wrote : Bool
  viol : List Nat
  flaps : List Nat
  wired : Bool
  hist : List Nat
  stAt : Nat
  exitAt : Nat
  nakAt : Nat
  ackAt : Nat
  credAt : Nat
  tookAt : Option Nat
  winAt : Nat
deriving DecidableEq, Repr

/-- Who waits for a read or a flush of the Lateral Router. -/
inductive Owner where
  | stream (f c slot : Nat) (write : Bool)
  | drain (handle : Nat)
  | ckFlush (region nbr epoch : Nat)
  | restore (region kind off : Nat)
deriving DecidableEq, Repr

/-- An outstanding read or flush (R523): its READ_REQ, tag, destination, the link it went on (24 none), its length in 16-byte units
(0 a flush), its owner, the pieces received, its answer once complete, and when it was made. `dead`: it failed; the tag stays reserved. -/
structure RTag where
  req : Flit
  tag : Nat
  dst : Nat
  link : Nat
  len : Nat
  owner : Owner
  got : List (Nat × List Byte)
  status : Option Nat
  since : Nat
  dead : Bool
deriving DecidableEq, Repr

/-- A barrier in progress (R536): group, step, own task, own arrival, the count of each child set, its first arrival, and the
time this device sent its ARRIVE. -/
structure Barrier where
  group : Nat
  step : Nat
  tag : Option Nat
  kids : List (Nat × Nat)
  first : Nat
  sentAt : Option Nat
deriving DecidableEq, Repr

/-- The Lateral Router beside its registers: the route table, the settings APPLY accepted (kind, node, sizes, each link's set), messages held by
a freeze or for want of a link of their tree set, outstanding tags, barriers, sets that detour, dimensions with no link. -/
structure Lr where
  table : List (Nat × Nat)
  kind : Nat
  node : Nat
  dims : List Nat
  sets : List Nat
  held : List Flit
  heldTree : List (Nat × Flit)
  tags : List RTag
  bars : List Barrier
  detours : List Nat
  unreach : List Nat
deriving DecidableEq, Repr

/-- The accumulators of a tensor in the open step (R391): amax as FP32, the exact sum of squares in units of 2^−298, the count of non-finite
elements, and whether it was published. -/
structure Acc where
  tensor : Nat
  amax : Nat
  ss : Nat
  bad : Nat
  published : Bool
deriving DecidableEq, Repr

/-- A tensor's settings (Table 18-4) and Scale Table entry (Table 18-2): `base` is its history's offset from FB_T1_BASE in
bytes, `ptr` the next history slot, `scale` and `shadow` the E8M0 codes, `init` the manifest's initial scale. -/
structure Tensor where
  id : Nat
  fmt : Nat
  scaleEn : Bool
  pinEn : Bool
  pin : Nat
  group : Nat
  margin : Int
  histLen : Nat
  base : Nat
  ptr : Nat
  fill : Nat
  amaxLast : Nat
  amaxHist : Nat
  scale : Nat
  shadow : Nat
  step : Nat
  init : Nat
deriving DecidableEq, Repr

/-- The open vote (R415): step, this device's VOTE task, its bit and FORCE once it has voted, the children heard (set, voters,
non-finite voters, OR), when the window opened, when the own vote was sent up. -/
structure Vote where
  step : Nat
  tag : Option Nat
  own : Option Nat
  force : Bool
  kids : List (Nat × (Nat × (Nat × Nat)))
  first : Nat
  sentAt : Option Nat
deriving DecidableEq, Repr

/-- A verdict to be published (R399, R406): step, verdict, cause, voters, non-finite voters, MISSED. -/
structure Verdict where
  step : Nat
  verdict : Nat
  cause : Nat
  voters : Nat
  bads : Nat
  missed : Bool
  own : Nat
  force : Bool
  tag : Option Nat
deriving DecidableEq, Repr

/-- Freeboard beside its registers: the open step and its accumulators, the vote bit, the tensors, NORM and CLIP, the verdict
records (step mod 64), the open vote, the last step voted and decided, verdicts that wait for a commit to end, the commits
left (tensor, amax) and their step, the bytes of the histories, and the step whose result came before this device's vote. -/
structure Fb where
  step : Option Nat
  accs : List Acc
  voteBit : Bool
  tensors : List Tensor
  norms : List (Nat × (Nat × Nat))
  recs : List (Nat × List Nat)
  vote : Option Vote
  voted : Option Nat
  decided : Option Nat
  local_ : Option Nat
  waiting : List Verdict
  commits : List (Nat × Nat)
  commitStep : Nat
  histBytes : Nat
  missedStep : Option Nat
deriving DecidableEq, Repr

/-- An epoch on its way to one neighbour: the residue granules not yet read, the wet map, training block and record of the
commit point; `stage`: 0 data, 1 flushes outstanding, 2 CKPT_COMMIT sent. -/
structure CkJob where
  epoch : Nat
  residue : List Nat
  wet : List Byte
  train : List Byte
  record : List Byte
  stage : Nat
deriving DecidableEq, Repr

/-- A neighbour of a region (CK_REGION_STATUS.NB_PRIMARY, NB_SECONDARY): `st` 0 NONE, 1 LIVE, 2 REJOINING, 3 LOST; `opened` the
epoch open on it; `offer` the unanswered CKPT_OFFER (OP, epoch) and `offerAt` when the last one went; `links` the links that
carried data of the open epoch; `leased` leases run, `ans` the last answer, `sent` the last LEASE, `asked` an answer is owed; `fence`
a FENCE is unanswered. -/
structure Nbr where
  node : Nat
  st : Nat
  opened : Option Nat
  offer : Option (Nat × Nat)
  offerAt : Nat
  links : List Nat
  job : Option CkJob
  leased : Bool
  ans : Nat
  sent : Nat
  asked : Bool
  fence : Bool
deriving DecidableEq, Repr

/-- A commit in progress: epoch, step, commit point, the neighbours it waits for, and whether some have acknowledged. -/
structure CkPoint where
  epoch : Nat
  step : Nat
  time : Nat
  wait : List Nat
  acked : Bool
deriving DecidableEq, Repr

/-- A state region (Table 19-1) and its writer state: its members in manifest order, its dirty map's T1 address, the
last committed epoch with its step and whether it was unprotected, CK_NEXT_STEP, the commit in progress, queued commit points, the
trickle switch (R428), `halted`, `off` (integrity, or checkpoint OFF), `point` (a commit point was taken since installation or
restore), `record`: an unprotected epoch's record. -/
structure Region where
  id : Nat
  ckpt : Nat
  paired : Bool
  abort : Bool
  train : Bool
  partner : Nat
  mask : Nat
  objs : List Nat
  blocks : Nat
  map : Nat
  off : Bool
  epoch : Nat
  step : Option Nat
  unprot : Bool
  nextStep : Nat
  nbrs : List Nbr
  commit : Option CkPoint
  queued : Nat
  still : Bool
  halted : Bool
  point : Bool
  record : List Byte
deriving DecidableEq, Repr

/-- One of the two image buffers of a host slot (Table 19-3). -/
structure HBuf where
  st : Nat
  epoch : Nat
  gen : Nat
  record : List Byte
deriving DecidableEq, Repr

/-- A host slot: the highest GEN seen, the buffers, REGION_BYTES of the offer, whether a manifest may be written, the lease (last
renewal, length in ms), and the last offer accepted (OP, epoch, GEN). -/
structure HSlot where
  gen : Nat
  bufs : List HBuf
  bytes : Nat
  manifest : Bool
  place : Option Place
  lease : Option (Nat × Nat)
  last : Option (Nat × (Nat × Nat))
deriving DecidableEq, Repr

/-- One region of a restore: `st` 0 asked, 1 its maps being read, 2 checked; the record, the wet map and training block as they
come, reads outstanding, granules not asked for. -/
structure RPart where
  region : Nat
  st : Nat
  record : List Byte
  wet : List Byte
  train : List Byte
  left : Nat
  todo : List Nat
deriving DecidableEq, Repr

/-- The restore in progress: its task, NODE, EPOCH, FORCE; `stage` 0 checks, 1 data, 2 fences. -/
structure Restore where
  tag : Nat
  node : Nat
  epoch : Nat
  force : Bool
  stage : Nat
  parts : List RPart
deriving DecidableEq, Repr

/-- The Cistern beside its registers. `open_`: CK_GEN and CK_NEXT_STEP accept writes (R425). -/
structure Ck where
  regions : List Region
  slots : List HSlot
  restore : Option Restore
  open_ : Bool
deriving DecidableEq, Repr

/-- A record of a CXL memory device's event log (section "Attach modes"): Memory Module or vendor-specific, code, address. -/
structure CxlEvent where
  vendor : Bool
  code : Nat
  addr : Nat
deriving DecidableEq, Repr

/-- A partner port beside its registers: start of the hold, the mode last trained, MARKS_ACCEPTED, the latch of AO_TIME_HI, the
decoders' host physical bases, the Informational and Warning event logs, the last four training attempts, newest first. -/
structure Port where
  hold : Option Nat
  last : Nat
  accepted : Nat
  latch : Nat
  bases : List Nat
  info : List CxlEvent
  warn : List CxlEvent
  hist : List Nat
deriving DecidableEq, Repr

/-- A partner read held under R17: port, address, length, transaction, the object it waits for, when its hold began, its cause. -/
structure HRead where
  port : Nat
  addr : Nat
  len : Nat
  tid : Nat
  handle : Nat
  since : Nat
  cause : Nat
deriving DecidableEq, Repr

/-- A management command that reaches the device's registers, flash or boot operations (Table 27-1). -/
inductive MCmd where
  | regRead (off : Nat)
  | regWrite (off v : Nat)
  | regRead64 (off : Nat)
  | regWrite64 (off lo hi : Nat)
  | verdictClear (i : Nat)
  | imagePref (v : Nat)
  | reboot (key : Nat)
  | flashRead (addr len : Nat)
  | flashProgram (addr : Nat) (data : List Byte)
  | flashErase (addr size : Nat)
deriving DecidableEq, Repr

/-- An access that waits: until RUN is reached (R78), or behind a residue granule (R422, R455). A byte that a write does not enable
is none. A management command that the target has already answered BUSY (R602) has no source left. -/
inductive Held where
  | pWrite (p addr : Nat) (data : List (Option Byte)) (poison : Bool)
  | pRead (p addr len tid : Nat)
  | pMark (p v : Nat)
  | pHint (p h v : Nat)
  | pReg (p off size : Nat) (v : Option Nat) (tid : Nat)
  | bus (path : Path) (addr size : Nat) (v : Option Nat)
  | alias_ (off v : Nat)
  | apRead (addr len tid : Nat)
  | apWrite (addr : Nat) (data : List (Option Byte))
  | msix (v w x : Nat)
  | mgmt (src : Option MSrc) (c : MCmd)
deriving DecidableEq, Repr

/-- An ATS invalidation in progress (R476): its tag, its arrival, and the streams whose transfers it waits for: reads issued up to
the arrival where `reads`, and the writes of the listed pieces (block, address). -/
structure Inval where
  itag : Nat
  since : Nat
  waits : List ((Nat × Nat × Nat) × (Bool × List (Nat × Nat)))
deriving DecidableEq, Repr

/-- The Host Port beside its registers (chapter 21): why the T3 path is failed beside the link and Bus Master Enable: an
unrecoverable page response, a completion error since the last success, a range the host settings do not hold; the
invalidations in progress. -/
structure HostPort where
  pri : Bool
  cpl : Bool
  range : Bool
  inv : List Inval
deriving DecidableEq, Repr

/-- An expander port beside its registers: when its link went down. -/
structure Exp where
  down : Option Nat
deriving DecidableEq, Repr

/-- A flash command that runs (R611): whether the management path started it and from where, the command, address, length. -/
structure FJob where
  mgmt : Bool
  src : Option MSrc
  cmd : Nat
  addr : Nat
  len : Nat
deriving DecidableEq, Repr

/-- The Management Block beside its registers (chapter 27): PLDM terminus, event receiver (on VDM, endpoint), events for a VDM
receiver that wait for RUN, the level last reported per sensor, the flash command, and the TAP: instruction in force, whether it has
taken effect, and the answer to the last MGMT_ACCESS (none until it has completed); `smbAt` when the SMBus last brought a command (R602),
`alertAt` when this device began to drive FLEET_ALERT_N (R619). -/
structure Mgmt where
  tid : Nat
  rcv : Option (Bool × Nat)
  events : List (Nat × Nat)
  levels : List (Nat × Nat)
  flash : Option FJob
  ir : Nat
  access : Option (Bool × Nat)
  smbAt : Nat
  alertAt : Nat
deriving DecidableEq, Repr

/-- The Boot Sequencer beside its registers and ledger (chapter 06): whether a boot runs, the stage in progress (14 after READY), when
that stage and the boot began, the recipe's entries and AUTO_LIMIT, the images that failed in this sequence of automatic reboots, the
records not yet written (time, words), whether the boot's slot is open, the recipe that each verdict selected, whether TEST_EN_N holds stage 0, the flash region written last
and its COPY_SEQ, the cause that the next reset release takes (R645), and the cause of a reboot that is due. -/
structure Boot where
  running : Bool
  next : Nat
  since : Nat
  start : Nat
  recipe : List (List Nat)
  limit : Nat
  bad : List Nat
  buffer : List (List Nat)
  opened : Bool
  chosen : List Nat
  held : Bool
  region : Nat
  copied : Nat
  why : Nat
  again : Nat
deriving DecidableEq, Repr

/-- What stands at the pins: FLEET_ALERT_N held low from outside, HOST_PERST_N high, PP_PERST_N_p and EXP_PERST_N_e high by
port, DEV_RESET_N low, TEST_EN_N high, the SMB_ADDR straps. -/
structure Pins where
  alert : Bool
  hostPerst : Bool
  ppPerst : Nat
  expPerst : Nat
  devReset : Bool
  testEn : Bool
  straps : Nat
deriving DecidableEq, Repr

/-- The part of the device that a frozen block's mirror shows as it stood when FROZEN was reached (R62). -/
structure Snap where
  regs : List (Nat × Word)
  gh : Gh
  trc : Trc
  objs : List (Nat × Obj)
  wins : List Win
  hg : Hg
  pool : Pool
  flm : Flm
  slc : Slc
  chains : List Chain
  links : List Link
  lr : Lr
  fb : Fb
  ck : Ck
  ports : List Port
deriving DecidableEq, Repr

/-- How often memory has lost its content: HOLDs, resets, saves of the Headgate's state. It tells the losses apart. -/
structure Lost where
  holds : Nat
  resets : Nat
  saves : Nat
deriving DecidableEq, Repr

/-- Everything the spec gives the device but the command queue. `latch` and `stage` are the 64-bit latches and stagings (R51, R52), `sel`
the STATE_SEL registers, per page and path; `ecc` the control words that hold an uncorrectable error (memory code, word); `errSeen` the
code of the first error that the access in progress has met, 0 for none; `tied` the loops (block, instance or 2 ^ 16 for any) whose next
update falls in the cycle of a write of their bounds or pin (R23). -/
structure Dev where
  free : Nat
  undef : Bool
  regs : List (Nat × Word)
  mem : List Host.Cell
  lostEpoch : Lost
  latch : List (Nat × Word)
  stage : List (Nat × Word)
  out : List Output
  msix : Msix
  trc : Trc
  gh : Gh
  pwr : Pwr
  keys : List (Nat × List Byte)
  hg : Hg
  map : DMap
  objs : List (Nat × Obj)
  wins : List Win
  pool : Pool
  flm : Flm
  slc : Slc
  auto : List AutoReq
  plan : Plan
  obsQ : List ObsBlk
  chains : List Chain
  links : List Link
  lr : Lr
  fb : Fb
  ck : Ck
  ports : List Port
  reads : List HRead
  host : HostPort
  exps : List Exp
  stuck : List Held
  held : List Held
  pins : Pins
  mgmt : Mgmt
  boot : Boot
  sel : List (Nat × Word)
  snaps : List (Nat × Snap)
  ecc : List (Nat × Nat)
  errSeen : Nat
  tied : List (Nat × Nat)
  due : Due
deriving DecidableEq, Repr

end Sys2Proof.Machine
end

