-- ==== Sys2Proof/Machine/Ops.lean ====
section
/-! DEFINITION. The named operations over registers, memory, interrupts, errors and the trace buffer (chapters 03 and 25). -/
namespace Sys2Proof.Machine

/-! ### Blocks (Table 0-3, R41) -/

/-- The index of the first instance of a class in the Ditch Map (R41). -/
def blkBase (cls : Nat) : Nat :=
  if cls = 0x01 then 0 else if cls = 0x10 then 1 else if cls = 0x11 then 2 else if cls = 0x20 then 3
  else if cls = 0x30 then 4 else if cls = 0x31 then 5 else if cls = 0x40 then 6 else if cls = 0x50 then 38
  else if cls = 0x51 then 46 else if cls = 0x60 then 47 else if cls = 0x61 then 63 else if cls = 0x70 then 64
  else if cls = 0x80 then 65 else if cls = 0x90 then 66 else if cls = 0xa0 then 74 else if cls = 0xa1 then 75
  else if cls = 0xb0 then 79 else if cls = 0xb1 then 103 else if cls = 0xc0 then 104 else if cls = 0xd0 then 108
  else if cls = 0xe0 then 109 else 110

/-- The class code of a block index. -/
def blkClass (b : Nat) : Nat :=
  if b = 0 then 0x01 else if b = 1 then 0x10 else if b = 2 then 0x11 else if b = 3 then 0x20
  else if b = 4 then 0x30 else if b = 5 then 0x31 else if b < 38 then 0x40 else if b < 46 then 0x50
  else if b = 46 then 0x51 else if b < 63 then 0x60 else if b = 63 then 0x61 else if b = 64 then 0x70
  else if b = 65 then 0x80 else if b < 74 then 0x90 else if b = 74 then 0xa0 else if b < 79 then 0xa1
  else if b < 103 then 0xb0 else if b = 103 then 0xb1 else if b < 108 then 0xc0 else if b = 108 then 0xd0
  else if b = 109 then 0xe0 else 0xe1

/-- The instance number of a block index. -/
def blkInst (b : Nat) : Nat := b - blkBase (blkClass b)

/-- The number of block instances of the part (R41). -/
def blkCount : Nat := 111

/-- The trace source of a block class (Table 25-1). -/
def trcSource (cls : Nat) : Nat :=
  if cls = 0x20 then 1 else if cls = 0x30 then 2 else if cls = 0x31 then 3 else if cls = 0x40 then 4
  else if cls = 0x50 ∨ cls = 0x51 then 5 else if cls = 0x60 ∨ cls = 0x61 then 6 else if cls = 0x70 then 7
  else if cls = 0x80 then 8 else if cls = 0x90 then 9 else if cls = 0xa0 ∨ cls = 0xa1 then 10
  else if cls = 0xb0 ∨ cls = 0xb1 then 11 else if cls = 0xc0 then 12 else if cls = 0xe1 then 13
  else if cls = 0xe0 ∨ cls = 0x01 then 14 else if cls = 0x10 ∨ cls = 0x11 then 15 else 0

/-! ### Registers -/

/-- The store key of a register of block `b`. -/
def regKey (b page off : Nat) : Nat := (b * 8 + page) * 4096 + off

/-- The row that holds a page offset. -/
def RegRow.holds (r : RegRow) (page off : Nat) : Bool :=
  r.page == page && decide (r.off ≤ off) &&
    (if r.count ≤ 1 then off == r.off
     else decide ((off - r.off) % r.stride = 0) && decide ((off - r.off) / r.stride < r.count))

/-- The row of a register, if the block's tables name one at that offset. -/
def rowAt (cls page off : Nat) : Option RegRow := (rowsOf cls).find? fun r => r.holds page off

/-- A row's reset word, put together from its fields. -/
def RegRow.rstWord (r : RegRow) : Nat := r.flds.foldl (fun a f => putBits a f.lo (f.hi + 1 - f.lo) f.rst) 0

/-- What a register nothing has written reads: its reset value (Table 3-7 for the header, the class's tables beyond). -/
def regDefault (key : Nat) : Word :=
  let b := key / 32768
  let page := key / 4096 % 8
  let off := key % 4096
  if off < 0x80 then (if off = 0x18 then 0xFFFFFFFF else 0)
  else match rowAt (blkClass b) page off with
    | some r => BitVec.ofNat 32 r.rstWord
    | none => 0

/-- The store key of register `r` of instance `i` of its class. -/
def Reg.key (r : Reg) (i : Nat) : Nat := regKey (blkBase r.cls + i) r.page r.off

/-- The word at a register key. -/
def Dev.rdk (d : Dev) (k : Nat) : Nat := (Sparse.get regDefault d.regs k).toNat

/-- Write the word at a register key. -/
def Dev.wrk (d : Dev) (k v : Nat) : Dev :=
  { d with regs := Sparse.put regDefault d.regs k (BitVec.ofNat 32 v) }

/-- Read a register by name. -/
def Dev.rd (d : Dev) (r : Reg) (i : Nat := 0) : Nat := d.rdk (r.key i)

/-- Write a register by name. -/
def Dev.wr (d : Dev) (r : Reg) (v : Nat) (i : Nat := 0) : Dev := d.wrk (r.key i) v

/-- Read a field by name. -/
def Dev.get (d : Dev) (f : Fld) (i : Nat := 0) : Nat := bitsOf (d.rd f.reg i) f.lo f.w

/-- Write a field by name, keeping the register's other bits. -/
def Dev.set (d : Dev) (f : Fld) (v : Nat) (i : Nat := 0) : Dev :=
  d.wr f.reg (putBits (d.rd f.reg i) f.lo f.w v) i

/-- Add to a counter register, saturating at 0xFFFF_FFFF. -/
def Dev.bumpBy (d : Dev) (r : Reg) (n : Nat) (i : Nat := 0) : Dev :=
  d.wr r (min 0xFFFFFFFF (d.rd r i + n)) i

/-- Add one to a counter register, saturating. -/
def Dev.bump (d : Dev) (r : Reg) (i : Nat := 0) : Dev := d.bumpBy r 1 i

/-- Add one to a counter field, saturating at its width. -/
def Dev.bumpF (d : Dev) (f : Fld) (i : Nat := 0) : Dev := d.set f (min (2 ^ f.w - 1) (d.get f i + 1)) i

/-- The high word's register of a 64-bit pair named by its low word. -/
def Reg.hi (r : Reg) : Reg := { r with off := r.off + 4 }

/-- Read a 64-bit register pair named by its low word. -/
def Dev.rd64 (d : Dev) (r : Reg) (i : Nat := 0) : Nat := d.rd r i + d.rd r.hi i * 2 ^ 32

/-- Write a 64-bit register pair named by its low word. -/
def Dev.wr64 (d : Dev) (r : Reg) (v : Nat) (i : Nat := 0) : Dev :=
  (d.wr r (v % 2 ^ 32) i).wr r.hi (v / 2 ^ 32 % 2 ^ 32) i

/-- Add to a 64-bit counter. -/
def Dev.add64 (d : Dev) (r : Reg) (n : Nat) (i : Nat := 0) : Dev := d.wr64 r (d.rd64 r i + n) i

/-- Is bit `n` of register `r` set? -/
def Dev.bit (d : Dev) (r : Reg) (n : Nat) (i : Nat := 0) : Bool := bitsOf (d.rd r i) n 1 == 1

/-- Set or clear bit `n` of register `r`. -/
def Dev.setBit (d : Dev) (r : Reg) (n : Nat) (v : Bool) (i : Nat := 0) : Dev :=
  d.wr r (putBits (d.rd r i) n 1 (bit01 v)) i

/-- Offsets of the common page header (Table 3-6). -/
def offCtrl : Nat := 0x0C
def offStatus : Nat := 0x10
def offMask : Nat := 0x18
def offPend : Nat := 0x1C
def offSeq : Nat := 0x24
def offErr : Nat := 0x28
def offInfoLo : Nat := 0x2C
def offInfoHi : Nat := 0x30
def offErrCount : Nat := 0x34

/-- Read a header register of page `page` of block `b`. -/
def Dev.hrd (d : Dev) (b page off : Nat) : Nat := d.rdk (regKey b page off)

/-- Write a header register of page `page` of block `b`. -/
def Dev.hwr (d : Dev) (b page off v : Nat) : Dev := d.wrk (regKey b page off) v

/-- BLK_CTRL is per block: it is kept at page 0 (R47). -/
def Dev.ctrlBit (d : Dev) (b n : Nat) : Bool := bitsOf (d.hrd b 0 offCtrl) n 1 == 1

/-- Set a bit of BLK_CTRL. -/
def Dev.setCtrl (d : Dev) (b n : Nat) (v : Bool) : Dev :=
  d.hwr b 0 offCtrl (putBits (d.hrd b 0 offCtrl) n 1 (bit01 v))

/-- A state bit of BLK_STATUS, kept at page 0. -/
def Dev.statBit (d : Dev) (b n : Nat) : Bool := bitsOf (d.hrd b 0 offStatus) n 1 == 1

/-- Set a state bit of BLK_STATUS. -/
def Dev.setStat (d : Dev) (b n : Nat) (v : Bool) : Dev :=
  d.hwr b 0 offStatus (putBits (d.hrd b 0 offStatus) n 1 (bit01 v))

/-! ### Free values -/

/-- Take a fresh free value: nothing constrains it. -/
def Dev.fresh (d : Dev) : Nat × Dev := (Config.freeNat d.free, { d with free := d.free + 1 })

/-! ### Memory: one byte list over numbered spaces -/

def spT0 : Nat := 0
def spT1 : Nat := 1
def spT2 : Nat := 2
def spT3 : Nat := 3
def spT4 : Nat := 4
def spImem : Nat := 5
def spDmem : Nat := 6
def spFlash : Nat := 7
def spTrace : Nat := 8
def spTile : Nat := 9
def spFlashBuf : Nat := 10
def spLedger : Nat := 11
def spHost : Nat := 12
def spStage : Nat := 13

/-- The byte key of an address of a space. -/
def memKey (sp a : Nat) : Nat := sp * 2 ^ 64 + a

/-- The Headgate's state-save area in the data SRAM (R147). -/
def saveArea (key : Nat) : Bool := decide (spDmem * 2 ^ 64 + 0x1FF000 ≤ key) && decide (key < spDmem * 2 ^ 64 + 0x200000)

/-- What an unlisted byte reads: erased flash, and an image staged from it, 0xFF (R612); memory lost by HOLD (R81) a free value, HBM after a
device reset or a power-up another (R140), the save area after a save another; other memory zero. -/
def memDefault (lost : Lost) (key : Nat) : Byte :=
  let sp := key / 2 ^ 64
  if sp = spFlash ∨ sp = spStage then 0xFF
  else if (0 < lost.holds ∨ 0 < lost.resets) ∧ (sp = spT0 ∨ sp = spTrace ∨ sp = spTile) then
    Config.lostByte (Nat.pair lost.holds lost.resets) key
  else if 0 < lost.resets ∧ sp = spT1 then Config.lostByte lost.resets key
  else if 0 < lost.saves ∧ saveArea key then Config.lostByte lost.saves key
  else 0

/-- The memory is in its canonical form: keys strictly rising, no byte listed that an unlisted one would read as. -/
def Memory.wf (d : Dev) : Bool := Sparse.wf (memDefault d.lostEpoch) d.mem

/-- Read one byte. -/
def Dev.rb (d : Dev) (sp a : Nat) : Byte := Sparse.get (memDefault d.lostEpoch) d.mem (memKey sp a)

/-- Write one byte. -/
def Dev.wb (d : Dev) (sp a : Nat) (v : Byte) : Dev :=
  { d with mem := Sparse.put (memDefault d.lostEpoch) d.mem (memKey sp a) v }

/-- Read `n` bytes from `a` up. -/
def Dev.rbs (d : Dev) (sp a n : Nat) : List Byte :=
  Sparse.getMany (memDefault d.lostEpoch) d.mem (memKey sp a) n

/-- Write bytes from `a` up. -/
def Dev.wbs (d : Dev) (sp a : Nat) (v : List Byte) : Dev :=
  { d with mem := Sparse.putMany (memDefault d.lostEpoch) d.mem (memKey sp a) v }

/-- The little-endian reading of bytes (R7). -/
def leNat : List Byte → Nat
  | [] => 0
  | b :: t => b.toNat + 256 * leNat t

/-- The `n` little-endian bytes of a number (R7). -/
def leBytes : Nat → Nat → List Byte
  | 0, _ => []
  | n + 1, v => BitVec.ofNat 8 v :: leBytes n (v / 256)

/-- Read an `n`-byte little-endian value. -/
def Dev.ld (d : Dev) (sp a n : Nat) : Nat := leNat (d.rbs sp a n)

/-- Write an `n`-byte little-endian value. -/
def Dev.st (d : Dev) (sp a n v : Nat) : Dev := d.wbs sp a (leBytes n v)

/-! ### Interrupt vectors (R56, Table 3-4) -/

/-- The vector of an event bit of a page: the default assignment (Table 3-4; pages of several-vector blocks as
their chapters state). 256 stands for none. -/
def vecOf (b page bit : Nat) : Nat :=
  if b = 0 then 0 else if b = 1 then 1 else if b = 2 then 2
  else if b = 3 then (if page = 1 then 8 + bit % 8 else 8)
  else if b = 4 then 16 else if b = 5 then 17 else if b < 38 then 32 + (b - 6)
  else if b < 46 then 64 + (b - 38) else if b = 46 then 28 else if b < 63 then 72 + (b - 47)
  else if b = 63 then 27 else if b = 64 then 24 else if b = 65 then (if page = 1 then 26 else 25)
  else if b < 74 then 88 + 2 * (b - 66) + page % 2 else if b = 74 then 29 else if b < 79 then 104 + (b - 75)
  else if b < 103 then 112 + (b - 79) else if b = 103 then 30 else if b < 108 then 108 + (b - 104)
  else if b = 108 then 5 else if b = 109 then 3 else 4

/-- The block of a vector; 111 for none. -/
def blkOfVec (v : Nat) : Nat :=
  if v = 0 then 0 else if v = 1 then 1 else if v = 2 then 2 else if v = 3 then 109 else if v = 4 then 110
  else if v = 5 then 108 else if 8 ≤ v ∧ v < 16 then 3 else if v = 16 then 4 else if v = 17 then 5
  else if v = 24 then 64 else if v = 25 ∨ v = 26 then 65 else if v = 27 then 63 else if v = 28 then 46
  else if v = 29 then 74 else if v = 30 then 103 else if 32 ≤ v ∧ v < 64 then 6 + (v - 32)
  else if 64 ≤ v ∧ v < 72 then 38 + (v - 64) else if 72 ≤ v ∧ v < 88 then 47 + (v - 72)
  else if 88 ≤ v ∧ v < 104 then 66 + (v - 88) / 2 else if 104 ≤ v ∧ v < 108 then 75 + (v - 104)
  else if 108 ≤ v ∧ v < 112 then 104 + (v - 108) else if 112 ≤ v ∧ v < 136 then 79 + (v - 112) else 111

/-- How many event bits a page has, from bit 0 up (the chapters' IRQ_PEND lists); the rest are reserved. -/
def eventCount (cls page : Nat) : Nat :=
  if page = 0 then
    if cls = 0x10 ∨ cls = 0x31 ∨ cls = 0x70 ∨ cls = 0xe0 ∨ cls = 0xe1 then 8
    else if cls = 0x20 ∨ cls = 0xb0 ∨ cls = 0xb1 then 7
    else if cls = 0x30 ∨ cls = 0x90 ∨ cls = 0xa0 then 6
    else if cls = 0x11 ∨ cls = 0x50 ∨ cls = 0x80 ∨ cls = 0xa1 ∨ cls = 0xc0 ∨ cls = 0xd0 then 5
    else if cls = 0x40 ∨ cls = 0x61 then 4
    else if cls = 0x51 ∨ cls = 0x60 then 1 else 0
  else if page = 1 then
    if cls = 0x20 then 8 else if cls = 0x40 ∨ cls = 0x80 then 4 else if cls = 0x90 then 1 else 0
  else if page = 2 ∧ cls = 0x80 then 2 else 0

/-- The unmasked pending bits of a page. -/
def Dev.unmasked (d : Dev) (b page : Nat) : Nat :=
  d.hrd b page offPend &&& (0xFFFFFFFF - d.hrd b page offMask)

/-- The summary that a vector is raised from: the OR of its page bits. -/
def Dev.vecSummary (d : Dev) (v : Nat) : Bool :=
  let b := blkOfVec v
  if b = 0 ∨ b = 111 then false
  else if b = 3 then
    (if v = 8 then d.unmasked 3 0 != 0 || bitsOf (d.unmasked 3 1) 0 1 == 1
     else bitsOf (d.unmasked 3 1) (v - 8) 1 == 1)
  else if b = 65 then (if v = 26 then d.unmasked 65 1 != 0 else d.unmasked 65 0 != 0 || d.unmasked 65 2 != 0)
  else if 66 ≤ b ∧ b < 74 then d.unmasked b ((v - 88) % 2) != 0
  else d.unmasked b 0 != 0 || d.unmasked b 1 != 0 || d.unmasked b 2 != 0 || d.unmasked b 3 != 0

/-- A word of the MSI-X table; the mask bit of each vector is 1 at reset (PCIe 6.0, PRESUMED, notes/assumptions/3.md). -/
def msixDefault (k : Nat) : Word := if k % 4 = 3 then 1 else 0

def Dev.msixWord (d : Dev) (v w : Nat) : Nat := (Sparse.get msixDefault d.msix.tbl (4 * v + w)).toNat

/-- Is the device in DOZE or HOLD? -/
def Dev.asleep (d : Dev) : Bool := decide (2 ≤ d.get .PWR_STATE_STATE)

/-- Append to the model's log of outputs. -/
def Dev.emit (d : Dev) (o : Output) : Dev := { d with out := d.out ++ [o] }

/-- Send vector `v`'s message, or hold it: pending in the PBA while MSI-X is disabled, the function or the vector
masked (R471), until RUN while asleep (R114). -/
def Dev.sendVec (d : Dev) (v : Nat) : Dev :=
  if !d.msix.en || d.msix.fmask || d.msixWord v 3 % 2 == 1 then
    { d with msix := { d.msix with pba := d.msix.pba ||| 2 ^ v } }
  else if d.asleep || d.pwr.tripped then { d with msix := { d.msix with defer := d.msix.defer ||| 2 ^ v } }
  else d.emit (.msix v (d.msixWord v 0 + d.msixWord v 1 * 2 ^ 32) (d.msixWord v 2))

/-- Hardware set of an IRQ_PEND bit (R53), with the message on a summary that rises (R56). -/
def Dev.irqSet (d : Dev) (b page bit : Nat) : Dev :=
  let v := vecOf b page bit
  let before := d.vecSummary v
  let d1 := d.hwr b page offPend (d.hrd b page offPend ||| 2 ^ bit)
  let d2 := d1.hwr b page offSeq ((d1.hrd b page offSeq + 1) % 65536)
  if !before && d2.vecSummary v then d2.sendVec v else d2

/-! ### Trace packets (chapter 25) -/

/-- A packet before its delta: source, type, trigger key, payload, and the fields that filters read. -/
structure Pkt where
  src : Nat
  type : Nat
  key : Option Nat
  body : List Byte
  handle : Option Nat := none
  svc : Option Nat := none
  partner : Option Nat := none
  done : Bool := false
deriving DecidableEq, Repr

/-- What the unit's own work brings about: an event of its page, or a packet it wrote itself. -/
inductive Aux where
  | ev (bit : Nat)
  | pkt (type key : Nat)
deriving DecidableEq, Repr

/-- TRC_TIME (R555): floor(AO·250/3) from boot stage 3 on, held in HOLD. No drift between loads (DESIGN CHOICE, notes/assumptions/71.md). -/
def Dev.trcNow (d : Dev) : Nat :=
  match d.trc.held with
  | some t => t
  | none => if d.trc.loaded then d.gh.timer * 250 / 3 else 0

/-- Unsigned LEB128 (R557). -/
def leb128 : Nat → Nat → List Byte
  | 0, _ => []
  | f + 1, n => if n < 128 then [BitVec.ofNat 8 n] else BitVec.ofNat 8 (128 + n % 128) :: leb128 f (n / 128)

/-- SYNC and HOLD_GAP carry no delta (Table 25-2). -/
def typeHasDelta (t : Nat) : Bool := !(t == 0x00 || t == 0x01 || t == 0x04)

/-- SYNC, LOST, TRIGGER, HOLD_GAP and PAD ignore every filter. -/
def typeUnfiltered (t : Nat) : Bool := decide (t < 5)

def Dev.trcEnabled (d : Dev) (src : Nat) : Bool := src == 0 || d.bit .TRC_SRC_EN src

/-- The filters of section "Filters and triggers" (R560). -/
def Dev.trcPasses (d : Dev) (p : Pkt) : Bool :=
  typeUnfiltered p.type ||
    (d.trcEnabled p.src && d.bit .TRC_TYPE_EN p.type
      && (match p.partner with | some q => bitsOf (d.get .TRC_FILTER_PARTNER_MASK) q 1 == 1 | none => true)
      && (match p.svc with | some c => bitsOf (d.get .TRC_FILTER_SVC_MASK) c 1 == 1 | none => true)
      && (match p.handle with
          | some h => d.get .TRC_CTRL_HANDLE_EN == 0 ||
              (h &&& d.rd .TRC_HANDLE_MASK) == (d.rd .TRC_HANDLE_MATCH &&& d.rd .TRC_HANDLE_MASK)
          | none => true))

/-- STREAM mode with no room for a further line (R565). -/
def Dev.trcFull (d : Dev) : Bool :=
  d.get .TRC_CTRL_MODE == 1 && decide (65536 ≤ d.rd64 .TRC_WRITTEN_LO - d.rd64 .TRC_RD_LO)

/-- The Trace Unit's own freeze. -/
def Dev.trcFrozen (d : Dev) : Bool := d.ctrlBit 108 3

def Dev.setLine (d : Dev) (l : List Byte) : Dev :=
  { d with trc := { d.trc with line := l } }.set .TRC_STATUS_OPEN_BYTES l.length

/-- Stop recording with a cause (R563, R564): clears RECORD and disarms STOP_AFTER. -/
def Dev.trcStop (d : Dev) (cause : Nat) : Dev :=
  let d := (d.set .TRC_CTRL_RECORD 0).set .TRC_STATUS_RECORDING 0
  let d := (d.set .TRC_STATUS_STOP_CAUSE cause).set .TRC_STATUS_ARMED 0
  { d with trc := { d.trc with post := none } }

/-- The counts of what one AO tick has taken; a new tick starts them again. -/
def Trc.inTick (t : Trc) (now : Nat) : Trc := if t.rateAt = now then t else { t with rateAt := now, rate := [], lines := 0 }

/-- Would one packet more of a source pass the unit's rates (R561, R573): four packets and one line in each of the 84 trace cycles of an AO
tick, and 32 packets in each source's queue (notes/assumptions/127.md)? The unit's own packets (source 0) meet no queue. -/
def Trc.over (t : Trc) (src : Nat) : Bool :=
  let rate := Sparse.put (fun _ => 0) t.rate src (Sparse.get (fun _ => 0) t.rate src + 1)
  src != 0 && (decide (336 < rate.foldl (fun a e => a + (e.2 - 32)) 0) || decide (84 ≤ t.lines))

/-- A packet of a source is taken. -/
def Trc.take (t : Trc) (src : Nat) : Trc :=
  { t with rate := Sparse.put (fun _ => 0) t.rate src (Sparse.get (fun _ => 0) t.rate src + 1) }

/-- The open line, padded, goes into the buffer as line WRITTEN (R556). -/
def Dev.trcClose (d : Dev) : Dev :=
  let n := d.rd64 .TRC_WRITTEN_LO
  let bytes := d.trc.line ++ List.replicate (64 - d.trc.line.length) 0
  let t := d.trc.inTick d.gh.timer
  let d := { d with trc := { t with lines := t.lines + 1 } }
  ((d.wbs spTrace (64 * (n % 65536)) bytes).setLine []).wr64 .TRC_WRITTEN_LO (n + 1)

/-- Write the open line (R556, R565, R566); answers with the events it raises. A post count that reaches 0 ends the
recording (R564): nothing more is recorded, and STOP_AFTER_DONE clears RECORD. -/
def Dev.trcWriteLine (d : Dev) : Dev × List Aux :=
  if d.trc.line.isEmpty then (d, [])
  else
    let n := d.rd64 .TRC_WRITTEN_LO
    let d := d.trcClose
    let wraps := decide (d.rd64 .TRC_VALID_FROM_LO + 65536 ≤ n) && !d.trc.wrapped && d.get .TRC_CTRL_MODE == 0
    let d := if wraps then { d with trc := { d.trc with wrapped := true } } else d
    let wm := d.get .TRC_CTRL_MODE == 1 &&
      n + 1 == d.rd64 .TRC_RD_LO + d.get .TRC_WATERMARK_LINES
    let ev := (if wraps then [Aux.ev 4] else []) ++ (if wm then [Aux.ev 3] else [])
    match d.trc.post with
    | none => (d, ev)
    | some m => ({ d with trc := { d.trc with post := some (m - 1) } }, ev)

/-- Put a packet's bytes into the open line, closing the line first where they do not fit (R556, R557). -/
def Dev.trcAppend (d : Dev) (type : Nat) (body : List Byte) : Dev × List Aux :=
  let now := d.trcNow
  let delta := if typeHasDelta type then leb128 5 (now - d.trc.last) else []
  let bytes := BitVec.ofNat 8 type :: (delta ++ body)
  let r := if 64 < d.trc.line.length + bytes.length then d.trcWriteLine else (d, [])
  let d := r.1.setLine (r.1.trc.line ++ bytes)
  ({ d with trc := { d.trc with last := now } }, r.2)

/-- Count a dropped packet of source `s` (R561). -/
def Dev.trcDrop (d : Dev) (s : Nat) : Dev :=
  let c := Sparse.get (fun _ => 0) d.trc.cnt s
  let d := d.bump .TRC_LOST_TOTAL
  { d with trc := { d.trc with
      cnt := Sparse.put (fun _ => 0) d.trc.cnt s (min 0xFFFFFFFF (c + 1))
      lostN := d.trc.lostN + 1
      lostMask := d.trc.lostMask ||| 2 ^ s } }

/-- Is recording in force? -/
def Dev.trcOn (d : Dev) : Bool := d.get .TRC_CTRL_RECORD != 0 && d.trc.post != some 0

/-- Can the buffer take no packet: full, frozen, or in a HOLD exit before its SYNC (R561, R569)? -/
def Dev.trcShut (d : Dev) : Bool := d.trcFull || d.trcFrozen || d.trc.gapOpen

/-- The LOST packet that is due, at the first opportunity (R561). -/
def Dev.trcLost (d : Dev) : Dev × List Aux :=
  if d.trc.lostN == 0 || !d.trcOn || d.trcShut then (d, [])
  else
    let q := d.trcAppend 0x02 (leBytes 4 d.trc.lostN ++ leBytes 4 d.trc.lostMask)
    ({ q.1 with trc := { q.1.trc with lostN := 0, lostMask := 0 } }, q.2 ++ [.ev 2, .pkt 0x02 d.trc.lostMask])

/-- Record a packet that passed its filters, or drop it (R561); a LOST packet comes first where one is due. -/
def Dev.trcRecord (d : Dev) (p : Pkt) : Dev × List Aux :=
  if !d.trcOn || !d.trcPasses p then (d, [])
  else if d.trcShut || (d.trc.inTick d.gh.timer).over p.src then (d.trcDrop p.src, [])
  else
    let d := { d with trc := (d.trc.inTick d.gh.timer).take p.src }
    let r := d.trcLost
    if r.1.trcFull then (r.1.trcDrop p.src, r.2)
    else
      let q := r.1.trcAppend p.type p.body
      (q.1, r.2 ++ q.2)

/-- A SYNC packet at trace time `t` and AO time `ao` (R558). -/
def Dev.trcSyncAt (d : Dev) (t ao reason : Nat) : Dev × List Aux :=
  let r := d.trcRecord { src := 0, type := 0x01, key := some reason,
                         body := leBytes 8 t ++ leBytes 8 ao ++ leBytes 1 reason }
  ({ r.1 with trc := { r.1.trc with last := t, lastSync := t } }, r.2 ++ [.pkt 0x01 reason])

/-- A SYNC packet now. -/
def Dev.trcSync (d : Dev) (reason : Nat) : Dev × List Aux := d.trcSyncAt d.trcNow d.gh.timer reason

/-- The triggers that a packet hits (R562). -/
def Dev.trcHits (d : Dev) (p : Pkt) : List Nat :=
  match p.key with
  | none => []
  | some k =>
    if !d.trcEnabled p.src then []
    else (List.range 4).filter fun t =>
      d.get (.TRIG_CTRL_ACTION t) != 0 && d.get (.TRIG_CTRL_TYPE t) == p.type
        && (k &&& d.rd (.TRIG_MASK t)) == (d.rd (.TRIG_VALUE t) &&& d.rd (.TRIG_MASK t))

/-- Count the hits and record their TRIGGER packets (R562). -/
def Dev.trcCountHits (d : Dev) : List Nat → Dev × List Aux
  | [] => (d, [])
  | t :: r =>
    let d := d.bump (.TRIG_HITS t)
    let d := { d with trc := { d.trc with hitAt := some d.gh.timer } }
    let q := d.trcRecord { src := 0, type := 0x03, key := none, body := leBytes 1 t ++ leBytes 4 (d.rd (.TRIG_HITS t)) }
    let e := q.1.trcCountHits r
    (e.1, q.2 ++ [.pkt 0x03 t, .ev 0] ++ e.2)

/-- The actions of the triggers that hit: STOP_NOW before STOP_AFTER before START (R563, R564). -/
def Dev.trcAct (d : Dev) (hits : List Nat) : Dev × List Aux :=
  let acts := hits.map fun t => (t, d.get (.TRIG_CTRL_ACTION t))
  if acts.any fun a => a.2 == 3 then
    let q := (d.trcStop 2).trcWriteLine
    (q.1, q.2 ++ [.ev 1])
  else match acts.find? fun a => a.2 == 4 with
    | some a =>
      if d.trc.post.isSome || d.get .TRC_CTRL_RECORD == 0 then (d, [])
      else
        let d := d.set .TRC_STATUS_ARMED (2 ^ a.1)
        ({ d with trc := { d.trc with post := some (d.get .TRIG_POST_LINES_LINES) } }, [])
    | none =>
      if (acts.any fun a => a.2 == 2) && d.get .TRC_CTRL_RECORD == 0 then
        let d := ((d.set .TRC_CTRL_RECORD 1).set .TRC_STATUS_RECORDING 1).set .TRC_STATUS_STOP_CAUSE 0
        d.trcSync 1
      else (d, [])

/-- The EVENT packet of a hardware set (Table 25-2). -/
def eventPkt (b page bit : Nat) : Pkt :=
  { src := trcSource (blkClass b), type := 0x14,
    key := some (blkClass b * 65536 + blkInst b * 256 + bit),
    body := leBytes 2 (blkClass b) ++ leBytes 1 (blkInst b) ++ leBytes 1 page ++ leBytes 1 bit }

/-- A packet the unit itself has written, for the triggers only. -/
def selfPkt (type key : Nat) : Pkt := { src := 0, type := type, key := some key, body := [], done := true }

/-- A packet is generated: triggers, recording, then the events of the unit itself, whose EVENT packets go the same
way. `fuel` bounds that chain (DESIGN CHOICE, notes/assumptions/7.md). -/
def Dev.trcPacket : Nat → Pkt → Dev → Dev
  | 0, _, d => d
  | fuel + 1, p, d =>
    let hits := d.trcHits p
    let r := if p.done then (d, []) else d.trcRecord p
    let c := r.1.trcCountHits hits
    let a := c.1.trcAct hits
    (r.2 ++ c.2 ++ a.2).foldl
      (fun e x => match x with
        | .ev bit => Dev.trcPacket fuel (eventPkt 108 0 bit) (e.irqSet 108 0 bit)
        | .pkt type key => Dev.trcPacket fuel (selfPkt type key) e) a.1

/-- How far the unit's own events may trigger further ones. -/
def trcFuel : Nat := 4

/-- Generate a trace packet. -/
def Dev.trace (d : Dev) (p : Pkt) : Dev := Dev.trcPacket trcFuel p d

/-- A hardware event: its IRQ_PEND bit, IRQ_SEQ, its message and its EVENT packet (R53, R56, Table 25-2). -/
def Dev.raise (d : Dev) (b page bit : Nat) : Dev := (d.irqSet b page bit).trace (eventPkt b page bit)

/-- Raise the Trace Unit's own events and show its own packets to the triggers. -/
def Dev.trcEvents (r : Dev × List Aux) : Dev :=
  r.2.foldl (fun e x => match x with
    | .ev bit => e.raise 108 0 bit
    | .pkt type key => e.trace (selfPkt type key)) r.1

/-! ### Control words (R581) -/

/-- A word of a control memory holds an uncorrectable error from now on, until it is written (R581). -/
def Dev.eccBad (d : Dev) (mem word : Nat) : Dev := { d with ecc := d.ecc.insert (mem, word) }

/-- A whole word is written: its error ends. -/
def Dev.eccWrite (d : Dev) (mem word : Nat) : Dev := { d with ecc := d.ecc.erase (mem, word) }

/-- Errors of whole words of a control memory end, from word `w` on. -/
def Dev.eccClear (d : Dev) (mem w n : Nat) : Dev :=
  { d with ecc := d.ecc.filter fun x => !(x.1 == mem && decide (w ≤ x.2) && decide (x.2 < w + n)) }

/-- The words of a control memory that hold an uncorrectable error, among `n` from word `w` on. -/
def Dev.eccBadIn (d : Dev) (mem w n : Nat) : List Nat :=
  (d.ecc.filter fun x => x.1 == mem && decide (w ≤ x.2) && decide (x.2 < w + n)).map (·.2)

/-! ### Adaptive loops (R20 to R24) -/

/-- Does an update of a loop with bounds `lo` to `hi` count a POLICY_CLAMP: the shadow lies outside them, or the value that the loop
applied until now does and no pin takes its place (R20, R24, notes/assumptions/105.md)? -/
def clamped (lo hi shadow old : Int) (pinned : Bool) : Bool :=
  decide (shadow < lo) || decide (hi < shadow) || (!pinned && (decide (old < lo) || decide (hi < old)))

/-- Is instance `i` of the loop of a block and page tied to a write of the same cycle (R23)? -/
def Dev.isTied (d : Dev) (key i : Nat) : Bool := d.tied.contains (key, i) || d.tied.contains (key, 2 ^ 16)

/-- The update has come: the tie ends. -/
def Dev.untie (d : Dev) (key i : Nat) : Dev := { d with tied := d.tied.filter fun e => !(e.1 == key && (e.2 == i || e.2 == 2 ^ 16)) }

/-! ### Errors (R58) -/

/-- Capture in a page's error registers if VALID is clear, and count. -/
def Dev.errCapture (d : Dev) (b page code lo hi : Nat) : Dev :=
  let d := { d with errSeen := if d.errSeen = 0 then code else d.errSeen }
  let d := d.hwr b page offErrCount (min 0xFFFFFFFF (d.hrd b page offErrCount + 1))
  if bitsOf (d.hrd b page offErr) 31 1 = 1 then d
  else ((d.hwr b page offErr (2 ^ 31 + code % 65536)).hwr b page offInfoLo lo).hwr b page offInfoHi hi

/-- Record an error: capture, count and the ERROR packet. -/
def Dev.err (d : Dev) (b page code lo hi : Nat) : Dev :=
  (d.errCapture b page code lo hi).trace
    { src := trcSource (blkClass b), type := 0x15, key := some code,
      body := leBytes 2 (blkClass b) ++ leBytes 1 (blkInst b) ++ leBytes 2 code }

/-- The access word of Table 3-8. -/
def accessWord (p : Path) (off size : Nat) (write : Bool) : Nat :=
  off % 4096 + size * 65536 + p.ix * 2 ^ 24 + bit01 write * 2 ^ 31

/-- Record an error of a 4-byte register write. -/
def Dev.errWr (d : Dev) (p : Path) (b page off code v : Nat) : Dev :=
  d.err b page code (accessWord p off 4 true) v

/-- Work was done: the time without any starts afresh (R68). -/
def Dev.stir (d : Dev) : Dev := { d with due := { d.due with quiet := 0 } }

/-- Is the device the root of the vote's tree? -/
def Dev.isRoot (d : Dev) : Bool := d.get .VOTE_CFG_ROOT == 1

/-- Is a vote open (R415): a VOTE has been sent or received for its step (the root receives its own)? -/
def Dev.voteOpen (d : Dev) : Bool :=
  match d.fb.vote with
  | some v => v.sentAt.isSome || !v.kids.isEmpty || d.isRoot
  | none => false

end Sys2Proof.Machine
end

