-- ==== Sys2Proof/Machine/HgRegs.lean ====
section
/-! DEFINITION. The Headgate's registers and states, and where a bundle ends (Tables 7-1 and 7-5, R164, R167). -/
namespace Sys2Proof.Machine

/-- The Headgate's block. -/
def hgb : Nat := 3

/-- HG_STATE codes (Table 7-5). -/
def hgRESET : Nat := 0
def hgHALTED : Nat := 1
def hgRUNNING : Nat := 2
def hgWAITING : Nat := 3
def hgFAULTED : Nat := 4
def hgFROZEN : Nat := 5
def hgSLEEPING : Nat := 6

def Dev.hgState (d : Dev) : Nat := d.get .HG_STATE_STATE
def Dev.setHg (d : Dev) (st : Nat) : Dev := d.set .HG_STATE_STATE st

/-- General, predicate and handle registers (Table 7-1). -/
def Dev.gReg (d : Dev) (n : Nat) : DWord := if n = 0 then 0 else d.hg.g.getD n 0
def Dev.setG (d : Dev) (n : Nat) (v : DWord) : Dev :=
  if n = 0 then d else { d with hg := { d.hg with g := d.hg.g.set n v } }
def Dev.pReg (d : Dev) (n : Nat) : Bool := n == 0 || d.hg.p.getLsbD n
def Dev.setP (d : Dev) (n : Nat) (v : Bool) : Dev :=
  if n = 0 then d else { d with hg := { d.hg with p := BitVec.ofNat 8 (putBits d.hg.p.toNat n 1 (bit01 v)) } }
def Dev.hReg (d : Dev) (n : Nat) : Word := d.hg.h.getD n 0
def Dev.setH (d : Dev) (n : Nat) (v : Word) : Dev := { d with hg := { d.hg with h := d.hg.h.set n v } }
def Dev.clearEv (d : Dev) (m : Nat) : Dev := { d with hg := { d.hg with ev := Nat.xor d.hg.ev (d.hg.ev &&& m) } }

/-- Is the core between two bundles: nothing of a bundle stands in D, in a stall or in a SLEEP (R164)? -/
def Dev.atBundleEnd (d : Dev) : Bool := d.hg.stall.isNone && d.hg.sleep.isNone && d.hg.sleepGd.isNone && !d.hg.inD

/-- The core halts, with HALTED raised. -/
def Dev.hgHalted (d : Dev) : Dev :=
  ({ d with hg := { d.hg with stepping := false, haltReq := false } }.setHg hgHALTED).raise hgb 0 1

/-- A bundle has ended: a STEP or a HALT_REQ that came before its commit halts the core (R164). -/
def Dev.bundleEnd (d : Dev) : Dev :=
  if (d.hg.stepping || d.hg.haltReq) && d.hgState == hgRUNNING then d.hgHalted else d

/-- A HOLD that a SLEEP asked for is over or was not entered: its result, in the layout of PWR_REQ_STATUS, goes to the register that the
SLEEP names (R167, R181). -/
def Dev.sleepDone (d : Dev) : Dev :=
  match d.hg.sleepGd with
  | none => d
  | some gd =>
    let v := d.hg.sleepVal.getD (d.rd .PWR_REQ_STATUS)
    ({ d with hg := { d.hg with sleepGd := none, sleepVal := none } }.setG gd (BitVec.ofNat 64 v)).bundleEnd

end Sys2Proof.Machine
end

