-- ==== Sys2Proof/Machine/Wake.lean ====
section
/-! DEFINITION. Wakes: what a wake source does in each power state (R68, R75 to R77, R103 to R105), and the Gauge House
jumps and key copy-back that go with it. -/
namespace Sys2Proof.Machine

/-- The POWER trace packet: old and new state, wake source, AO time (Table 25-2). -/
def Dev.tracePower (d : Dev) (old new src : Nat) : Dev :=
  d.trace { src := 13, type := 0x11, key := some new,
            body := leBytes 1 old ++ leBytes 1 new ++ leBytes 1 src ++ leBytes 8 d.gh.timer }

/-- Set an EVP bit (Table 5-1). -/
def Dev.evpSet (d : Dev) (n : Nat) : Dev := d.setBit .GH_EVP n true

/-- A PlatformEventMessage to the receiver that SetEventReceiver set: at once over SMBus, to a VDM receiver once RUN is reached (R609). -/
def Dev.pldmEvent (d : Dev) (sensor level : Nat) : Dev :=
  match d.mgmt.rcv with
  | none => d
  | some (vdm, _) =>
    if vdm && (d.asleep || d.pwr.tripped) then { d with mgmt := { d.mgmt with events := d.mgmt.events ++ [(sensor, level)] } }
    else d.emit (.event vdm sensor level)

/-- A sensor of Table 27-4 stands at a level (0 normal, 1 warning, 2 critical, 3 fatal) or in a state: a change is an event (R609). -/
def Dev.sensorLevel (d : Dev) (sensor level : Nat) : Dev :=
  if Sparse.get (fun _ => 0) d.mgmt.levels sensor = level then d
  else ({ d with mgmt := { d.mgmt with levels := Sparse.put (fun _ => 0) d.mgmt.levels sensor level } }).pldmEvent sensor level

/-- PWR_STATE.STATE changes: the STATE_CHANGE event, EVP bit 10, the state sensor. -/
def Dev.setState3 (d : Dev) (new : Nat) : Dev :=
  (((d.set .PWR_STATE_STATE new).evpSet 10).raise 110 0 0).sensorLevel 0x30 new

/-- A change of PWR_STATE.STATE with its POWER packet. -/
def Dev.setPower (d : Dev) (new src : Nat) : Dev :=
  let old := d.get .PWR_STATE_STATE
  if old = new then d else (d.setState3 new).tracePower old new src

/-- A power-gated lane or tile is powered up for new work, and counted (R82). -/
def Dev.ungate (d : Dev) (b : Nat) : Dev :=
  if d.pwr.gated.contains b then
    { d.bump .GATE_WAKE_COUNT with pwr := { d.pwr with gated := d.pwr.gated.erase b } }
  else d

/-- A request completes (PWR_REQ_STATUS, REQ_DONE). -/
def Dev.reqDone (d : Dev) (result cause entered : Nat) : Dev :=
  (((d.set .PWR_REQ_STATUS_CAUSE cause).set .PWR_REQ_STATUS_RESULT result).set .PWR_REQ_STATUS_STATE_ENTERED
    entered).raise 110 0 1

/-! ### Gauge House program memory -/

/-- Program word `m` of the loaded program. -/
def Dev.ghWord (d : Dev) (m : Nat) : Nat := bitsOf (d.rd (.GH_PROG (m / 2))) (16 * (m % 2)) 16

/-- The vectors of the ROM program. Its layout is not given; it stands where the default program has its handlers
(DESIGN CHOICE, notes/assumptions/8.md). -/
def romVector (h : Nat) : Nat := if h = 0 then 0x004 else if h = 1 then 0x020 else 0x028

/-- The address the sequencer starts a handler at: V_MAIN, V_ENTER or V_EXIT. -/
def Dev.ghVector (d : Dev) (h : Nat) : Nat :=
  if d.get .GH_STATUS_ROM_ACTIVE = 1 then romVector h else d.ghWord h % 1024

/-- The hardware jump to a handler (or the restart at V_MAIN), which ends any WAIT (R97). -/
def Dev.ghJump (d : Dev) (h : Nat) : Dev :=
  { d with gh := { d.gh with handler := h, wait := none } }.set .GH_STATUS_PC (d.ghVector h)

/-- The memory code (Table 26-3) and the first word of a scrub segment (Table 5-4). -/
def segMem (seg : Nat) : Nat × Nat :=
  if seg < 16 then (if seg < 4 then 1 else 2, seg * 16384) else if seg < 48 then (3, (seg - 16) * 16384)
  else if seg < 560 then (4, (seg - 48) * 16384) else if seg < 592 then (5, (seg - 560) * 16384) else if seg = 592 then (6, 0)
  else if seg = 593 then (8, 0) else if seg = 594 then (9, 0) else if seg < 599 then (0x0A, (seg - 595) * 16384) else (0x0B, 0)

/-- What a scrub has found in a segment (R109): the errors it corrected, and the words it found uncorrectable, in order. -/
def Dev.scrubFound (d : Dev) (seg : Nat) (ce ue : List Nat) : Dev :=
  let d := (d.bumpBy .SCRUB_CE_COUNT ce.length).bumpBy .CTRL_CE_TOTAL ce.length
  let d := if ce.isEmpty then d else d.raise 1 0 2
  match ue with
  | [] => d
  | w :: _ =>
    let d := if d.gh.ueFirst then d
      else { d.wr .SCRUB_UE_INFO (seg * 65536 + w / 8) with gh := { d.gh with ueFirst := true } }
    (ue.foldl (fun (e : Dev) x => e.eccBad (segMem seg).1 ((segMem seg).2 + x)) d).raise 1 0 3

/-- Start of any exit: a scrub in progress is aborted, and its segment stays at the operating voltage (R110). What it has read by now, one
row of eight words a tick after 96 ticks of raising the voltage, counts. -/
def Dev.scrubAbort (d : Dev) : Dev :=
  match d.gh.scrub with
  | none => d
  | some j =>
    let read (w : Nat) : Bool := decide (w / 8 < d.gh.timer - (j.since + 96))
    let d := { d with gh := { d.gh with scrub := none, segUp := some j.seg } }
    ((d.set .GH_STATUS_SCRUB_BUSY 0).bump .SCRUB_ABORT_COUNT).scrubFound j.seg (j.ce.filter read) (j.ue.filter read)

/-- tc0 disarms (R103). -/
def Dev.tc0Disarm (d : Dev) : Dev := d.setBit .TC_ARMED 0 false

/-- An exit or an abort disarms tc0; one whose time has come in this tick still counts among the tick's sources (R105). -/
def Dev.tc0Stop (d : Dev) : Dev :=
  let due := d.bit .TC_ARMED 0 && decide (d.rd64 (.TC_CMP_LO 0) ≤ d.gh.timer)
  { d.tc0Disarm with gh := { d.gh with wakeAt := some d.gh.timer, tc0At := if due then some d.gh.timer else none } }

/-- Exit latency in ticks of a state (section "Scheduled and demand wakes"). -/
def exitTicks (target : Nat) : Nat := if target = 3 then 3456 else 231

/-- Load tc0 with the wake time less the exit latency (R103). -/
def Dev.tc0Load (d : Dev) (target wake : Nat) : Dev :=
  (d.wr64 (.TC_CMP_LO 0) (wake - exitTicks target)).setBit .TC_ARMED 0 true

/-- The AO key store is copied back into the key slots and erased; the slots in `ue` are found uncorrectable and stay
empty (R107, R108). -/
def Dev.keyCopyBack (d : Dev) (ue : Nat) : Dev :=
  let lost := d.gh.keyStore.filter fun e => bitsOf ue e.1 1 == 1
  let good := d.gh.keyStore.filter fun e => bitsOf ue e.1 1 == 0
  let kept := d.keys.filter fun e => !(good.any fun g => g.1 == e.1)
  let d := { d with keys := kept ++ good
                    gh := { d.gh with keyStore := [] } }
  let d := d.set .KEY_RET_STATUS_HELD 0
  if lost.isEmpty then d
  else (d.set .KEY_RET_STATUS_LOST (lost.foldl (fun a e => a ||| 2 ^ e.1) (d.get .KEY_RET_STATUS_LOST))).raise 1 0 4

/-- The exit is counted by its source (R105). -/
def Dev.countWake (d : Dev) (src : Nat) : Dev :=
  let d := d.set .PWR_STATE_LAST_WAKE_SRC src
  if src = 1 then d.bumpF .WAKE_COUNTS_SCHEDULED else d.bumpF .WAKE_COUNTS_DEMAND

/-- The source is seen (R105). -/
def Dev.seeWake (d : Dev) (src : Nat) : Dev := d.setBit .WAKE_SRC_SEEN (src - 1) true

/-- The exit from DOZE or HOLD starts (R77, R97, R103, R110). -/
def Dev.exitStart (d : Dev) (src : Nat) : Dev :=
  let hold := d.get .PWR_STATE_STATE == 3
  let d := ((d.wr .WAKE_SRC_SEEN 0).seeWake src).countWake src
  let d := (d.tc0Stop.scrubAbort).set .PWR_STATE_IN_TRANSITION 1
  let d := { d with pwr := { d.pwr with exiting := true, srx := false }, gh := { d.gh with exitAt := some d.gh.timer } }
  if hold then (d.ghJump 2).set .GH_STATUS_SEQ_POS 0 else d

/-- A wake before step 6 aborts HOLD entry (R75): steps 4 and 5 are undone, the request completes
ABORTED_BY_WAKE, and the device is in RUN. After step 5 the sequencer goes to V_MAIN with SEQ_POS 0 and keeps its return stack (DESIGN CHOICE,
notes/assumptions/102.md). -/
def Dev.entryAbort (d : Dev) (src : Nat) : Dev :=
  let step := d.pwr.entry
  let d := ((d.wr .WAKE_SRC_SEEN 0).seeWake src).countWake src
  let d := if 4 ≤ step then (d.keyCopyBack d.gh.keyBad).set .HG_STATE_STATE d.pwr.hgWas else d
  let d := d.tc0Stop
  let d := { d with pwr := { d.pwr with entry := 0, cur := none, wakeAfter := 0 }
                    gh := { d.gh with enterAt := none, atRet := false, segUp := none, keyBad := 0 }
                    trc := { d.trc with gapOpen := false } }
  let d := if 5 ≤ step then (d.ghJump 0).set .GH_STATUS_SEQ_POS 0 else d
  let d := (d.set .PWR_STATE_IN_TRANSITION 0).raise 110 0 0
  (d.reqDone 0x07 0 0).sleepDone

/-- Several sources in the tick in which the exit or the abort began: the lowest code is reported and counted (R105). -/
def Dev.wakeSameTick (d : Dev) (src : Nat) : Dev :=
  let last := d.get .PWR_STATE_LAST_WAKE_SRC
  if d.gh.wakeAt = some d.gh.timer ∧ src < last then
    let d := d.set .PWR_STATE_LAST_WAKE_SRC src
    if src = 1 then
      (d.set .WAKE_COUNTS_DEMAND (d.get .WAKE_COUNTS_DEMAND - 1)).bumpF .WAKE_COUNTS_SCHEDULED
    else d
  else d

/-- A source seen from step 6 of HOLD entry on: the exit reports the first, of several in one tick the lowest code, and shows them all
(R75, R105, notes/assumptions/103.md). -/
def Dev.wakeLate (d : Dev) (src : Nat) : Dev :=
  let w := d.pwr
  let first := w.wakeAfter == 0
  { d with pwr := { w with
      wakeAfter := if first then src else if w.afterAt = d.gh.timer then min src w.wakeAfter else w.wakeAfter
      afterAt := if first then d.gh.timer else w.afterAt
      afterMask := (if first then 0 else w.afterMask) ||| 2 ^ (src - 1) } }

/-- Wake source `src` (Table 4-7): IDLE returns to RUN (R68); an entry is aborted before step 6 and finished after
it (R75); DOZE and HOLD start their exit (R77). After a trip nothing outside the AO domain is left to wake (R91). -/
def Dev.wake (d : Dev) (src : Nat) : Dev :=
  let st := d.get .PWR_STATE_STATE
  if d.pwr.tripped then d
  else if d.pwr.exiting then (d.seeWake src).wakeSameTick src
  else if d.pwr.entry ≠ 0 then
    if d.pwr.entry < 6 then d.entryAbort src else d.wakeLate src
  else if 2 ≤ st then d.exitStart src
  else if st = 1 then d.setPower 0 0
  else if d.gh.wakeAt = some d.gh.timer then (d.seeWake src).wakeSameTick src
  else d

/-- New work, an access or an event in IDLE returns the device to RUN (R68). -/
def Dev.idleExit (d : Dev) : Dev := if d.get .PWR_STATE_STATE = 1 then d.setPower 0 0 else d

/-- PWR_EFFECTIVE (R37): what the driver's mask and the admitted variant both permit (bit 0 IDLE, 1 DOZE, 2 HOLD). -/
def Dev.pwrEffective (d : Dev) : Nat := d.rd .PWR_PERMIT_MASK &&& d.plan.power

/-- Is HOLD permitted? -/
def Dev.holdPermitted (d : Dev) : Bool := bitsOf d.pwrEffective 2 1 == 1

/-- An access that wakes (R77, R78): in DOZE or HOLD, and while HOLD is entered past step 5 or left, it waits for RUN. -/
def Dev.heldAccess (d : Dev) (src : Nat) (h : Held) (f : Dev → Dev) : Dev :=
  let d := d.wake src
  if d.asleep || decide (6 ≤ d.pwr.entry) then { d with held := d.held ++ [h] } else f d

/-- Is the host link up: L0 or a low-power state reached from it? -/
def Dev.hostUp (d : Dev) : Bool := decide (2 ≤ d.get .HOST_LINK_STATE)

/-- Has boot passed the end of stage `n`? -/
def Dev.bootPast (d : Dev) (n : Nat) : Bool := decide (n < d.boot.next)

/-! ### Register accesses on the two paths -/

/-- The base address of a block's pages (Table 3-1). -/
def pageBase (b : Nat) : Nat :=
  let i := blkInst b
  let c := blkClass b
  if c = 0x01 then 0 else if c = 0x10 then 0x10000 else if c = 0x11 then 0x14000 else if c = 0x20 then 0x1C000
  else if c = 0x30 then 0x20000 else if c = 0x31 then 0x24000 else if c = 0x40 then 0x50000 + i * 0x2000
  else if c = 0x50 then 0x38000 + i * 0x1000 else if c = 0x51 then 0x28000 else if c = 0x60 then 0xA0000 + i * 0x1000
  else if c = 0x61 then 0x29000 else if c = 0x70 then 0x30000 else if c = 0x80 then 0x34000
  else if c = 0x90 then 0x40000 + i * 0x2000 else if c = 0xa0 then 0x2A000 else if c = 0xa1 then 0xB0000 + i * 0x1000
  else if c = 0xb0 then 0xC0000 + i * 0x2000 else if c = 0xb1 then 0x2C000 else if c = 0xc0 then 0x140000 + i * 0x4000
  else if c = 0xd0 then 0x150000 else if c = 0xe0 then 0x18000 else 0x19000

/-- The BAR-0 address of a register. -/
def regAddr (b page off : Nat) : Nat := pageBase b + page * 4096 + off

/-- Can an access arrive on a path: the host link is up; the Management Block answers from the end of stage 1; no trip? -/
def Dev.pathUp (d : Dev) (p : Path) : Bool :=
  !d.pwr.tripped && (match p with
    | .host => d.hostUp
    | .mgmt => d.bootPast 1)

/-- The wake source of a path (Table 4-7). -/
def wakeSrc : Path → Nat
  | .host => 3
  | .mgmt => 5

/-- Does a DEVICE_FATAL device turn a write away (R596)? It takes those of the Boot Sequencer, of the flash controller, and of the choice of a
state item, which reads need (R606; DESIGN CHOICE, notes/assumptions/133.md). -/
def Dev.fatalShut (d : Dev) (b page off : Nat) : Bool :=
  d.get .DEV_FATAL_LEVEL == 2 && !(b == 2 || off == 0x38 || (b == 109 && page == 0 && decide (0x100 ≤ off) && decide (off < 0x300)))

/-- A register write of one page: of the Ditch Map, the Gauge House or the thermal page it is served at once (R79), any other wakes and
waits for RUN (R78). -/
def Dev.viaBus (d : Dev) (p : Path) (b page off v : Nat) (f : Dev → Dev) : Dev :=
  if !d.pathUp p || d.fatalShut b page off then d
  else if b < 2 ∨ b = 110 then f d.idleExit
  else d.heldAccess (wakeSrc p) (.bus p (regAddr b page off) 4 (some v)) f

/-- A write of register `r` of instance `i`. -/
def Dev.viaReg (d : Dev) (p : Path) (r : Reg) (i v : Nat) (f : Dev → Dev) : Dev :=
  d.viaBus p (blkBase r.cls + i) r.page r.off v f

end Sys2Proof.Machine
end

