-- ==== Sys2Proof/Machine/TaskOps.lean ====
section
/-! DEFINITION. The Headgate's task table, completion rings and events, as every engine uses them (chapters 07 and 11). -/
namespace Sys2Proof.Machine

/-! ### Block presence, freezes and enables -/

def Ent.present : Ent := { status := 1, cause := 0, origin := 0, stage := 0xFF }

/-- The Ditch Map entry of a block. -/
def Dev.ent (d : Dev) (b : Nat) : Ent := Sparse.get (fun _ => Ent.present) d.map.ents b

def Dev.present (d : Dev) (b : Nat) : Bool := (d.ent b).status == 1

/-- The blocks a global freeze does not stop (R61, section "Freeze and the state mirror"). The ports' and links' blocks
take it: only their link layers run on. -/
def freezeExempt (b : Nat) : Bool :=
  b == 0 || b == 1 || b == 2 || b == 74 || b == 108 || b == 109 || b == 110

/-- A block's effective freeze: BLK_CTRL.FREEZE or a global freeze that applies to it. -/
def Dev.frozen (d : Dev) (b : Nat) : Bool :=
  d.ctrlBit b 3 || (d.get .GLOBAL_CTRL_FREEZE == 1 && !freezeExempt b && d.present b)

/-- BLK_STATUS.ENABLED (R663). -/
def Dev.enabled (d : Dev) (b : Nat) : Bool :=
  d.ctrlBit b 0 && !d.ctrlBit b 1 && (d.ent b).status != 2 && !d.statBit b 3

/-! ### Time -/

/-- AO ticks as ns at the 10 ns resolution of REFCLK_SYS. -/
def ticksToNs (t : Nat) : Nat := t * 625 / 12 / 10 * 10

/-- µs as AO ticks, rounded up. -/
def usToTicks (us : Nat) : Nat := (us * 96 + 4) / 5

/-- AO ticks as whole µs. -/
def ticksToUs (t : Nat) : Nat := t * 5 / 96

/-! ### Tasks -/

/-- Fields of the slot D header (Table 8-6). -/
def Task.cls (t : Task) : Nat := bitsOf t.hdr 40 16
def Task.inst (t : Task) : Nat := bitsOf t.hdr 32 8
def Task.op (t : Task) : Nat := bitsOf t.hdr 24 8
def Task.hv (t : Task) : Bool := bitsOf t.hdr 23 1 == 1
def Task.handle (t : Task) : Nat := bitsOf t.hdr 19 4
def Task.ring (t : Task) : Nat := bitsOf t.hdr 16 3
def Task.slot (t : Task) : Nat := t.tag % 256

/-- Does the descriptor carry the common SVC and DEADLINE_US fields (Tables 8-8 to 8-10)? -/
def Task.hasSvc (t : Task) : Bool := t.cls == 0x31 || t.cls == 0x40 || t.cls == 0x61

/-- The service class of a task (Table 11-2). -/
def Task.svc (t : Task) : Nat :=
  if t.hasSvc then bitsOf t.w3 61 3
  else if t.cls = 0x80 then (if t.op = 1 then 2 else if t.op = 2 then 4 else 1) else 0

/-- DEADLINE_US, 0 where the descriptor has none. -/
def Task.deadlineUs (t : Task) : Nat := if t.hasSvc then bitsOf t.w3 36 24 else 0

/-- The AO time of the deadline, for ordering; none sorts last. -/
def Task.deadline (t : Task) : Nat := if t.deadlineUs = 0 then 2 ^ 64 else t.issued + usToTicks t.deadlineUs

/-- The descriptor's OBJECT: W1 bits 31:0 of Allotment, Flume streams and RUN_CHAIN; 0 if none. -/
def Task.object (t : Task) : Nat :=
  if t.cls = 0x30 ∨ t.cls = 0x61 ∨ (t.cls = 0x40 ∧ t.op ≠ 5) then bitsOf t.w1 0 32 else 0

def Dev.task? (d : Dev) (tag : Nat) : Option Task := d.hg.tasks.find? fun t => t.tag == tag

/-- Rewrite the task of a tag. -/
def Dev.updTask (d : Dev) (tag : Nat) (f : Task → Task) : Dev :=
  { d with hg := { d.hg with tasks := d.hg.tasks.map fun t => if t.tag == tag then f t else t } }

/-- The turnout context of a task is free. -/
def Dev.dropTurn (d : Dev) (tag : Nat) : Dev := { d with flm := { d.flm with turns := d.flm.turns.filter fun t => t.tag != tag } }

/-- A task leaves the table, and with it its turnout context (R294). -/
def Dev.dropTask (d : Dev) (tag : Nat) : Dev :=
  { d.dropTurn tag with hg := { d.hg with
      tasks := d.hg.tasks.filter fun t => t.tag != tag, recQ := d.hg.recQ.filter fun x => x != tag } }

/-- The first free task-table slot (which one is taken the spec leaves open: DESIGN CHOICE, notes/assumptions/69.md). -/
def Dev.freeSlot (d : Dev) : Option Nat :=
  (List.range 256).find? fun i => !(d.hg.tasks.any fun t => t.slot == i)

/-- The task an engine takes next: the first of its queue, in issue order, when it has this tag and operation. -/
def Dev.sentTask (d : Dev) (tag cls op : Nat) : Option Task :=
  (d.task? tag).bind fun t =>
    if t.st == 1 && t.sent && t.cls == cls && t.op == op &&
        (d.hg.tasks.find? fun u => u.st == 1 && u.sent && u.cls == cls && u.inst == t.inst) == some t then some t else none

def Dev.acceptTask (d : Dev) (tag : Nat) : Dev := (d.updTask tag fun t => { t with st := 2 }).stir

/-- A wait of a task begins under a cause (R263). -/
def Dev.waitBegin (d : Dev) (tag cause : Nat) : Dev :=
  d.updTask tag fun t => if t.wait.isSome then t else { t with wait := some (cause, d.gh.timer) }

/-- The wait in progress ends and is charged to its cause. -/
def Task.endWait (now : Nat) (t : Task) : Task :=
  match t.wait with
  | none => t
  | some (c, t0) =>
    let old := Sparse.get (fun _ => 0) t.waits c
    { t with wait := none, waits := Sparse.put (fun _ => 0) t.waits c (old + (now - t0)) }

def Dev.waitEnd (d : Dev) (tag : Nat) : Dev := d.updTask tag (Task.endWait d.gh.timer)

/-- A tick of wait under a cause; a wait that is being timed takes it all. -/
def Task.waitTick (t : Task) (cause : Nat) : Task :=
  if t.wait.isSome || t.st == 3 then t
  else { t with waits := Sparse.put (fun _ => 0) t.waits cause (Sparse.get (fun _ => 0) t.waits cause + 1) }

/-- Total wait in ns, saturating (R262). -/
def Task.waitNs (t : Task) : Nat := min 0xFFFFFFFF (ticksToNs (t.waits.foldl (fun a e => a + e.2) 0))

/-- The cause of the longest wait, the lower code winning a tie (R263). -/
def Task.worst (t : Task) : Nat :=
  (t.waits.foldl (fun (a : Nat × Nat) e => if a.2 < e.2 then e else a) (0, 0)).1

/-! ### Events of the Headgate -/

/-- Set a latched EV bit. -/
def Dev.evSet (d : Dev) (n : Nat) : Dev := { d with hg := { d.hg with ev := d.hg.ev ||| 2 ^ n } }

/-- Timer `n` fires its event, once per arming (R158). -/
def Dev.tmrFire (d : Dev) (n : Nat) : Dev := { d with hg := { d.hg with fired := d.hg.fired ||| 2 ^ n } }.evSet (32 + n)

/-- Records in ring `n`. -/
def Dev.ringUsed (d : Dev) (n : Nat) : Nat := (d.rd (.RING_PROD n) + 65536 - d.rd (.RING_CONS n)) % 65536

/-- The ring's entries; 0 while it is disabled. -/
def Dev.ringEntries (d : Dev) (n : Nat) : Nat :=
  if d.get (.RING_SIZE_LOG2 n) = 0 then 0 else 2 ^ d.get (.RING_SIZE_LOG2 n)

/-- EV as a whole: the level bits 15:0 and the latched bits (Table 7-3). -/
def Dev.evWord (d : Dev) : Nat :=
  let marks := (List.range 8).foldl (fun a n => a + bit01 (!((d.hg.marks.getD n []).isEmpty)) * 2 ^ n) 0
  let rings := (List.range 8).foldl (fun a n => a + bit01 (d.ringUsed n != 0) * 2 ^ (8 + n)) 0
  marks + rings + d.hg.ev / 65536 % 2 ^ 24 * 65536

/-! ### Completion records (Table 11-2) -/

/-- The 32 bytes of a record. -/
def Task.record (t : Task) (now : Nat) : List Byte :=
  leBytes 4 (t.tag * 65536 + t.outcome * 4096 + t.svc * 512 + t.winner * 64)
    ++ leBytes 4 (t.cause * 65536 + t.op * 256 + t.inst)
    ++ leBytes 4 (t.cls * 65536)
    ++ leBytes 4 t.object
    ++ leBytes 4 t.waitNs
    ++ leBytes 4 t.moved
    ++ leBytes 8 now

/-- The TASK_DONE packet. -/
def Dev.traceTaskDone (d : Dev) (t : Task) : Dev :=
  d.trace { src := 1, type := 0x0A, key := some t.cause, handle := some t.object, svc := some t.svc,
            body := leBytes 2 t.tag ++ leBytes 1 (t.outcome * 16 + t.svc) ++ leBytes 2 t.cause
              ++ leBytes 4 t.object ++ leBytes 4 t.waitNs }

/-- Set HDONE of every handle register that still holds the tag (R150). -/
def Dev.hdone (d : Dev) (tag : Nat) : Dev :=
  (List.range 16).foldl (fun e n => if (e.hg.h.getD n 0).toNat = 0x80000000 + tag then e.evSet (16 + n) else e) d

/-- The record enters its ring: bytes first, then PROD, then the events; the slot becomes FREE (R151). -/
def Dev.writeRecord (d : Dev) (t : Task) : Dev :=
  let n := t.ring
  let prod := d.rd (.RING_PROD n)
  let addr := d.rd (.RING_BASE n) + 32 * (prod % d.ringEntries n)
  let d := (d.wbs spDmem addr (t.record d.gh.timer)).wr (.RING_PROD n) ((prod + 1) % 65536)
  let d := if d.get (.RING_SIZE_NOTIFY n) = 1 then d.raise 3 1 n else d
  ((d.hdone t.tag).dropTask t.tag).traceTaskDone t

/-- A record that is discarded (R155, R166). -/
def Dev.orphan (d : Dev) (t : Task) : Dev :=
  ((d.bump .ORPHAN_COUNT).raise 3 0 5).dropTask t.tag

/-- Does an earlier completion of the same engine wait for its ring (R152)? -/
def Dev.heldBehind (d : Dev) (t : Task) : Bool :=
  (d.hg.recQ.takeWhile fun x => x != t.tag).any fun x =>
    match d.task? x with
    | some u => u.cls == t.cls && u.inst == t.inst
    | none => false

/-- A record's ring is full: each such record is counted once (R152). -/
def Dev.ringFull (d : Dev) (t : Task) : Dev :=
  if t.full then d else ((d.updTask t.tag fun x => { x with full := true }).bump .RING_FULL_COUNT).raise 3 0 6

/-- Write a held record, if its ring has room, the core is not frozen and no earlier one of its engine waits. -/
def Dev.tryRecord (d : Dev) (tag : Nat) : Dev :=
  match d.task? tag with
  | none => d
  | some t =>
    if t.st ≠ 3 ∨ d.frozen 3 then d
    else if d.ringEntries t.ring ≠ 0 ∧ d.ringUsed t.ring = d.ringEntries t.ring then d.ringFull t
    else if d.heldBehind t then d
    else if d.ringEntries t.ring = 0 then d.orphan t
    else d.writeRecord t

/-- Write every held record that can now be written, oldest first. -/
def Dev.flushRecords (d : Dev) : Dev := d.hg.recQ.foldl (fun e tag => e.tryRecord tag) d

/-- The STALL packet (Table 25-2). -/
def Dev.traceStall (d : Dev) (cause h ns : Nat) (svc : Option Nat) : Dev :=
  d.trace { src := 3, type := 0x0D, key := some cause, handle := some h, svc := svc,
            body := leBytes 2 cause ++ leBytes 4 h ++ leBytes 4 (min 0xFFFFFFFF ns) }

/-- A C0 task completed late is counted under its cause (R264). -/
def Dev.countLate (d : Dev) (t : Task) : Dev :=
  let i := t.cause - 0x0401
  let ovr := ticksToNs (d.gh.timer - t.deadline)
  let d := d.traceStall t.cause t.object ovr (some t.svc)
  let d := if 0x0401 ≤ t.cause ∧ t.cause ≤ 0x040A then
      (d.bump (.STALL_COUNT i)).add64 (.STALL_NS_LO i) ovr
    else d
  d.raise 5 0 6

/-- A task ends: its outcome and cause are fixed (R261, R263), and its record is written or held (R151, R152, R155). -/
def Dev.taskEnd (d : Dev) (tag outcome cause moved : Nat) : Dev :=
  match d.task? tag with
  | none => d
  | some t0 =>
    if t0.st = 3 then d
    else
      let t := Task.endWait d.gh.timer t0
      let late := outcome == 0 && t.deadlineUs != 0 && decide (t.deadline < d.gh.timer) && !(t.cls == 0x40 && t.op == 5)
      let t := { t with
        st := 3
        moved := moved
        outcome := if late then 1 else outcome
        cause := if cause ≠ 0 then cause else if t.waitNs = 0 then 0 else t.worst }
      let d := d.updTask tag fun _ => t
      let d := if t.outcome == 1 && t.svc == 0 then d.countLate t else d
      if t.orphan then d.orphan t
      else
        { d with hg := { d.hg with recQ := d.hg.recQ ++ [tag] } }.tryRecord tag

/-- A task ends SERVED (or SERVED_LATE past its deadline). -/
def Dev.served (d : Dev) (tag moved : Nat) : Dev := d.taskEnd tag 0 0 moved

/-- A task ends REFUSED with a cause. -/
def Dev.refuse (d : Dev) (tag cause : Nat) : Dev :=
  match d.task? tag with
  | some t => d.taskEnd tag 3 cause t.moved
  | none => d

/-- R189: SVC above 4, or C0 with no deadline. -/
def Task.badSvc (t : Task) : Bool := decide (4 < bitsOf t.w3 61 3) || (bitsOf t.w3 61 3 == 0 && bitsOf t.w3 36 24 == 0)

end Sys2Proof.Machine
end

