-- ==== Sys2Proof/Machine/Unit.lean ====
section
/-! DEFINITION. What a unit's loss at run time does: the map update, the ledger event, the fleet alert (R42, R43, R134,
R619); and the ledger's records. -/
namespace Sys2Proof.Machine

/-! ### Parameter records and map updates -/

/-- A class-specific parameter record field (Table 3-3 and the chapters), by block and record offset. -/
def paramDefault (k : Nat) : Nat :=
  let b := k / 256
  let off := k % 256
  if b = 109 ∧ off = 8 then 0x00F1_00A2
  else if b = 1 ∧ off = 8 then 600
  else if b = 1 ∧ off = 12 then 650
  else if b = 3 then (if off = 8 then 0x1000000 else if off = 12 then 0x100000 else if off = 16 then 0x1200000
    else if off = 20 then 0x200000 else 0)
  else if b = 4 then (if off = 8 then 0x2000000 else if off = 12 then 0x2000000 else 0)
  else if b = 64 then (if off = 8 then 0xB4000 else if off = 12 then 0x4000 else 0)
  else if b = 108 then (if off = 8 then 0x800000 else if off = 12 then 0x400000 else 0)
  else 0

def Dev.param (d : Dev) (b off : Nat) : Nat := Sparse.get paramDefault d.map.params (b * 256 + off)

def Dev.setParam (d : Dev) (b off v : Nat) : Dev :=
  { d with map := { d.map with params := Sparse.put paramDefault d.map.params (b * 256 + off) v } }

/-- A later update of the published map ends: PUBLISH_SEQ 2 higher, and vector 0 (R43). The checksum is computed from the
map's contents wherever it is read. -/
def Dev.mapUpdated (d : Dev) : Dev :=
  if d.map.published then ({ d with map := { d.map with seq := d.map.seq + 2 } }).sendVec 0 else d

/-- Change a status field of a parameter record (Table 3-12). -/
def Dev.mapParam (d : Dev) (b off v : Nat) : Dev :=
  if d.param b off = v then d else (d.setParam b off v).mapUpdated

/-! ### The Boot Ledger (Tables 6-7 and 6-8) -/

/-- Bytes of a slot, and the slot of the boot in progress. -/
def slotBase (s : Nat) : Nat := 0x3C0 * s
def Dev.curSlot (d : Dev) : Nat := d.rd .BOOT_SEQ % 8

def Dev.slotRd (d : Dev) (s off : Nat) : Nat := d.ld spLedger (slotBase s + off) 4
def Dev.slotWr (d : Dev) (s off v : Nat) : Dev := d.st spLedger (slotBase s + off) 4 v

/-- SLOT_CRC over the header and the records in use. -/
def Dev.slotCrc (d : Dev) (s : Nat) : Nat :=
  crc32c (d.rbs spLedger (slotBase s) 0x3C ++ d.rbs spLedger (slotBase s + 0x40) (16 * (d.slotRd s 0x14 / 65536)))

def Dev.slotSeal (d : Dev) (s : Nat) : Dev := d.slotWr s 0x3C (d.slotCrc s)

def Dev.slotValid (d : Dev) (s : Nat) : Bool :=
  d.slotRd s 0 == 0x47444C42 && decide (d.slotRd s 0x14 / 65536 ≤ 56) && d.slotRd s 0x3C == d.slotCrc s

/-- TIME units of 1,024 AO ticks since BOOT_START of a slot, saturating. -/
def Dev.bootTime (d : Dev) : Nat :=
  min 0xFFFFFFFF ((d.gh.timer - d.ld spLedger (slotBase d.curSlot + 8) 8) / 1024)

/-- Append a record to the current slot; record 55 is kept for a TRIP event (R133). -/
def Dev.ledgerPut (d : Dev) (w0 w1 detail : Nat) (trip : Bool := false) : Dev :=
  let s := d.curSlot
  let n := d.slotRd s 0x14 / 65536
  let dropped := d.slotRd s 0x14 % 65536
  if (if trip then 56 else 55) ≤ n then (d.slotWr s 0x14 (n * 65536 + min 65535 (dropped + 1))).slotSeal s
  else
    let a := slotBase s + 0x40 + 16 * n
    let d := d.wbs spLedger a (leBytes 4 w0 ++ leBytes 4 w1 ++ leBytes 4 d.bootTime ++ leBytes 4 detail)
    (d.slotWr s 0x14 ((n + 1) * 65536 + dropped)).slotSeal s

/-- A record of this boot: held back until its slot is open (R136). -/
def Dev.bootRec (d : Dev) (w0 w1 detail : Nat) (trip : Bool := false) : Dev :=
  if d.boot.opened then d.ledgerPut w0 w1 detail trip
  else { d with boot := { d.boot with buffer := d.boot.buffer ++
    [[w0, w1, min 0xFFFFFFFF ((d.gh.timer - d.boot.start) / 1024), detail]] } }

/-- An event record of the current boot (R134). -/
def Dev.ledgerEvent (d : Dev) (code detail : Nat) (w1 : Nat := 0) : Dev :=
  d.bootRec (0x2F000000 + code * 65536) w1 detail (code == 0)

/-- Word 0x10 of the current slot, with its seal; nothing before the slot is open (R136). -/
def Dev.slotSet (d : Dev) (lo w v : Nat) : Dev :=
  if !d.boot.opened then d
  else
    let s := d.curSlot
    (d.slotWr s 0x10 (putBits (d.slotRd s 0x10) lo w v)).slotSeal s

/-- A boot ends before READY or a halt: RESULT ABORTED (R135). -/
def Dev.bootAbort (d : Dev) : Dev :=
  if !d.boot.running then d
  else
    let d := d.slotSet 12 4 3
    { d with boot := { d.boot with running := false } }

/-- Word 1 of a record: the unit. -/
def unitWord (b : Nat) : Nat := blkClass b * 65536 + blkInst b * 256

/-! ### Fleet alert (R619 to R621) -/

/-- The alert pin follows its causes, and stays low for 10 µs at least (R619); a rise of the wire raises FLEET_ALERT. -/
def Dev.alertDrive (d : Dev) : Dev :=
  let held := d.get .FA_STATUS_DRIVING == 1
  let drive := d.get .FA_CTRL_SW_ASSERT == 1 || (d.get .FA_STATUS_ACTIVE &&& d.get .FA_CTRL_EN) != 0
    || (held && decide (d.gh.timer < d.mgmt.alertAt + 192))
  let d := if drive && !held then { d with mgmt := { d.mgmt with alertAt := d.gh.timer } } else d
  let wire := drive || d.pins.alert
  let was := d.get .FA_STATUS_WIRE == 1
  let d := (d.set .FA_STATUS_DRIVING (bit01 drive)).set .FA_STATUS_WIRE (bit01 wire)
  if wire && !was then d.raise 109 0 3 else d

/-- A cause of Table 27-10 occurs. -/
def Dev.alert (d : Dev) (n : Nat) : Dev := (d.setBit .FA_STATUS n true).alertDrive

/-! ### Run-time disables -/

/-- A unit becomes PRESENT_DISABLED at run time: map, ledger (R42, R43, R134). -/
def Dev.disableUnit (d : Dev) (b cause : Nat) : Dev :=
  if (d.ent b).status = 1 then
    let d := { d with map := { d.map with
      ents := Sparse.put (fun _ => Ent.present) d.map.ents b { status := 2, cause := cause, origin := 2, stage := 0xFF } } }
    d.mapUpdated.ledgerEvent 2 0 (unitWord b)
  else d

/-! ### Fatal errors and uncorrectable control errors (R580, R583) -/

/-- DEV_FATAL rises to a level, with its cause: FATAL, and the alert cause of the level. -/
def Dev.fatal (d : Dev) (level cause : Nat) : Dev :=
  if level ≤ d.get .DEV_FATAL_LEVEL then d
  else (((d.set .DEV_FATAL_LEVEL level).set .DEV_FATAL_CAUSE cause).raise 109 0 2).alert (2 - level) |>.sensorLevel 0x32 level

/-- An uncorrectable control error is counted, raised and captured (R580). -/
def Dev.ueSeen (d : Dev) (b mem word : Nat) : Dev :=
  let d := (d.bump .CTRL_UE_TOTAL).raise 109 0 1
  if d.get .UE_FIRST_ADDR_VALID = 1 then d
  else (d.wr .UE_FIRST_SRC (blkClass b * 65536 + blkInst b * 256 + mem)).wr .UE_FIRST_ADDR (2 ^ 31 + word % 2 ^ 24)

/-- An uncorrectable control error is read: counted, recorded in the owning page, raised, captured; a word of the firmware region makes
the device fatal. ERR_INFO of CONTROL_UE is not stated: a free value (notes/assumptions/84.md). -/
def Dev.controlUe (d : Dev) (b page mem word : Nat) : Dev :=
  let lo := d.fresh
  let hi := lo.2.fresh
  let d := (hi.2.err b page 0x1001 (lo.1 % 2 ^ 32) (hi.1 % 2 ^ 32)).ueSeen b mem word
  if mem = 1 then d.fatal 2 0x1001 else d

/-- A use reads `n` words of a control memory from `w` on: each that holds an error is one (R581). -/
def Dev.eccUse (d : Dev) (b page mem w n : Nat) : Dev := (d.eccBadIn mem w n).foldl (fun e x => e.controlUe b page mem x) d

/-- The groups of `n` words of a control memory that hold a bad word. -/
def Dev.eccGroups (d : Dev) (mem n : Nat) : List Nat := ((d.ecc.filter fun e => e.1 == mem).map fun e => e.2 / n).eraseDups

/-- A use that reads the groups that satisfy `p` responds to each of them that holds a bad word. -/
def Dev.eccTouch (d : Dev) (mem n : Nat) (p : Nat → Bool) (respond : Dev → Nat → Dev) : Dev :=
  ((d.eccGroups mem n).filter p).foldl respond d

/-- A control word that holds an uncorrectable error is reported at the driver's read, which returns a free value (R580, R581). -/
def Dev.ueRead (d : Dev) (b mem word v : Nat) : Nat × Dev :=
  if d.ecc.contains (mem, word) then
    let r := (d.controlUe b 0 mem word).fresh
    (r.1 % 2 ^ 32, r.2)
  else (v, d)

/-- The completion cause of Table 26-6. -/
def cControlUe : Nat := 0x1001

/-- A correctable control error is corrected and counted (R579). -/
def Dev.controlCe (d : Dev) : Dev := d.bump .CTRL_CE_TOTAL

/-- The LINK packet (Table 25-2). -/
def Dev.traceLink (d : Dev) (b state rate lanes : Nat) : Dev :=
  d.trace { src := trcSource (blkClass b), type := 0x10, key := some (blkClass b * 65536 + blkInst b),
            body := leBytes 2 (blkClass b) ++ leBytes 1 (blkInst b) ++ leBytes 1 state ++ leBytes 1 rate ++ leBytes 1 lanes }

/-! ### Units and verdicts (Tables 6-1, 6-6) -/

/-- The units that a stage tests one by one: position in the STAGE record's DETAIL, verdict index, block. -/
def stageUnits (n : Nat) : List (Nat × (Nat × Nat)) :=
  if n = 4 then (List.range 4).map fun i => (i, (1 + i, 104 + i))
  else if n = 5 then (List.range 32).map fun i => (i, (6 + i, 6 + i))
  else if n = 8 then (List.range 8).map fun i => (i, (40 + i, 66 + i))
  else if n = 9 then (List.range 4).map fun i => (i, (48 + i, 75 + i))
  else if n = 10 then (List.range 24).map fun i => (i, (52 + i, 79 + i))
  else if n = 11 then (List.range 16).map (fun i => (i, (76 + i, 47 + i))) ++
    (List.range 8).map (fun i => (16 + i, (92 + i, 38 + i)))
  else []

/-- The verdict of a device-level stage. -/
def stageIdx (n : Nat) : Option Nat :=
  if n = 3 then some 0 else if n = 5 then some 5 else if n = 6 then some 38 else if n = 7 then some 39
  else if n = 12 then some 100 else none

def Dev.verdict (d : Dev) (i : Nat) : Nat := d.rd (.BOOT_VERDICT i)
def vNext (v : Nat) : Nat := bitsOf v 6 2
def vAlt (v : Nat) : Nat := bitsOf v 4 2
def vFails (v : Nat) : Nat := bitsOf v 0 4
def vCause (v : Nat) : Nat := bitsOf v 16 16

/-- The recipe that a verdict directs (R125). -/
def vRecipe (v : Nat) : Nat := if vNext v = 1 then vAlt v else 0

def mkVerdict (cause next alt fails : Nat) : Nat := cause % 65536 * 65536 + next * 64 + alt * 16 + fails

/-- The verdict after a failure under the stage's recipe-0 entry word `e` (section "Verdicts"). -/
def verdictFail (e v cause : Nat) : Nat :=
  let fails := min (vFails v + 1) 15
  let r := vRecipe v
  let onFail := bitsOf e 16 4
  if r = 0 ∧ onFail = 0 ∧ fails < 2 then mkVerdict cause (vNext v) (vAlt v) fails
  else if r = 0 ∧ onFail = 2 then mkVerdict cause 2 (vAlt v) fails
  else if r = 0 ∧ onFail = 3 then mkVerdict cause 3 (vAlt v) fails
  else if r < bitsOf e 8 4 then mkVerdict cause 1 (r + 1) 0
  else mkVerdict cause (bitsOf e 12 4) 0 fails

/-- A verdict takes a value: VERDICT_CHANGED. -/
def Dev.setVerdict (d : Dev) (i v : Nat) : Dev := if d.verdict i = v then d else (d.wr (.BOOT_VERDICT i) v).raise 2 0 2

/-- Is a unit attempted: present, and its verdict not DISABLED? -/
def Dev.attempted (d : Dev) (u : Nat × (Nat × Nat)) : Bool := d.present u.2.2 && vNext (d.verdict u.2.1) != 2

/-- The recipe entry of a stage (Table 6-4). -/
def Dev.entry (d : Dev) (n r : Nat) : List Nat :=
  (d.boot.recipe.find? fun e => bitsOf (e.getD 0 0) 24 8 == n && bitsOf (e.getD 0 0) 20 4 == r).getD []

/-- The recipe that verdict `i` selected for this boot (R125): a clear takes effect at the next one (R131). -/
def Dev.chosen (d : Dev) (i : Nat) : Nat := d.boot.chosen.getD i 0

/-- A parameter of the recipe that verdict `idx` selected for a stage (Table 6-5). -/
def Dev.bootParam (d : Dev) (n idx i : Nat) : Nat := (d.entry n (d.chosen idx)).getD (2 + i) 0

/-- The budget of a stage in ms (Table 6-1): of the recipes selected for the device and the units it attempts the longest, and that of
recipe 0 where it attempts none (notes/assumptions/26.md). -/
def Dev.budget (d : Dev) (n : Nat) : Nat :=
  if n = 0 then 2 else if n = 1 then 10 else if n = 2 then 800
  else
    match (stageIdx n).toList ++ ((stageUnits n).filter d.attempted).map (·.2.1) with
    | [] => (d.entry n 0).getD 1 0
    | used => (used.map fun i => (d.entry n (d.chosen i)).getD 1 0).foldl max 0

/-- Has the stage in progress used its budget? -/
def Dev.overBudget (d : Dev) : Bool := decide (d.boot.since + d.budget d.boot.next * 19200 ≤ d.gh.timer)

/-- May a port come up at a rate (R123, R125, R444, R635)? It is not ABSENT nor disabled, the rate is at most that of the recipe selected for
it, and while its boot stage `n` runs its verdict is not DISABLED and the stage is within its budget. -/
def Dev.mayTrain (d : Dev) (n : Nat) (u : Nat × (Nat × Nat)) (rate : Nat) : Bool :=
  d.present u.2.2 && decide (rate ≤ d.bootParam n u.2.1 0) && (!(d.boot.running && d.boot.next == n) || (d.attempted u && !d.overBudget))

end Sys2Proof.Machine
end

