-- ==== Sys2Proof/Machine/ObjOps.lean ====
section
/-! DEFINITION. Objects: entries, gate words, block records, wet and dry granules, refcounts, damage (chapter 10); and
the places objects stand in (Table 11-1, R539). -/
namespace Sys2Proof.Machine

/-! ### States (Table 10-1) -/

def oFREE : Nat := 0
def oDRY : Nat := 1
def oFILLING : Nat := 2
def oWET : Nat := 3
def oSEALED : Nat := 4
def oCOMPRESSING : Nat := 5
def oPARKED : Nat := 6
def oLIFTING : Nat := 7
def oREADY : Nat := 8
def oPENDING : Nat := 9
def oRECOMPUTING : Nat := 10
def oDRAINING : Nat := 11
def oDAMAGED : Nat := 12
def oRETIRED : Nat := 13

/-- Completion causes of the Allotment Table (Table 10-5). -/
def cHandleStale : Nat := 0x0301
def cObjectState : Nat := 0x0302
def cObjectBusy : Nat := 0x0303
def cPromote : Nat := 0x0304
def cDamagedRecompute : Nat := 0x0305
def cDamagedFail : Nat := 0x0306

/-- The entry index of a handle (R221). -/
def hIndex (h : Nat) : Nat := h % 2 ^ 20

/-- The entry at an index, FREE ones that held a handle included. -/
def Dev.objAt (d : Dev) (i : Nat) : Option Obj := (d.objs.find? fun e => e.1 == i).map (·.2)

/-- The live object of a handle: not FREE, not RETIRED, same generation (R222). -/
def Dev.obj? (d : Dev) (h : Nat) : Option Obj :=
  (d.objAt (hIndex h)).bind fun o =>
    if o.handle == h && o.state != oFREE && o.state != oRETIRED then some o else none

/-- Put an entry, keeping the list in index order. -/
def Dev.putObj (d : Dev) (o : Obj) : Dev :=
  { d with objs := Sparse.ins (Sparse.del d.objs (hIndex o.handle)) (hIndex o.handle) o }

def Dev.updObj (d : Dev) (h : Nat) (f : Obj → Obj) : Dev :=
  match d.objAt (hIndex h) with
  | some o => if o.handle = h then d.putObj (f o) else d
  | none => d

/-- The gate word (R227): STEP, MB, state code. -/
def Obj.gate (o : Obj) : Nat := o.step * 2 ^ 32 + o.mb * 2 ^ 16 + o.state * 2 ^ 8

/-- The eight words of an entry (Table 10-2). -/
def Obj.words (o : Obj) : List Nat :=
  [ o.handle,
    o.state * 2 ^ 28 + o.partner * 2 ^ 25 + o.kind * 2 ^ 23 + o.fate * 2 ^ 20 + o.codec * 2 ^ 17 + o.format * 2 ^ 15
      + o.tier * 2 ^ 12 + bit01 o.liftLock * 2 ^ 11 + bit01 o.drainLock * 2 ^ 10 + bit01 o.evictAfter * 2 ^ 9
      + bit01 o.wetAll * 2 ^ 8 + bit01 o.poison * 2 ^ 7 + o.policy * 2 ^ 6 + bit01 o.stateWin * 2 ^ 5
      + bit01 o.enc * 2 ^ 4 + o.key,
    o.blocks * 2 ^ 8 + o.refs,
    o.window * 2 ^ 22 + o.winBlock,
    o.loc % 2 ^ 32,
    o.node * 2 ^ 20 + bit01 o.consumed * 2 ^ 19 + o.loc / 2 ^ 32 % 2 ^ 16,
    o.gate % 2 ^ 32,
    o.gate / 2 ^ 32 ]

/-- Word `w` of entry `i` (R221, R223). -/
def Dev.entryWord (d : Dev) (i w : Nat) : Nat :=
  match d.objAt i with
  | some o => o.words.getD w 0
  | none => 0

/-- Entries in a state (STATE_COUNT_s). -/
def Dev.stateCount (d : Dev) (s : Nat) : Nat :=
  if s = 0 then 2 ^ 20 - (d.objs.filter fun e => e.2.state != 0).length
  else (d.objs.filter fun e => e.2.state == s).length

/-! ### State changes -/

/-- Does a waiting turnout program's WAITO match (R305)? -/
def waitoHits (o : Obj) (b3 st : Nat) (m : Bool) : Bool :=
  o.state == st && (!m || (o.step == b3 % 2 ^ 32 && o.mb == b3 / 2 ^ 32 % 2 ^ 16))

/-- A state change is reported to every program that waits on the object (R305). -/
def Dev.notifyWaito (d : Dev) (o : Obj) : Dev :=
  { d with flm := { d.flm with turns := d.flm.turns.map fun t =>
      match t.wait with
      | .waito dd h st m lim hit =>
        if h == o.handle && !hit && waitoHits o (t.b.getD 3 0) st m then { t with wait := .waito dd h st m lim true } else t
      | _ => t } }

/-- An object enters a state: LAST_TOUCH, CONSUMED and LIFT_LOCK follow (section "Refcount and locks", R239, chapter 11),
the OBJ_STATE packet is generated, and waiting programs are told. -/
def Dev.setState (d : Dev) (h st : Nat) : Dev :=
  match d.objAt (hIndex h) with
  | none => d
  | some o =>
    if o.state = st then d.notifyWaito o
    else
      let touched := st == oSEALED || st == oREADY || st == oPARKED
      let o' := { o with
        state := st
        touch := if touched then d.gh.timer else o.touch
        consumed := if st == oREADY then false else o.consumed
        liftLock := if st == oLIFTING || st == oRECOMPUTING then o.liftLock else false }
      let d := (d.putObj o').notifyWaito o'
      d.trace { src := 2, type := 0x0C, key := some h, handle := some h,
                body := leBytes 4 h ++ leBytes 1 o.state ++ leBytes 1 st }

/-- Write STEP and MB into the gate word (R227). -/
def Dev.setGate (d : Dev) (h mb step : Nat) : Dev := d.updObj h fun o => { o with mb := mb, step := step }

/-! ### Windows and block records (Table 10-4) -/

def Dev.win? (d : Dev) (p i : Nat) : Option Win := d.wins.find? fun w => w.partner == p && w.index == i

/-- The T1 address of the block record of block `blk` of an object. -/
def Dev.recAddr (d : Dev) (o : Obj) (blk : Nat) : Nat :=
  match d.win? o.partner o.window with
  | some w => w.recs + 8 * (o.winBlock + blk)
  | none => 0

/-- The WET mask of a block. -/
def Dev.wetMask (d : Dev) (o : Obj) (blk : Nat) : Nat := d.ld spT1 (d.recAddr o blk + 4) 2

def Dev.setWetMask (d : Dev) (o : Obj) (blk m : Nat) : Dev := d.st spT1 (d.recAddr o blk + 4) 2 m

/-- Is granule `g` of the object wet? -/
def Dev.isWet (d : Dev) (o : Obj) (g : Nat) : Bool := bitsOf (d.wetMask o (g / 16)) (g % 16) 1 == 1

/-- Wet one granule. -/
def Dev.wetGranule (d : Dev) (o : Obj) (g : Nat) : Dev :=
  d.setWetMask o (g / 16) (putBits (d.wetMask o (g / 16)) (g % 16) 1 1)

/-- Is every granule of the object wet? -/
def Dev.allWet (d : Dev) (o : Obj) : Bool := (List.range o.blocks).all fun b => d.wetMask o b == 0xFFFF

/-- Is any granule of the object wet? -/
def Dev.anyWet (d : Dev) (o : Obj) : Bool := (List.range o.blocks).any fun b => d.wetMask o b != 0

/-- Clear every WET bit and WET_ALL (R235). -/
def Dev.clearWet (d : Dev) (o : Obj) : Dev :=
  ((List.range o.blocks).foldl (fun e b => e.setWetMask o b 0) d).updObj o.handle fun x => { x with wetAll := false }

/-- Wet a whole block (an expanded or recomputed block: O6, R385). -/
def Dev.wetBlock (d : Dev) (o : Obj) (blk : Nat) : Dev := d.setWetMask o blk 0xFFFF

/-- WET_ALL follows the block records. -/
def Dev.wetAllUpdate (d : Dev) (h : Nat) : Dev :=
  match d.objAt (hIndex h) with
  | some o => d.updObj h fun x => { x with wetAll := d.allWet o }
  | none => d

/-- A write has wetted a granule: DRY goes to FILLING, and the last granule takes DRY or FILLING to WET (R232, Table
10-3). -/
def Dev.fillState (d : Dev) (h : Nat) : Dev :=
  match d.objAt (hIndex h) with
  | none => d
  | some o =>
    let all := d.allWet o
    let d := if all then d.updObj h fun x => { x with wetAll := true } else d
    if o.state ≠ oDRY ∧ o.state ≠ oFILLING then d
    else if all then d.setState h oWET
    else if o.state = oDRY then d.setState h oFILLING
    else d

/-! ### Places -/

/-- The memory space of a tier, and a byte address in it (the node tells T4 memories apart). -/
def Place.at (p : Place) (off : Nat) : Nat := p.addr + off + (if p.tier = 4 then p.node * 2 ^ 48 else 0)

def Dev.placeRd (d : Dev) (p : Place) (off n : Nat) : List Byte := d.rbs p.tier (p.at off) n

/-- The object's home as a place. -/
def Obj.place (o : Obj) : Place :=
  match o.home with
  | some p => p
  | none => { tier := o.tier, node := o.node, addr := o.loc, size := o.blocks * 65536 }

/-- The unit of a place within its tier: HBM stack (R539), expander port (bits 41:40), node. -/
def Place.unit (p : Place) : Nat :=
  if p.tier = 1 then p.addr / 2 ^ 36 % 4 else if p.tier = 2 then p.addr / 2 ^ 40 % 4 else if p.tier = 4 then p.node else 0

/-- A stack counts the bytes read or written at a place of T1 (Table 24-6). -/
def Dev.hbmBytes (d : Dev) (p : Place) (n : Nat) (wr : Bool) : Dev :=
  if p.tier = 1 then d.add64 (if wr then .WR_BYTES_LO else .RD_BYTES_LO) n p.unit else d

def Dev.placeWr (d : Dev) (p : Place) (off : Nat) (v : List Byte) : Dev :=
  (d.wbs p.tier (p.at off) v).hbmBytes p v.length true

/-- The capacity of a unit in bytes (Table 11-1): T0, an HBM stack, an expander port, T3_GRANT, a node grant. -/
def Dev.unitCap (d : Dev) (tier unit : Nat) : Nat :=
  if tier = 0 then 100663296
  else if tier = 1 then (if d.present (104 + unit) then d.param (104 + unit) 8 * 2 ^ 20 else 0)
  else if tier = 2 then (if d.present (75 + unit) then d.param (75 + unit) 8 * 2 ^ 20 else 0)
  else if tier = 3 then d.rd64 (.CAPACITY_T_LO 3)
  else match (List.range 4).find? fun n => d.get (.NODE_VALID n) == 1 && d.get (.NODE_NODE n) == unit with
    | some n => d.rd (.NODE_GRANT n) * 65536
    | none => 0

/-- Bytes allocated in a unit. -/
def Dev.unitUsed (d : Dev) (tier unit : Nat) : Nat :=
  d.pool.allocs.foldl (fun a p => if p.tier == tier && p.unit == unit then a + p.size else a) 0

/-- A failed tier path (R267): the expander port, the T3 path, a node with no route. -/
def Dev.pathFailed (d : Dev) (tier unit : Nat) : Bool :=
  if tier = 2 then bitsOf (d.get .POOL_STATUS_T2_FAILED) unit 1 == 1
  else if tier = 3 then d.get .POOL_STATUS_T3_FAILED == 1
  else if tier = 4 then
    (match (List.range 4).find? fun n => d.get (.NODE_VALID n) == 1 && d.get (.NODE_NODE n) == unit with
      | some n => d.get (.NODE_STATUS_FAILED n) == 1
      | none => true)
  else false

/-- The base address of a unit. -/
def unitBase (tier unit : Nat) : Nat := if tier = 1 then unit * 2 ^ 36 else if tier = 2 then unit * 2 ^ 40 else 0

/-- Does a range overlap an allocation of the unit? -/
def Dev.overlapping (d : Dev) (tier unit a n : Nat) : Option Place :=
  d.pool.allocs.find? fun p => p.tier == tier && p.unit == unit && decide (p.addr < a + n) && decide (a < p.addr + p.size)

/-- The lowest 64 KiB-aligned free range of `n` bytes in a unit (which free range is taken is a DESIGN CHOICE, notes/assumptions/69.md). -/
def Dev.fitIn (d : Dev) (tier unit n : Nat) : Nat → Nat → Option Nat
  | 0, _ => none
  | f + 1, a =>
    if unitBase tier unit + d.unitCap tier unit < a + n then none
    else match d.overlapping tier unit a n with
      | none => some a
      | some p => d.fitIn tier unit n f ((p.addr + p.size + 65535) / 65536 * 65536)

def Dev.fit (d : Dev) (tier unit n : Nat) : Option Nat :=
  d.fitIn tier unit n (d.pool.allocs.length + 1) (unitBase tier unit)

/-- The units of a tier that an allocation may choose from: most free bytes first, lower number on a tie (R486, R540). -/
def Dev.bestUnit (d : Dev) (tier n : Nat) : Option Nat :=
  let ok := (List.range 4).filter fun u =>
    decide (n + d.unitUsed tier u ≤ d.unitCap tier u) && !d.pathFailed tier u && (d.fit tier u n).isSome
  ok.foldl (fun best u => match best with
    | none => some u
    | some v => if d.unitCap tier v - d.unitUsed tier v < d.unitCap tier u - d.unitUsed tier u then some u else some v) none

/-- Where an allocation of `n` bytes in a tier (for T4 at a node) would stand, if it fits (R248). -/
def Dev.findPlace (d : Dev) (tier node n : Nat) : Option Place :=
  if d.rd64 (.CAPACITY_T_LO tier) < d.rd64 (.USED_T_LO tier) + n then none
  else
    let u := if tier = 1 ∨ tier = 2 then d.bestUnit tier n
      else if tier = 4 then (if d.pathFailed 4 node then none else some node)
      else if d.pathFailed tier 0 then none else some 0
    match u with
    | none => none
    | some u => (d.fit tier u n).map fun a => { tier := tier, node := if tier = 4 then node else 0, addr := a, size := n }

/-- The pool's node register of a node. -/
def Dev.nodeReg (d : Dev) (node : Nat) : Option Nat :=
  (List.range 4).find? fun n => d.get (.NODE_VALID n) == 1 && d.get (.NODE_NODE n) == node

/-- Is the tier above its soft watermark (R254)? -/
def Dev.aboveWm (d : Dev) (tier : Nat) : Bool :=
  tier != 0 && decide (d.rd64 (.CAPACITY_T_LO tier) * d.get (.SOFT_WM_T_PERCENT tier) / 100 < d.rd64 (.USED_T_LO tier))

/-- USED follows an allocation or a release; a crossing of the soft watermark is counted and raised (R254). -/
def Dev.usedChange (d : Dev) (tier : Nat) (v : Nat) : Dev :=
  let before := d.aboveWm tier
  let d := d.wr64 (.USED_T_LO tier) v
  let after := d.aboveWm tier
  let d := if tier = 0 then d else d.setBit .POOL_STATUS tier after
  if !before && after then (d.bump (.WM_CROSS_COUNT_T tier)).raise 5 0 0 else d

/-- 64 KiB units of a size, a begun one counting whole. -/
def units (n : Nat) : Nat := (n + 65535) / 65536

/-- Charge 64 KiB units to a partner in a tier (R256). -/
def Dev.charge (d : Dev) (partner tier : Nat) (n : Int) : Dev :=
  if tier = 0 then d else d.wr (.USAGE partner tier) (((d.rd (.USAGE partner tier) : Nat) : Int) + n).toNat

/-- Take a place: the allocation, USED, the node's use and the partner's usage. -/
def Dev.take (d : Dev) (p : Place) (partner : Nat) : Dev :=
  let d := { d with pool := { d.pool with allocs := d.pool.allocs ++ [p] } }
  let d := d.usedChange p.tier (d.rd64 (.USED_T_LO p.tier) + p.size)
  let d := match (if p.tier = 4 then d.nodeReg p.node else none) with
    | some n => d.bumpBy (.NODE_USED n) (units p.size)
    | none => d
  d.charge partner p.tier (units p.size)

/-- Take a place that is charged to no partner (R251). -/
def Dev.takeFree (d : Dev) (p : Place) (partner : Nat) : Dev :=
  let d := (d.take p partner).charge partner p.tier (-(units p.size : Int))
  { d with pool := { d.pool with uncharged := d.pool.uncharged ++ [p] } }

/-- Release a place. -/
def Dev.release (d : Dev) (p : Place) (partner : Nat) : Dev :=
  if d.pool.allocs.contains p then
    let d := { d with pool := { d.pool with allocs := d.pool.allocs.erase p } }
    let d := d.usedChange p.tier (d.rd64 (.USED_T_LO p.tier) - p.size)
    let d := match (if p.tier = 4 then d.nodeReg p.node else none) with
      | some n => d.wr (.NODE_USED n) (d.rd (.NODE_USED n) - units p.size)
      | none => d
    if d.pool.uncharged.contains p then { d with pool := { d.pool with uncharged := d.pool.uncharged.erase p } }
    else d.charge partner p.tier (-(units p.size : Int))
  else d

/-- Release what an object leaves behind, once nobody uses it (R237). -/
def Dev.releaseLeaving (d : Dev) (h : Nat) : Dev :=
  match d.objAt (hIndex h) with
  | none => d
  | some o =>
    if o.refs = 0 then
      (o.leaving.foldl (fun e p => e.release p o.partner) d).updObj h fun x => { x with leaving := [] }
    else d

/-- Would one more user take REFCOUNT past 255 (R236)? -/
def Dev.refFull (d : Dev) (h : Nat) : Bool :=
  match d.objAt (hIndex h) with
  | some o => decide (255 ≤ o.refs)
  | none => false

/-- A user waits while REFCOUNT is full; the wait is counted (R236). -/
def Dev.refWaits (d : Dev) (counted : Bool) : Dev := if counted then d else d.bump .REFCOUNT_WAIT_COUNT

/-- A user starts moving the object's data (R236). -/
def Dev.refUp (d : Dev) (h : Nat) : Dev := d.updObj h fun o => { o with refs := min 255 (o.refs + 1) }

/-- A user has moved its last byte: at 0, LAST_TOUCH, CONSUMED while READY, and the places left behind. -/
def Dev.refDown (d : Dev) (h : Nat) : Dev :=
  let d := d.updObj h fun o =>
    let n := o.refs - 1
    { o with
      refs := n
      touch := if n = 0 then d.gh.timer else o.touch
      consumed := if n = 0 ∧ o.state = oREADY then true else o.consumed }
  d.releaseLeaving h

/-- The object's home moves to a new place; the old one is left behind (R237). -/
def Dev.moveHome (d : Dev) (h : Nat) (p : Place) : Dev :=
  let d := d.updObj h fun o => { o with
    tier := p.tier
    loc := p.addr
    home := some p
    leaving := match o.home with
      | some q => o.leaving ++ [q]
      | none => o.leaving }
  d.releaseLeaving h

/-- POOL_STATUS.T4_FAILED: some granted node's path is failed. -/
def Dev.t4Paths (d : Dev) : Dev := d.set .POOL_STATUS_T4_FAILED
  (bit01 ((List.range 4).any fun n => d.get (.NODE_VALID n) == 1 && d.get (.NODE_STATUS_FAILED n) == 1))

/-- A path fails or returns (R267): POOL_STATUS or NODE_STATUS, TIER_FAIL or TIER_RECOVERED. -/
def Dev.setPath (d : Dev) (tier unit : Nat) (failed : Bool) : Dev :=
  if d.pathFailed tier unit = failed then d
  else
    let d := if tier = 2 then d.set .POOL_STATUS_T2_FAILED (putBits (d.get .POOL_STATUS_T2_FAILED) unit 1 (bit01 failed))
      else if tier = 3 then d.set .POOL_STATUS_T3_FAILED (bit01 failed)
      else match d.nodeReg unit with
        | some n => d.set (.NODE_STATUS_FAILED n) (bit01 failed)
        | none => d
    let d := if tier = 4 then d.t4Paths else d
    d.raise 5 0 (if failed then 2 else 3)

/-! ### The T3 path (R267, R471, R474, R477, R595) -/

def hostBlk : Nat := 74

/-- Is the T3 path failed? While Bus Master Enable is 0, the link is not in L0 or a low-power state reached from it, the host
function is in reset, and after what `HostPort` remembers. -/
def Dev.t3Bad (d : Dev) : Bool :=
  d.get .HOST_LINK_BME == 0 || decide (d.get .HOST_LINK_STATE < 2) || !d.pins.hostPerst || d.host.pri || d.host.cpl || d.host.range

/-- The T3 path follows its conditions; its failure raises T3_FAILED on the Host Port's page. -/
def Dev.t3Update (d : Dev) : Dev :=
  let was := d.pathFailed 3 0
  let bad := d.t3Bad
  let d := d.setPath 3 0 bad
  if bad && !was then d.raise hostBlk 0 3 else d

/-- An access at a T3 address at or above HOST_T3_BYTES is not issued (R474). -/
def Dev.t3Range (d : Dev) : Dev :=
  ({ d with host := { d.host with range := true } }.bump .T3_RANGE_COUNT).t3Update

/-- Does an access of `n` bytes at an offset of a place lie outside the host's T3 range? -/
def Dev.t3Out (d : Dev) (p : Place) (off n : Nat) : Bool :=
  p.tier == 3 && decide (d.rd64 .HOST_T3_BYTES_LO < p.addr + off + n)

/-! ### Checks shared by every task that names an object -/

/-- HANDLE_STALE is counted, captured and raised (R222). -/
def Dev.staleHandle (d : Dev) (h : Nat) : Dev :=
  ((d.bump .STALE_COUNT).wr .STALE_HANDLE h).raise 4 0 3

/-- A LIFT or RUN_CHAIN that names the object, QUEUED or ACCEPTED, with a deadline within HORIZON_US (section
"Refcount and locks"). -/
def Dev.pendingPromote (d : Dev) (h : Nat) : Bool :=
  d.hg.tasks.any fun t =>
    (t.st == 1 || t.st == 2) && t.object == h && ((t.cls == 0x40 && t.op == 2) || t.cls == 0x61) &&
      t.deadlineUs != 0 && decide (t.deadline ≤ d.gh.timer + usToTicks d.pool.horizon)

/-- The tweak of an object block (R324). -/
def tweak (handle blk : Nat) : Nat := handle * 2 ^ 32 + blk

/-- The key in a slot, if loaded. -/
def Dev.keyOf (d : Dev) (slot : Nat) : Option (List Byte) := (d.keys.find? fun e => e.1 == slot).map (·.2)

/-! ### Damage (R244) -/

/-- What a damage report takes from the task that found it. -/
structure Finder where
  svc : Nat
  deadline : Nat
  ring : Nat
  step : Nat
  mb : Nat
  tag : Option Nat

/-- Mark an object DAMAGED: counted, captured, raised. Under RECOMPUTE its chain is asked for, once between REARMs
(R244, R386); answers whether it was. -/
def Dev.damage (d : Dev) (h : Nat) (f : Finder) : Dev × Bool :=
  match d.obj? h with
  | none => (d, false)
  | some o =>
    let d := (d.setState h oDAMAGED).updObj h fun x => { x with drainLock := false }
    let d := ((d.bump .DAMAGED_COUNT).wr .DAMAGED_HANDLE h).raise 4 0 1
    if o.policy ≠ 0 then (d, false)
    else if o.rebuilt then (((d.bump .AUTO_RECOMPUTE_FAIL).raise 63 0 3), false)
    else
      let d := (d.setState h oPENDING).updObj h fun x => { x with rebuilt := true }
      ({ d with auto := d.auto ++ [{ handle := h, svc := f.svc, deadline := f.deadline, ring := f.ring, step := f.step,
                                     mb := f.mb, tag := f.tag }] }, true)

/-- An Allotment entry is read (R581): each bad word of it is a control error, and the entry is forced to DAMAGED under FAIL_TASK and
POISON (Table 26-3). -/
def Dev.touchEntry (d : Dev) (i : Nat) : Dev :=
  match d.ecc.filter fun e => e.1 == 4 && e.2 / 8 == i with
  | [] => d
  | bad =>
    let d := bad.foldl (fun e x => e.controlUe 4 0 4 x.2) d
    match d.objAt i with
    | none => d
    | some o => ((d.setState o.handle oDAMAGED).updObj o.handle fun x => { x with
        policy := 1, poison := true, ue := true }).eccWrite 4 (8 * i + 1)

end Sys2Proof.Machine
end

