-- ==== Sys2Proof/Machine/Reset.lean ====
section
/-! DEFINITION. The device at power-up. -/
namespace Sys2Proof.Machine

def Msix.reset : Msix := { en := false, fmask := false, tbl := [], pba := 0, defer := 0 }

def Trc.reset : Trc :=
  { loaded := false, held := none, last := 0, lastSync := 0, line := [], cnt := [], lostN := 0, lostMask := 0,
    post := none, wrapped := false, gapEntry := 0, gapOpen := false, rateAt := 0, rate := [], lines := 0,
    hitAt := none }

def Gh.reset : Gh :=
  { timer := 0, k := List.replicate 8 0, z := false, c := false, stack := [], wait := none, handler := 0,
    scrub := none, ueFirst := false, atRet := false, segUp := none, keyBad := 0, wakeAt := none, tc0At := none, keyStore := [], enterAt := none, exitAt := none, gpio := 0, retMv := 650 }

def Pwr.reset : Pwr :=
  { pend := none, entry := 0, cur := none, exiting := false, srx := false, wakeAfter := 0, afterAt := 0, afterMask := 0,
    gated := [], tripped := false, tj := 0, vid := 20, vidTarget := 20, stepped := 0, ask := none, hgWas := 0 }

def Hg.reset : Hg :=
  { g := List.replicate 32 0, p := 1, h := List.replicate 16 0, ev := 0, fired := 0, marks := List.replicate 8 [],
    kept := none, fz := none, stepping := false, haltReq := false, stall := none, ldv := [], inD := false, stv := 0,
    sleep := none, sleepGd := none, sleepVal := none, seqs := [], tasks := [], recQ := [] }

def DMap.reset : DMap := { published := false, seq := 0, ents := [], params := [] }

def Pool.reset : Pool :=
  { allocs := [], uncharged := [], fullWaits := 0, regrets := 0, waiting := [], drains := [], arb := [], resv := [],
    horizon := 0, evicting := [], ageRun := 0 }

def Flm.reset : Flm := { streams := [], turns := [], pri := [], lead := { tab := [], map := none }, served := [], turn := [], slotTurn := [], ended := [] }

def Slc.reset : Slc := { q := [], keyStage := [[], []] }

def Plan.reset : Plan :=
  { admitted := false, variant := 0, power := 1, leaseMs := 0, home := none, homeLost := false,
    maxHoldUs := 0, areas := [], job := none }

def Link.reset : Link :=
  { nextSeq := 0, expect := 0, replay := [], txq := [], rxq := [], rxl := [], sent := [0, 0, 0, 0], freed := [0, 0, 0, 0],
    cred := [0, 0, 0, 0], took := [0, 0, 0, 0], told := [0, 0, 0, 0], gcount := 0, nak := none, resent := 0,
    lpWant := false, lpOwe := false, lpSent := false, lpWake := false, exit := false, locked := 0, eq := 0, aligned := 0,
    again := false, gotParam := false, gotAck := false, taps := [0, 0, 0, 0, 0, 0], rate := 0, resume := false, dropTo := none,
    win := [0, 0, 0], cleanSince := 0, old := none, offer := none, wrote := false, viol := [], flaps := [], wired := false, hist := [],
    stAt := 0, exitAt := 0, nakAt := 0, ackAt := 0, credAt := 0, tookAt := none, winAt := 0 }

def Lr.reset : Lr :=
  { table := [], kind := 0, node := 0, dims := [1, 1, 1], sets := List.replicate 24 7, held := [], heldTree := [], tags := [], bars := [], detours := [],
    unreach := [] }

def Fb.reset : Fb :=
  { step := none, accs := [], voteBit := false, tensors := [], norms := [], recs := [], vote := none, voted := none,
    decided := none, local_ := none, waiting := [], commits := [], commitStep := 0, histBytes := 0, missedStep := none }

def HBuf.reset : HBuf := { st := 0, epoch := 0, gen := 0, record := [] }

def HSlot.reset : HSlot :=
  { gen := 0, bufs := [HBuf.reset, HBuf.reset], bytes := 0, manifest := false, place := none, lease := none, last := none }

def Ck.reset : Ck := { regions := [], slots := List.replicate 8 HSlot.reset, restore := none, open_ := false }

def Port.reset : Port := { hold := none, last := 0, accepted := 0, latch := 0, bases := [0, 0], info := [], warn := [], hist := [] }

def HostPort.reset : HostPort := { pri := false, cpl := false, range := false, inv := [] }

/-- The pins at power-up: both resets low, the straps open (R630). -/
def Pins.reset : Pins :=
  { alert := false, hostPerst := false, ppPerst := 0, expPerst := 0, devReset := true, testEn := true, straps := 2 }

def Mgmt.reset : Mgmt :=
  { tid := 0, rcv := none, events := [], levels := [], flash := none, ir := 1, access := none, smbAt := 0, alertAt := 0 }

def Boot.reset : Boot :=
  { running := false, next := 0, since := 0, start := 0, recipe := [], limit := 4, bad := [], buffer := [], opened := false, chosen := [],
    held := false, region := 1, copied := 0, why := 1, again := 0 }

/-- The device at power-up (R93, R116, the registers at the values their tables give). -/
def Dev.reset : Dev :=
  { free := 0, undef := false, regs := [], mem := [], lostEpoch := { holds := 0, resets := 0, saves := 0 }, latch := [], stage := [], out := [],
    msix := Msix.reset, trc := Trc.reset, gh := Gh.reset, pwr := Pwr.reset, keys := [], hg := Hg.reset, map := DMap.reset,
    objs := [], wins := [], pool := Pool.reset, flm := Flm.reset, slc := Slc.reset, auto := [],
    plan := Plan.reset, obsQ := [], chains := [],
    links := List.replicate 24 Link.reset, lr := Lr.reset, fb := Fb.reset, ck := Ck.reset, ports := List.replicate 8 Port.reset,
    reads := [], host := HostPort.reset, exps := List.replicate 4 { down := none }, stuck := [], held := [], pins := Pins.reset,
    mgmt := Mgmt.reset, boot := Boot.reset, sel := [], snaps := [], ecc := [], errSeen := 0, tied := [],
    due := { run := 0, quiet := 0, busy := [] } }

end Sys2Proof.Machine
end

