-- ==== Sys2Proof/Machine/LinkOps.lean ====
section
/-! DEFINITION. Lateral links and the Lateral Router: flits, credits, replay, routes, resends, violations, quarantine
(chapters 22 and 23). -/
namespace Sys2Proof.Machine

/-! ### Links -/

def Dev.link (d : Dev) (l : Nat) : Link := d.links.getD l Link.reset
def Dev.updLink (d : Dev) (l : Nat) (f : Link → Link) : Dev := { d with links := d.links.set l (f (d.link l)) }

/-- The block index of link `l`, and of the router. -/
def lnk (l : Nat) : Nat := 79 + l
def rtr : Nat := 103

/-- LL_STATUS.STATE (Table 22-7). -/
def Dev.lstate (d : Dev) (l : Nat) : Nat := d.get .LL_STATUS_STATE l

/-- May the link carry messages: ACTIVE, the right neighbour, the RESUME exchange done? -/
def Dev.lactive (d : Dev) (l : Nat) : Bool := d.lstate l == 6 && (d.link l).wired

/-- Flit types (Table 22-4). -/
def tIDLE : Nat := 0
def tCREDIT : Nat := 0xC
def tCTL : Nat := 0xD
def tNAK : Nat := 0xE

def isLocal (t : Nat) : Bool := t == 0 || t == 0xC || t == 0xD || t == 0xE

/-- The virtual channel of a sequenced type (Table 22-4). -/
def vcOf (t : Nat) : Nat :=
  if t = 4 ∨ t = 5 ∨ t = 6 ∨ t = 0xA ∨ t = 0xB then 0 else if t = 1 ∨ t = 2 ∨ t = 7 then 1 else if t = 3 then 2 else 3

/-- Receive buffers (Table 22-6). -/
def rxBuf (v : Nat) : Nat := if v = 0 then 32 else 160

/-- The 14 header bytes that the checksum covers, then the checksum (Table 22-3): the 16 header bytes. -/
def Flit.header (f : Flit) : List Byte :=
  let w01 := leBytes 4 (f.type * 2 ^ 28 + f.vc * 2 ^ 26 + f.dst * 2 ^ 12 + f.src)
    ++ leBytes 4 (f.seq * 2 ^ 20 + f.ack * 2 ^ 8 + f.body.length)
  let w2 := leBytes 4 (f.hops * 2 ^ 27 + f.msgA)
  let h := w01 ++ w2 ++ leBytes 2 f.msgB
  h ++ leBytes 2 (crc16 h)

/-- The 256 bytes of a flit; payload bytes beyond LEN are zero (R496). -/
def Flit.bytes (f : Flit) : List Byte := f.header ++ f.body ++ List.replicate (240 - f.body.length) 0

/-- A message before the link numbers it. -/
def message (type dst src msgA msgB : Nat) (body : List Byte) : Flit :=
  { type := type, vc := vcOf type, dst := dst, src := src, seq := 0, ack := 0, hops := 0, msgA := msgA, msgB := msgB, body := body }

/-- A link-local flit. -/
def localFlit (type node msgA : Nat) (body : List Byte) : Flit :=
  { type := type, vc := 0, dst := node, src := node, seq := 0, ack := 0, hops := 0, msgA := msgA, msgB := 0, body := body }

/-! ### Sending -/

/-- SEQ of the last flit accepted in order. -/
def Link.ackOut (x : Link) : Nat := (x.expect + 4095) % 4096

/-- Send one group of at most five flits, filled with IDLE (R494). -/
def Dev.linkGroup (d : Dev) (l : Nat) (fs : List Flit) : Dev :=
  let x := d.link l
  let idle := localFlit tIDLE d.lr.node 0 []
  let g := (fs ++ List.replicate (5 - fs.length) idle).map fun f => { f with ack := x.ackOut }
  let two := d.get .LL_STATUS_LANES l == 2
  let d := d.emit (.group l (groupEncode two x.gcount (g.flatMap Flit.bytes)))
  d.updLink l fun y => { y with gcount := (y.gcount + 1) % 2 ^ 32 }

/-- Send flits now, a group per five flits; the last group of every 2,048 is a filler group (R494). -/
def Dev.linkEmit (d : Dev) (l : Nat) : Nat → List Flit → Dev
  | 0, _ => d
  | n + 1, fs =>
    if fs.isEmpty then d
    else
      let d := if (d.link l).gcount % 2048 = 2047 then d.linkGroup l [] else d
      (d.linkGroup l (fs.take 5)).linkEmit l n (fs.drop 5)

def Dev.linkSend (d : Dev) (l : Nat) (fs : List Flit) : Dev := d.linkEmit l fs.length fs

/-- Send a LINK_CTL flit (Table 22-5). -/
def Dev.linkCtl (d : Dev) (l ctl low : Nat) (body : List Byte := []) : Dev :=
  d.linkSend l [localFlit tCTL d.lr.node (ctl * 65536 + low) body]

/-- LINK_CTL PARAM: version, node, link, initial credits, lanes and rate (Table 22-5). -/
def Dev.paramSend (d : Dev) (l : Nat) : Dev :=
  let rate := d.get .LL_STATUS_RATE l
  d.linkCtl l 1 0 (leBytes 1 1 ++ leBytes 2 d.lr.node ++ leBytes 1 l
    ++ leBytes 2 32 ++ leBytes 2 160 ++ leBytes 2 160 ++ leBytes 2 160
    ++ leBytes 1 (d.get .LL_STATUS_LANES l + (if rate = 224 then 2 else if rate = 112 then 1 else 0) * 16) ++ leBytes 3 0)

/-- Credits left on a virtual channel. -/
def Link.avail (x : Link) (v : Nat) : Nat :=
  x.cred.getD v 0 - (x.sent.getD v 0 + 65536 - x.freed.getD v 0) % 65536

/-- The first waiting message that may go: in order within its virtual channel, with its credit (R502). -/
def Link.ready (x : Link) : List Nat → List (Nat × Flit) → Option (Nat × Flit)
  | _, [] => none
  | blocked, (n, f) :: t =>
    if blocked.contains f.vc then x.ready blocked t
    else if n ≤ x.avail f.vc then some (n, f)
    else x.ready (f.vc :: blocked) t

/-- Number what may be sent; answers the flits in order. -/
def Link.take : Nat → Link → Link × List Flit
  | 0, x => (x, [])
  | n + 1, x =>
    if 512 ≤ x.replay.length then (x, [])
    else match x.ready [] x.txq with
      | none => (x, [])
      | some m =>
        let f := { m.2 with seq := x.nextSeq }
        let y := { x with
          nextSeq := (x.nextSeq + 1) % 4096
          replay := x.replay ++ [f]
          txq := x.txq.erase m
          sent := x.sent.set f.vc ((x.sent.getD f.vc 0 + 1) % 65536) }
        let r := Link.take n y
        (r.1, f :: r.2)

/-- Send every waiting message that credit and the replay buffer allow (R497, R502). -/
def Dev.linkPump (d : Dev) (l : Nat) : Dev :=
  if d.lactive l && !(d.link l).resume then
    let r := Link.take (d.link l).txq.length (d.link l)
    let now := d.gh.timer
    let first := (d.link l).replay.isEmpty
    let d := d.updLink l fun _ => { r.1 with ackAt := if first then now else r.1.ackAt }
    let d := r.2.foldl (fun e f => e.bump (.VC_FLITS f.vc) l) d
    d.linkSend l r.2
  else d

/-- Queue a message on a link and send what can go. -/
def Dev.linkQueue (d : Dev) (l need : Nat) (m : Flit) : Dev :=
  (d.updLink l fun x => { x with txq := x.txq ++ [(need, m)] }).linkPump l

/-- CREDIT (R503): the cumulative counts. -/
def Dev.creditSend (d : Dev) (l : Nat) : Dev :=
  let x := d.link l
  let d := d.linkSend l [localFlit tCREDIT d.lr.node 0 (x.took.flatMap fun n => leBytes 2 n)]
  let now := d.gh.timer
  d.updLink l fun y => { y with told := y.took, credAt := now, tookAt := none }

/-- NAK carrying EXPECT (R498). -/
def Dev.nakSend (d : Dev) (l : Nat) : Dev :=
  let now := d.gh.timer
  ((d.linkSend l [localFlit tNAK d.lr.node (d.link l).expect []]).bump .NAK_TX_COUNT l).updLink l fun y => { y with nakAt := now }

/-! ### Consuming -/

/-- The first unconsumed flit of a virtual channel. -/
def Dev.rxHead (d : Dev) (l v : Nat) : Option Flit := (d.link l).rxq.find? fun f => f.vc == v

/-- Consume a flit: its buffer is freed, and a CREDIT goes when eight have been since the last (R503). -/
def Dev.rxPop (d : Dev) (l : Nat) (f : Flit) : Dev :=
  let d := d.updLink l fun x => { x with
    rxq := x.rxq.erase f
    tookAt := some (x.tookAt.getD d.gh.timer)
    took := x.took.set f.vc ((x.took.getD f.vc 0 + 1) % 65536) }
  let x := d.link l
  if 8 ≤ (x.took.getD f.vc 0 + 65536 - x.told.getD f.vc 0) % 65536 ∧ d.lstate l = 6 then d.creditSend l else d

/-! ### States -/

/-- The link's state changes: status, when, LINK packet. -/
def Dev.linkSet (d : Dev) (l st : Nat) : Dev :=
  let now := d.gh.timer
  ((d.updLink l fun x => { x with stAt := now }).set .LL_STATUS_STATE st l).traceLink (lnk l) st (d.get .LL_STATUS_RATE l) (d.get .LL_STATUS_LANES l)

/-- LINK_DOWN on leaving ACTIVE (R506). -/
def Dev.linkLeave (d : Dev) (l : Nat) : Dev := if d.lstate l = 6 then d.raise (lnk l) 0 1 else d

/-- Training history: the status word at an event of training, newest last, 26 kept. -/
def Dev.linkHist (d : Dev) (l : Nat) : Dev :=
  let w := d.rd .LL_STATUS l
  d.updLink l fun x => { x with hist := (x.hist ++ [w]).drop ((x.hist.length + 1) - 26) }

/-- The rate the loop applies at a training (R20, R21, R510): the pin, or the shadow within the bounds; the boot recipe's
rate, or the high bound, before any training. -/
def Dev.linkRate (d : Dev) (l : Nat) : Nat :=
  let lo := d.get .LL_RATE_BOUNDS_LOW l
  let hi := d.get .LL_RATE_BOUNDS_HIGH l
  let sh := d.get .LL_RATE_SHADOW_RATE l
  if d.get .LL_RATE_PIN_PIN_EN l = 1 then d.get .LL_RATE_PIN_RATE l
  else
    let r := if sh = 0 then (if (d.link l).rate = 0 then hi else (d.link l).rate) else sh
    max lo (min hi r)

/-- A POLICY_CLAMP of the lane-rate loop. -/
def Dev.rateClamp (d : Dev) (l : Nat) : Dev := (d.bump .LL_CLAMP_COUNT l).raise (lnk l) 0 5

/-- An update of the lane-rate loop: a POLICY_CLAMP is counted where R20 or R24 asks for it; `old` is the rate applied until now. -/
def Dev.rateCheck (d : Dev) (l old : Nat) : Dev :=
  if clamped (d.get .LL_RATE_BOUNDS_LOW l) (d.get .LL_RATE_BOUNDS_HIGH l) (d.get .LL_RATE_SHADOW_RATE l) old
      (d.get .LL_RATE_PIN_PIN_EN l == 1) then d.rateClamp l else d

/-- Start the clock recovery at a rate with lanes offered (state CDR). -/
def Dev.linkCdr (d : Dev) (l rate : Nat) : Dev :=
  (d.updLink l fun x => { x with rate := rate, locked := 0, eq := 0, aligned := 0, gotParam := false, gotAck := false,
                                 dropTo := none, offer := none }).linkSet l 2

/-! ### Routing -/

/-- The set of link `l` in LR_LINK_SET_i, which APPLY puts in force. -/
def Dev.setReg (d : Dev) (l : Nat) : Nat := bitsOf (d.rd (.LR_LINK_SET (l / 8))) (3 * (l % 8)) 3

/-- The set of link `l` in force (R525); 7 none. -/
def Dev.setOf (d : Dev) (l : Nat) : Nat := d.lr.sets.getD l 7

/-- Size of a dimension in force. -/
def Dev.dimSize (d : Dev) (k : Nat) : Nat := d.lr.dims.getD k 1

/-- Do two sets count as one: the same, or the two sets of a dimension of size 2? -/
def Dev.sameSet (d : Dev) (s t : Nat) : Bool := s == t || (s / 2 == t / 2 && d.dimSize (s / 2) == 2)

/-- The ACTIVE links of a set. -/
def Dev.setLinks (d : Dev) (s : Nat) : List Nat :=
  (List.range 24).filter fun l => decide (d.setOf l < 6) && d.sameSet (d.setOf l) s && d.lactive l

/-- The ACTIVE link of a set with the fewest bytes queued, the lower number on a tie (R529). -/
def Dev.pickLink (d : Dev) (s : Nat) : Option Nat :=
  (d.setLinks s).foldl (fun best l => match best with
    | none => some l
    | some b => if (d.link l).txq.length < (d.link b).txq.length then some l else some b) none

/-- Nodes of the fleet as configured. -/
def Dev.fleetNodes (d : Dev) : Nat := d.dimSize 0 * d.dimSize 1 * d.dimSize 2

/-- Coordinates of a node. -/
def Dev.coord (d : Dev) (n k : Nat) : Nat :=
  if k = 0 then n % d.dimSize 0 else if k = 1 then n / d.dimSize 0 % d.dimSize 1 else n / (d.dimSize 0 * d.dimSize 1)

/-- The route entry that APPLY computes for a node (section "Routing"): 0xE LOCAL. -/
def Dev.routeOf (d : Dev) (n : Nat) : Nat :=
  match (List.range 3).find? fun k => d.coord n k != d.coord d.lr.node k with
  | none => 0xE
  | some k =>
    let s := d.dimSize k
    let fwd := (d.coord n k + s - d.coord d.lr.node k) % s
    2 * k + (if 2 * fwd ≤ s then 0 else 1)

/-- The route table entry of a node; 0xF unreachable. -/
def Dev.route (d : Dev) (n : Nat) : Nat := Sparse.get (fun _ => 0xF) d.lr.table n

/-- The node one step along a set. -/
def Dev.neighbour (d : Dev) (s : Nat) : Nat :=
  let k := s / 2
  let sz := d.dimSize k
  let c := d.coord d.lr.node k
  let c' := if s % 2 = 0 then (c + 1) % sz else (c + sz - 1) % sz
  let unit := if k = 0 then 1 else if k = 1 then d.dimSize 0 else d.dimSize 0 * d.dimSize 1
  d.lr.node - c * unit + c' * unit

/-- Where a routed message goes: the set of its entry, or the opposite one (R530); none where neither has an ACTIVE link
(R531) or the entry is unreachable. The flag says that it detours. -/
def Dev.wayTo (d : Dev) (n : Nat) : Option (Nat × Bool) :=
  let s := d.route n
  if d.fleetNodes ≤ n ∨ 5 < s then none
  else if !(d.setLinks s).isEmpty then some (s, false)
  else if !(d.setLinks (s ^^^ 1)).isEmpty then some (s ^^^ 1, true)
  else none

def Dev.reachable (d : Dev) (n : Nat) : Bool := (d.wayTo n).isSome

/-- Is a link degraded, or lost to its set: not ACTIVE, fewer lanes than offered, or a rate below the policy's ceiling
(notes/assumptions/126.md)? -/
def Dev.linkDegraded (d : Dev) (l : Nat) : Bool :=
  let top := if d.get .LL_RATE_PIN_PIN_EN l = 1 then d.get .LL_RATE_PIN_RATE l else d.get .LL_RATE_BOUNDS_HIGH l
  !d.lactive l || (d.get .LL_CTRL_LANE_ALLOW l == 3 && decide (d.get .LL_STATUS_LANES l < 2)) || decide (d.get .LL_STATUS_RATE l < top)

/-- Has the link set that a node is reached over a degraded or lost link (NODE_STATUS.DEGRADED, Table 11-4)? -/
def Dev.nodeDegraded (d : Dev) (node : Nat) : Bool :=
  match d.wayTo node with
  | some (s, _) => (List.range 24).any fun l => decide (d.setOf l < 6) && d.sameSet (d.setOf l) s && d.linkDegraded l
  | none => true

/-- A message detours: counted, and DETOUR raised when the set begins (R530). -/
def Dev.detoured (d : Dev) (s : Nat) : Dev :=
  let d := d.bump .DETOUR_COUNT
  if d.lr.detours.contains s then d
  else ({ d with lr := { d.lr with detours := d.lr.detours ++ [s] } }).raise rtr 0 5

/-- The dimensions in use whose two sets have no ACTIVE link. -/
def Dev.deadDims (d : Dev) : List Nat :=
  (List.range 3).filter fun k => decide (1 < d.dimSize k) && (d.setLinks (2 * k)).isEmpty && (d.setLinks (2 * k + 1)).isEmpty

/-- After a change of links or routes: sets that have a link again stop detouring, UNREACHABLE is raised for a dimension
newly without links, and the T4 paths follow (R530, R531, R267). -/
def Dev.routesChanged (d : Dev) : Dev :=
  let d := { d with lr := { d.lr with detours := d.lr.detours.filter fun s => (d.setLinks s).isEmpty } }
  let dead := d.deadDims
  let new := dead.filter fun k => !d.lr.unreach.contains k
  let d := { d with lr := { d.lr with unreach := dead } }
  let d := new.foldl (fun e _ => e.raise rtr 0 4) d
  (List.range 4).foldl (fun e n =>
    if e.get (.NODE_VALID n) = 1 then e.setPath 4 (e.get (.NODE_NODE n)) (!e.reachable (e.get (.NODE_NODE n))) else e) d

/-- A use of a node's route entry reads its word of the routing tables, four entries; one with an uncorrectable error leaves them all
unreachable (R581, memory code 0xB of Table 26-3; that the four entries share a word is what the mirror shows, Table 23-7). -/
def Dev.touchRoute (d : Dev) (node : Nat) : Dev :=
  let w := node / 4
  if d.ecc.contains (0x0B, w) then
    let d := (d.eccUse rtr 0 0x0B w 1).eccWrite 0x0B w
    let clear (t : List (Nat × Nat)) (j : Nat) : List (Nat × Nat) := Sparse.put (fun _ => 0xF) t (4 * w + j) 0xF
    ({ d with lr := { d.lr with table := (List.range 4).foldl clear d.lr.table } }).routesChanged
  else d

/-! ### Sending messages -/

/-- Put messages on one link of the way to a node (R518): at injection or a turn into a new dimension each needs 18 credits
beyond its own (R528). Unreachable: not sent, counted (R531). Answers the link. -/
def Dev.routeAll (d : Dev) (dst : Nat) (inDim : Option Nat) (ms : List Flit) : Dev × Option Nat :=
  let d := d.touchRoute dst
  match d.wayTo dst with
  | none => (ms.foldl (fun e _ => e.bump .UNREACH_COUNT) d, none)
  | some (s, det) =>
    match d.pickLink s with
    | none => (d, none)
    | some l =>
      let need := if inDim = some (s / 2) then 1 else 19
      let d := if det then ms.foldl (fun e _ => e.detoured (d.route dst)) d else d
      (ms.foldl (fun e m => e.linkQueue l need m) d, some l)

/-- Originate messages of one transfer; a frozen router keeps them until the thaw (R538). -/
def Dev.lrSend (d : Dev) (dst : Nat) (ms : List Flit) : Dev × Option Nat :=
  if d.frozen rtr then ({ d with lr := { d.lr with held := d.lr.held ++ ms } }, none) else d.routeAll dst none ms

/-- Originate one message. -/
def Dev.lrMsg (d : Dev) (type dst msgA msgB : Nat) (body : List Byte) : Dev :=
  (d.lrSend dst [message type dst d.lr.node msgA msgB body]).1

/-- A tree message goes one hop on a link of a set, or is held while the set has no ACTIVE link (R524, R538). -/
def Dev.treeSend (d : Dev) (s type msgA : Nat) (body : List Byte) : Dev :=
  match (if d.frozen rtr then none else d.pickLink s) with
  | some l => d.linkQueue l 19 (message type (d.get .LL_PEER_NODE l) d.lr.node msgA 0 body)
  | none => { d with lr := { d.lr with heldTree := d.lr.heldTree ++ [(s, message type 0 d.lr.node msgA 0 body)] } }

def isTree (t : Nat) : Bool := t == 4 || t == 5 || t == 6

/-! ### Tags (R523) -/

/-- A failed request keeps its tag until 2·STALL_LIMIT.ENGINE has passed. -/
def Dev.tagHeld (d : Dev) (t : RTag) : Bool :=
  !t.dead || decide (d.gh.timer < t.since + 2 * usToTicks (d.get .STALL_LIMIT_ENGINE))

/-- A free tag for a destination. -/
def Dev.freeTag (d : Dev) (dst : Nat) : Nat :=
  ((List.range 4096).find? fun t => !(d.lr.tags.any fun x => x.tag == t && x.dst == dst && d.tagHeld x)).getD 0

/-- READ_REQ: SPACE, REGION, BUF, the byte offset, the length in 16-byte units, SVC, FORCE (Table 23-1). -/
def readReq (dst src tag space region buf off len svc : Nat) (force : Bool) : Flit :=
  message 2 dst src (off / 16 % 2 ^ 24) (space * 2 ^ 15 + region * 2 ^ 11 + buf * 2 ^ 10 + off / 16 / 2 ^ 24 % 1024)
    (leBytes 2 tag ++ leBytes 2 len ++ leBytes 1 svc ++ leBytes 1 (bit01 force) ++ leBytes 2 0)

/-- Remember an outstanding tag. -/
def Dev.addTag (d : Dev) (tag dst link len : Nat) (o : Owner) (m : Flit) : Dev :=
  { d with lr := { d.lr with tags := (d.lr.tags.filter d.tagHeld) ++ [{
      req := m, tag := tag, dst := dst, link := link, len := len, owner := o, got := [], status := none, since := d.gh.timer,
      dead := false }] } }

/-- Cut bytes into payloads of at most 240. -/
def cut240 : Nat → Nat → List Byte → List (Nat × List Byte)
  | 0, _, _ => []
  | f + 1, off, b => if b.isEmpty then [] else (off, b.take 240) :: cut240 f (off + 240) (b.drop 240)

/-- A write to the device's hosting window on a node: WRITE flits, then a flush, all on one link (R518, R520). -/
def Dev.t4Write (d : Dev) (node off svc : Nat) (data : List Byte) (o : Owner) : Dev :=
  let tag := d.freeTag node
  let ws := (cut240 (data.length + 1) off data).map fun p =>
    message 1 node d.lr.node (p.1 / 16 % 2 ^ 24) (p.1 / 16 / 2 ^ 24 % 1024) p.2
  let m := readReq node d.lr.node tag 0 0 0 off 0 svc false
  let r := d.lrSend node (ws ++ [m])
  r.1.addTag tag node (r.2.getD 24) 0 o m

/-- A read of up to 4 KiB from the device's hosting window on a node. -/
def Dev.t4Read (d : Dev) (node off n svc : Nat) (o : Owner) : Dev :=
  let tag := d.freeTag node
  let m := readReq node d.lr.node tag 0 0 0 off ((n + 15) / 16) svc false
  let r := d.lrSend node [m]
  r.1.addTag tag node (r.2.getD 24) ((n + 15) / 16) o m

/-- The oldest request of an owner. -/
def Dev.tagOf (d : Dev) (o : Owner) : Option RTag := d.lr.tags.find? fun t => t.owner == o && !t.dead

def Dev.dropTag (d : Dev) (t : RTag) : Dev := { d with lr := { d.lr with tags := d.lr.tags.erase t } }

/-- Requests whose owner no longer wants them: the tag stays reserved, a later answer is late (R523). -/
def Dev.killTags (d : Dev) (f : Owner → Bool) : Dev :=
  { d with lr := { d.lr with tags := d.lr.tags.map fun t => if f t.owner then { t with dead := true } else t } }

/-- The data of an answered read, pieces in order. -/
def RTag.data (t : RTag) : List Byte := (List.range 18).flatMap fun i => Sparse.get (fun _ => []) t.got i

/-! ### Failure, quarantine, violations -/

/-- Rewrite every neighbour of every region. -/
def Ck.mapNbrs (c : Ck) (f : Nbr → Nbr) : Ck :=
  { c with regions := c.regions.map fun g => { g with nbrs := g.nbrs.map f } }

/-- What went to a node on link `l` (24: held) goes on link `m`: the outstanding requests, and the flushes an epoch needs (R520). -/
def Dev.moved (d : Dev) (l node m : Nat) : Dev :=
  { d with
    lr := { d.lr with tags := d.lr.tags.map fun t => if t.link == l && t.dst == node then { t with link := m } else t }
    ck := d.ck.mapNbrs fun x =>
      if x.node == node && x.links.contains l then { x with links := (x.links.erase l).insert m } else x }

/-- Send what was held, where it can go now: what is held for one node on one link (R518). -/
def Dev.heldSend (d : Dev) : Dev :=
  if d.frozen rtr then d
  else
    let tree := d.lr.heldTree
    let held := d.lr.held
    let d := { d with lr := { d.lr with held := [], heldTree := [] } }
    let d := (held.map Flit.dst).eraseDups.foldl (fun e n =>
      let r := e.routeAll n none (held.filter fun m => m.dst == n)
      r.1.moved 24 n (r.2.getD 24)) d
    tree.foldl (fun e m => e.treeSend m.1 m.2.type m.2.msgA m.2.body) d

/-- The messages of a link that carries no more go, whole, over the links left; an outstanding flush after them on the same
link (R532). -/
def Dev.linkResend (d : Dev) (l : Nat) : Dev :=
  let x := d.link l
  let d := d.updLink l fun y => { y with replay := [], txq := [] }
  let un := x.replay.map fun f => { f with seq := 0, ack := 0 }
  let queued := x.txq.map (·.2)
  let msgs := un ++ queued
  let flushes := (d.lr.tags.filter fun t => t.link == l && t.len == 0 && t.status.isNone && !t.dead &&
      !(msgs.any fun m => m.type == 2 && m.dst == t.dst && leNat (m.body.take 2) == t.tag)).map RTag.req
  let all := msgs ++ flushes
  let d := un.foldl (fun e _ => e.bump .RESEND_MSG_COUNT) d
  let tree := all.filter fun m => isTree m.type
  let d := tree.foldl (fun e m => e.treeSend (d.setOf l) m.type m.msgA m.body) d
  let rest := all.filter fun m => !isTree m.type
  let dsts := (rest.map Flit.dst).eraseDups
  dsts.foldl (fun e n =>
    let r := e.routeAll n none (rest.filter fun m => m.dst == n)
    r.1.moved l n (r.2.getD 24)) d

/-- LANES_TRAINED, RATE_GBPS and PEER_NODE of the parameter record. -/
def Dev.linkParam (d : Dev) (l : Nat) : Dev :=
  let live := decide (5 < d.lstate l)
  d.mapParam (lnk l) 8 (if live then d.get .LL_STATUS_LANES l + d.get .LL_STATUS_RATE l * 2 ^ 8 + d.get .LL_PEER_NODE l * 2 ^ 16 else 0)

/-- A quarantined link is disabled until the next boot (R535). -/
def Dev.quarantine (d : Dev) (l : Nat) : Dev :=
  if 23 < l ∨ bitsOf (d.get .LR_QUARANTINED_LINKS) l 1 = 1 then d
  else
    let d := ((d.linkLeave l).set .LR_QUARANTINED_LINKS (putBits (d.get .LR_QUARANTINED_LINKS) l 1 1)).linkSet l 0
    let d := (d.setParam (lnk l) 8 0).disableUnit (lnk l) 0x0C25
    ((d.raise rtr 0 3).alert 5).linkResend l |>.routesChanged

/-- A neighbour protocol violation (R534): counted, the first captured, raised; some count toward quarantine. -/
def Dev.violation (d : Dev) (l code : Nat) (f : Flit) : Dev :=
  let d := d.bump (.LR_VIOL_COUNT (code - 0x0C00))
  let d := if d.get .LR_VIOL_FIRST_VALID = 1 then d
    else
      let d := (d.set .LR_VIOL_FIRST_VALID 1).set .LR_VIOL_FIRST_CODE code
      ((d.set .LR_VIOL_INFO_LINK l).set .LR_VIOL_INFO_SRC f.src).set .LR_VIOL_HDR0_WORD
        (f.type * 2 ^ 28 + f.vc * 2 ^ 26 + f.dst * 2 ^ 12 + f.src)
  let d := d.raise rtr 0 2
  if code ≤ 0x0C04 ∨ code = 0x0C0C then
    let now := d.gh.timer
    let d := d.updLink l fun x => { x with viol := (x.viol.filter fun t => decide (now < t + 19200000)) ++ [now] }
    if d.get .LR_QUAR_CFG_VIOL ≤ (d.link l).viol.length then d.quarantine l else d
  else if code = 0x0C07 then d.quarantine l
  else d

/-- A link enters FAILED (Table 22-7, R506, R532). -/
def Dev.linkFail (d : Dev) (l cause : Nat) : Dev :=
  let d := (d.linkLeave l).set .LL_STATUS_TRAIN_FAIL_CAUSE cause l
  let d := (((d.linkSet l 8).linkHist l).raise (lnk l) 0 6).updLink l fun x => { x with resume := true }
  (d.linkResend l).routesChanged

/-- A retrain (R500, R512, R535): counted, the link leaves ACTIVE for CDR at a rate; too many within a minute quarantine it. -/
def Dev.linkRetrain (d : Dev) (l rate : Nat) : Dev :=
  let now := d.gh.timer
  let d := (d.linkLeave l).bump .LL_RETRAIN_COUNT l
  let d := d.updLink l fun x => { x with
    resume := true
    exit := false
    again := false
    resent := 0
    flaps := (x.flaps.filter fun t => decide (now < t + 1152000000)) ++ [now] }
  let d := (d.linkCdr l rate).routesChanged
  if d.get .LR_QUAR_CFG_FLAPS ≤ (d.link l).flaps.length then d.quarantine l else d

/-- Resend every unacknowledged flit from `i` on, with fresh ACKs (R499); too many resends of one SEQ retrain (R500). -/
def Dev.linkReplay (d : Dev) (l i : Nat) : Dev :=
  let fs := (d.link l).replay.drop i
  if fs.isEmpty then d
  else
    let d := d.bumpBy .REPLAY_FLITS fs.length l
    let now := d.gh.timer
    let d := (d.linkSend l fs).updLink l fun x => { x with resent := x.resent + 1, ackAt := now }
    if d.get .LL_REPLAY_LIMIT_COUNT l ≤ (d.link l).resent then
      (((d.raise (lnk l) 0 4).updLink l fun x => { x with resent := 0 }).rateCheck l (d.get .LL_RATE_APPLIED_RATE l)).linkRetrain l (d.linkRate l)
    else d

/-- Enter LOW_POWER (R507); a wake signal that came first brings the link out at once. -/
def Dev.linkSleep (d : Dev) (l : Nat) : Dev :=
  let wake := (d.link l).lpWake
  let now := d.gh.timer
  let d := (d.bump .LP_ENTRY_COUNT l).updLink l fun x => { x with
    exitAt := now, lpWant := false, lpOwe := false, lpSent := false, lpWake := false, exit := wake, resume := true }
  let d := d.linkSet l 7
  if wake then d.linkCdr l (d.link l).rate else d

/-- Steps of the low-power exchange that waited for the replay buffer to empty (R507). -/
def Dev.linkLp (d : Dev) (l : Nat) : Dev :=
  let x := d.link l
  if d.lstate l ≠ 6 ∨ !x.replay.isEmpty then d
  else if x.lpOwe then (d.linkCtl l 6 0).linkSleep l
  else if x.lpWant && !x.lpSent then (d.linkCtl l 5 0).updLink l fun y => { y with lpSent := true }
  else d

/-- An ACK covers flits up to its SEQ: they leave the replay buffer (R497). -/
def Dev.linkAck (d : Dev) (l a : Nat) : Dev :=
  let x := d.link l
  match x.replay.findIdx? fun f => f.seq == a with
  | none => d
  | some i =>
    let now := d.gh.timer
    (d.updLink l fun y => { y with replay := y.replay.drop (i + 1), resent := 0, ackAt := now }).linkLp l |>.linkPump l

/-- Entry into ACTIVE (R506, R510, R533, R501): status and loop, LINK_UP, the wiring check, RESUME, the messages held. -/
def Dev.linkUp (d : Dev) (l : Nat) : Dev :=
  let x := d.link l
  let d := ((d.set .LL_STATUS_RATE x.rate l).set .LL_RATE_APPLIED_RATE x.rate l)
  let d := if d.get .LL_RATE_SHADOW_RATE l = 0 then d.set .LL_RATE_SHADOW_RATE x.rate l else d
  let now := d.gh.timer
  let d := (d.linkSet l 6).updLink l fun y => { y with exit := false, again := false, old := none, cleanSince := now, wired := true, wrote := false,
                                                          win := [0, 0, 0], winAt := now, ackAt := now, credAt := now }
  let d := ((d.linkHist l).raise (lnk l) 0 0).linkParam l
  let s := d.setOf l
  if s < 6 ∧ d.lr.kind ≠ 0 ∧ d.get .LL_PEER_NODE l ≠ d.neighbour s then
    (d.updLink l fun y => { y with wired := false }).violation l 0x0C07
      (message 0 d.lr.node (d.get .LL_PEER_NODE l) 0 0 [])
  else
    let d := if x.resume then d.linkCtl l 7 x.expect else d
    ((d.linkPump l).routesChanged).heldSend

/-! ### Taking a message -/

/-- A message for another node goes on (R527, R529 to R531): HOPS one higher. -/
def Dev.forward (d : Dev) (l : Nat) (f : Flit) : Dev :=
  let d := (d.rxPop l f).touchRoute f.dst
  if 31 ≤ f.hops then d.violation l 0x0C05 f
  else if !d.reachable f.dst then
    let d := d.violation l 0x0C06 f
    if f.dst < d.fleetNodes ∧ d.route f.dst < 6 then d.bump .UNREACH_COUNT else d
  else ((d.routeAll f.dst (some (d.setOf l / 2)) [{ f with hops := f.hops + 1 }]).1).add64 .FWD_FLITS_LO 1

/-- Is the operation of a message (MSG_A 3:0) one that Table 23-1 gives its type? -/
def Flit.opKnown (m : Flit) : Bool :=
  let o := bitsOf m.msgA 0 4
  if m.type = 6 ∨ m.type = 0xA ∨ m.type = 0xB then o == 1 || o == 2
  else if m.type = 7 then (decide (1 ≤ o) && decide (o ≤ 4)) || o == 8 || o == 9
  else if m.type = 9 then decide (1 ≤ o) && decide (o ≤ 4)
  else true

/-- Take the first unconsumed message of a type's virtual channel on link `l`, when it has the type (and operation, MSG_A
3:0, where `op` gives one; an operation outside Table 23-1 is any command's of the type to discard): forwarded if it is for another node (tree messages never are), kept while the router or the consuming
block `blk` is frozen or the device asleep, discarded as MSG_FORMAT where `ok` fails (R515). -/
def Dev.lrTake (d : Dev) (l type : Nat) (op : Option Nat) (blk : Nat) (ok : Flit → Bool) (f : Dev → Flit → Dev) : Dev :=
  match d.rxHead l (vcOf type) with
  | none => d
  | some m =>
    if m.type ≠ type ∨ d.asleep ∨ (m.opKnown ∧ op.getD (bitsOf m.msgA 0 4) ≠ bitsOf m.msgA 0 4) then d
    else if !isTree type && m.dst != d.lr.node then d.forward l m
    else if d.frozen rtr || d.frozen blk then d
    else if !m.opKnown || !ok m then (d.rxPop l m).violation l 0x0C0C m
    else f (d.rxPop l m) m

/-- Little-endian field of a message's payload. -/
def Flit.fld (f : Flit) (o n : Nat) : Nat := leNat ((f.body.drop o).take n)

/-- Does the device hold credit to answer on a virtual channel towards a node (R522)? -/
def Dev.canReply (d : Dev) (dst v : Nat) : Bool :=
  match d.wayTo dst with
  | none => false
  | some (s, _) => (d.setLinks s).any fun l => decide (0 < (d.link l).avail v)

end Sys2Proof.Machine
end

