-- ==== Sys2Proof/Machine/CkOps.lean ====
section
/-! DEFINITION. The Cistern's shared operations (chapter 19): regions and their dirty maps, offers, commit points, sends and
commits on the writer's side; leases; the restore. -/
namespace Sys2Proof.Machine

def ckBlk : Nat := 65

/-- Causes of Table 19-8. -/
def cUnprotected : Nat := 0x0901
def cImageNotFound : Nat := 0x0902
def cImageStale : Nat := 0x0903
def cImageSuperseded : Nat := 0x0904
def cRecordCrc : Nat := 0x0905
def cManifest : Nat := 0x0906
def cTrain : Nat := 0x0907
def cNoSlot : Nat := 0x0908
def cNoSpaceSlot : Nat := 0x0909
def cOldGen : Nat := 0x090A
def cRegionBusy : Nat := 0x090B
def cCommitStep : Nat := 0x090C
def cRegionOff : Nat := 0x090D

/-! ### Freeboard's tensors, which the training-state block carries -/

def Dev.updFb (d : Dev) (f : Fb → Fb) : Dev := { d with fb := f d.fb }

/-- A tensor's settings; reset ones where the plan names none (R412). -/
def Tensor.none_ (t : Nat) : Tensor :=
  { id := t, fmt := 0, scaleEn := false, pinEn := false, pin := 0, group := 0, margin := 0, histLen := 0, base := 0, ptr := 0,
    fill := 0, amaxLast := 0, amaxHist := 0, scale := 0x7F, shadow := 0x7F, step := 0, init := 0x7F }

def Dev.tensor (d : Dev) (t : Nat) : Tensor := (d.fb.tensors.find? fun x => x.id == t).getD (Tensor.none_ t)

def Dev.putTensor (d : Dev) (x : Tensor) : Dev :=
  d.updFb fun f => { f with
    tensors := (f.tensors.filter fun y => decide (y.id < x.id)) ++ [x] ++ f.tensors.filter fun y => decide (x.id < y.id) }

/-- A Scale Table entry (Table 18-2). -/
def Tensor.words (x : Tensor) : List Nat :=
  [x.amaxLast, x.amaxHist,
   x.scale * 2 ^ 24 + x.shadow * 2 ^ 16 + x.fmt * 2 ^ 12 + bit01 x.pinEn * 2 ^ 11 + x.fill, x.step]

/-- Word at a byte offset of the 128 KiB table space: the Scale Table, then the Verdict Table. -/
def Dev.fbWord (d : Dev) (off : Nat) : Nat :=
  if off < 0x10000 then (d.tensor (off / 16)).words.getD (off / 4 % 4) 0
  else
    let v := off - 0x10000
    if v < 0x800 then (Sparse.get (fun _ => []) d.fb.recs (v / 32)).getD (v / 4 % 8) 0
    else if v < 0x8000 then 0
    else
      let n := Sparse.get (fun _ => (0, 0)) d.fb.norms ((v - 0x8000) / 8)
      if v / 4 % 2 = 0 then n.1 else n.2

/-! ### Freeboard's tables (memory codes 8 and 9) -/

/-- A Scale Table entry with a bad word: rewritten as at installation, its history discarded. -/
def Dev.scaleEcc (d : Dev) (t : Nat) : Dev :=
  let x := d.tensor t
  let d := (d.eccUse 64 0 8 (4 * t) 4).eccClear 8 (4 * t) 4
  if d.fb.tensors.any fun y => y.id == t then
    d.putTensor { x with ptr := 0, fill := 0, amaxLast := 0, amaxHist := 0, scale := x.init, shadow := 0x7F, step := 0 }
  else d

/-- Word `j` of a verdict record that is rewritten: STEP stays, VERDICT is 3 INCOMPLETE with CONTROL_UE; of the other words a bad one becomes a
free value (notes/assumptions/132.md). -/
def Dev.verdictFix (bad : List Nat) (w : List Nat) (p : Nat) (a : List Nat × Dev) (j : Nat) : List Nat × Dev :=
  if j = 0 then (a.1 ++ [w.getD 0 p], a.2)
  else if j = 1 then (a.1 ++ [3 * 2 ^ 28 + 0x1001], a.2)
  else if bad.contains (8 * p + j) then
    let r := a.2.fresh
    (a.1 ++ [r.1 % 2 ^ 32], r.2)
  else (a.1 ++ [w.getD j 0], a.2)

/-- The verdict record at position `p` with a bad word is rewritten. -/
def Dev.verdictEcc (d : Dev) (p : Nat) : Dev :=
  let bad := d.eccBadIn 9 (8 * p) 8
  let d := (d.eccUse 64 0 9 (8 * p) 8).eccClear 9 (8 * p) 8
  let r := (List.range 8).foldl (Dev.verdictFix bad (Sparse.get (fun _ => []) d.fb.recs p) p) ([], d)
  r.2.updFb fun f => { f with recs := Sparse.put (fun _ => []) f.recs p r.1 }

/-- Entries of the Scale Table are read. -/
def Dev.touchScales (d : Dev) (p : Nat → Bool) : Dev := d.eccTouch 8 4 p Dev.scaleEcc

/-- The verdict record of a step is read. -/
def Dev.touchVerdict (d : Dev) (step : Nat) : Dev := d.eccTouch 9 8 (fun g => g == step % 64) Dev.verdictEcc

/-- A 4-byte read at a byte offset of the two tables, by the driver or a partner. A NORM or CLIP word with an error, for which Table 26-3 states no
content, reads as a free value. -/
def Dev.fbRead (d : Dev) (off : Nat) : Nat × Dev :=
  if off < 65536 then
    let e := d.touchScales fun g => g == off / 16
    (e.fbWord off, e)
  else if off < 65536 + 2048 then
    let e := d.eccTouch 9 8 (fun g => g == (off - 65536) / 32) Dev.verdictEcc
    (e.fbWord off, e)
  else d.ueRead 64 9 ((off - 65536) / 4) (d.fbWord off)

/-! ### Regions -/

def Dev.region? (d : Dev) (r : Nat) : Option Region := d.ck.regions.find? fun x => x.id == r

def Dev.updRegion (d : Dev) (r : Nat) (f : Region → Region) : Dev :=
  { d with ck := { d.ck with regions := d.ck.regions.map fun x => if x.id == r then f x else x } }

def Dev.updNbr (d : Dev) (r x : Nat) (f : Nbr → Nbr) : Dev :=
  d.updRegion r fun g => { g with nbrs := g.nbrs.modify x f }

def Dev.nbr? (d : Dev) (r x : Nat) : Option Nbr := (d.region? r).bind fun g => g.nbrs[x]?

/-- Is the region part of the running restore? -/
def Dev.restoring (d : Dev) (r : Nat) : Bool :=
  match d.ck.restore with
  | some t => t.parts.any fun p => p.region == r
  | none => false

/-- CK_REGION_STATUS.PHASE (Table 19-2). -/
def Dev.phase (d : Dev) (g : Region) : Nat :=
  if g.off then 0
  else if d.restoring g.id then (if g.halted then 5 else 4)
  else if g.halted then 5
  else match g.commit with
    | none => 1
    | some c => if c.wait.all (fun x => ((g.nbrs[x]?.bind Nbr.job).map CkJob.stage) == some 2) then 3 else 2

/-- The epoch open for partner writes. -/
def Region.openEpoch (g : Region) : Nat :=
  match g.commit with
  | some c => c.epoch + 1
  | none => g.epoch + 1

/-- The member that holds a block of the offset space, and the block within it. -/
def Dev.memberAt (d : Dev) : List Nat → Nat → Option (Obj × Nat)
  | [], _ => none
  | h :: t, b => match d.objAt (hIndex h) with
    | none => none
    | some o => if b < o.blocks then some (o, b) else d.memberAt t (b - o.blocks)

/-- First block of a member in the offset space. -/
def Dev.memberBase (d : Dev) (h : Nat) : List Nat → Nat
  | [] => 0
  | x :: t => if x = h then 0 else (match d.objAt (hIndex x) with
    | some o => o.blocks
    | none => 0) + d.memberBase h t

/-- Is a granule of the region wet? -/
def Dev.regionWet (d : Dev) (g : Region) (n : Nat) : Bool :=
  match d.memberAt g.objs (n / 16) with
  | some (o, b) => d.isWet o (b * 16 + n % 16)
  | none => false

/-- The wet map: one bit per granule, the block records' WET masks end to end. -/
def Dev.wetMap (d : Dev) (g : Region) : List Byte :=
  (List.range g.blocks).flatMap fun b => match d.memberAt g.objs b with
    | some (o, k) => leBytes 2 (d.wetMask o k)
    | none => [0, 0]

/-- Bit `n` of a map. -/
def mapBit (l : List Byte) (n : Nat) : Bool := bitsOf (l.getD (n / 8) 0).toNat (n % 8) 1 == 1

/-! ### The dirty map (R417, R418) -/

/-- D: dirty bits per granule, bit 2x + b for neighbour x and buffer b. -/
def Region.dirtyBits (g : Region) : Nat := if g.paired then 4 else 2

def Region.dirtyAddr (g : Region) (n : Nat) : Nat := g.map + n * g.dirtyBits / 8

def Dev.dirty (d : Dev) (g : Region) (n pair : Nat) : Bool :=
  bitsOf (d.ld spT1 (g.dirtyAddr n) 1) (n * g.dirtyBits % 8 + pair) 1 == 1

def Dev.setDirty (d : Dev) (g : Region) (n pair : Nat) (v : Bool) : Dev :=
  d.st spT1 (g.dirtyAddr n) 1 (putBits (d.ld spT1 (g.dirtyAddr n) 1) (n * g.dirtyBits % 8 + pair) 1 (bit01 v))

/-- A write sets all D bits of a granule. -/
def Dev.dirtyAll (d : Dev) (g : Region) (n : Nat) : Dev :=
  (List.range g.dirtyBits).foldl (fun e p => e.setDirty g n p true) d

/-! ### Encryption of members (R324; a granule's place within its block's data unit) -/

/-- The bytes of a granule as they are sent; none where a key or every lane is missing (with the cause). -/
def Dev.granuleOut (d : Dev) (g : Region) (n : Nat) : Except Nat (List Byte) :=
  match d.memberAt g.objs (n / 16) with
  | none => .ok []
  | some (o, b) =>
    let blk := d.placeRd o.place (b * 65536) 65536
    if !o.enc then .ok ((blk.drop (4096 * (n % 16))).take 4096)
    else if (List.range 8).all (fun i => bitsOf g.mask i 1 == 0 || !d.present (38 + i)) then .error 0x0503
    else match d.keyOf o.key with
      | none => .error 0x0502
      | some k => .ok (((xtsEncrypt k (tweak o.handle b) blk).drop (4096 * (n % 16))).take 4096)

/-- The bytes of a received granule as they are stored. -/
def Dev.granuleIn (d : Dev) (g : Region) (n : Nat) (data : List Byte) : Except Nat (List Byte) :=
  match d.memberAt g.objs (n / 16) with
  | none => .ok data
  | some (o, b) =>
    if !o.enc then .ok data
    else if (List.range 8).all (fun i => bitsOf g.mask i 1 == 0 || !d.present (38 + i)) then .error 0x0503
    else match d.keyOf o.key with
      | none => .error 0x0502
      | some k =>
        let i := 4096 * (n % 16)
        let unit := List.replicate i 0 ++ data ++ List.replicate (65536 - i - 4096) 0
        .ok (((xtsDecrypt k (tweak o.handle b) unit).drop i).take 4096)

/-! ### Manifest, training block, record (Tables 19-5 to 19-7) -/

/-- The checkpoint manifest. -/
def Dev.manifest (d : Dev) (g : Region) : List Byte :=
  let entries := g.objs.flatMap fun h => match d.objAt (hIndex h) with
    | some o => leBytes 4 h ++ leBytes 4 (d.memberBase h g.objs * 256)
        ++ leBytes 4 (o.blocks * 256 + bit01 o.enc * 16 + (if o.enc then o.key else 0)) ++ leBytes 4 0
    | none => []
  let hdr := leBytes 4 0x464D4B43 ++ leBytes 4 (2 ^ 24 + g.id * 2 ^ 16 + d.lr.node) ++ leBytes 4 g.objs.length
    ++ leBytes 4 g.blocks ++ List.replicate 44 0
  hdr ++ leBytes 4 (crc32c (hdr ++ entries)) ++ entries

def Dev.manifestCrc (d : Dev) (g : Region) : Nat := leNat (((d.manifest g).drop 0x3C).take 4)

/-- The training-state block. -/
def Dev.trainBlock (d : Dev) : List Byte :=
  leBytes 4 (d.get .LS_CLEAN_CLEAN * 2 ^ 16 + d.get .LS_APPLIED_EXP) ++ leBytes 4 (d.get .FB_STATUS_RANGE_MODE)
    ++ leBytes 4 d.fb.histBytes ++ leBytes 4 0
    ++ ((List.range 4096).flatMap fun t => (d.tensor t).words.flatMap (leBytes 4))
    ++ d.rbs spT1 (d.rd64 .FB_T1_BASE_LO) d.fb.histBytes

/-- Freeboard's verdict of a step; 0 if none was published. -/
def Dev.verdictOf (d : Dev) (step : Nat) : Nat :=
  match Sparse.get (fun _ => []) d.fb.recs (step % 64) with
  | w0 :: w1 :: _ => if w0 = step then bitsOf w1 28 4 else 0
  | _ => 0

/-- The commit record of an epoch. -/
def Dev.commitRecord (d : Dev) (g : Region) (epoch step : Nat) (wet train : List Byte) : List Byte :=
  let b := leBytes 4 0x52434B43 ++ leBytes 4 (2 ^ 24 + g.id * 2 ^ 16 + g.ckpt * 2 ^ 12 + d.lr.node)
    ++ leBytes 4 (d.get .CK_GEN_GEN * 2 ^ 16 + d.get .FB_STATUS_RANGE_MODE * 2 ^ 6 + d.verdictOf step % 4 * 2 ^ 4
        + bit01 g.train * 2 + bit01 g.paired)
    ++ leBytes 4 step ++ leBytes 8 epoch ++ leBytes 4 g.blocks
    ++ leBytes 4 ((List.range (16 * g.blocks)).filter (mapBit wet)).length
    ++ leBytes 4 (d.manifestCrc g) ++ leBytes 4 (crc32c wet)
    ++ leBytes 4 train.length ++ leBytes 4 (if train.isEmpty then 0 else crc32c train)
    ++ leBytes 8 d.gh.timer ++ leBytes 4 0
  b ++ leBytes 4 (crc32c b)

/-! ### Messages of the writer -/

/-- Byte offsets of the checkpoint space (Table 23-2). -/
def wetBase : Nat := 0x2000000000
def trainBase : Nat := 0x2800000000
def manifestBase : Nat := 0x3000000000

/-- A CKPT_OFFER message (Table 23-1). -/
def ckptOffer (dst src region op cause epoch gen lease crc bytes : Nat) : Flit :=
  message 7 dst src (region * 16 + op) cause
    (leBytes 8 epoch ++ leBytes 2 gen ++ leBytes 2 lease ++ leBytes 4 crc ++ leBytes 8 bytes ++ leBytes 8 0)

/-- Send an offer to a neighbour; it stays unanswered until its reply (R522), and leases run from the first (R429). -/
def Dev.offer (d : Dev) (r x op epoch : Nat) : Dev :=
  match d.region? r, d.nbr? r x with
  | some g, some n =>
    let now := d.gh.timer
    let d := (d.lrSend n.node [ckptOffer n.node d.lr.node r op 0 epoch (d.get .CK_GEN_GEN) d.plan.leaseMs (d.manifestCrc g)
      (g.blocks * 65536)]).1
    d.updNbr r x fun y => { y with
      offer := some (op, epoch)
      offerAt := now
      ans := if y.leased then y.ans else now
      sent := if y.leased then y.sent else now
      leased := true }
  | _, _ => d

/-- Pad to a multiple of 16 bytes. -/
def pad16 (l : List Byte) : List Byte := l ++ List.replicate ((16 - l.length % 16) % 16) 0

/-- Send bytes to the checkpoint space of a neighbour, whole on one link, which is remembered (R518, R520). -/
def Dev.ckptData (d : Dev) (r x off : Nat) (data : List Byte) : Dev :=
  match d.nbr? r x with
  | none => d
  | some n =>
    let data := pad16 data
    let ms := (cut240 (data.length + 1) off data).map fun p =>
      message 8 n.node d.lr.node (p.1 / 16 % 2 ^ 24) (r * 2 ^ 12 + d.get .CK_GEN_GEN % 4 * 2 ^ 10 + p.1 / 16 / 2 ^ 24 % 1024) p.2
    let t := d.lrSend n.node ms
    match t.2 with
    | some l => t.1.updNbr r x fun y => { y with links := y.links.insert l }
    | none => t.1

/-- May the Cistern send on the links now (R442, R538)? -/
def Dev.ckSends (d : Dev) (node : Nat) : Bool :=
  !d.frozen ckBlk && !d.frozen rtr && !d.asleep && d.reachable node

/-! ### Tasks (R426) -/

/-- Does a Cistern task name a region? -/
def Task.names (t : Task) (r : Nat) : Bool := bitsOf t.w1 32 8 == 0xFF || bitsOf t.w1 32 8 == r

/-- Is the step committed in every region that the task names and whose mode is not OFF? -/
def Dev.stepDone (d : Dev) (t : Task) : Bool :=
  d.ck.regions.all fun g => g.off || !t.names g.id || (match g.step with
    | some s => decide (bitsOf t.w1 0 32 ≤ s)
    | none => false)

/-- COMMIT tasks that the commit of `step` in a region ends or completes; one whose STEP the region has passed over (its last committed step
was `prev`) is refused (R426). -/
def Dev.commitTasks (d : Dev) (r : Nat) (prev : Option Nat) (step : Nat) (unprot : Bool) : Dev :=
  let ts := d.hg.tasks.filter fun t => t.st == 2 && t.cls == 0x80 && t.op == 1 && t.names r
  ts.foldl (fun e t =>
    let want := bitsOf t.w1 0 32
    if unprot && want == step then e.refuse t.tag cUnprotected
    else if decide (want < step) && prev.all (fun p => decide (p < want)) then e.refuse t.tag cCommitStep
    else if e.stepDone t then e.served t.tag 0 else e) d

/-! ### The manifest's control words (memory code 0xA; which words hold a region's: DESIGN CHOICE, notes/assumptions/132.md) -/

/-- A writer region whose manifest holds a bad word: PHASE OFF, its epoch given up, COMMIT and TRICKLE tasks that name it refused. -/
def Dev.regionEcc (d : Dev) (r : Nat) : Dev :=
  let d := (d.eccUse 65 0 0x0A (2048 * r) 2048).eccClear 0x0A (2048 * r) 2048
  let d := d.updRegion r fun g => { g with
    off := true, commit := none, queued := 0, nbrs := g.nbrs.map fun y => { y with job := none, opened := none, offer := none } }
  (d.hg.tasks.filter fun t => t.st == 2 && t.cls == 0x80 && (t.op == 1 || t.op == 2) && t.names r).foldl (fun e t =>
    if bitsOf t.w1 32 8 = r then e.refuse t.tag cRegionOff else if e.stepDone t then e.served t.tag 0 else e) d

/-- The manifests of writer regions are read. -/
def Dev.touchRegions (d : Dev) (p : Nat → Bool) : Dev := d.eccTouch 0x0A 2048 (fun g => decide (g < 16) && p g) Dev.regionEcc

/-! ### Commit points and commits (R419 to R425, R427) -/

/-- A region's neighbours by index. -/
def Region.nbrIx (g : Region) : List Nat := List.range g.nbrs.length

/-- Neighbours that are LIVE with no epoch in flight and not open for the open epoch are offered it. -/
def Dev.offerOpen (d : Dev) (r : Nat) : Dev :=
  match d.region? r with
  | none => d
  | some g => g.nbrIx.foldl (fun e x => match e.nbr? r x with
      | some n =>
        if n.st = 1 ∧ n.job.isNone ∧ n.offer.isNone ∧ n.opened ≠ some g.openEpoch ∧ g.commit.isNone then
          e.offer r x 2 g.openEpoch
        else e
      | none => e) d

/-- Epoch e is committed: CK_EPOCH, COMMITTED, counters, tasks, the next epoch opens (R423); `unprot`: no live neighbour
acknowledged it (R427). -/
def Dev.commitDone (d : Dev) (r : Nat) (c : CkPoint) (unprot : Bool) : Dev :=
  let prev := (d.region? r).bind Region.step
  let d := d.updRegion r fun g => { g with commit := none, epoch := c.epoch, step := some c.step, unprot := unprot }
  let d := (d.bump .CK_COMMIT_COUNT).wr .CK_LAST_COMMIT_US (ticksToUs (d.gh.timer - c.time))
  let d := (d.raise ckBlk 0 0).trace
    { src := 8, type := 0x0F, key := some r, body := leBytes 1 r ++ leBytes 8 c.epoch }
  let d := if unprot then (d.bump .UNPROTECTED_COUNT).raise ckBlk 0 2 else d
  (d.commitTasks r prev c.step unprot).offerOpen r

/-- The residue for a neighbour: its wet granules that are dirty for the epoch's buffer, ascending. -/
def Dev.residue (d : Dev) (g : Region) (x epoch : Nat) : List Nat :=
  (List.range (16 * g.blocks)).filter fun n => d.regionWet g n && d.dirty g n (2 * x + epoch % 2)

/-- The commit point of the region's open epoch (R421). -/
def Dev.commitPoint (d : Dev) (r : Nat) : Dev :=
  let d := d.touchRegions fun x => x == r
  match d.region? r with
  | none => d
  | some g =>
    if g.off then d else
    let d := (d.touchScales fun _ => g.train).touchVerdict g.nextStep
    let e := g.epoch + 1
    let wet := d.wetMap g
    let train := if g.train then d.trainBlock else []
    let rcd := d.commitRecord g e g.nextStep wet train
    let join := g.nbrIx.filter fun x => match g.nbrs[x]? with
      | some n => (n.st == 1 || n.st == 2) && n.job.isNone
      | none => false
    let live := join.filter fun x => (g.nbrs[x]?.map Nbr.st) == some 1
    let c : CkPoint := { epoch := e, step := g.nextStep, time := d.gh.timer, wait := live, acked := false }
    let d := { d with ck := { d.ck with open_ := false } }
    let d := d.updRegion r fun y => { y with
      commit := some c
      point := true
      nextStep := (g.nextStep + 1) % 2 ^ 32
      record := if live.isEmpty then rcd else y.record }
    let d := join.foldl (fun f x =>
      f.updNbr r x fun y => { y with job := some {
        epoch := e, residue := d.residue g x e, wet := wet, train := train, record := rcd, stage := 0 } }) d
    let bytes := join.foldl (fun a x => a + 4096 * (d.residue g x e).length) 0
    let d := d.wr64 .RESIDUE_BYTES_LO bytes
    if live.isEmpty then d.commitDone r c true else d

/-- A queued commit point is taken when the commit before it completes (R424). -/
def Dev.takeQueued (d : Dev) (r : Nat) : Nat → Dev
  | 0 => d
  | f + 1 => match d.region? r with
    | some g =>
      if 0 < g.queued ∧ g.commit.isNone ∧ !g.off ∧ !d.restoring r ∧ !d.frozen ckBlk then
        ((d.updRegion r fun y => { y with queued := y.queued - 1 }).commitPoint r).takeQueued r f
      else d
    | none => d

/-- A STEP_END mark of a partner enters its FIFO (R421, R424, R442). -/
def Dev.ckStepEnd (d : Dev) (partner : Nat) : Dev :=
  (d.ck.regions.filter fun g => g.partner == partner && !g.off).foldl (fun e g =>
    if g.commit.isSome || e.restoring g.id || e.frozen ckBlk || 0 < g.queued then
      (e.updRegion g.id fun y => { y with queued := y.queued + 1 }).bump .COMMIT_QUEUED_COUNT
    else e.commitPoint g.id) d

/-- The commit in progress is looked at again after an acknowledgement or a loss. -/
def Dev.commitCheck (d : Dev) (r : Nat) : Dev :=
  match (d.region? r).bind Region.commit with
  | some c => if c.wait.isEmpty then
      let d := d.commitDone r c (!c.acked)
      d.takeQueued r (match d.region? r with
        | some g => g.queued
        | none => 0)
    else d
  | none => d

/-- The flushes a neighbour still owes for an epoch. -/
def Dev.flushesLeft (d : Dev) (r x e : Nat) : Bool :=
  d.lr.tags.any fun t => t.owner == .ckFlush r x e && !t.dead

/-- A flush on a given link, after everything sent on it (R520). -/
def Dev.flushOn (d : Dev) (l node : Nat) (o : Owner) : Dev :=
  let tag := d.freeTag node
  let m := readReq node d.lr.node tag 1 0 0 0 0 2 false
  (d.linkQueue l 19 m).addTag tag node l 0 o m

/-- One neighbour's epoch moves on: the wet map and the training block after the residue, then the flushes, then CKPT_COMMIT
(R423, R520). -/
def Dev.jobStep (d : Dev) (r x : Nat) : Dev :=
  match d.nbr? r x with
  | none => d
  | some n => match n.job with
    | none => d
    | some j =>
      if !d.ckSends n.node || n.opened != some j.epoch then d
      else if j.stage = 0 ∧ j.residue.isEmpty then
        let d := d.ckptData r x wetBase j.wet
        let d := if j.train.isEmpty then d else d.ckptData r x trainBase j.train
        let links := match d.nbr? r x with
          | some m => m.links
          | none => []
        let d := links.foldl (fun e l => e.flushOn l n.node (.ckFlush r x j.epoch)) d
        d.updNbr r x fun y => { y with job := some { j with stage := 1 } }
      else if j.stage = 1 ∧ !d.flushesLeft r x j.epoch then
        let d := d.lrMsg 9 n.node (r * 16 + 1) 0 j.record
        d.updNbr r x fun y => { y with job := some { j with stage := 2 } }
      else d

/-- Every epoch in flight of a region moves on. -/
def Dev.ckProgress (d : Dev) (r : Nat) : Dev :=
  let d := d.touchRegions fun g => g == r
  match d.region? r with
  | some g => g.nbrIx.foldl (fun e x => e.jobStep r x) d
  | none => d

/-- All regions move on: after a thaw, a link's return, an exit from sleep. -/
def Dev.ckAll (d : Dev) : Dev :=
  (d.ck.regions.map Region.id).foldl (fun e r => (e.takeQueued r 64).ckProgress r) d

/-- A neighbour is lost (R429, R431, R432): its epoch in flight is given up, and the commit goes on without it. -/
def Dev.nbrLost (d : Dev) (r x : Nat) : Dev :=
  let now := d.gh.timer
  let d := d.updNbr r x fun y => { y with
    st := 3, opened := none, offer := none, offerAt := now, links := [], job := none, asked := false, fence := false }
  let d := d.killTags fun o => match o with
    | .ckFlush r' x' _ => r' == r && x' == x
    | _ => false
  let d := d.updRegion r fun g => { g with commit := g.commit.map fun c => { c with wait := c.wait.erase x } }
  d.commitCheck r

/-! ### Reads of granules and their sends (R418 to R420, R422) -/

/-- What a region sends next to a neighbour: the class and the granules of one block. -/
def Dev.ckNext (d : Dev) (g : Region) (x : Nat) : Option (Nat × List Nat) :=
  match g.nbrs[x]? with
  | none => none
  | some n =>
    if g.off || g.halted || d.restoring g.id || !d.ckSends n.node then none
    else
      let c := match n.job with
        | some j => if n.opened = some j.epoch ∧ j.stage = 0 then some (2, j.residue) else none
        | none =>
          if g.ckpt = 2 ∧ !g.still ∧ (n.st = 1 ∨ n.st = 2) ∧ g.commit.isNone then
            match n.opened with
            | some e => if e = g.openEpoch then some (4, d.residue g x e) else none
            | none => none
          else none
      match c with
      | some (k, n0 :: t) => some (k, (n0 :: t).filter fun m => m / 16 == n0 / 16)
      | _ => none

/-- The place that a region's granule stands at. -/
def Dev.granulePlace (d : Dev) (g : Region) (n : Nat) : Option Place :=
  (d.memberAt g.objs (n / 16)).map fun p => p.1.place

/-- A send stream meets a missing key or lane: HALT_RESUME halts the region, ABORT gives the neighbour up (Table 12-2). -/
def Dev.ckFault (d : Dev) (r x : Nat) : Dev :=
  match d.region? r with
  | none => d
  | some g =>
    if g.abort then d.nbrLost r x
    else (d.updRegion r fun y => { y with halted := true }).raise ckBlk 0 4

/-- One granule: its read starts, which clears its bit; it is sent. -/
def Dev.ckSendOne (d : Dev) (r x svc n : Nat) : Dev :=
  match d.region? r, d.nbr? r x with
  | some g, some y =>
    if g.halted ∨ y.opened.isNone then d
    else match d.granuleOut g n with
      | .error _ => d.ckFault r x
      | .ok data =>
        let e := y.opened.getD 0
        let d := d.setDirty g n (2 * x + e % 2) false
        let d := match d.granulePlace g n with
          | some p => d.hbmBytes p 4096 false
          | none => d
        let d := d.ckptData r x (n * 4096) data
        let d := if svc = 4 then d.add64 .TRICKLE_BYTES_LO 4096 else d
        d.updNbr r x fun y => { y with job := y.job.map fun j => { j with residue := j.residue.erase n } }
  | _, _ => d

/-- A granted block of a region is read and sent. -/
def Dev.ckGrant (d : Dev) (r x : Nat) : Dev :=
  match (d.region? r).bind fun g => d.ckNext g x with
  | none => d
  | some (svc, ns) => (ns.foldl (fun e n => e.ckSendOne r x svc n) d).ckProgress r

/-! ### Writes to regions -/

/-- A granule of an object has been written: its region's dirty bits are set (R418), and the region's neighbours receive their
first offer with its first write. -/
def Dev.ckWritten (d : Dev) (o : Obj) (n : Nat) : Dev :=
  match d.region? o.region with
  | none => d
  | some g =>
    if g.off then d
    else
      let d := d.dirtyAll g (d.memberBase o.handle g.objs * 16 + n)
      g.nbrIx.foldl (fun e x => match e.nbr? g.id x with
        | some y => if y.st = 0 ∧ y.offer.isNone ∧ !e.restoring g.id then e.offer g.id x 1 g.openEpoch else e
        | none => e) d

/-- Is a partner write to the granule held until its residue read starts (R422)? -/
def Dev.ckHolds (d : Dev) (o : Obj) (n : Nat) : Bool :=
  match d.region? o.region with
  | none => false
  | some g => g.nbrs.any fun y => match y.job with
    | some j => j.residue.contains (d.memberBase o.handle g.objs * 16 + n)
    | none => false

/-! ### Leases (R429) -/

/-- One LEASE to a node for every region whose leases with it run. -/
def Dev.leaseSend (d : Dev) (node : Nat) : Dev :=
  let now := d.gh.timer
  let mask := d.ck.regions.foldl (fun a g =>
    if g.nbrs.any fun y => y.node == node && y.leased then a ||| 2 ^ g.id else a) 0
  if mask = 0 then d
  else
    let d := d.lrMsg 10 node 1 0 (leBytes 2 mask ++ leBytes 2 (d.get .CK_GEN_GEN) ++ leBytes 2 d.plan.leaseMs ++ leBytes 2 0)
    { d with ck := d.ck.mapNbrs fun y => if y.node == node && y.leased then { y with sent := now, asked := true } else y }

/-- The nodes that leases run with. -/
def Dev.leaseNodes (d : Dev) : List Nat :=
  ((d.ck.regions.flatMap Region.nbrs).filter Nbr.leased).map Nbr.node |>.eraseDups

/-- Step 2 of HOLD entry: each lease once more. -/
def Dev.leaseAll (d : Dev) : Dev := d.leaseNodes.foldl (fun e n => e.leaseSend n) d

/-- Leases start afresh on leaving DOZE or HOLD, on both sides. -/
def Dev.leaseRestart (d : Dev) : Dev :=
  let now := d.gh.timer
  let c := d.ck.mapNbrs fun y => { y with ans := now, sent := now }
  { d with ck := { c with slots := d.ck.slots.map fun s => { s with lease := s.lease.map fun l => (now, l.2) } } }

/-! ### The restore (R435 to R439) -/

def Dev.updPart (d : Dev) (r : Nat) (f : RPart → RPart) : Dev :=
  let g (p : RPart) : RPart := if p.region == r then f p else p
  { d with ck := { d.ck with restore := d.ck.restore.map fun t => { t with parts := t.parts.map g } } }

def Dev.part? (d : Dev) (r : Nat) : Option RPart := d.ck.restore.bind fun t => t.parts.find? fun p => p.region == r

/-- The restore is over. -/
def Dev.restoreClear (d : Dev) : Dev :=
  let calm (g : Region) : Region := if d.restoring g.id then { g with halted := false } else g
  let d := { d with ck := { d.ck with restore := none, regions := d.ck.regions.map calm } }
  let d := d.killTags fun o => match o with
    | .restore _ _ _ => true
    | _ => false
  (d.set .CK_STATUS_RESTORING 0).set .RESTORE_STATUS_BUSY 0

/-- The restore fails: before data, its cause only (R436); after data has begun, every member is DRY again (R439). -/
def Dev.restoreFail (d : Dev) (cause : Nat) : Dev :=
  match d.ck.restore with
  | none => d
  | some t =>
    let d := if t.stage = 0 then d
      else
        let hs := t.parts.flatMap fun p => match d.region? p.region with
          | some g => g.objs
          | none => []
        let dry (e : Dev) (h : Nat) : Dev := match e.objAt (hIndex h) with
          | some o => (e.clearWet o).setState h oDRY
          | none => e
        (hs.foldl dry d).raise ckBlk 2 1
    ((d.set .RESTORE_STATUS_LAST_CAUSE cause).restoreClear).refuse t.tag cause

/-- Read bytes of an image: 4 KiB reads of the checkpoint space. -/
def Dev.imageRead (d : Dev) (r kind base n : Nat) : Dev :=
  match d.ck.restore with
  | none => d
  | some t => (List.range ((n + 4095) / 4096)).foldl (fun e i =>
      let off := base + 4096 * i
      let len := min 4096 (n - 4096 * i)
      let tag := e.freeTag t.node
      let m := readReq t.node e.lr.node tag 1 r (t.epoch % 2) off ((len + 15) / 16) 1 t.force
      let s := e.lrSend t.node [m]
      (s.1.addTag tag t.node (s.2.getD 24) ((len + 15) / 16) (.restore r kind off) m).updPart r fun p =>
        { p with left := p.left + 1 }) d

/-- A restore asks for the granules of one block, at the grant of their destination. -/
def Dev.ckRestoreNext (d : Dev) (g : Region) : List Nat :=
  match d.ck.restore, d.part? g.id with
  | some t, some p =>
    if t.stage = 1 ∧ !g.halted ∧ p.left < 64 ∧ d.ckSends t.node then
      match p.todo with
      | n :: l => (n :: l).filter fun m => m / 16 == n / 16
      | [] => []
    else []
  | _, _ => []

def Dev.ckRestoreGrant (d : Dev) (r : Nat) : Dev :=
  match d.region? r with
  | none => d
  | some g => (d.ckRestoreNext g).foldl (fun e n =>
      (e.imageRead r 0 (n * 4096) 4096).updPart r fun p => { p with todo := p.todo.erase n }) d

end Sys2Proof.Machine
end

