-- ==== Sys2Proof/Machine/PoolOps.lean ====
section
/-! DEFINITION. The Pool Manager's shared operations: quotas, allocation with its waits and refusals, victims and their
drains, arbitration (chapter 11). -/
namespace Sys2Proof.Machine

/-- Wait causes (Table 11-4) and refusal causes (Table 11-3). -/
def cTierFail : Nat := 0x0404
def cCodecFull : Nat := 0x0405
def cBehind : Nat := 0x0406
def cPoolFull : Nat := 0x0408
def cClassWait : Nat := 0x0409
def cNotIssued : Nat := 0x040A
def cQuota : Nat := 0x040B
def cNoSpace : Nat := 0x040C
def cEngineAbsent : Nat := 0x0220
def cDescParam : Nat := 0x0221
def cTaskAborted : Nat := 0x0222
def cStackLost : Nat := 0x0D02

/-- The arbitration point of a place: 0 T0, 1 to 4 the T1 stacks, 5 to 8 the T2 ports, 9 T3, 10 to 13 the node grants. -/
def Dev.point (d : Dev) (p : Place) : Nat :=
  if p.tier = 0 then 0 else if p.tier = 1 then 1 + p.unit else if p.tier = 2 then 5 + p.unit
  else if p.tier = 3 then 9 else 10 + (d.nodeReg p.node).getD 0

/-- The cause of a wait at a tier's point while no grant goes to another task. -/
def Dev.lateCause (d : Dev) (p : Place) : Nat :=
  if p.tier = 2 then 0x0401 else if p.tier = 3 then 0x0402
  else if p.tier = 4 then
    (match d.nodeReg p.node with
      | some _ => if d.nodeDegraded p.node then 0x0407 else 0x0403
      | none => 0x0407)
  else cClassWait

/-! ### Geometry (R312) -/

/-- Declared rank of a codec code: K16, K24, K32, K40. -/
def rankOf (codec : Nat) : Nat := 8 + 8 * codec

/-- Columns of a block by format class: 16-bit, 8-bit, FP32. -/
def colsOf (format : Nat) : Nat := if format = 0 then 256 else if format = 1 then 512 else 128

/-- Slot size of a rank: 64 + 2·k·(128 + n), rounded up to 256. -/
def slotBytes (k n : Nat) : Nat := (64 + 2 * k * (128 + n) + 255) / 256 * 256

def Obj.slotSize (o : Obj) : Nat := slotBytes (rankOf o.codec) (colsOf o.format)

/-- Does a stream of the object pass Sluice lanes (R190)? -/
def Obj.usesLanes (o : Obj) : Bool := o.codec != 0 || o.enc

/-- Bytes of the object in slots with its escape area, or raw. -/
def Obj.packedBytes (o : Obj) : Nat :=
  if o.codec = 0 then o.blocks * 65536 else o.blocks * o.slotSize + o.escBlocks * 65536

/-- Bytes of one block at the stream's source: a slot of a packed object, raw otherwise. -/
def Stream.srcBlk (s : Stream) (o : Obj) : Nat := if s.op = 2 ∧ o.packed ∧ o.codec ≠ 0 then o.slotSize else 65536

/-- Does the stream pass lanes? -/
def Stream.laned (s : Stream) : Bool := !s.lanes.isEmpty

/-! ### Victims and drains (R240, R252, R253) -/

/-- Is the object an eviction victim of T1 (R252)? -/
def Dev.victim (d : Dev) (o : Obj) : Bool :=
  o.fate != 0 && !o.stateWin && (o.state == oSEALED || o.state == oREADY || o.state == oLIFTING || o.state == oRECOMPUTING)
    && (o.tier == 1 || (d.flm.streams.any fun s => s.handle == o.handle && (match s.dst with
        | some p => p.tier == 1
        | none => false)))
    && decide (usToTicks (d.rd .AGE_APPLIED) ≤ d.gh.timer - o.touch)

/-- Insert a victim by age, the lower index on a tie. -/
def insVictim (o : Obj) : List Obj → List Obj
  | [] => [o]
  | p :: t =>
    if o.touch < p.touch ∨ (o.touch = p.touch ∧ hIndex o.handle < hIndex p.handle) then o :: p :: t else p :: insVictim o t

/-- The victims of T1, oldest first. -/
def Dev.victims (d : Dev) : List Obj :=
  (d.objs.map (·.2)).foldl (fun l o => if d.victim o then insVictim o l else l) []

/-- Where a victim drains to (R253). -/
def Dev.drainDest (d : Dev) (o : Obj) : Option Place :=
  let n := o.blocks * 65536
  if 2 ≤ o.fate ∧ o.fate ≤ 4 then d.findPlace o.fate o.node n
  else match d.findPlace 2 0 n with
    | some p => some p
    | none => d.findPlace 3 0 n

/-- An eviction is deferred behind a promote (R240). -/
def Dev.deferEviction (d : Dev) (h : Nat) : Dev :=
  ((d.updObj h fun o => { o with evictAfter := true }).bump .DEFER_COUNT).raise 4 0 4

/-- Would the allocation take the partner above its quota? -/
def Dev.overQuota (d : Dev) (partner tier bytes : Nat) : Bool :=
  tier != 0 && d.rd (.QUOTA partner tier) != 0xFFFFFFFF &&
    decide (d.rd (.QUOTA partner tier) < d.rd (.USAGE partner tier) + units bytes)

/-- An allocation refused for its quota, and one that proceeds above it (R257). -/
def Dev.quotaRefused (d : Dev) : Dev := (d.bump .QUOTA_REFUSE_COUNT).raise 5 0 4
def Dev.quotaOver (d : Dev) (partner tier bytes : Nat) : Dev := if d.overQuota partner tier bytes then d.bump .QUOTA_OVER_COUNT else d

/-- Start the raw drain of an object to a place; the victims of an EVICT task are charged to no partner (R251). -/
def Dev.startDrain (d : Dev) (o : Obj) (p : Place) (svc : Nat) (tag : Option Nat) (capacity : Bool) : Dev :=
  let d := if tag.isSome then d.takeFree p o.partner else (d.quotaOver o.partner p.tier p.size).take p o.partner
  let d := (d.setState o.handle oDRAINING).updObj o.handle fun x => { x with evictAfter := false }
  let d := if capacity then d.bump .EVICT_COUNT else d
  { d with pool := { d.pool with drains := d.pool.drains ++
      [{ handle := o.handle, svc := svc, dst := p, gSrc := 0, gDst := 0, moved := 0, tag := tag, capacity := capacity,
         since := d.gh.timer, prior := o.state, counted := false, refWait := false, lost := false, blocked := none, keep := false }] } }

/-- One victim: deferred, skipped for want of a destination or of quota (R257), or drained; answers the bytes it will free and whether
it was deferred. -/
def Dev.evictOne (d : Dev) (o : Obj) (svc : Nat) (tag : Option Nat) : Dev × Nat × Bool :=
  if o.liftLock ∨ d.pendingPromote o.handle then (d.deferEviction o.handle, 0, true)
  else match d.drainDest o with
    | none => (d.bump .NO_DEST_COUNT, 0, false)
    | some p =>
      if 3 ≤ svc ∧ tag.isNone ∧ d.overQuota o.partner p.tier p.size then (d.quotaRefused, 0, false)
      else (d.startDrain o p svc tag true, o.blocks * 65536, false)

/-- Evict oldest first until `need` bytes are on their way out; answers the bytes and whether some victim was deferred. -/
def Dev.evictList (d : Dev) (svc : Nat) (tag : Option Nat) (need : Nat) : List Obj → Dev × Nat × Bool
  | [] => (d, 0, false)
  | o :: t =>
    if need = 0 then (d, 0, false)
    else
      let r := d.evictOne o svc tag
      let q := r.1.evictList svc tag (need - r.2.1) t
      (q.1, r.2.1 + q.2.1, r.2.2 || q.2.2)

/-- An on-demand eviction of `need` bytes of T1 (R252); none while the Pool Manager or the Allotment Table is frozen (R247, R268). -/
def Dev.evict (d : Dev) (svc : Nat) (tag : Option Nat) (need : Nat) : Dev × Nat × Bool :=
  if d.frozen 5 || d.frozen 4 then (d, 0, false) else d.evictList svc tag need d.victims

/-- Bytes of T1 that drains in progress will free. -/
def Dev.drainingBytes (d : Dev) : Nat :=
  d.pool.drains.foldl (fun a x => match d.objAt (hIndex x.handle) with
    | some o => if o.tier = 1 then a + o.blocks * 65536 else a
    | none => a) 0

/-- Background eviction (R254): while USED_T1 less what drains will free lies above the mark, evict in C4. It is looked at when an
allocation or a home is taken, a drain fails, T1 shrinks, a freeze ends or the age loop runs (DESIGN CHOICE, notes/assumptions/136.md). -/
def Dev.background (d : Dev) : Dev :=
  let mark := d.rd64 (.CAPACITY_T_LO 1) * d.get (.SOFT_WM_T_PERCENT 1) / 100
  let left := d.rd64 (.USED_T_LO 1) - d.drainingBytes
  if d.aboveWm 1 ∧ mark < left then (d.evict 4 none (left - mark)).1 else d

/-! ### Allocation (R248 to R250, R256, R257, R259) -/

/-- How an allocation ends: a place, a wait, a refusal. -/
inductive AllocRes where
  | got (p : Place)
  | wait
  | refused (cause : Nat)
deriving DecidableEq, Repr

/-- The device once the drains in progress have left T1. -/
def Dev.afterDrains (d : Dev) : Dev :=
  d.pool.drains.foldl (fun e x => match (e.objAt (hIndex x.handle)).bind Obj.home with
    | some p => if p.tier = 1 ∧ e.pool.allocs.contains p then
        ({ e with pool := { e.pool with allocs := e.pool.allocs.erase p } }).wr64 (.USED_T_LO 1) (e.rd64 (.USED_T_LO 1) - p.size) else e
    | none => e) d

/-- Will an allocation fit once the drains in progress have ended? A tier whose path has failed has no room (R267). -/
def Dev.willFit (d : Dev) (tier node n : Nat) : Bool := (d.afterDrains.findPlace tier node n).isSome

/-- Evict from T1, oldest first, until an allocation will fit or no victim remains (section "Eviction"). -/
def Dev.evictFit (d : Dev) (svc n : Nat) : List Obj → Dev
  | [] => d
  | o :: t => if d.willFit 1 0 n then d else (d.evictOne o svc none).1.evictFit svc n t

/-- On-demand eviction for an allocation in T1. -/
def Dev.evictFor (d : Dev) (svc n : Nat) : Dev := if d.frozen 5 || d.frozen 4 then d else d.evictFit svc n d.victims

/-- Judge an allocation for a move in a service class: its place is taken, it waits, or it is refused. -/
def Dev.allocJudge (d : Dev) (svc partner tier node bytes : Nat) : Dev × AllocRes :=
  if 3 ≤ svc ∧ d.overQuota partner tier bytes then (d.quotaRefused, .refused cQuota)
  else match d.findPlace tier node bytes with
    | some p => (((d.quotaOver partner tier bytes).take p partner).background, .got p)
    | none =>
      let d := if tier = 1 then d.evictFor svc bytes else d
      if 3 ≤ svc ∧ !d.willFit tier node bytes then (d.bump .SPACE_REFUSE_COUNT, .refused cNoSpace) else (d, .wait)

/-- An allocation that has to wait counts one full wait (R255, R259). -/
def Dev.allocate (d : Dev) (svc partner tier node bytes : Nat) : Dev × AllocRes :=
  let r := d.allocJudge svc partner tier node bytes
  if r.2 = .wait then
    (({ r.1 with pool := { r.1.pool with fullWaits := r.1.pool.fullWaits + 1 } }).raise 5 0 1, .wait)
  else r

/-! ### Arbitration (R258) -/

/-- A ready request at a point: whose it is (a stream, a drain, a Cistern region with its neighbour, 2 for a restore, or a chain), its
class, deadline, issue time and instance. -/
structure Req where
  stream : Option (Nat × Nat × Nat)
  drain : Option Nat
  cist : Option (Nat × Nat)
  chain : Option Nat
  svc : Nat
  deadline : Nat
  issued : Nat
  inst : Nat
  tag : Option Nat
deriving DecidableEq, Repr

/-- The key of a stream. -/
def Stream.key (s : Stream) : Nat × Nat × Nat := (s.flume, s.ctx, s.slot)

/-- Does the stream have data to move? A page wait keeps only the transfers that wait for their page (R290, Edge 12-3). -/
def Stream.moving (s : Stream) : Bool := (s.st == 2 || s.st == 3) && s.entered

/-- May the stream still move the blocks it holds grants for: while it moves, and after an abort (R269)? -/
def Stream.finishing (s : Stream) : Bool := s.moving || (s.st == 6 && s.entered && s.cause == cTaskAborted)

/-- Source pieces of one block: 16 raw transfers, or those of a slot of `n` bytes. -/
def pieces (n : Nat) : Nat := (n + 4095) / 4096

/-- A stream asks its source's point for the next block when at most one granted block is unread, and its destination's
once the source has granted it (OBSERVE has no destination). -/
def Dev.streamReq (d : Dev) (pt dir : Nat) (s : Stream) : Bool :=
  s.moving && !d.frozen (6 + s.flume) &&
    (if dir = 1 then d.point s.src == pt && decide (s.gSrc < s.count) && decide (s.gSrc ≤ s.low + s.fin.length + 16)
     else match s.dst with
       | some p => d.point p == pt && decide (s.gDst < s.gSrc)
       | none => false)

def Dev.drainReq (d : Dev) (pt dir : Nat) (x : Drain) : Bool :=
  match d.objAt (hIndex x.handle) with
  | none => false
  | some o => if dir = 1 then d.point o.place == pt && decide (x.gSrc < o.blocks) && decide (x.gSrc ≤ x.moved)
    else d.point x.dst == pt && decide (x.gDst < x.gSrc) && !d.pathFailed x.dst.tier x.dst.unit

/-- The task behind a tag's issue time. -/
def Dev.issuedAt (d : Dev) (tag : Nat) : Nat := match d.task? tag with
  | some t => t.issued
  | none => 0

/-- The Cistern's requests: a region's next block at its source point, a restore's at its destination point; none during a HOLD entry, whose
step 2 only completes what is issued (O9). -/
def Dev.ckRequests (d : Dev) (pt dir : Nat) : List Req :=
  let req (r x svc : Nat) : Req :=
    { stream := none, drain := none, cist := some (r, x), chain := none, svc := svc, deadline := 2 ^ 64, issued := 0, inst := 254, tag := none }
  let at_ (g : Region) (n : Nat) : Bool := match d.granulePlace g n with
    | some p => d.point p == pt
    | none => false
  if d.pwr.entry ≠ 0 then []
  else if dir = 1 then
    d.ck.regions.flatMap fun g => g.nbrIx.flatMap fun x => match d.ckNext g x with
      | some (svc, n :: _) => if at_ g n then [req g.id x svc] else []
      | _ => []
  else
    d.ck.regions.flatMap fun g => match d.ckRestoreNext g with
      | n :: _ => if at_ g n then [req g.id 2 1] else []
      | [] => []

/-- Does a chain lack grants of a point in a direction for its open descriptor? -/
def Chain.asks (c : Chain) (pt dir : Nat) : Bool := c.st == 1 && c.need.any fun e => e.1 == 2 * pt + dir && decide (0 < e.2)

/-- A chain as a request of R258. -/
def Chain.req (c : Chain) : Req :=
  { stream := none, drain := none, cist := none, chain := some c.handle, svc := c.svc, deadline := c.deadline, issued := c.issued,
    inst := 0, tag := c.tag }

/-- A chain is granted one block at a point in a direction. -/
def Chain.granted (c : Chain) (pt dir : Nat) : Chain :=
  { c with lost := false,
           need := (c.need.map fun e => if e.1 = 2 * pt + dir then (e.1, e.2 - 1) else e).filter fun e => decide (0 < e.2) }

/-- Every ready request at a point in a direction. -/
def Dev.requests (d : Dev) (pt dir : Nat) : List Req :=
  ((d.flm.streams.filter fun s => d.streamReq pt dir s).map fun s =>
    { stream := some s.key, drain := none, cist := none, chain := none, svc := s.svc, issued := d.issuedAt s.tag, inst := s.flume, tag := some s.tag,
      deadline := if s.deadlineUs = 0 then 2 ^ 64 else d.issuedAt s.tag + usToTicks s.deadlineUs }) ++
  ((d.pool.drains.filter fun x => d.drainReq pt dir x).map fun x =>
    { stream := none, drain := some x.handle, cist := none, chain := none, svc := x.svc, issued := x.since, inst := 255, tag := x.tag,
      deadline := 2 ^ 64 }) ++
  ((d.chains.filter fun c => c.asks pt dir && !d.frozen 63).map Chain.req) ++ d.ckRequests pt dir

/-- Does request `a` go before `b` within a class: in C0 the earlier deadline, then issue time, then instance. -/
def Req.before (a b : Req) : Bool :=
  if a.svc = 0 ∧ a.deadline ≠ b.deadline then decide (a.deadline < b.deadline)
  else if a.issued ≠ b.issued then decide (a.issued < b.issued) else decide (a.inst < b.inst)

def firstReq (l : List Req) : Option Req :=
  l.foldl (fun best r => match best with
    | none => some r
    | some b => if r.before b then some r else some b) none

/-- WEIGHT_c of class c, 1 to 4. -/
def Dev.weight (d : Dev) (c : Nat) : Nat := bitsOf (d.rd .SVC_WEIGHT) (16 - 4 * c) 4

/-- Deficit round robin: from class `c` with `used` blocks taken in its turn, the class served next (`f` bounds the visits). -/
def drrNext (ready : Nat → Bool) (w : Nat → Nat) : Nat → Nat → Nat → Option (Nat × Nat)
  | 0, _, _ => none
  | f + 1, c, used =>
    if ready c && decide (used < w c) then some (c, used + 1)
    else drrNext ready w f (if c = 4 then 1 else c + 1) 0

/-- Pick the request granted next, with the round robin's new position. -/
def Dev.pick (d : Dev) (pt dir : Nat) : Option (Req × (Nat × Nat)) :=
  let rs := d.requests pt dir
  let pos := Sparse.get (fun _ => (1, 0)) d.pool.arb (2 * pt + dir)
  match firstReq (rs.filter fun r => r.svc == 0) with
  | some r => some (r, pos)
  | none =>
    match drrNext (fun c => rs.any fun r => r.svc == c) d.weight 6 pos.1 pos.2 with
    | none => none
    | some (c, u) => (firstReq (rs.filter fun r => r.svc == c)).map fun r => (r, (c, u))

/-- Rewrite one stream. -/
def Dev.updStream (d : Dev) (k : Nat × Nat × Nat) (f : Stream → Stream) : Dev :=
  { d with flm := { d.flm with streams := d.flm.streams.map fun s => if s.key == k then f s else s } }

def Dev.stream? (d : Dev) (k : Nat × Nat × Nat) : Option Stream := d.flm.streams.find? fun s => s.key == k

def Dev.dropStream (d : Dev) (k : Nat × Nat × Nat) : Dev :=
  { d with flm := { d.flm with streams := d.flm.streams.filter fun s => s.key != k } }

def Dev.updDrain (d : Dev) (h : Nat) (f : Drain → Drain) : Dev :=
  { d with pool := { d.pool with drains := d.pool.drains.map fun x => if x.handle == h then f x else x } }

def Dev.updChain (d : Dev) (h : Nat) (f : Chain → Chain) : Dev :=
  { d with chains := d.chains.map fun c => if c.handle == h then f c else c }

/-- Whether a grant has gone to another since the requester's own last. -/
def Dev.setLost (d : Dev) (r : Req) (v : Bool) : Dev :=
  match r.stream, r.drain, r.chain with
  | some k, _, _ => d.updStream k fun s => { s with lost := v }
  | none, some h, _ => d.updDrain h fun x => { x with lost := v }
  | none, none, some h => d.updChain h fun c => { c with lost := v }
  | none, none, none => d

/-- Those who were not granted wait under CLASS_WAIT from now on, and remember the winner (Table 11-2, Table 11-4). -/
def Dev.losers (d : Dev) (won : Req) (rs : List Req) : Dev :=
  rs.foldl (fun e r =>
    if r = won then e.setLost r false
    else
      let e := e.setLost r true
      match r.tag with
      | some t => e.updTask t fun x => { x with winner := won.svc }
      | none => e) d

/-- The LIFT that is chained to an object's drain goes on, from where the object stands (R242, R243, R273): it moves unless it has a start
time to wait for, a freeze or a power state holds it, or it is halted. `prior`: the state the object would go back to. -/
def Dev.liftOn (d : Dev) (s : Stream) (src : Place) (prior : Nat) : Dev :=
  let d := (d.setState s.handle oLIFTING).updObj s.handle fun y => { y with liftLock := true }
  let go := !d.frozen (6 + s.flume) && !d.asleep
  d.updStream s.key fun y => { y with chained := false, src := src, prior := prior,
                                      st := if y.st = 1 && y.startAt.isNone && go then 2 else y.st }

/-- The LIFT chained to an object's drain. -/
def Dev.chainedLift (d : Dev) (h : Nat) : Option Stream := d.flm.streams.find? fun s => s.chained && s.handle == h

/-- A drain has moved its last block: the object is PARKED, or LIFTING where a promote waits (R242); its source is left
behind; a served EVICT task is told. -/
def Dev.drainDone (d : Dev) (x : Drain) (o : Obj) : Dev :=
  let n := o.blocks * 65536
  let d := { d with pool := { d.pool with drains := d.pool.drains.filter fun y => y.handle != x.handle } }
  let d := (d.refDown x.handle).updObj x.handle fun y => { y with drainLock := y.drainLock && x.keep }
  if x.keep then d.moveHome x.handle x.dst else
  let d := if x.capacity ∧ o.tier = 1 then
      (d.add64 .EVICT_BYTES_T1_LO n).updObj x.handle fun y => { y with evictedAt := some d.gh.timer, relift := true }
    else d
  let d := d.moveHome x.handle x.dst
  match d.chainedLift x.handle with
  | some s => (d.bump .DRAIN_TO_LIFT_COUNT).liftOn s x.dst oPARKED
  | none => d.setState x.handle oPARKED

/-- An EVICT task whose drains have all ended, and the chains of their objects (R244), completes with the blocks they freed: DEFERRED where
it met a promote, with R244's cause where a drain failed. -/
def Dev.evictTaskCheck (d : Dev) (tag : Nat) (blocks : Nat) : Dev :=
  let old := Sparse.get (fun _ => 0) d.pool.evicting tag
  let d := { d with pool := { d.pool with evicting := Sparse.put (fun _ => 0) d.pool.evicting tag (old + blocks) } }
  if (d.pool.drains.any fun y => y.tag == some tag) || (d.auto.any fun a => a.tag == some tag) || (d.chains.any fun c => c.found == some tag)
  then d
  else
    let cause := match d.task? tag with
      | some t => t.cause
      | none => 0
    let d := if cause = 0 then d.served tag (old + blocks)
      else d.taskEnd tag (if cause = cPromote then 2 else 3) cause (old + blocks)
    { d with pool := { d.pool with evicting := Sparse.del d.pool.evicting tag } }

/-- A drain's block has landed; with the last the drain is done. -/
def Dev.drainLanded (d : Dev) (h : Nat) : Dev :=
  match d.pool.drains.find? (fun y => y.handle == h), d.objAt (hIndex h) with
  | some x, some o =>
    let d := d.updDrain h fun y => { y with moved := y.moved + 1 }
    if x.moved + 1 = o.blocks then
      let d := d.drainDone { x with moved := x.moved + 1 } o
      match x.tag with
      | some t => d.evictTaskCheck t o.blocks
      | none => d
    else d
  | _, _ => d

/-- A drain ends without its copy: it is no user any more, and its destination is released. -/
def Dev.drainDrop (d : Dev) (x : Drain) : Dev :=
  let d := { d with pool := { d.pool with drains := d.pool.drains.filter fun y => y.handle != x.handle } }
  let d := d.killTags fun w => w == .drain x.handle
  let d := if x.counted then d.refDown x.handle else d
  let partner := match d.objAt (hIndex x.handle) with
    | some o => o.partner
    | none => 0
  (d.updObj x.handle fun y => { y with drainLock := y.drainLock && x.keep }).release x.dst partner

/-- An object that is written, or that leaves its state, is no longer moved to T1 (O8). -/
def Dev.stopMove (d : Dev) (h : Nat) : Dev :=
  match d.pool.drains.find? fun x => x.keep && x.handle == h with
  | some x => d.drainDrop x
  | none => d

/-- The cause with which an EVICT task will end. -/
def Dev.evictCause (d : Dev) (tag : Option Nat) (cause : Nat) : Dev :=
  match tag with
  | some t => d.updTask t fun y => { y with cause := cause }
  | none => d

def Dev.evictCheck (d : Dev) (tag : Option Nat) : Dev :=
  match tag with
  | some t => d.evictTaskCheck t 0
  | none => d

/-- What R244 takes from the EVICT task behind a drain. -/
def Dev.drainFinder (d : Dev) (x : Drain) (o : Obj) : Finder :=
  let t := x.tag.bind d.task?
  { svc := x.svc, deadline := (t.map Task.deadline).getD (2 ^ 64), ring := (t.map Task.ring).getD 0, step := o.step, mb := o.mb, tag := x.tag }

/-- A drain fails on its tier path (R266): its object is handled under R244, whose cause its EVICT task takes. -/
def Dev.drainFail (d : Dev) (h : Nat) : Dev :=
  match d.pool.drains.find? (fun y => y.handle == h), d.objAt (hIndex h) with
  | some x, some o =>
    if x.keep then d.drainDrop x else
    let r := (d.drainDrop x).damage h (d.drainFinder x o)
    ((r.1.evictCause x.tag (if r.2 then cDamagedRecompute else cDamagedFail)).evictCheck x.tag).background
  | _, _ => d

/-- A drain that would move its first byte while a promote owns the object is handled as an eviction that met it (R243, R240): DEFERRED; the
promote goes on from the object's home, and the eviction takes its next victim. -/
def Dev.drainDefer (d : Dev) (x : Drain) (o : Obj) : Dev :=
  let d := (d.drainDrop x).deferEviction x.handle
  let d := match d.chainedLift x.handle with
    | some s => d.liftOn s o.place x.prior
    | none => d.setState x.handle x.prior
  let d := d.evictCause x.tag cPromote
  let d := if d.frozen 5 || d.frozen 4 then d
    else (d.evictList x.svc x.tag (o.blocks * 65536) (d.victims.filter fun v => v.handle != x.handle)).1
  d.evictCheck x.tag

/-- A drain granted at both its points moves one block; towards T4 it lands when its flushes are answered (R520). -/
def Dev.drainStep (d : Dev) (h : Nat) : Dev :=
  match d.pool.drains.find? (fun y => y.handle == h), d.objAt (hIndex h) with
  | some x, some o =>
    if x.keep ∧ o.state ≠ x.prior then d.drainDrop x
    else if x.moved < x.gDst ∧ x.moved < x.gSrc ∧ d.t3Out x.dst (x.moved * 65536) 65536 then d.t3Range
    else if x.moved < x.gDst ∧ x.moved < x.gSrc ∧ !x.counted ∧ o.liftLock ∧ !x.keep then d.drainDefer x o
    else if x.moved < x.gDst ∧ x.moved < x.gSrc ∧ !x.counted ∧ d.refFull h then
      (d.refWaits x.refWait).updDrain h fun y => { y with refWait := true }
    else if x.moved < x.gDst ∧ x.moved < x.gSrc then
      let d := if x.counted then d
        else ((d.refUp h).updObj h fun y => { y with drainLock := y.drainLock || !x.keep }).updDrain h fun y => { y with counted := true }
      let data := d.placeRd o.place (x.moved * 65536) 65536
      let d := d.hbmBytes o.place 65536 false
      if x.dst.tier = 4 then
        if (d.tagOf (.drain h)).isSome then d
        else (List.range 16).foldl (fun e j =>
          e.t4Write x.dst.node (x.dst.addr + x.moved * 65536 + 4096 * j) x.svc ((data.drop (4096 * j)).take 4096) (.drain h)) d
      else (d.placeWr x.dst (x.moved * 65536) data).drainLanded h
    else d
  | _, _ => d

/-- A drain of an aborted EVICT task ends, and its object goes back to the state it had. -/
def Dev.drainBack (d : Dev) (x : Drain) : Dev :=
  let d := d.drainDrop x
  match d.chainedLift x.handle, d.objAt (hIndex x.handle) with
  | some s, some o => d.liftOn s o.place x.prior
  | _, _ => d.setState x.handle x.prior

/-- The drains of an aborted EVICT task end: a block granted at both its points moves first, and no further grant comes (R269). -/
def Dev.drainAbort (d : Dev) (tag : Nat) : Dev :=
  (d.pool.drains.filter fun x => x.tag == some tag).foldl (fun e x =>
    let e := e.drainStep x.handle
    match e.pool.drains.find? (fun y => y.handle == x.handle) with
    | some y => e.drainBack y
    | none => e) d

/-- Drains that hold grants for a block and have waited to be users try again (R236). -/
def Dev.drainRetry (d : Dev) : Dev :=
  (d.pool.drains.filter fun x => !x.counted && decide (x.moved < x.gSrc) && decide (x.moved < x.gDst)).foldl (fun e x => e.drainStep x.handle) d

/-- A point grants one block (R258): the winner moves on, the others wait. None while the Pool Manager is frozen (R268). -/
def Dev.grant (d : Dev) (pt dir : Nat) : Dev :=
  if d.frozen 5 then d
  else match d.pick pt dir with
    | none => d
    | some (r, pos) =>
      let rs := d.requests pt dir
      let d := { d with pool := { d.pool with
        arb := if r.svc = 0 then d.pool.arb else Sparse.put (fun _ => (1, 0)) d.pool.arb (2 * pt + dir) pos } }
      let d := d.losers r rs
      match r.stream, r.drain with
      | some k, _ => d.updStream k fun s => if dir = 1 then { s with gSrc := s.gSrc + 1 } else { s with gDst := s.gDst + 1 }
      | none, some h =>
        (d.updDrain h fun x => if dir = 1 then { x with gSrc := x.gSrc + 1 } else { x with gDst := x.gDst + 1 }).drainStep h
      | none, none => match r.cist, r.chain with
        | some (g, x), _ => if x = 2 then d.ckRestoreGrant g else d.ckGrant g x
        | none, some h => d.updChain h fun c => c.granted pt dir
        | none, none => d

end Sys2Proof.Machine
end

