-- ==== Sys2Proof/Machine/State.lean ====
section
/-! DEFINITION. The machine's state: the device and the queue of waiting commands; its reset; how a step can stop. -/
namespace Sys2Proof.Machine

/-- The whole state: the device as the spec gives it (`Dev`), and the commands that wait, first in, first out. -/
structure State where
  dev : Dev
  pending : List Instr
deriving DecidableEq, Repr

/-- Why the machine stops with a fault. -/
inductive Fault where
  /-- Raised by every command but the resets and power-ups after the main rails left their range or a reference
  clock stopped: R649 and R650 leave the device undefined until the next device reset. Safe: nothing is claimed of
  the device in that time. -/
  | undefinedUntilReset
deriving DecidableEq, Repr

/-- Why the machine has no meaning for a command. -/
inductive Refusal where
  /-- Raised by the dispatch for a command that has no meaning yet. Safe: the machine stops. -/
  | notModelled (mnemonic : String)
deriving DecidableEq, Repr

/-- The machine after reset: the device at power-up, nothing waiting. -/
def State.reset : State := { dev := Dev.reset, pending := [] }

/-- A command's outcome. -/
abbrev Out := Host.Outcome State Fault Refusal

/-- Apply a command's effect to the device and leave the queue alone; while R649 or R650 leave the device
undefined there is no effect to give, and after a trip every clock outside the AO domain has stopped (R91). -/
def State.run (s : State) (f : Dev → Dev) : Out :=
  if s.dev.undef then .fault .undefinedUntilReset
  else if s.dev.pwr.tripped then .next s
  else .next { s with dev := f s.dev }

/-- The same for a command that the AO domain or the Management Block carries out, a trip or no (R91, R605). -/
def State.runOn (s : State) (f : Dev → Dev) : Out :=
  if s.dev.undef then .fault .undefinedUntilReset else .next { s with dev := f s.dev }

/-- Apply the effect of a command that the AO domain or a reset carries out whatever the main domains do. -/
def State.runAo (s : State) (f : Dev → Dev) : Out := .next { s with dev := f s.dev }

end Sys2Proof.Machine
end

