-- ==== Sys2Proof/Machine/Allot.lean ====
section
/-! DEFINITION. The Allotment Table's commands (chapter 10). -/
namespace Sys2Proof.Machine

/-- Checks that every Allotment task passes first (R189, R222, R550); then `g` runs on the accepted task and its object. -/
def Dev.allotTask (d : Dev) (tag op : Nat) (g : Dev → Task → Obj → Dev) : Dev :=
  match d.sentTask tag 0x30 op with
  | none => d
  | some t =>
    if d.frozen 4 || !d.enabled 4 then d
    else
      let w2bad := if op = 2 ∨ op = 4 then bitsOf t.w2 48 16 != 0 else t.w2 != 0
      if bitsOf t.w1 32 32 != 0 || w2bad || t.w3 != 0 then d.refuse tag cDescParam
      else if d.plan.homeLost then d.refuse tag cStackLost
      else match d.obj? t.object with
        | none => (d.staleHandle t.object).refuse tag cHandleStale
        | some o => g (d.acceptTask tag) t o

/-- The fields MB and STEP of an OPEN_GATE or REARM descriptor (Table 8-10). -/
def Task.mb (t : Task) : Nat := bitsOf t.w2 32 16
def Task.step (t : Task) : Nat := bitsOf t.w2 0 32

/-- SEAL: DRY, FILLING or WET to SEALED. -/
def execSeal (tag : Nat) (s : State) : Out := s.run fun d =>
  d.allotTask tag 1 fun d t o =>
    if o.state = oDRY ∨ o.state = oFILLING ∨ o.state = oWET then (d.setState o.handle oSEALED).served t.tag 0
    else d.refuse t.tag cObjectState

/-- OPEN_GATE: SEALED to READY, with STEP and MB in the gate word (R227). -/
def execOpenGate (tag : Nat) (s : State) : Out := s.run fun d =>
  d.allotTask tag 2 fun d t o =>
    if o.state = oSEALED then ((d.setGate o.handle t.mb t.step).setState o.handle oREADY).served t.tag 0
    else d.refuse t.tag cObjectState

/-- The object gives up its home (a discarded object has none: HOME_TIER 7). -/
def Dev.dropHome (d : Dev) (h : Nat) : Dev :=
  (d.updObj h fun o => { o with
    tier := 7
    loc := 0
    home := none
    packed := false
    leaving := match o.home with
      | some q => o.leaving ++ [q]
      | none => o.leaving }).releaseLeaving h

/-- DROP: SEALED to RECOMPUTE_PENDING (R235). -/
def execDrop (tag : Nat) (s : State) : Out := s.run fun d =>
  d.allotTask tag 3 fun d t o =>
    if o.state = oSEALED then
      (((d.clearWet o).setState o.handle oPENDING).dropHome o.handle).served t.tag 0
    else d.refuse t.tag cObjectState

/-! ### REARM (R235, R238, R241) -/

/-- New space in T1, above the quota if need be (R257), and the home moves there. -/
def Dev.rearmNew (d : Dev) (o : Obj) : Option Dev :=
  let n := o.blocks * 65536
  (d.findPlace 1 0 n).map fun q => (((d.quotaOver o.partner 1 n).take q o.partner).moveHome o.handle q).background

/-- A raw home for the object to be written in: the one it has in T0 or T1, or new space in T1. -/
def Dev.rearmHome (d : Dev) (o : Obj) : Option Dev :=
  match o.home with
  | some p =>
    if p.tier ≤ 1 ∧ !o.packed then some d else d.rearmNew o
  | none => d.rearmNew o

/-- The states in which a REARM is refused OBJECT_BUSY (R226). -/
def Obj.busy (o : Obj) : Bool :=
  o.state == oCOMPRESSING || o.state == oLIFTING || o.state == oDRAINING || o.state == oRECOMPUTING

/-- A REARM that waits takes effect once REFCOUNT is 0 and the object has its home; one whose object has begun to move ends OBJECT_BUSY. -/
def Dev.rearmApply (d : Dev) (h : Nat) : Dev :=
  match d.obj? h with
  | none => d
  | some o =>
    match o.rearm with
    | none => d
    | some (tag, mb, step) =>
      if o.busy then (d.updObj h fun x => { x with rearm := none }).refuse tag cObjectBusy
      else if o.refs ≠ 0 then d
      else match d.rearmHome o with
        | none => d
        | some d =>
          let d := d.clearWet o
          let d := d.updObj h fun x => { x with
            mb := mb, step := step, rearm := none, evictAfter := false, rebuilt := false, packed := false, escBlocks := o.escBlocks }
          (d.setState h oDRY).served tag 0

/-- REARM: back to DRY with a new gate word; BUSY states refuse it (R226). -/
def execRearm (tag : Nat) (s : State) : Out := s.run fun d =>
  d.allotTask tag 4 fun d t o =>
    if o.busy then d.refuse t.tag cObjectBusy
    else
      let d := d.updObj o.handle fun x => { x with rearm := some (t.tag, t.mb, t.step), evictAfter := false }
      let d := if d.rearmHome o |>.isNone then d.evictFor 0 (o.blocks * 65536) else d
      d.rearmApply o.handle

/-- REARM_APPLY (R238): a waiting REARM takes effect. -/
def execRearmApply (h : Nat) (s : State) : Out := s.run fun d => if d.frozen 4 then d else d.rearmApply h

/-- DEFERRED_EVICTION_START (R241). -/
def execDeferredEvictionStart (h : Nat) (s : State) : Out := s.run fun d =>
  match d.obj? h with
  | none => d
  | some o =>
    if o.evictAfter && o.state == oREADY && o.consumed && o.refs == 0 && !d.pendingPromote h && !d.frozen 4 && !d.frozen 5 then
      let d := d.updObj h fun x => { x with evictAfter := false }
      (d.evictOne o 4 none).1
    else d

/-- Is some task naming the handle still in the task table? -/
def Dev.named (d : Dev) (h : Nat) : Bool := d.hg.tasks.any fun t => t.object == h

/-- A retired object's space is released and it goes FREE; ALL_RELEASED with the last one. -/
def Dev.freeObj (d : Dev) (h : Nat) : Dev :=
  match d.objAt (hIndex h) with
  | none => d
  | some o =>
    let d := o.leaving.foldl (fun e p => e.release p o.partner) d
    let d := match o.home with
      | some p => d.release p o.partner
      | none => d
    let d := (d.updObj h fun x => { x with home := none, leaving := [] }).setState h oFREE
    if d.stateCount oRETIRED = 0 then d.raise 4 0 5 else d

/-- The last row of Table 10-3: a retired object that nothing uses goes FREE. -/
def Dev.retiredRelease (d : Dev) (h : Nat) : Dev :=
  match d.objAt (hIndex h) with
  | none => d
  | some o =>
    if o.handle == h && o.state == oRETIRED && o.refs == 0 && !o.liftLock && !o.drainLock && !d.named h then d.freeObj h
    else d

/-- RETIRED_RELEASE (R246). -/
def execRetiredRelease (h : Nat) (s : State) : Out := s.run fun d => d.retiredRelease h

end Sys2Proof.Machine
end

