-- ==== Sys2Proof/Machine/FlumeOps.lean ====
section
/-! DEFINITION. Streams: their checks, transfers, faults, halts and ends, and the burst results of turnout programs
(chapters 12 and 13). -/
namespace Sys2Proof.Machine

/-! ### What a stream is asked to do -/

/-- A stream's settings: from a descriptor (Table 8-8) or from a burst (section "Bursts"). -/
structure Spec where
  flume : Nat
  ctx : Nat
  slot : Nat
  tag : Nat
  op : Nat
  obj : Nat
  first : Nat
  count : Nat
  lanes : Nat
  obs : Bool
  gate : Bool
  abort : Bool
  dest : Nat
  node : Nat
  mb : Nat
  step : Nat
  svc : Nat
  deadlineUs : Nat
  tensor : Nat
  burst : Bool

/-- The PRESENT lanes of a mask, ascending (section "Lanes and observe"). -/
def Dev.lanesOf (d : Dev) (mask : Nat) : List Nat :=
  (List.range 8).filter fun n => bitsOf mask n 1 == 1 && d.present (38 + n)

/-- The blocks a stream covers: to the end of the object when the count is 0. -/
def Spec.blocks (sp : Spec) (o : Obj) : Nat := if sp.count = 0 then o.blocks - sp.first else sp.count

/-- Does the state permit the operation (Table 12-1)? -/
def stateAllows (op : Nat) (lanes : Bool) (st : Nat) : Bool :=
  if op = 1 then (st == oSEALED || (!lanes && st == oREADY))
  else if op = 2 then (st == oPARKED || st == oDRAINING)
  else if op = 3 then st == oSEALED
  else st == oSEALED || st == oREADY

/-- The cause that refuses a stream before it touches its object (R189, R190, R222, R272, R273, R278, R550), if any. -/
def Dev.checkSpec (d : Dev) (sp : Spec) : Option Nat :=
  if d.plan.homeLost then some cStackLost
  else match d.obj? sp.obj with
    | none => some cHandleStale
    | some o =>
      let lanes := o.usesLanes
      if o.blocks ≤ sp.first ∨ o.blocks < sp.first + sp.blocks o then some cDescParam
      else if sp.op = 1 ∧ (sp.dest ≠ o.fate ∨ (sp.dest = 4 ∧ sp.node ≠ o.node)) then some cDescParam
      else if sp.op = 3 ∧ o.fate ≠ 1 then some cDescParam
      else if lanes = (sp.lanes == 0) then some cDescParam
      else if lanes ∧ (d.lanesOf sp.lanes).isEmpty then some cEngineAbsent
      else if stateAllows sp.op o.usesLanes o.state then none else some cObjectState

/-! ### Bursts' ends -/

def Dev.turn? (d : Dev) (f c : Nat) : Option Turn := d.flm.turns.find? fun t => t.flume == f && t.ctx == c

def Dev.updTurn (d : Dev) (f c : Nat) (g : Turn → Turn) : Dev :=
  { d with flm := { d.flm with turns := d.flm.turns.map fun t => if t.flume == f && t.ctx == c then g t else t } }

/-- A burst ends: its slot's status, and what the task's record gathers (R309). -/
def Dev.burstEnd (d : Dev) (f c slot outcome cause moved : Nat) : Dev :=
  let bad := decide (2 ≤ outcome)
  let d := d.updTurn f c fun t => { t with
    status := t.status.set slot (cause * 65536 + outcome * 4096 + slot)
    failed := t.failed || bad
    late := t.late || outcome == 1
    moved := t.moved + moved }
  if bad then (d.bump .BURST_FAIL_COUNT f).raise (6 + f) 1 2 else d

/-- A stream's end reaches its task's record, or its burst slot. -/
def Dev.streamResult (d : Dev) (s : Stream) (outcome cause moved : Nat) : Dev :=
  match d.turn? s.flume s.ctx with
  | some t =>
    if t.tag = s.tag then
      let late := outcome == 0 && s.deadlineUs != 0 && decide (d.issuedAt s.tag + usToTicks s.deadlineUs < d.gh.timer)
      d.burstEnd s.flume s.ctx s.slot (if late then 1 else outcome) cause moved
    else d.taskEnd s.tag outcome cause moved
  | none => d.taskEnd s.tag outcome cause moved

/-! ### Transfers -/

/-- The task's block index of a relative block. -/
def Stream.blk (s : Stream) (rel : Nat) : Nat := s.first + rel

/-- Outstanding transfers of a Flume (R274): a read until its data goes into a write or into a lane's queue. -/
def Dev.outstanding (d : Dev) (f : Nat) : Nat :=
  d.flm.streams.foldl (fun a s => if s.flume == f then a + s.rdq.length + s.ahead.length + s.wi + s.pgW.length else a) 0

/-- Transfers of a Flume that wait for their response. -/
def Dev.inFlight (d : Dev) (f : Nat) : Nat :=
  d.flm.streams.foldl (fun a s => if s.flume == f then a + (s.rdq.length - s.pgR.length) + s.wi else a) 0

/-- Can the stream issue a write? -/
def Dev.canWrite (d : Dev) (s : Stream) : Bool :=
  s.finishing && decide (s.wi < s.wq.length) && (match s.dst with
    | some p => !d.pathFailed p.tier p.unit
    | none => false)

/-- Can the stream issue a read: granted at both points (R258), path in order, its lane not full? -/
def Dev.canRead (d : Dev) (s : Stream) : Bool :=
  match d.obj? s.handle with
  | none => false
  | some o =>
    let n := pieces (s.srcBlk o)
    s.finishing && s.full.isEmpty && decide (s.rd < s.gSrc * n) && (s.dst.isNone || decide (s.rd < s.gDst * n)) &&
      !d.pathFailed s.src.tier s.src.unit

/-- The owner of a stream's router requests. -/
def Stream.owner (s : Stream) (write : Bool) : Owner := .stream s.flume s.ctx s.slot write

/-- A transfer to or from T4 goes out as messages (section "Ordering and flush", R520). -/
def Dev.t4Issue (d : Dev) (s : Stream) (write : Bool) : Dev :=
  if write then
    match s.wq[s.wi]?, s.dst with
    | some w, some p => if p.tier = 4 then d.t4Write p.node (p.addr + w.addr) s.svc w.bytes (s.owner true) else d
    | _, _ => d
  else if s.src.tier = 4 then
    match d.obj? s.handle with
    | some o =>
      let n := s.srcBlk o
      let j := s.rd % pieces n
      d.t4Read s.src.node (s.src.addr + s.blk (s.rd / pieces n) * n + 4096 * j) (min 4096 (n - 4096 * j)) s.svc (s.owner false)
    | none => d
  else d

/-- Does the stream's next transfer lie outside the host's T3 range (R474)? -/
def Dev.nextOut (d : Dev) (s : Stream) (write : Bool) : Bool :=
  if write then (match s.wq[s.wi]?, s.dst with
    | some w, some p => d.t3Out p w.addr w.bytes.length
    | _, _ => false)
  else match d.obj? s.handle with
    | some o =>
      let n := s.srcBlk o
      let j := s.rd % pieces n
      d.t3Out s.src (s.blk (s.rd / pieces n) * n + 4096 * j) (min 4096 (n - 4096 * j))
    | none => false

/-- Is the stream a raw drain (a PARK that moves the object through DRAINING)? -/
def Stream.isDrain (s : Stream) : Bool := s.op == 1 && !s.laned

/-- A raw PARK that would move its first byte while a promote owns its object is handled under R240 (R243): it ends DEFERRED, and the promote
goes on from the object's home. -/
def Dev.parkDefer (d : Dev) (s : Stream) (o : Obj) : Dev :=
  let d := (d.dropStream s.key).deferEviction s.handle
  let d := match s.dst with
    | some p => d.release p o.partner
    | none => d
  let d := match d.chainedLift s.handle with
    | some x => d.liftOn x o.place s.prior
    | none => d.setState s.handle s.prior
  d.streamResult s 2 cPromote 0

/-- A stream becomes a user with its first read, once REFCOUNT has room (R236); a drain then takes DRAIN_LOCK (R239). -/
def Dev.streamUser (d : Dev) (s : Stream) : Dev :=
  ((d.refUp s.handle).updObj s.handle fun o => { o with drainLock := o.drainLock || s.isDrain }).updStream s.key fun x =>
    { x with counted := true }

/-- A stream issues one read. -/
def Dev.issueRead (d : Dev) (s : Stream) : Dev :=
  let now := d.gh.timer
  (d.t4Issue s false).updStream s.key fun x => { x with rd := x.rd + 1, rdq := x.rdq ++ [(x.rd, now)] }

/-- A stream issues one transfer, a write before a read. -/
def Dev.issueOne (d : Dev) (k : Nat × Nat × Nat) : Dev :=
  match d.stream? k with
  | none => d
  | some s =>
    if decide (d.rd .FLM_OUT_LIMIT s.flume ≤ d.outstanding s.flume) || d.frozen (6 + s.flume) then d
    else if d.canWrite s then
      if d.nextOut s true then d.t3Range
      else
        let now := d.gh.timer
        (d.t4Issue s true).updStream k fun x => { x with wi := x.wi + 1, wiq := x.wiq ++ [now] }
    else if !d.canRead s then d
    else if d.nextOut s false then d.t3Range
    else if s.counted then d.issueRead s
    else match d.obj? s.handle with
      | none => d
      | some o =>
        if s.isDrain && o.liftLock then d.parkDefer s o
        else if d.refFull s.handle then (d.refWaits s.refWait).updStream k fun x => { x with refWait := true }
        else (d.streamUser s).issueRead s

/-- `n` numbers from `i` on, in a circle. -/
def circle (n i : Nat) : List Nat := (List.range n).map fun j => (i + j) % n

/-- One transfer of the burst whose turn it is in a context, in slot order (R302); whether one was issued. -/
def Dev.issueCtx (d : Dev) (f c : Nat) : Dev × Bool :=
  (circle 4 (Sparse.get (fun _ => 0) d.flm.slotTurn (16 * f + c))).foldl (fun a n =>
    if a.2 then a
    else
      let e := a.1.issueOne (f, c, n)
      if e.outstanding f = a.1.outstanding f then (e, false)
      else ({ e with flm := { e.flm with slotTurn := Sparse.put (fun _ => 0) e.flm.slotTurn (16 * f + c) ((n + 1) % 4) } }, true)) (d, false)

/-- One transfer of the context whose turn it is, in ascending order (section "Transfers"); whether one was issued. -/
def Dev.issueTurn (d : Dev) (f : Nat) : Dev × Bool :=
  (circle 16 (Sparse.get (fun _ => 0) d.flm.turn f)).foldl (fun a c =>
    if a.2 then a
    else
      let r := a.1.issueCtx f c
      if r.2 then ({ r.1 with flm := { r.1.flm with turn := Sparse.put (fun _ => 0) r.1.flm.turn f ((c + 1) % 16) } }, true)
      else r) (d, false)

/-- The transfer buffers are shared one transfer per context in turn. -/
def Dev.pump : Nat → Nat → Dev → Dev
  | 0, _, d => d
  | n + 1, f, d =>
    let r := d.issueTurn f
    if r.2 then Dev.pump n f r.1 else r.1

/-- Issue what can be issued, and keep FLM_OUT's peak. -/
def Dev.issueAll (d : Dev) (f : Nat) : Dev :=
  let d := Dev.pump 256 f d
  let n := d.outstanding f
  (d.set .FLM_OUT_NOW n f).set .FLM_OUT_PEAK (max n (d.get .FLM_OUT_PEAK f)) f

/-! ### Faults, halts and ends -/

/-- Is the stream a burst of the turnout program in its context? -/
def Dev.isBurst (d : Dev) (s : Stream) : Bool :=
  match d.turn? s.flume s.ctx with
  | some t => t.tag == s.tag
  | none => false

/-- A fault of Table 12-2 stops the stream (R284, R285); DRIVER_HALT halts in either mode. A burst that halts stops its context's sequencer at
the next instruction (R310). -/
def Dev.streamFault (d : Dev) (k : Nat × Nat × Nat) (cause : Nat) : Dev :=
  match d.stream? k with
  | none => d
  | some s =>
    if s.st = 4 ∨ s.st = 5 ∨ s.st = 6 then d
    else if s.abort ∧ cause ≠ 0x0504 then d.updStream k fun x => { x with st := 6, cause := cause }
    else
      let d := d.updStream k fun x => { x with st := 4, cause := cause }
      if d.isBurst s then d.updTurn s.flume s.ctx fun t => { t with halted := true } else d

/-- The stream ends whatever its mode (an empty key slot at the first block, an abort, a tier failure, damage). -/
def Dev.streamEnding (d : Dev) (k : Nat × Nat × Nat) (cause : Nat) : Dev :=
  d.updStream k fun s => { s with st := 6, cause := cause }

/-- What damage takes from the stream that found it. -/
def Dev.finder (d : Dev) (s : Stream) (withTag : Bool) : Finder :=
  { svc := s.svc, deadline := if s.deadlineUs = 0 then 2 ^ 64 else d.issuedAt s.tag + usToTicks s.deadlineUs,
    ring := (match d.task? s.tag with
      | some t => t.ring
      | none => 0),
    step := s.step, mb := s.mb, tag := if withTag then some s.tag else none }

/-- Blocks of the stream that have landed. -/
def Stream.landed (s : Stream) : Nat := s.low + s.fin.length

/-- A block of the stream has landed whole. -/
def Stream.land (s : Stream) (rel : Nat) : Stream :=
  let fin := if s.fin.contains rel then s.fin else s.fin ++ [rel]
  let rec go : Nat → Nat → List Nat → Nat × List Nat
    | 0, low, l => (low, l)
    | f + 1, low, l => if l.contains low then go f (low + 1) (l.erase low) else (low, l)
  let r := go (fin.length + 1) s.low fin
  { s with low := r.1, fin := r.2, gran := if r.1 = s.low then s.gran else 0 }

/-- The lead of slot `n`: (applied, shadow). -/
def Dev.leadOf (d : Dev) (n : Nat) : Nat × Nat := Sparse.get (fun _ => (0, 0)) d.flm.lead.tab n

/-- The prefetch-lead loop (R281, R20 to R24). -/
def Dev.leadUpdate (d : Dev) (n : Nat) (slack : Int) : Dev :=
  let applied := (d.leadOf n).1
  let m : Int := d.get .LEAD_MARGIN_US
  let shadow : Int :=
    if slack < 0 then applied + (-slack) + m
    else if 2 * m < slack then applied - (slack - m) / 2
    else applied
  let sh := shadow.toNat
  let lo := d.get .LEAD_LOW_US
  let hi := d.get .LEAD_HIGH_US
  let pin := d.get .LEAD_PIN_PIN_EN == 1
  let tied := d.isTied 0x40 n
  let ap := if tied then applied else if pin then d.get .LEAD_PIN_US else max lo (min hi sh)
  let d := { d.untie 0x40 n with flm := { d.flm with lead := { d.flm.lead with
    tab := Sparse.put (fun _ => (0, 0)) d.flm.lead.tab n (ap, sh) } } }
  if !tied && clamped lo hi sh applied pin then (d.bump .LEAD_CLAMP_COUNT).raise 6 0 3 else d

/-- The state an object of a stream is in while it moves. -/
def Stream.transit (s : Stream) : Nat := if s.op = 2 then oLIFTING else if s.laned then oCOMPRESSING else oDRAINING

/-- The last block has landed: the gate, the object's state and home, the loops and counters, and the result (R191,
R237, R242, R275, R281); a stream whose object is in another state ends (R245). -/
def Dev.streamComplete (d : Dev) (s : Stream) : Dev :=
  match d.obj? s.handle with
  | none => d.streamEnding s.key cObjectState
  | some o =>
    if s.op ≠ 4 ∧ o.state ≠ s.transit then d.streamEnding s.key cObjectState else
    let d := d.dropStream s.key
    let d := if s.counted then d.refDown s.handle else d
    let d := d.updObj s.handle fun x => { x with drainLock := x.drainLock && !s.isDrain }
    let ended := ((s.flume, s.ctx), (d.gh.timer, s.tag)) :: d.flm.ended.filter fun e => e.1 != (s.flume, s.ctx)
    let d := { d with flm := { d.flm with ended := ended } }
    if s.op = 4 then d.streamResult s 0 0 s.count
    else
      let d := match s.dst with
        | some p => d.moveHome s.handle p
        | none => d
      let d := d.updObj s.handle fun x => { x with packed := s.op != 2 && x.usesLanes }
      let d := if s.op = 2 then
          let d := if s.laned ∧ o.codec ≠ 0 then d.wetAllUpdate s.handle else d
          let d := if o.relift ∧ o.tier ≠ 1 then
              (d.add64 .RELIFT_BYTES_T1_LO (o.blocks * 65536)).updObj s.handle fun x => { x with relift := false }
            else d
          let d := if s.gate then d.setGate s.handle s.mb s.step else d
          d.setState s.handle (if s.gate then oREADY else oSEALED)
        else match d.chainedLift s.handle with
          | some x => (d.bump .DRAIN_TO_LIFT_COUNT).liftOn x (s.dst.getD x.src) oPARKED
          | none => d.setState s.handle oPARKED
      let d := match s.lead with
        | some n =>
          let deadline : Int := d.issuedAt s.tag + usToTicks s.deadlineUs
          d.leadUpdate n ((deadline - d.gh.timer) * 5 / 96)
        | none => d
      d.streamResult s 0 0 s.count

/-- A block has landed; the stream completes with its last, also where that lands while it halts (R284, R289). -/
def Dev.blockLanded (d : Dev) (k : Nat × Nat × Nat) (rel : Nat) : Dev :=
  let d := d.updStream k fun s => s.land rel
  match d.stream? k with
  | some s => if s.low = s.count ∧ (s.st = 2 ∨ s.st = 3 ∨ s.st = 4) then d.streamComplete s else d
  | none => d

/-- A block goes to Freeboard once, when it first passes whole (R278). -/
def Dev.observe (d : Dev) (s : Stream) (rel : Nat) (data : List Byte) : Dev :=
  if (s.obs || s.op == 4) && !s.seen.contains rel then
    match d.obj? s.handle with
    | some o =>
      let d := d.updStream s.key fun x => { x with seen := rel :: x.seen }
      { d with obsQ := d.obsQ ++ [{ handle := s.handle, tensor := s.tensor, step := s.step,
                                    fmt := blockFmt o.format (d.rd (.SLC_POLICY o.partner)), data := data }] }
    | none => d
  else d

/-- The lane that a relative block of a stream passes (R276); none where no lane of its list is PRESENT. -/
def Dev.laneFor (d : Dev) (s : Stream) (rel : Nat) : Option Nat :=
  let list := s.lanes.filter fun n => d.present (38 + n)
  list[rel % list.length]?

/-- Bytes in a lane's queue; a block that has begun to enter counts whole. -/
def Dev.laneBytes (d : Dev) (n : Nat) : Nat :=
  let begun := d.flm.streams.foldl (fun a s => match d.obj? s.handle with
    | some o =>
      if s.laned && !s.cur.isEmpty && d.laneFor s (s.rdDone / pieces (s.srcBlk o)) == some n then a + s.srcBlk o else a
    | none => a) 0
  d.slc.q.foldl (fun a b => if b.lane == n then a + b.data.length else a) begun

/-- A block's bytes enter a lane's queue: an entry, which latches the partner's policy (R330). -/
def Dev.laneEnter (d : Dev) (s : Stream) (o : Obj) (n rel : Nat) (data : List Byte) : Dev :=
  let blk : LaneBlk := {
    lane := n, flume := s.flume, ctx := s.ctx, slot := s.slot, tag := s.tag, handle := s.handle,
    rel := rel, dir := if s.op = 2 then 1 else 0, data := data, policy := d.rd (.SLC_POLICY o.partner), escape := false }
  let d := { d with slc := { d.slc with q := d.slc.q ++ [blk] } }
  let d := (d.ungate (38 + n)).add64 .LANE_BYTES_IN_LO data.length n
  d.set .QUEUE_PEAK_BYTES (max (d.get .QUEUE_PEAK_BYTES n) (d.laneBytes n)) n

/-- A block finds its key slot empty: counted on the lane and in the common page (R328). -/
def Dev.keyMissing (d : Dev) (n : Nat) : Dev :=
  (((d.bump .KEY_FAIL_COUNT n).raise (38 + n) 0 4).bump .KEY_USE_FAIL_COUNT).raise 46 0 0

/-- A whole block goes to its lane (R276). A key slot already empty when the stream's first block comes there ends the stream, whatever its
mode (section "Faults"); no lane PRESENT is LANE_LOST. -/
def Dev.toLane (d : Dev) (s : Stream) (rel : Nat) (data : List Byte) : Dev :=
  match d.obj? s.handle, d.laneFor s rel with
  | some o, some n =>
    if o.enc && !s.keyIn && (d.keyOf o.key).isNone then
      (d.keyMissing n).updStream s.key fun x => { x with st := 6, cause := 0x0502 }
    else (d.updStream s.key fun x => { x with keyIn := true }).laneEnter s o n rel data
  | some _, none => d.streamFault s.key 0x0503
  | none, _ => d

/-- A block waits for its lane's queue: the lane counts it once (R277, R332). -/
def Dev.queueWait (d : Dev) (s : Stream) (n rel : Nat) : Dev :=
  if s.queued = some rel then d else (d.bump .QUEUE_FULL_COUNT n).updStream s.key fun x => { x with queued := some rel }

/-- May the next piece of a laned stream enter its lane's queue: the piece of a block that has begun to, or one that has room for its block
and no block dealt again before it? Else the block waits, or the stream has lost its lanes. -/
def Dev.pieceEnters (d : Dev) (s : Stream) (o : Obj) : Dev × Bool :=
  let rel := s.rdDone / pieces (s.srcBlk o)
  if !s.laned || !s.cur.isEmpty then (d, true)
  else match d.laneFor s rel with
    | none => (d.streamFault s.key 0x0503, false)
    | some n => if !s.full.isEmpty || decide (4194304 < d.laneBytes n + s.srcBlk o) then (d.queueWait s n rel, false) else (d, true)

/-- Cut a block's bytes into writes of at most 4 KiB from an address. -/
def cutPieces (rel : Nat) : Nat → Nat → List Byte → List WPiece
  | 0, _, _ => []
  | f + 1, a, b =>
    if b.length ≤ 4096 then [{ blk := rel, addr := a, bytes := b, last := true }]
    else { blk := rel, addr := a, bytes := b.take 4096, last := false } :: cutPieces rel f (a + 4096) (b.drop 4096)

/-- Queue a block's writes at an offset of the destination. -/
def Dev.queueWrites (d : Dev) (k : Nat × Nat × Nat) (ps : List WPiece) : Dev :=
  d.updStream k fun s => { s with wq := s.wq ++ ps }

/-- A block has been read whole: to Freeboard and its lane, or straight on (OBSERVE lands it). -/
def Dev.blockRead (d : Dev) (s : Stream) (rel : Nat) (data : List Byte) : Dev :=
  let d := if s.op = 2 ∧ s.laned then d else d.observe s rel data
  if s.op = 4 then d.blockLanded s.key rel
  else if s.laned && s.moving then d.toLane s rel data
  else d

/-- The bytes a read brings: a dry granule of a raw source reads as zeros; one that enters a codec is counted (O6). -/
def Dev.readPiece (d : Dev) (s : Stream) (o : Obj) (rel j : Nat) : List Byte × Dev :=
  let n := s.srcBlk o
  let len := min 4096 (n - 4096 * j)
  let data := if s.src.tier = 4 then
      (match d.tagOf (s.owner false) with
        | some t => t.data.take len
        | none => [])
    else d.placeRd s.src (s.blk rel * n + 4096 * j) len
  let g := s.blk rel * 16 + j
  if s.op ≠ 2 ∧ !d.isWet o g then
    let d := if s.laned ∧ o.codec ≠ 0 then
        (((d.bump .DRY_READ_COUNT).wr .DRY_READ_HANDLE s.handle).wr64 .DRY_READ_OFFSET_LO (g * 4096)).raise 4 0 0
      else d
    (List.replicate len 0, d)
  else (data, if s.src.tier = 1 then d.hbmBytes s.src len false else d)

/-- An answered request of an owner is done with. -/
def Dev.endTag (d : Dev) (o : Owner) (t4 : Bool) : Dev :=
  if t4 then
    (match d.tagOf o with
      | some t => d.dropTag t
      | none => d)
  else d

/-- Has the owner a request that is not answered? -/
def Dev.tagOpen (d : Dev) (o : Owner) : Bool := d.lr.tags.any fun t => t.owner == o && !t.dead && t.status.isNone

/-- The oldest outstanding read of a stream that does not wait for its page. -/
def Stream.nextRead (s : Stream) : Option Nat := (s.rdq.map Prod.fst).find? fun i => !s.pgR.contains i

/-- The next piece in order goes on: towards the destination, or to the block being put together. -/
def Dev.takePiece (d : Dev) (s : Stream) (o : Obj) (data : List Byte) : Dev :=
  let n := pieces (s.srcBlk o)
  let rel := s.rdDone / n
  let j := s.rdDone % n
  let whole := j + 1 == n
  let cur := s.cur ++ data
  let d := d.updStream s.key fun x => { x with
    rdDone := x.rdDone + 1, ahead := x.ahead.filter (fun e => e.1 != s.rdDone), cur := if whole then [] else cur }
  if !s.finishing then d
  else
    let d := if s.laned ∨ s.op = 4 then d
      else d.queueWrites s.key [{ blk := rel, addr := s.blk rel * 65536 + 4096 * j, bytes := data, last := whole }]
    if whole then d.blockRead s rel cur else d

/-- Take in order what has been read, as far as it has come and its lane has room. -/
def Dev.takeAhead : Nat → Nat × Nat × Nat → Dev → Dev
  | 0, _, d => d
  | n + 1, k, d =>
    match d.stream? k with
    | none => d
    | some s =>
      match s.ahead.find? (fun e => e.1 == s.rdDone), d.obj? s.handle with
      | some e, some o =>
        let r := d.pieceEnters s o
        if r.2 then Dev.takeAhead n k (r.1.takePiece s o e.2) else r.1
      | _, _ => d

/-- The oldest outstanding read of a stream completes. -/
def Dev.readDone (d : Dev) (s : Stream) (o : Obj) : Dev :=
  match s.nextRead with
  | none => d
  | some i =>
    let n := pieces (s.srcBlk o)
    let r := d.readPiece s o (i / n) (i % n)
    let d := (r.2.endTag (s.owner false) (s.src.tier == 4)).add64 .FLM_BYTES_IN_LO r.1.length s.flume
    let d := d.updStream s.key fun x => { x with rdq := x.rdq.filter (fun e => e.1 != i), ahead := x.ahead ++ [(i, r.1)] }
    Dev.takeAhead (s.ahead.length + 1) s.key d

/-- Has every write of a relative block landed: none waits, and for a raw stream the block has been read whole? -/
def Dev.blockDone (d : Dev) (s : Stream) (rel : Nat) : Bool :=
  s.wq.all (fun w => w.blk != rel) && s.pgW.all (fun e => e.2.blk != rel) &&
    (s.laned || (match d.obj? s.handle with
      | some o => decide ((rel + 1) * pieces (s.srcBlk o) ≤ s.rdDone)
      | none => false))

/-- The oldest issued write of a stream is acknowledged. -/
def Dev.writeDone (d : Dev) (s : Stream) : Dev :=
  match s.wq, s.dst with
  | w :: _, some p =>
    let d := if p.tier = 4 then d.endTag (s.owner true) true else d.placeWr p w.addr w.bytes
    let d := d.add64 .FLM_BYTES_OUT_LO w.bytes.length s.flume
    let d := d.updStream s.key fun x => { x with
      wq := x.wq.drop 1, wi := x.wi - 1, wiq := x.wiq.drop 1,
      gran := if x.laned then 0 else if w.blk = x.low then x.gran + 1 else x.gran }
    match d.stream? s.key with
    | some x => if d.blockDone x w.blk then d.blockLanded s.key w.blk else d
    | none => d
  | _, _ => d

/-- Let every outstanding transfer of a stream that moves no further complete: issued writes land, reads are dropped. -/
def Dev.drainOut : Nat → Nat × Nat × Nat → Dev → Dev
  | 0, _, d => d
  | n + 1, k, d =>
    match d.stream? k with
    | some s => if 0 < s.wi then Dev.drainOut n k (d.writeDone s) else d
    | none => d

/-- The answered requests of a stream that moves no further are done with. -/
def Dev.dropTags (d : Dev) (s : Stream) : Dev :=
  { d with lr := { d.lr with tags := d.lr.tags.filter fun t => t.dead || !(t.owner == s.owner true || t.owner == s.owner false) } }

/-- Blocks of the stream leave the lanes without output (R333). -/
def Dev.dropLaneBlks (d : Dev) (s : Stream) : Dev :=
  { d with slc := { d.slc with q := d.slc.q.filter fun b => !(b.flume == s.flume && b.ctx == s.ctx && b.slot == s.slot) } }

/-- CTX words 1 to 3 keep what the last halt or fault of the context left (Table 12-7). -/
def Dev.ctxKeep (d : Dev) (s : Stream) : Dev :=
  let d := d.wr (.CTX_W1 s.ctx) (s.cause * 65536 + s.op * 256 + bit01 s.abort) s.flume
  let d := d.wr (.CTX_W2 s.ctx) s.handle s.flume
  d.wr (.CTX_W3 s.ctx) (s.gran % 16 * 2 ^ 24 + (s.first + s.low) % 2 ^ 24) s.flume

/-- The first granule of the lowest block not landed that has not been written: 0 for a stream that uses lanes (section "Faults"). -/
def Stream.granule (s : Stream) : Nat :=
  if s.laned then 0
  else ((s.pgW.filter fun e => e.2.blk == s.low).map fun e => e.2.addr / 4096 % 16).foldl min s.gran

/-- A halting stream's transfers have completed: its position is saved, the context is HALTED (R284, R310). -/
def Dev.haltStream (d : Dev) (k : Nat × Nat × Nat) : Dev :=
  match d.stream? k with
  | none => d
  | some s0 =>
    if s0.st ≠ 4 ∨ d.tagOpen (s0.owner true) ∨ d.tagOpen (s0.owner false) then d
    else
      let d := (Dev.drainOut 256 k d).dropTags s0
      match d.stream? k with
      | none => d
      | some s =>
        let s := { s with gran := s.granule }
        let d := d.dropLaneBlks s
        let d := d.updStream k fun x => { x with
          st := 5, wq := [], wi := 0, wiq := [], pgR := [], pgW := [], rd := 0, rdDone := 0, rdq := [], ahead := [], cur := [], full := [],
          gran := s.gran, lost := false, blocked := none,
          escAt := x.escAt.filter (fun e => e.1 < x.low), esc := (x.escAt.filter fun e => e.1 < x.low).length }
        ((d.ctxKeep s).bump .HALT_COUNT s.flume).raise (6 + s.flume) 0 0

/-- Does an aborted raw stream still wait for reads of the blocks it was granted (R269)? -/
def Dev.unread (d : Dev) (s : Stream) : Bool :=
  s.finishing && !s.laned && !s.rdq.isEmpty && !d.pathFailed s.src.tier s.src.unit

/-- An ending stream's transfers have completed: its destination is released, its object goes back to its state before
the stream unless it has changed since, and its result is given (R285, R286). -/
def Dev.abortStream (d : Dev) (k : Nat × Nat × Nat) : Dev :=
  match d.stream? k with
  | none => d
  | some s0 =>
    if s0.st ≠ 6 ∨ d.tagOpen (s0.owner true) ∨ d.tagOpen (s0.owner false) ∨ d.canRead s0 ∨ d.canWrite s0 ∨ d.unread s0 then d
    else
      let d := (Dev.drainOut 256 k d).dropTags s0
      match d.stream? k with
      | none => d
      | some s =>
        let d := (d.dropLaneBlks s).dropStream k
        let d := { d with pool := { d.pool with waiting := d.pool.waiting.filter fun x => x != s.tag * 4 + s.slot } }
        let d := if s.counted then d.refDown s.handle else d
        let partner := match d.objAt (hIndex s.handle) with
          | some o => o.partner
          | none => 0
        let d := match s.dst with
          | some p => d.release p partner
          | none => d
        let d := d.updObj s.handle fun o => { o with
          drainLock := o.drainLock && !(s.isDrain && s.counted), liftLock := o.liftLock && !s.chained }
        let d := match d.obj? s.handle with
          | some o => if s.op ≠ 4 ∧ o.state = s.transit ∧ !s.chained then d.setState s.handle s.prior else d
          | none => d
        let fault := (decide (0x0501 ≤ s.cause) && decide (s.cause ≤ 0x0505) && s.cause != 0x0504 && !(s.cause == 0x0502 && !s.keyIn)) || s.cause == cControlUe
        let d := if fault then ((d.ctxKeep s).bump .FAULT_ABORT_COUNT s.flume).raise (6 + s.flume) 0 1 else d
        let cause := if s.recCause = 0 then s.cause else s.recCause
        if cause = cDamagedRecompute ∧ ((d.auto.any fun a => a.tag == some s.tag) ∨ (d.chains.any fun c => c.found == some s.tag)) then d
        else d.streamResult s 3 cause s.landed

/-- The stream ends in the fault `cause`, and its record carries R244's. -/
def Dev.streamEndAs (d : Dev) (k : Nat × Nat × Nat) (cause rec : Nat) : Dev :=
  d.updStream k fun s => { s with st := 6, cause := cause, recCause := rec }

/-- A stream damages its object: the policy first, then the stream's mode (O1, R244, R322): HALT_RESUME halts, ABORT ends. -/
def Dev.streamDamage (d : Dev) (s : Stream) : Dev :=
  let r := d.damage s.handle (d.finder s (s.abort && !d.isBurst s))
  if s.abort then r.1.streamEndAs s.key 0x0501 (if r.2 then cDamagedRecompute else cDamagedFail) else r.1.streamFault s.key 0x0501

/-- A tier failure ends the stream in either mode; its object is handled under R244 (R266). -/
def Dev.streamTierFail (d : Dev) (s : Stream) : Dev :=
  let d := d.raise 5 0 2
  if s.op = 4 then d.streamEnding s.key cTierFail
  else
    let r := d.damage s.handle (d.finder s (!d.isBurst s))
    r.1.streamEnding s.key (if r.2 then cDamagedRecompute else cDamagedFail)

/-! ### Waits (Table 11-4) -/

/-- Has a request of a tier T2 to T4, made at an AO time, waited longer than TIER_LATE_NS for its response? -/
def Dev.lateSince (d : Dev) (tier since : Nat) : Bool :=
  decide (2 ≤ tier) && decide (d.rd (.TIER_LATE_NS tier) < ticksToNs (d.gh.timer - since))

/-- The wait of one that asks at a place's point: a grant went to another, or the tier is late. -/
def Dev.askWait (d : Dev) (p : Place) (lost : Bool) : Option Nat :=
  if lost then some cClassWait else if 2 ≤ p.tier then some (d.lateCause p) else none

/-- The wait of a stream for its lane: a block has to wait for its queue (R277, R332). -/
def Stream.laneWait (s : Stream) : Bool := s.laned && (!s.full.isEmpty || (s.cur.isEmpty && s.ahead.any fun e => e.1 == s.rdDone))

/-- Does the stream wait on a failed path: reads or writes that it may not issue (R266, R267)? -/
def Dev.streamPath (d : Dev) (s : Stream) : Option Place :=
  let n := match d.obj? s.handle with
    | some o => pieces (s.srcBlk o)
    | none => 0
  if decide (s.rd < s.count * n) && d.pathFailed s.src.tier s.src.unit then some s.src
  else match s.dst with
    | some p => if decide (s.low < s.count) && d.pathFailed p.tier p.unit then some p else none
    | none => none

/-- What a stream waits for, if it has a ready request at a point or an allocation and moves no data. -/
def Dev.streamWait (d : Dev) (s : Stream) : Option Nat :=
  let oldest (l : List Nat) (p : Option Place) : Option Nat := match l, p with
    | t :: _, some q => if d.lateSince q.tier t then some (d.lateCause q) else none
    | _, _ => none
  if d.frozen (6 + s.flume) then none
  else if s.st = 3 then some 0x0402
  else if s.st ≠ 2 then none
  else if !s.entered then some cPoolFull
  else if s.laneWait then some cCodecFull
  else match d.streamPath s, oldest (s.rdq.map Prod.snd) (some s.src), oldest s.wiq s.dst with
    | some p, _, _ => some (d.lateCause p)
    | none, some c, _ => some c
    | none, none, some c => some c
    | none, none, none =>
      if !s.rdq.isEmpty || decide (0 < s.wi) then none
      else if d.streamReq (d.point s.src) 1 s then d.askWait s.src s.lost
      else match s.dst with
        | some p => if d.streamReq (d.point p) 0 s then d.askWait p s.lost else none
        | none => none

/-- What a drain waits for. -/
def Dev.drainWait (d : Dev) (x : Drain) : Option Nat :=
  if d.frozen 5 then none
  else if d.pathFailed x.dst.tier x.dst.unit then some (d.lateCause x.dst)
  else match d.tagOf (.drain x.handle) with
    | some t => if d.lateSince 4 t.since then some (d.lateCause x.dst) else none
    | none => match (d.objAt (hIndex x.handle)).map Obj.place with
      | none => none
      | some p =>
        if d.drainReq (d.point p) 1 x then d.askWait p x.lost
        else if d.drainReq (d.point x.dst) 0 x then d.askWait x.dst x.lost else none

/-- What a chain waits for: to start, or for a descriptor's grants; its other waits are kept in its task (R376, R378). -/
def Chain.waitCause (c : Chain) : Option Nat :=
  if c.lost && (c.st == 0 || (c.st == 1 && !c.need.isEmpty)) then some cClassWait else none

/-! ### Acceptance -/

/-- A context's words are written whole at an acceptance (R581). -/
def Dev.freshCtx (d : Dev) (f c : Nat) : Dev := d.eccClear 5 (1024 * (16 * f + c)) 1024

/-- Enter a stream with its destination, and its object in transit. -/
def Dev.enterStream (d : Dev) (sp : Spec) (o : Obj) (dst : Option Place) (waits : Bool) : Dev :=
  let lanes := if o.usesLanes && sp.op != 4 && !(sp.op == 2 && !o.packed) then d.lanesOf sp.lanes else []
  let chained := sp.op == 2 && o.state == oDRAINING
  let lead := if sp.op == 2 && sp.deadlineUs != 0 then o.slot else none
  let startAt := match lead with
    | some n => if sp.burst then none else
        some (d.issuedAt sp.tag + usToTicks sp.deadlineUs - usToTicks (d.leadOf n).1)
    | none => none
  let waiting := match startAt with
    | some t => decide (d.gh.timer < t)
    | none => false
  let s : Stream := {
    flume := sp.flume, ctx := sp.ctx, slot := sp.slot, tag := sp.tag, st := if waiting || chained then 1 else 2,
    cause := 0, op := sp.op, handle := sp.obj, first := sp.first, count := sp.blocks o, abort := sp.abort, gate := sp.gate,
    obs := sp.obs, step := sp.step, mb := sp.mb, tensor := sp.tensor, svc := sp.svc, deadlineUs := sp.deadlineUs,
    mask := sp.lanes, lanes := lanes, prior := o.state, src := o.place, dst := dst, gSrc := 0, gDst := 0, rd := 0, rdDone := 0,
    rdq := [], ahead := [], cur := [], wq := [], wi := 0, wiq := [], pgR := [], pgW := [], full := [], low := 0, fin := [], gran := 0, esc := 0,
    escAt := [], seen := [], startAt := if waiting then startAt else none, lead := lead, entered := !waits, chained := chained,
    dest := sp.dest, keyIn := false, recCause := 0, queued := none, counted := false, refWait := false, lost := false, blocked := none }
  let d := if sp.burst then d else d.freshCtx sp.flume sp.ctx
  let d := { d with flm := { d.flm with streams := d.flm.streams ++ [s] } }
  let d := if waits then { d with pool := { d.pool with waiting := d.pool.waiting ++ [sp.tag * 4 + sp.slot] } } else d
  let d := if sp.op = 2 then d.updObj sp.obj fun x => { x with liftLock := true } else d
  if sp.op = 4 ∨ chained then d else d.setState sp.obj s.transit

/-- A regret: a capacity-evicted object lifted again into T1 within HORIZON_US (chapter 11). -/
def Dev.regret (d : Dev) (sp : Spec) (o : Obj) : Dev :=
  match (if sp.op = 2 ∧ sp.dest = 1 then o.evictedAt else none) with
  | none => d
  | some t =>
    let d := d.updObj sp.obj fun x => { x with evictedAt := none }
    if d.gh.timer - t ≤ usToTicks d.pool.horizon then
      let d := d.bump .REGRET_COUNT
      { d with pool := { d.pool with regrets := d.pool.regrets + 1 } }
    else d

/-- Start a stream that has passed its checks: allocate its destination (R249, R259), or answer the refusal's cause. -/
def Dev.startStream (d : Dev) (sp : Spec) : Dev × Option Nat :=
  match d.obj? sp.obj with
  | none => (d, some cHandleStale)
  | some o =>
    if sp.op = 4 then (d.enterStream sp o none false, none)
    else
      let bytes := if sp.op = 2 then o.blocks * 65536 else o.packedBytes
      let r := d.allocate sp.svc o.partner sp.dest sp.node bytes
      match r.2 with
      | .refused c => (r.1, some c)
      | .wait => ((r.1.enterStream sp o none true).regret sp o, none)
      | .got p => (((r.1.enterStream sp o (some p) false).regret sp o), none)

/-- The descriptor of a Flume stream task as settings (Table 8-8). -/
def Task.spec (t : Task) (ctx : Nat) : Spec :=
  { flume := t.inst, ctx := ctx, slot := 0, tag := t.tag, op := t.op, obj := bitsOf t.w1 0 32, first := bitsOf t.w1 32 16,
    count := bitsOf t.w1 48 16, lanes := bitsOf t.w2 56 8, obs := bitsOf t.w2 54 1 == 1, gate := bitsOf t.w2 53 1 == 1,
    abort := bitsOf t.w2 52 1 == 1, dest := bitsOf t.w2 48 4, node := bitsOf t.w3 12 12, mb := bitsOf t.w2 32 16,
    step := bitsOf t.w2 0 32, svc := bitsOf t.w3 61 3, deadlineUs := bitsOf t.w3 36 24, tensor := bitsOf t.w3 24 12,
    burst := false }

/-- R189 for a Flume stream descriptor: zero fields, DEST_TIER, OPEN_GATE, TENSOR_ID, NODE, SVC. -/
def Task.badStream (t : Task) : Bool :=
  let dest := bitsOf t.w2 48 4
  let obs := bitsOf t.w2 54 1 == 1
  t.badSvc || bitsOf t.w3 60 1 != 0 || bitsOf t.w3 0 12 != 0 || bitsOf t.w2 55 1 != 0
    || (t.op != 2 && bitsOf t.w2 53 1 == 1)
    || (!(obs || t.op == 4) && bitsOf t.w3 24 12 != 0)
    || (dest != 4 && bitsOf t.w3 12 12 != 0)
    || !(if t.op = 1 then dest == 2 || dest == 3 || dest == 4
         else if t.op = 2 then dest == 0 || dest == 1
         else if t.op = 3 then dest == 1 else dest == 15)

/-- A free context of a Flume: none of its 16 holds a stream or a program. -/
def Dev.freeCtx (d : Dev) (f : Nat) : Option Nat :=
  (List.range 16).find? fun c =>
    !(d.flm.streams.any fun s => s.flume == f && s.ctx == c) && !(d.flm.turns.any fun t => t.flume == f && t.ctx == c)

/-- A Flume accepts a stream task into a free context (R271 to R273, R280); refusals end it at once. -/
def Dev.acceptStream (d : Dev) (tag op : Nat) : Dev :=
  match d.sentTask tag 0x40 op with
  | none => d
  | some t =>
    match d.freeCtx t.inst with
    | none => d
    | some c =>
      if !d.enabled (6 + t.inst) || d.frozen (6 + t.inst) then d
      else if t.badStream then d.refuse tag cDescParam
      else
        let sp := t.spec c
        match d.checkSpec sp with
        | some cause => (if cause = cHandleStale then d.staleHandle sp.obj else d).refuse tag cause
        | none =>
          let r := (d.acceptTask tag).startStream sp
          match r.2 with
          | some cause => r.1.refuse tag cause
          | none => r.1.issueAll t.inst

end Sys2Proof.Machine
end

