-- ==== Sys2Proof/Machine/Control.lean ====
section
/-! DEFINITION. Host slots and Flume contexts whose control words hold an uncorrectable error, at the uses the device makes of them (R580 to
R582, Table 26-3). Which words hold which slot and context is the model's (DESIGN CHOICE, notes/assumptions/132.md). -/
namespace Sys2Proof.Machine

/-! ### Host slots (memory code 0xA) -/

/-- A host slot whose manifest holds a bad word: both buffers EMPTY. -/
def Dev.slotEcc (d : Dev) (n : Nat) : Dev :=
  let w := 32768 + 4096 * n
  let d := (d.eccUse 65 1 0x0A w 4096).eccClear 0x0A w 4096
  { d with ck := { d.ck with slots := d.ck.slots.modify n fun s =>
      { s with manifest := false, bufs := s.bufs.map fun b => { b with st := 0, record := [] } } } }

/-- The manifest of host slot `n` is read. -/
def Dev.touchSlot (d : Dev) (n : Nat) : Dev := d.eccTouch 0x0A 4096 (fun g => decide (8 ≤ g) && g - 8 == n) fun e g => e.slotEcc (g - 8)

/-! ### Flume contexts (memory code 5) -/

/-- A context with a bad word: its streams end as ABORT streams with CONTROL_UE, its program with them. -/
def Dev.ctxEcc (d : Dev) (g : Nat) : Dev :=
  let f := g / 16
  let c := g % 16
  let d := (d.eccUse (6 + f) 0 5 (1024 * g) 1024).eccClear 5 (1024 * g) 1024
  let d := (d.flm.streams.filter fun s => s.flume == f && s.ctx == c).foldl (fun e s => e.streamEnding s.key cControlUe) d
  d.updTurn f c fun t => { t with ending := some cControlUe, wait := .none }

/-- A step of the task in a context reads its words; an idle context's are not read. -/
def Dev.touchCtx (d : Dev) (f c : Nat) : Dev :=
  if (d.turn? f c).isSome || d.flm.streams.any fun s => s.flume == f && s.ctx == c then
    d.eccTouch 5 1024 (fun g => g == 16 * f + c) Dev.ctxEcc
  else d

end Sys2Proof.Machine
end

