-- ==== Sys2Proof/Machine/PartnerOps.lean ====
section
/-! DEFINITION. Partner accesses (chapters 10 and 20): windows, writes and their wetting, reads and their holds, marks,
violations, the tables the port register block mirrors; writes and reads of objects as the host aperture makes them too. -/
namespace Sys2Proof.Machine

/-- The block index of partner port `p`. -/
def ppb (p : Nat) : Nat := 66 + p

def Dev.port (d : Dev) (p : Nat) : Port := d.ports.getD p Port.reset
def Dev.updPort (d : Dev) (p : Nat) (f : Port → Port) : Dev := { d with ports := d.ports.modify p f }

/-- A training attempt has a result: 0 PASS, 1 FAIL, 2 NO_PEER, with mode, width and rate (Table 3-14). -/
def Dev.portTrained (d : Dev) (p result mode width rate : Nat) : Dev :=
  d.updPort p fun x => { x with hist := (result * 2 ^ 28 + mode * 2 ^ 26 + width * 65536 + rate * 256) :: x.hist.take 3 }

/-- Is the port's link up (L0, or the power state it keeps while the device sleeps)? -/
def Dev.portUp (d : Dev) (p : Nat) : Bool :=
  decide (p < 8) && (d.get .PORT_STATUS_LINK p == 2 || d.get .PORT_STATUS_LINK p == 3)

/-- Is the port in CXL mode? -/
def Dev.portCxl (d : Dev) (p : Nat) : Bool := d.get .PORT_STATUS_MODE p == 1

/-- A partner violation (R466): counted, the first captured, raised; in CXL mode a vendor-specific Warning record. -/
def Dev.pViol (d : Dev) (p code addr handle : Nat) : Dev :=
  let d := d.bump (.PP_VIOL_COUNT (code - 0x0A00)) p
  let d := if d.get .VIOL_FIRST_VALID p = 1 then d
    else
      let d := (d.set .VIOL_FIRST_VALID 1 p).set .VIOL_FIRST_CODE code p
      (d.wr64 .VIOL_ADDR_LO addr p).wr .VIOL_HANDLE handle p
  let d := d.raise (ppb p) 1 0
  if d.portCxl p then d.updPort p fun x => { x with warn := x.warn ++ [{ vendor := true, code := code, addr := addr }] } else d

/-! ### Windows (R448, R449) -/

/-- Bytes of the partner address space that the decoders map; all of BAR-2 in aperture mode. -/
def Dev.partnerSpace (d : Dev) (p : Nat) : Nat :=
  if d.portCxl p then
    let u (k : Nat) (r : Reg) : Nat := if bitsOf (d.get .HDM_STATUS_COMMITTED p) k 1 = 1 then d.rd r p * 2 ^ 28 else 0
    u 0 .HDM_SIZE_0 + u 1 .HDM_SIZE_1
  else 2 ^ 40

/-- The window that holds a partner address. -/
def Dev.winAt (d : Dev) (p addr : Nat) : Option Win :=
  if d.partnerSpace p ≤ addr then none
  else d.wins.find? fun w => w.partner == p && decide (w.base ≤ addr) && decide (addr < w.base + w.blocks * 65536)

/-- The live object behind a partner address, with the byte offset in it; none outside every window, in a block whose record
holds HANDLE 0 or names a RETIRED object. -/
def Dev.objectAt (d : Dev) (p addr : Nat) : Option (Obj × Nat) :=
  match d.winAt p addr with
  | none => none
  | some w =>
    let blk := (addr - w.base) / 65536
    match d.obj? (d.ld spT1 (w.recs + 8 * blk) 4) with
    | none => none
    | some o => some (o, addr - w.base - o.winBlock * 65536)

/-- The entries behind the blocks of an access are read (R581). -/
def Dev.touchBlocks (d : Dev) (p addr len : Nat) : Dev :=
  (List.range ((addr % 65536 + len + 65535) / 65536)).foldl (fun e i => match e.winAt p (addr + i * 65536) with
    | some w => e.touchEntry (hIndex (e.ld spT1 (w.recs + 8 * ((addr + i * 65536 - w.base) / 65536)) 4))
    | none => e) d

/-- Does the state accept a partner write (R230)? -/
def Obj.writable (o : Obj) : Bool :=
  o.state == oDRY || o.state == oFILLING || o.state == oWET || (o.stateWin && (o.state == oSEALED || o.state == oREADY))

/-! ### Writes (R229, R232, R418) -/

/-- Cut an access of `n` bytes at address `a` at multiples of `unit`: (offset in the access, length). -/
def cutAt (unit : Nat) : Nat → Nat → Nat → Nat → List (Nat × Nat)
  | 0, _, _, _ => []
  | f + 1, a, i, n =>
    if n ≤ i then []
    else
      let l := min (n - i) (unit - (a + i) % unit)
      (i, l) :: cutAt unit f a (i + l) n

/-- Put enabled bytes over old ones. -/
def overlay (old : List Byte) (new : List (Option Byte)) : List Byte := (old.zip new).map fun p => p.2.getD p.1

/-- Write enabled bytes into one granule: a dry granule is zero-filled first, then wet; state and dirty bits follow. -/
def Dev.granuleWrite (d : Dev) (o : Obj) (off : Nat) (data : List (Option Byte)) : Dev :=
  let g := off / 4096
  let d := d.stopMove o.handle
  let d := if d.isWet o g then d else (d.placeWr o.place (g * 4096) (List.replicate 4096 0)).wetGranule o g
  let d := d.placeWr o.place off (overlay (d.placeRd o.place off data.length) data)
  (d.fillState o.handle).ckWritten o g

/-- A write refused under R230: discarded, counted, the handle captured. -/
def Dev.writeDiscard (d : Dev) (h : Nat) : Dev := ((d.bump .WRITE_DISCARD_COUNT).wr .WRITE_DISCARD_HANDLE h).raise 4 0 2

/-- One granule's part of a partner write; it waits while its residue read has not started (R422). What a write may not write it reports once
per object (`Dev.pWriteBad`). -/
def Dev.pWritePart (d : Dev) (p addr : Nat) (data : List (Option Byte)) : Dev :=
  match d.objectAt p addr with
  | none => d
  | some (o, off) =>
    if !o.writable then d
    else if d.ckHolds o (off / 4096) then
      let again := d.stuck.any fun h => h == .pWrite p addr data false
      let d := if again then d else d.bump .HELD_WRITE_COUNT
      if again then d else { d with stuck := d.stuck ++ [.pWrite p addr data false] }
    else (d.granuleWrite o off data).add64 .BYTES_WR_LO (data.filter Option.isSome).length p

/-- What a write meets at one of its parts: nothing mapped (handle 0), an object that does not accept it, or one that does. -/
def Dev.pWriteMeets (d : Dev) (p addr : Nat) : Option Nat :=
  match d.objectAt p addr with
  | none => some 0
  | some (o, _) => if o.writable then none else some o.handle

/-- A write is refused under R230 or outside every object: once for each object that it meets, at the first byte there. -/
def Dev.pWriteBad (d : Dev) (p addr n : Nat) : Dev :=
  let bad := (cutAt 65536 (n + 1) addr 0 n).filterMap fun x => (d.pWriteMeets p (addr + x.1)).map fun h => (h, addr + x.1)
  let once := bad.foldl (fun (l : List (Nat × Nat)) e => if l.any fun y => y.1 == e.1 then l else l ++ [e]) []
  once.foldl (fun e x => if x.1 = 0 then e.pViol p 0x0A03 x.2 0 else (e.writeDiscard x.1).pViol p 0x0A05 x.2 x.1) d

/-- A partner write. -/
def Dev.pWrite (d : Dev) (p addr : Nat) (data : List (Option Byte)) (poison : Bool) : Dev :=
  let d := d.touchBlocks p addr data.length
  if poison then d.pViol p 0x0A06 addr (((d.objectAt p addr).map fun x => x.1.handle).getD 0)
  else (cutAt 4096 (data.length + 1) addr 0 data.length).foldl (fun e x =>
    e.pWritePart p (addr + x.1) ((data.drop x.1).take x.2)) (d.pWriteBad p addr data.length)

/-! ### Marks (R13, R157, R454) -/

/-- A mark is delivered, lost at a full FIFO, or discarded for its phase. -/
def Dev.markTake (d : Dev) (p v : Nat) : Dev :=
  let phase := bitsOf v 4 4
  if phase = 0 ∨ 7 < phase then d.pViol p 0x0A01 0 0
  else
    let q := d.hg.marks.getD p []
    if 64 ≤ q.length then (d.bump (.MARK_LOST p)).raise 3 0 4
    else
      let now := d.gh.timer
      let d := { d with hg := { d.hg with marks := d.hg.marks.set p (q ++ [(v, now)]) } }
      let d := (d.bump .MARK_COUNT p).updPort p fun x => { x with accepted := (x.accepted + 1) % 2 ^ 32 }
      let d := d.trace { src := 1, type := 0x08, key := some v, partner := some p, body := leBytes 1 p ++ leBytes 4 v }
      if phase = 7 then d.ckStepEnd p else d

/-- A mark in aperture mode waits for the window writes posted before it (R455). -/
def Dev.pMark (d : Dev) (p v : Nat) : Dev :=
  let waits := !d.portCxl p && d.stuck.any fun h => match h with
    | .pWrite q _ _ _ => q == p
    | _ => false
  if waits then { d with stuck := d.stuck ++ [.pMark p v] } else d.markTake p v

/-! ### Reads (R233, R234, R451) -/

/-- What one 64 KiB part of a read meets. -/
inductive Part where
  | unmapped
  | hold (handle : Nat)
  | damaged (handle : Nat)
  | serve (handle off : Nat)
deriving DecidableEq, Repr

/-- How an object answers a partner read: held before READY, served when READY (state-window objects also while R230 accepts their
writes), damaged under FAIL_TASK at once. -/
def Obj.readPart (o : Obj) (off : Nat) : Part :=
  if o.state = oDAMAGED ∧ o.policy ≠ 0 then .damaged o.handle
  else if o.state = oREADY ∨ (o.stateWin && o.writable) then .serve o.handle off
  else .hold o.handle

def Dev.readPart (d : Dev) (p addr : Nat) : Part :=
  match d.objectAt p addr with
  | none => .unmapped
  | some (o, off) => o.readPart off

/-- The bytes of an object as a read sees them, dry granules as zeros; the offsets of the dry granules touched. -/
def Dev.objRead (d : Dev) (o : Obj) (off n : Nat) : List Byte × List Nat :=
  (cutAt 4096 (n + 1) off 0 n).foldl (fun a x =>
    if d.isWet o ((off + x.1) / 4096) then (a.1 ++ d.placeRd o.place (off + x.1) x.2, a.2)
    else (a.1 ++ List.replicate x.2 0, a.2 ++ [(off + x.1) / 4096 * 4096])) ([], [])

/-- Dry granules that a read touched, each a handle and its offset: counted each, the first captured, raised (R233). -/
def Dev.dryRead (d : Dev) (dry : List (Nat × Nat)) : Dev :=
  match dry with
  | [] => d
  | x :: _ =>
    let d := d.bumpBy .DRY_READ_COUNT dry.length
    ((d.wr .DRY_READ_HANDLE x.1).wr64 .DRY_READ_OFFSET_LO x.2).raise 4 0 0

/-- What serving gives: the bytes, whether POISON marks them, the dry granules touched, and the first unmapped address met. -/
structure Served where
  data : List Byte
  poison : Bool
  dry : List (Nat × Nat)
  gap : Option Nat

/-- Serve one part. -/
def Dev.servePart (d : Dev) (p addr n : Nat) : Dev × Served :=
  let zeros (poison : Bool) : Served := { data := List.replicate n 0, poison := poison, dry := [], gap := none }
  match d.readPart p addr with
  | .unmapped => (d, { zeros false with gap := some addr })
  | .hold _ => (d, zeros false)
  | .damaged h => (d.bump .DAMAGED_READ_COUNT, zeros (((d.obj? h).map Obj.poison).getD false))
  | .serve h off =>
    match d.obj? h with
    | none => (d, zeros false)
    | some o =>
      let r := d.objRead o off n
      (((d.hbmBytes o.place n false).refUp h).refDown h,
        { zeros false with data := r.1, poison := o.poison && !r.2.isEmpty, dry := r.2.map fun g => (h, g) })

/-- Answer a partner read: data, or poison (CXL) or a completer abort (aperture) where some part calls for it (R449, R451). -/
def Dev.pAnswer (d : Dev) (p tid : Nat) (data : List Byte) (poison : Bool) : Dev :=
  let d := d.add64 .BYTES_RD_LO (if poison then 0 else data.length) p
  if poison then
    let d := (d.bump .POISON_RETURN_COUNT p).raise (ppb p) 0 4
    if d.portCxl p then d.emit (.partner p tid 1 data) else d.emit (.partner p tid 2 [])
  else d.emit (.partner p tid 0 data)

/-- The parts of a read, one per window block. -/
def readParts (addr len : Nat) : List (Nat × Nat) := cutAt 65536 (len + 1) addr 0 len

/-- Serve a read whole; where it meets no object it is one violation, at the first such address (R448). -/
def Dev.pServe (d : Dev) (p addr len tid : Nat) : Dev :=
  let r := (readParts addr len).foldl (fun (a : Dev × Served) x =>
    let q := a.1.servePart p (addr + x.1) x.2
    (q.1, { data := a.2.data ++ q.2.data, poison := a.2.poison || q.2.poison, dry := a.2.dry ++ q.2.dry,
             gap := a.2.gap <|> q.2.gap }))
    (d, { data := [], poison := false, dry := [], gap := none })
  let d := match r.2.gap with
    | some a => r.1.pViol p 0x0A04 a 0
    | none => r.1
  (d.dryRead r.2.dry).pAnswer p tid r.2.data r.2.poison

/-- The object that a read waits for: one before READY, or one whose REFCOUNT is full (R236). -/
def Dev.waitsFor (d : Dev) (p addr len : Nat) : Option Nat :=
  (readParts addr len).findSome? fun x => match d.readPart p (addr + x.1) with
    | .hold h => some h
    | .serve h _ => if d.refFull h then some h else none
    | _ => none

/-- The cause that a hold is charged to (Table 11-4): what moves or builds the object, or NOT_ISSUED. -/
def Dev.holdCause (d : Dev) (h : Nat) : Nat :=
  match d.flm.streams.find? fun s => s.handle == h && s.op != 4 with
  | some s =>
    let c := (d.streamWait s).getD 0
    if c ≠ 0 ∧ c ≠ cClassWait then c
    else if 2 ≤ s.src.tier then d.lateCause s.src
    else match s.dst with
      | some p => if 2 ≤ p.tier then d.lateCause p else cClassWait
      | none => cClassWait
  | none =>
    if d.chains.any fun c => c.handle == h then cBehind
    else match d.pool.drains.find? fun x => x.handle == h with
      | some x => d.lateCause x.dst
      | none => cNotIssued

/-- A partner read: served, or held (R17, R234) with an EARLY_READ violation for each object not READY. Under a freeze of the port's
block reads are held (R467). -/
def Dev.pRead (d : Dev) (p addr len tid : Nat) : Dev :=
  let d := d.touchBlocks p addr len
  let early := (readParts addr len).filterMap fun x => match d.readPart p (addr + x.1) with
    | .hold h => some (addr + x.1, h)
    | _ => none
  let hold (d : Dev) (h : Nat) : Dev := { d with reads := d.reads ++ [{
    port := p, addr := addr, len := len, tid := tid, handle := h, since := d.gh.timer, cause := d.holdCause h }] }
  let d := early.foldl (fun e x => e.pViol p 0x0A07 x.1 x.2) d
  match d.waitsFor p addr len with
  | some h => hold (if early.isEmpty then d.bump .REFCOUNT_WAIT_COUNT else d) h
  | none =>
    if d.frozen (ppb p) then hold d (((d.objectAt p addr).map fun x => x.1.handle).getD 0) else d.pServe p addr len tid

/-- A hold ends: charged to its cause (R264). -/
def Dev.holdEnd (d : Dev) (r : HRead) (cause : Nat) : Dev :=
  let ns := ticksToNs (d.gh.timer - r.since)
  let d := { d with reads := d.reads.erase r }
  let i := cause - 0x0401
  ((d.bump (.STALL_COUNT i)).add64 (.STALL_NS_LO i) ns).traceStall cause r.handle ns none

/-! ### The object aperture (R478 to R482) -/

/-- An aperture access that is not served: counted with its cause (R479). -/
def Dev.apFault (d : Dev) (j cause : Nat) : Dev :=
  let d := d.bump .AP_FAULT_COUNT
  ((d.set .AP_FAULT_INFO_CAUSE cause).set .AP_FAULT_INFO_SUBWIN j).raise hostBlk 0 4

/-- The object and byte offset that a BAR-2 offset reaches, or the cause it is refused with (R479). -/
def Dev.apTarget (d : Dev) (addr n : Nat) : Except Nat (Obj × Nat) :=
  let j := addr / 2 ^ 32
  if d.get (.AP_CTRL_EN j) = 0 then .error 0x0B02
  else match d.obj? (d.rd (.AP_BIND j)) with
    | none => .error 0x0B03
    | some o =>
      let off := d.get (.AP_OFF_BLOCK j) * 65536 + addr % 2 ^ 32
      if o.blocks * 65536 < off + max 1 n then .error 0x0B04 else .ok (o, off)

/-- An aperture read: zeros through a disabled sub-window, a completer abort for the other faults, a dry granule by
DRY_POISON; a read that would be one user too many waits, counted once (R236). -/
def Dev.apReadAgain (d : Dev) (addr len tid : Nat) (counted : Bool) : Dev :=
  let d := d.touchEntry (hIndex (d.rd (.AP_BIND (addr / 2 ^ 32))))
  let j := addr / 2 ^ 32
  match d.apTarget addr len with
  | .error c =>
    let d := d.apFault j c
    if c = 0x0B02 then d.emit (.host tid 0 (List.replicate len 0)) else d.emit (.host tid 2 [])
  | .ok (o, off) =>
    if !(o.state == oFILLING || o.state == oWET || o.state == oSEALED || o.state == oREADY) then
      (d.apFault j 0x0B05).emit (.host tid 2 [])
    else if d.refFull o.handle then { d.refWaits counted with stuck := d.stuck ++ [.apRead addr len tid] }
    else
      let r := d.objRead o off len
      let d := ((d.refUp o.handle).refDown o.handle).dryRead (r.2.map fun g => (o.handle, g))
      if o.poison && !r.2.isEmpty then d.emit (.host tid 2 []) else d.emit (.host tid 0 r.1)

/-- An aperture read that arrives. -/
def Dev.apRead (d : Dev) (addr len tid : Nat) : Dev := d.apReadAgain addr len tid false

/-- An aperture write (R480): in the states of R230, by R229 and R232; never a gate word. -/
def Dev.apWrite (d : Dev) (addr : Nat) (data : List (Option Byte)) : Dev :=
  let d := d.touchEntry (hIndex (d.rd (.AP_BIND (addr / 2 ^ 32))))
  let j := addr / 2 ^ 32
  match d.apTarget addr data.length with
  | .error c => d.apFault j c
  | .ok (o, off) =>
    if d.get (.AP_CTRL_WR_EN j) = 0 ∨ !o.writable then d.apFault j 0x0B05
    else (cutAt 4096 (data.length + 1) off 0 data.length).foldl (fun e x => match e.obj? o.handle with
      | some y => e.granuleWrite y (off + x.1) ((data.drop x.1).take x.2)
      | none => e) d

/-- Writes held on residue granules land once their reads have started, and the marks behind them follow (R422). -/
def Dev.stuckRelease (d : Dev) : Dev :=
  let q := d.stuck
  q.foldl (fun e h => match h with
    | .pWrite p a b _ => match e.objectAt p a with
      | some (o, off) => if e.ckHolds o (off / 4096) then e
        else ({ e with stuck := e.stuck.erase h }.pWriteBad p a b.length).pWritePart p a b
      | none => { e with stuck := e.stuck.erase h }.pWriteBad p a b.length
    | .pMark p v =>
      let waits := (e.stuck.takeWhile fun x => x != h).any fun x => match x with
        | .pWrite q _ _ _ => q == p
        | _ => false
      if waits then e else ({ e with stuck := e.stuck.erase h }).markTake p v
    | .apRead a n t => ({ e with stuck := e.stuck.erase h }).apReadAgain a n t true
    | _ => e) d

/-! ### Retirement (R246, R463) -/

/-- An object is retired: its deferred eviction is cancelled, its granules are dry; a stream that moves it ends under R245. -/
def Dev.retire (d : Dev) (h : Nat) : Dev :=
  match d.obj? h with
  | none => d
  | some o =>
    let d := match o.rearm with
      | some (tag, _) => d.refuse tag cObjectState
      | none => d
    ((d.clearWet o).updObj h fun x => { x with evictAfter := false, rearm := none }).setState h oRETIRED

end Sys2Proof.Machine
end

