-- ==== Sys2Proof/Machine/Cistern.lean ====
section
/-! DEFINITION. The Cistern's commands (chapter 19): its tasks, the messages of both sides, leases and timers. -/
namespace Sys2Proof.Machine

/-- REGION of a Cistern descriptor (Table 8-10). -/
def Task.region (t : Task) : Nat := bitsOf t.w1 32 8

/-- Does the task name no region that is installed with a mode other than OFF, or one that is not? -/
def Dev.regionOff (d : Dev) (t : Task) : Bool :=
  if t.region = 0xFF then d.ck.regions.all Region.off
  else match d.region? t.region with
    | some g => g.off
    | none => true

/-- The regions a task names, OFF ones left out of "all". -/
def Dev.namedRegions (d : Dev) (t : Task) : List Region := d.ck.regions.filter fun g => t.names g.id && !g.off

/-- The Cistern takes a task if it is neither frozen nor disabled; fields Table 8-10 does not list are zero. -/
def Dev.ckTask (d : Dev) (tag op : Nat) (bad : Task → Bool) (f : Dev → Task → Dev) : Dev :=
  match d.sentTask tag 0x80 op with
  | none => d
  | some t =>
    if d.frozen ckBlk || !d.enabled ckBlk || d.asleep then d
    else if bad t || t.w3 != 0 then d.refuse tag cDescParam
    else if d.plan.homeLost then d.refuse tag cStackLost
    else f (d.touchRegions t.names) t

/-- COMMIT (R426). An epoch that no live neighbour held refuses its step too, when it is the last (R427). -/
def execCommit (tag : Nat) (s : State) : Out := s.run fun d =>
  d.ckTask tag 1 (fun t => bitsOf t.w1 40 24 != 0 || t.w2 != 0) fun d t =>
    let step := bitsOf t.w1 0 32
    let gs := d.namedRegions t
    if d.regionOff t then d.refuse tag cRegionOff
    else if gs.any (fun g => (g.step.map fun x => decide (step < x)).getD false) then d.refuse tag cCommitStep
    else if gs.any (fun g => g.step == some step && g.unprot) then d.refuse tag cUnprotected
    else
      let d := d.acceptTask tag
      if d.stepDone t then d.served tag 0 else d

/-- TRICKLE (R428): trickle sending stops or starts; the mode recorded in commit records stays. -/
def execTrickle (tag : Nat) (s : State) : Out := s.run fun d =>
  d.ckTask tag 2 (fun t => bitsOf t.w1 0 32 != 0 || bitsOf t.w1 41 23 != 0 || t.w2 != 0) fun d t =>
    if d.regionOff t then d.refuse tag cRegionOff
    else
      let on := bitsOf t.w1 40 1 == 1
      let d := (d.namedRegions t).foldl (fun e g => e.updRegion g.id fun y => { y with still := !on }) d
      (d.acceptTask tag).served tag 0

/-- RESTORE (R435, R436): checked, accepted, and the image of each region asked for. -/
def execRestore (tag : Nat) (s : State) : Out := s.run fun d =>
  d.ckTask tag 3 (fun t => bitsOf t.w1 12 20 != 0 || bitsOf t.w1 41 23 != 0) fun d t =>
    let gs := d.namedRegions t
    if d.ck.restore.isSome then d
    else if d.regionOff t || gs.any (fun g => g.point) then
      (d.set .RESTORE_STATUS_LAST_CAUSE cRegionBusy).refuse tag cRegionBusy
    else if (gs.flatMap Region.objs).any (fun h => ((d.objAt (hIndex h)).map Obj.state).getD oFREE != oDRY) then (d.set .RESTORE_STATUS_LAST_CAUSE cObjectState).refuse tag cObjectState
    else
      let node := bitsOf t.w1 0 12
      let part (g : Region) : RPart :=
        { region := g.id, st := 0, record := [], wet := [], train := [], left := 0, todo := [] }
      let d := { d.acceptTask tag with ck := { d.ck with restore := some {
        tag := tag, node := node, epoch := t.w2, force := bitsOf t.w1 40 1 == 1, stage := 0, parts := gs.map part } } }
      let d := ((d.set .CK_STATUS_RESTORING 1).set .RESTORE_STATUS_BUSY 1).wr64 .RESTORE_BYTES_LO 0
      gs.foldl (fun e g => e.lrMsg 7 node (g.id * 16 + 4) 0
        (leBytes 8 t.w2 ++ leBytes 2 (e.get .CK_GEN_GEN) ++ leBytes 2 e.plan.leaseMs ++ leBytes 4 (e.manifestCrc g)
          ++ leBytes 8 (g.blocks * 65536) ++ leBytes 8 0)) d

/-! ### The restore's later steps (R436 to R439) -/

/-- Write bytes into a list at an offset. -/
def splice (l : List Byte) (off : Nat) (b : List Byte) : List Byte := (l.take off ++ b ++ l.drop (off + b.length)).take l.length

/-- A little-endian field of a record. -/
def recFld (r : List Byte) (o n : Nat) : Nat := leNat ((r.drop o).take n)

/-- Install the training block as RANGE_MODE enables it (R438). The block holds no ring position: the next history slot is taken to
be the first not filled (DESIGN CHOICE, notes/assumptions/14.md). -/
def Dev.installTrain (d : Dev) (b : List Byte) : Dev :=
  let mode := d.get .FB_STATUS_RANGE_MODE
  let d := if mode = 1 then d
    else (d.set .LS_CLEAN_CLEAN (recFld b 2 2)).set .LS_APPLIED_EXP (recFld b 0 1)
  if mode = 0 then d
  else
    let load (e : Dev) (x : Tensor) : Dev :=
      let o := 16 + 16 * x.id
      let w := recFld b (o + 8) 4
      let fill := bitsOf w 0 11
      e.putTensor { x with
        amaxLast := recFld b o 4, amaxHist := recFld b (o + 4) 4, scale := bitsOf w 24 8, shadow := bitsOf w 16 8, fill := fill,
        ptr := if x.histLen = 0 then 0 else fill % x.histLen, step := recFld b (o + 12) 4 }
    let d := d.fb.tensors.foldl load d
    d.wbs spT1 (d.rd64 .FB_T1_BASE_LO) ((b.drop 0x10010).take d.fb.histBytes)

/-- The restore completes when every fence is acknowledged or its neighbour LOST (R438); the neighbours then get their first
offer. -/
def Dev.restoreDone (d : Dev) : Dev :=
  match d.ck.restore with
  | none => d
  | some t =>
    let rs := t.parts.map RPart.region
    if t.stage ≠ 2 ∨ rs.any (fun r => (d.region? r).any fun g => g.nbrs.any Nbr.fence) then d
    else
      let blocks := d.rd64 .RESTORE_BYTES_LO / 65536
      let d := ((d.bump .RESTORE_COUNT).restoreClear.served t.tag blocks).raise ckBlk 2 0
      let d := { d with ck := { d.ck with open_ := true } }
      rs.foldl (fun e r => match e.region? r with
        | none => e
        | some g =>
          let e := g.nbrIx.foldl (fun f x => match f.nbr? r x with
            | some y => if y.st = 0 ∧ y.offer.isNone then f.offer r x 1 g.openEpoch else f
            | none => f) e
          e.takeQueued r g.queued) d

/-- After the last granule (R438). -/
def Dev.restoreFinish (d : Dev) : Dev :=
  match d.ck.restore with
  | none => d
  | some t =>
    if t.stage ≠ 1 ∨ t.parts.any (fun p => p.left != 0 || !p.todo.isEmpty) then d
    else
      let d := t.parts.foldl (fun e p => if p.train.isEmpty then e else e.installTrain p.train) d
      let gen := t.parts.foldl (fun a p => max a (recFld p.record 10 2 + 1)) (d.get .CK_GEN_GEN)
      let d := d.set .CK_GEN_GEN gen
      let now := d.gh.timer
      let one (e : Dev) (p : RPart) : Dev := match e.region? p.region with
        | none => e
        | some g =>
          let e := e.updRegion g.id fun y => { y with
            epoch := t.epoch
            step := some (recFld p.record 12 4)
            unprot := false
            nextStep := (recFld p.record 12 4 + 1) % 2 ^ 32
            nbrs := y.nbrs.map fun n => { n with fence := true, ans := now } }
          let e := ((List.range (16 * g.blocks)).filter (mapBit p.wet)).foldl (fun f n => f.dirtyAll g n) e
          g.nbrs.foldl (fun f n => f.lrMsg 11 n.node (g.id * 16 + 1) 0
            (leBytes 8 (t.epoch + 1) ++ leBytes 2 (f.get .CK_GEN_GEN) ++ leBytes 6 0)) e
      let d := t.parts.foldl one d
      ({ d with ck := { d.ck with restore := some { t with stage := 2 } } }).restoreDone

/-- Every region's image has passed: the wet granules are asked for. -/
def Dev.restoreStart (d : Dev) : Dev :=
  match d.ck.restore with
  | none => d
  | some t =>
    if t.stage = 0 ∧ t.parts.all (fun p => p.st == 2) then
      let fill (p : RPart) : RPart := match d.region? p.region with
        | some g => { p with todo := (List.range (16 * g.blocks)).filter (mapBit p.wet) }
        | none => p
      ({ d with ck := { d.ck with restore := some { t with stage := 1, parts := t.parts.map fill } } }).restoreFinish
    else d

/-- The last checks of one region's image (R436, 4 to 6). -/
def Dev.partCheck (d : Dev) (g : Region) (p : RPart) : Dev :=
  let r := p.record
  if crc32c p.wet ≠ recFld r 0x24 4 ∨ (recFld r 0x28 4 ≠ 0 ∧ crc32c p.train ≠ recFld r 0x2C 4) then d.restoreFail cRecordCrc
  else if recFld r 0x20 4 ≠ d.manifestCrc g then d.restoreFail cManifest
  else if recFld r 0x28 4 ≠ 0 ∧
      (recFld p.train 4 4 ≠ d.get .FB_STATUS_RANGE_MODE ∨ recFld p.train 8 4 ≠ d.fb.histBytes) then d.restoreFail cTrain
  else (d.updPart g.id fun q => { q with st := 2 }).restoreStart

/-- The largest training block that a record may announce. -/
def trainMax : Nat := 0x10010 + 4 * 4096 * 1024

/-- CKPT_COMMIT_RECORD (R436): the image exists and is not SUPERSEDED; STALE needs FORCE; the record's CRC; then its maps
are read. -/
def execCkptCommitRecord (l : Nat) (s : State) : Out := s.run fun d =>
  d.lrTake l 9 (some 3) 0 (fun m => m.body.length == 64 && m.msgB == 0 && bitsOf m.msgA 12 12 == 0) fun d m =>
    let r := bitsOf m.msgA 4 4
    match d.ck.restore, d.region? r, d.part? r with
    | some t, some g, some p =>
      if t.node ≠ m.src ∨ p.st ≠ 0 then d.violation l 0x0C0B m
      else if bitsOf m.msgA 8 4 = 4 then d.restoreFail cImageSuperseded
      else if bitsOf m.msgA 8 4 = 3 ∧ !t.force then d.restoreFail cImageStale
      else if crc32c (m.body.take 0x3C) ≠ recFld m.body 0x3C 4 ∨ trainMax < recFld m.body 0x28 4 then d.restoreFail cRecordCrc
      else
        let tb := recFld m.body 0x28 4
        let d := d.updPart r fun q => { q with
          st := 1, record := m.body, wet := List.replicate (2 * g.blocks) 0, train := List.replicate tb 0 }
        let d := d.imageRead r 1 wetBase (2 * g.blocks)
        d.imageRead r 2 trainBase tb
    | _, _, _ => d.violation l 0x0C0B m

/-- CKPT_COMMIT_NO_RECORD (R436). -/
def execCkptCommitNoRecord (l : Nat) (s : State) : Out := s.run fun d =>
  d.lrTake l 9 (some 4) 0 (fun m => m.body.isEmpty && (m.msgB == 0x0902 || m.msgB == 0x0904) && bitsOf m.msgA 8 16 == 0) fun d m =>
    match d.ck.restore, d.part? (bitsOf m.msgA 4 4) with
    | some t, some p => if t.node = m.src ∧ p.st = 0 then d.restoreFail m.msgB else d.violation l 0x0C0B m
    | _, _ => d.violation l 0x0C0B m

/-- A restored granule is stored: it becomes wet and dirty, its object FILLING or WET (R437, R418). A missing key or lane
halts the region's stream (its granule is asked for again on RESUME) or fails the restore (Table 12-2). -/
def Dev.restoreGranule (d : Dev) (g : Region) (n : Nat) (data : List Byte) : Dev :=
  match d.granuleIn g n data with
  | .error c =>
    if g.abort then d.restoreFail c
    else
      let d := d.updPart g.id fun p => { p with todo := n :: p.todo }
      if g.halted then d else (d.updRegion g.id fun y => { y with halted := true }).raise ckBlk 0 4
  | .ok b => match d.memberAt g.objs (n / 16) with
    | none => d
    | some (o, k) =>
      let d := (d.stopMove o.handle).placeWr o.place (k * 65536 + 4096 * (n % 16)) b
      (((d.wetGranule o (k * 16 + n % 16)).fillState o.handle).dirtyAll g n).add64 .RESTORE_BYTES_LO 4096

/-- A read of the restore is answered in full. -/
def Dev.restoreRead (d : Dev) (r kind off : Nat) (data : List Byte) : Dev :=
  match d.region? r with
  | none => d
  | some g =>
    let d := d.updPart r fun p => { p with left := p.left - 1 }
    if kind = 0 then (d.restoreGranule g (off / 4096) data).restoreFinish
    else
      let d := d.updPart r fun p =>
        if kind = 1 then { p with wet := splice p.wet (off - wetBase) data }
        else { p with train := splice p.train (off - trainBase) data }
      match d.part? r with
      | some p => if p.st = 1 ∧ p.left = 0 then d.partCheck g p else d
      | none => d

/-- FENCE_ACK (R438). -/
def execFenceAck (l : Nat) (s : State) : Out := s.run fun d =>
  d.lrTake l 11 (some 2) 0 (fun m => m.body.length == 16 && m.msgB == 0 && bitsOf m.msgA 8 16 == 0 && m.fld 10 6 == 0) fun d m =>
    let r := bitsOf m.msgA 4 4
    match (d.region? r).bind fun g => g.nbrs.findIdx? fun n => n.node == m.src && n.fence with
    | none => d.violation l 0x0C0B m
    | some x => (d.updNbr r x fun n => { n with fence := false }).restoreDone

/-! ### The writer's messages -/

/-- The neighbour of a region that a node is. -/
def Dev.nbrOf (d : Dev) (r node : Nat) : Option (Nat × Nbr) :=
  (d.region? r).bind fun g => (g.nbrs.findIdx? fun n => n.node == node).bind fun x => (g.nbrs[x]?).map fun n => (x, n)

/-- Is a message a well-formed CKPT_OFFER (Table 23-1)? -/
def offerOk (m : Flit) : Bool := m.body.length == 32 && m.fld 24 8 == 0 && bitsOf m.msgA 8 16 == 0

/-- CKPT_OFFER_ACCEPT (R420, R431, R520): the epoch is open on the neighbour; a first or a rejoin offer is followed by the
manifest, and a rejoin dirties every wet granule for both buffers. Where the epoch was committed meanwhile, the offer is made again for the
open one (notes/assumptions/129.md). -/
def execCkptOfferAccept (l : Nat) (s : State) : Out := s.run fun d =>
  d.lrTake l 7 (some 8) 0 (fun m => offerOk m && m.msgB == 0) fun d m =>
    let d := d.touchRegions fun r => r == bitsOf m.msgA 4 4
    let r := bitsOf m.msgA 4 4
    match d.region? r, d.nbrOf r m.src with
    | some g, some (x, n) => match n.offer with
      | none => d.violation l 0x0C0B m
      | some (op, e) =>
        if m.fld 0 8 ≠ e then d.violation l 0x0C0B m
        else
          let d := d.updNbr r x fun y => { y with
            offer := none, opened := some e, links := [], st := if op = 3 then 2 else if op = 1 then 1 else y.st }
          let d := if op = 3 then
              ((List.range (16 * g.blocks)).filter (d.regionWet g)).foldl (fun f k =>
                (f.setDirty g k (2 * x) true).setDirty g k (2 * x + 1) true) d
            else d
          let d := if op = 2 then d else d.ckptData r x manifestBase (d.manifest g)
          let now := (n.job.map CkJob.epoch).getD g.openEpoch
          if op ≠ 2 ∧ e ≠ now then d.offer r x op now else d.ckProgress r
    | _, _ => d.violation l 0x0C0B m

/-- CKPT_OFFER_REFUSE (R432): the loss of that neighbour. -/
def execCkptOfferRefuse (l : Nat) (s : State) : Out := s.run fun d =>
  d.lrTake l 7 (some 9) 0 offerOk fun d m =>
    let r := bitsOf m.msgA 4 4
    match d.nbrOf r m.src with
    | some (x, n) => if n.leased ∨ n.fence then (d.nbrLost r x).restoreDone.stuckRelease else d.violation l 0x0C0B m
    | none => d.violation l 0x0C0B m

/-- CKPT_COMMIT_ACK (R423, R424, R431). -/
def execCkptCommitAck (l : Nat) (s : State) : Out := s.run fun d =>
  d.lrTake l 9 (some 2) 0 (fun m => m.body.length == 16 && m.msgB == 0 && bitsOf m.msgA 8 16 == 0 && m.fld 10 6 == 0) fun d m =>
    let d := d.touchRegions fun r => r == bitsOf m.msgA 4 4
    let r := bitsOf m.msgA 4 4
    match d.nbrOf r m.src with
    | none => d.violation l 0x0C0B m
    | some (x, n) => match n.job with
      | none => d.violation l 0x0C0B m
      | some j =>
        if j.stage ≠ 2 ∨ j.epoch ≠ m.fld 0 8 then d.violation l 0x0C0B m
        else
          let d := d.updNbr r x fun y => { y with job := none, opened := none, links := [], st := 1 }
          let d := if n.st = 2 then d.raise ckBlk 0 3 else d
          let told (c : CkPoint) : CkPoint := if c.epoch = j.epoch then { c with wait := c.wait.erase x, acked := true } else c
          let d := d.updRegion r fun g => { g with commit := g.commit.map told }
          ((d.commitCheck r).offerOpen r).ckProgress r

/-- LEASE_ANSWER (R429). -/
def execLeaseAnswer (l : Nat) (s : State) : Out := s.run fun d =>
  d.lrTake l 10 (some 2) 0 (fun m => m.body.length == 8 && m.msgB == 0 && bitsOf m.msgA 4 20 == 0 && m.fld 6 2 == 0) fun d m =>
    let mask := m.fld 0 2
    let now := d.gh.timer
    let mine (g : Region) (y : Nbr) : Bool := y.node == m.src && y.asked && bitsOf mask g.id 1 == 1
    if d.ck.regions.any (fun g => g.nbrs.any (mine g)) then
      let one (g : Region) (y : Nbr) : Nbr := if mine g y then { y with ans := now, asked := false } else y
      let heard (g : Region) : Region := { g with nbrs := g.nbrs.map (one g) }
      { d with ck := { d.ck with regions := d.ck.regions.map heard } }
    else d.violation l 0x0C0B m

/-! ### The writer's timers and registers -/

/-- ms as AO ticks. -/
def msToTicks (ms : Nat) : Nat := ms * 19200

/-- LEASE_SEND_TIMER (R429): LEASE_MS / 4 since the last LEASE to the node. -/
def execLeaseSendTimer (node : Nat) (s : State) : Out := s.run fun d =>
  let due := d.ck.regions.any fun g => g.nbrs.any fun y =>
    y.node == node && y.leased && decide (y.sent + msToTicks d.plan.leaseMs / 4 ≤ d.gh.timer)
  if due && !d.asleep then d.leaseSend node else d

/-- Is a neighbour silent past its lease? -/
def Dev.silent (d : Dev) (y : Nbr) : Bool :=
  (y.st == 1 || y.st == 2 || y.fence || (y.st == 0 && y.offer.isSome)) &&
    decide (y.ans + msToTicks d.plan.leaseMs ≤ d.gh.timer)

/-- LEASE_LOST (R429, R431, R439): the neighbour is LOST in every region it was silent in. -/
def execLeaseLost (node : Nat) (s : State) : Out := s.run fun d =>
  let hit := d.ck.regions.flatMap fun g => (g.nbrIx.filter fun x => match g.nbrs[x]? with
    | some y => y.node == node && d.silent y
    | none => false).map fun x => (g.id, x)
  if hit.isEmpty ∨ d.asleep then d
  else
    let d := (d.bump .LEASE_LOST_COUNT).raise ckBlk 0 1
    let d := hit.foldl (fun e p => e.nbrLost p.1 p.2) d
    let d := match d.ck.restore with
      | some t => if t.node = node ∧ t.stage < 2 then d.restoreFail 0x0404 else d
      | none => d
    d.restoreDone.stuckRelease

/-- REOFFER_TIMER (R431): LEASE_MS since the loss or the last offer. -/
def execReofferTimer (node : Nat) (s : State) : Out := s.run fun d =>
  if d.asleep then d
  else d.ck.regions.foldl (fun e g => g.nbrIx.foldl (fun f x => match f.nbr? g.id x with
    | some y =>
      if y.node = node ∧ y.st = 3 ∧ !g.off ∧ y.offerAt + msToTicks f.plan.leaseMs ≤ f.gh.timer then
        f.offer g.id x 3 g.openEpoch
      else f
    | none => f) e) d

/-- CK_REGION_RESUME (R284, Table 19-12): a HALTED region's stream goes on. -/
def Dev.ckRegionWrite (d : Dev) (p : Path) (v : Word) : Dev :=
  let w := v.toNat
  if bitsOf w 8 2 ≠ 1 then d.errWr p ckBlk 0 0x9C 1 w
  else match d.region? (bitsOf w 0 4) with
    | some g => if g.halted then (d.updRegion g.id fun y => { y with halted := false }).ckProgress g.id else d
    | none => d

def execCkRegionResume (p : Path) (v : Word) (s : State) : Out := s.run fun d =>
  d.viaBus p ckBlk 0 0x9C v.toNat fun e => e.ckRegionWrite p v

/-! ### The host's side (R430, R432 to R434, R440) -/

def Dev.slot (d : Dev) (n : Nat) : HSlot := d.ck.slots.getD n HSlot.reset

def Dev.updSlot (d : Dev) (n : Nat) (f : HSlot → HSlot) : Dev :=
  { d with ck := { d.ck with slots := d.ck.slots.modify n f } }

/-- The enabled host slot of a writer's region. -/
def Dev.slotFor (d : Dev) (src region : Nat) : Option Nat :=
  (List.range 8).find? fun n =>
    d.get (.HOST_SLOT_CTRL_EN n) == 1 && d.get (.HOST_SLOT_CTRL_SOURCE n) == src && d.get (.HOST_SLOT_CTRL_REGION n) == region

def HSlot.buf (s : HSlot) (b : Nat) : HBuf := s.bufs.getD b HBuf.reset
def HSlot.setBuf (s : HSlot) (b : Nat) (x : HBuf) : HSlot := { s with bufs := s.bufs.set b x }

/-- Is a slot's lease unexpired? -/
def Dev.leaseLive (d : Dev) (s : HSlot) : Bool :=
  match s.lease with
  | some (t, ms) => decide (d.gh.timer < t + msToTicks ms)
  | none => false

/-- A refusal carries its cause, is counted and raised (R432). -/
def Dev.hostRefuse (d : Dev) (dst region epoch gen cause : Nat) : Dev :=
  let d := d.lrMsg 7 dst (region * 16 + 9) cause (leBytes 8 epoch ++ leBytes 2 gen ++ leBytes 22 0)
  (d.bump .HOST_REFUSE_COUNT).raise ckBlk 1 2

/-- Bytes two buffers and their metadata take: region, wet map, record, each in 64-byte steps (what "metadata" counts is a
DESIGN CHOICE, notes/assumptions/15.md). -/
def slotNeed (bytes : Nat) : Nat := 2 * (bytes + (bytes + 32767) / 32768 + 64)

/-- Accept an offer: the epoch's buffer is FILLING, GEN and the lease follow; the reply is kept for a duplicate (R521). -/
def Dev.hostAccept (d : Dev) (n op : Nat) (m : Flit) : Dev :=
  let e := m.fld 0 8
  let g := m.fld 8 2
  let region := bitsOf m.msgA 4 4
  let now := d.gh.timer
  let d := d.updSlot n fun s => { (s.setBuf (e % 2) { st := 1, epoch := e, gen := g, record := [] }) with
    gen := g, bytes := m.fld 16 8, manifest := s.manifest || op != 2, lease := some (now, m.fld 10 2),
    last := some (op, e, g) }
  d.lrMsg 7 m.src (region * 16 + 8) 0 (m.body.take 24 ++ leBytes 8 0)

/-- A message for a writer's region at this host reads the slot's manifest (R581). -/
def Dev.touchHost (d : Dev) (src region : Nat) : Dev :=
  match d.slotFor src region with
  | some n => d.touchSlot n
  | none => d

/-- An offer of an operation at the host (R432). -/
def Dev.hostOffer (d : Dev) (l op : Nat) : Dev :=
  match d.rxHead l 1 with
  | none => d
  | some h =>
    if h.dst == d.lr.node && !d.canReply h.src 1 then d
    else d.lrTake l 7 (some op) 0 (fun m => offerOk m && m.msgB == 0) fun d m =>
      let r := bitsOf m.msgA 4 4
      let d := d.touchHost m.src r
      let e := m.fld 0 8
      let g := m.fld 8 2
      match d.slotFor m.src r with
      | none => d.hostRefuse m.src r e g cNoSlot
      | some n =>
        let s := d.slot n
        if s.last = some (op, e, g) ∧ (s.buf (e % 2)).st = 1 ∧ (s.buf (e % 2)).epoch = e then
          d.lrMsg 7 m.src (r * 16 + 8) 0 (m.body.take 24 ++ leBytes 8 0)
        else
          let other := s.buf ((e + 1) % 2)
          let cause := if g < s.gen then cOldGen
            else if (s.place.map Place.size).getD 0 < slotNeed (m.fld 16 8) then cNoSpaceSlot
            else if op = 2 ∧ !(other.st == 2 && other.epoch + 1 == e) then cNoSlot
            else 0
          if cause = 0 then d.hostAccept n op m
          else d.hostRefuse m.src r e g cause

/-- CKPT_OFFER_FIRST, EPOCH, REJOIN (R432, R521, R522). -/
def execCkptOfferFirst (l : Nat) (s : State) : Out := s.run fun d => d.hostOffer l 1
def execCkptOfferEpoch (l : Nat) (s : State) : Out := s.run fun d => d.hostOffer l 2
def execCkptOfferRejoin (l : Nat) (s : State) : Out := s.run fun d => d.hostOffer l 3

/-- CKPT_OFFER_QUERY (R436, R433, R440): RECORD with the buffer's state, or NO_RECORD. -/
def execCkptOfferQuery (l : Nat) (s : State) : Out := s.run fun d =>
  match d.rxHead l 1 with
  | none => d
  | some h =>
    if h.dst == d.lr.node && !d.canReply h.src 3 then d
    else d.lrTake l 7 (some 4) 0 (fun m => offerOk m && m.msgB == 0) fun d m =>
      let r := bitsOf m.msgA 4 4
      let none_ (c : Nat) : Dev := d.lrMsg 9 m.src (r * 16 + 4) c []
      match d.slotFor m.src r with
      | none => none_ cImageNotFound
      | some n =>
        let b := (d.slot n).buf (m.fld 0 8 % 2)
        if b.epoch ≠ m.fld 0 8 ∨ b.st < 2 then none_ cImageNotFound
        else if b.st = 4 then none_ cImageSuperseded
        else d.lrMsg 9 m.src (b.st * 256 + r * 16 + 3) 0 b.record

/-- The byte key of a slot's storage: buffer 2 is the slot's manifest. -/
def hostKey (n b off : Nat) : Nat := (n * 4 + b) * 2 ^ 40 + off

/-- Where in the checkpoint space an access of `len` bytes lies: buffer storage (0) or manifest (1); none past an area
(Table 23-2). -/
def HSlot.area (s : HSlot) (off len : Nat) : Option Nat :=
  if off + len ≤ (s.bytes + 15) / 16 * 16 then some 0
  else if wetBase ≤ off ∧ off + len ≤ wetBase + ((s.bytes + 32767) / 32768 + 15) / 16 * 16 then some 0
  else if trainBase ≤ off ∧ off + len ≤ trainBase + trainMax then some 0
  else if manifestBase ≤ off ∧ off + len ≤ 0x4000000000 then some 1
  else none

/-- The FILLING buffer of a slot; the higher epoch if both fill. -/
def HSlot.filling (s : HSlot) : Option Nat :=
  let a := s.buf 0
  let b := s.buf 1
  if a.st = 1 ∧ (b.st ≠ 1 ∨ b.epoch ≤ a.epoch) then some 0 else if b.st = 1 then some 1 else none

/-- The byte offset of a message with OFF (section "Message fields"). -/
def Flit.off (m : Flit) : Nat := 16 * (m.msgA + bitsOf m.msgB 0 10 * 2 ^ 24)

/-- CKPT_DATA (R432, R516, R520, R521). -/
def execCkptData (l : Nat) (s : State) : Out := s.run fun d =>
  d.lrTake l 8 none 0 (fun m => m.body.length != 0 && m.body.length % 16 == 0) fun d m =>
    let d := d.touchHost m.src (bitsOf m.msgB 12 4)
    match d.slotFor m.src (bitsOf m.msgB 12 4) with
    | none => d.violation l 0x0C0A m
    | some n =>
      let s := d.slot n
      match s.filling with
      | none => d.violation l 0x0C0A m
      | some b =>
        if bitsOf m.msgB 10 2 ≠ s.gen % 4 then d.violation l 0x0C0A m
        else match s.area m.off m.body.length with
          | none => d.violation l 0x0C09 m
          | some 0 => d.wbs spHost (hostKey n b m.off) m.body
          | some _ => if s.manifest then d.wbs spHost (hostKey n 2 m.off) m.body else d.violation l 0x0C0A m

/-- CKPT_COMMIT_COMMIT (R423, R432, R521): the record enters its buffer, COMMITTED, and is acknowledged. -/
def execCkptCommitCommit (l : Nat) (s : State) : Out := s.run fun d =>
  d.lrTake l 9 (some 1) 0 (fun m => m.body.length == 64 && m.msgB == 0 && bitsOf m.msgA 8 16 == 0) fun d m =>
    let r := bitsOf m.msgA 4 4
    let d := d.touchHost m.src r
    let e := recFld m.body 0x10 8
    let g := recFld m.body 10 2
    match d.slotFor m.src r with
    | none => d.hostRefuse m.src r e g cNoSlot
    | some n =>
      let s := d.slot n
      let b := s.buf (e % 2)
      let ack (x : Dev) : Dev := x.lrMsg 9 m.src (r * 16 + 2) 0 (leBytes 8 e ++ leBytes 2 g ++ leBytes 6 0)
      if g < s.gen then d.hostRefuse m.src r e g cOldGen
      else if b.st = 2 ∧ b.epoch = e then ack d
      else if b.st = 1 ∧ b.epoch = e then
        let d := d.updSlot n fun y => y.setBuf (e % 2) { b with st := 2, record := m.body }
        (ack d).raise ckBlk 1 3
      else d.hostRefuse m.src r e g cNoSlot

/-- LEASE_RENEW (R429, R432): the slots whose GEN the message meets are renewed and answered. -/
def execLeaseRenew (l : Nat) (s : State) : Out := s.run fun d =>
  d.lrTake l 10 (some 1) 0 (fun m => m.body.length == 8 && m.msgB == 0 && bitsOf m.msgA 4 20 == 0 && m.fld 6 2 == 0) fun d m =>
    let now := d.gh.timer
    let g := m.fld 2 2
    let rs := (List.range 16).filter fun r => bitsOf (m.fld 0 2) r 1 == 1
    let r := rs.foldl (fun (a : Dev × Nat) r => match a.1.slotFor m.src r with
      | none => (a.1.hostRefuse m.src r 0 g cNoSlot, a.2)
      | some n =>
        if g < (a.1.slot n).gen then (a.1.hostRefuse m.src r 0 g cOldGen, a.2)
        else (a.1.updSlot n fun y => { y with lease := some (now, m.fld 4 2) }, a.2 + 2 ^ r)) (d, 0)
    if r.2 = 0 then r.1
    else r.1.lrMsg 10 m.src 2 0 (leBytes 2 r.2 ++ leBytes 2 g ++ leBytes 2 (m.fld 4 2) ++ leBytes 2 0)

/-- FENCE_FENCE (R433). -/
def execFenceFence (l : Nat) (s : State) : Out := s.run fun d =>
  d.lrTake l 11 (some 1) 0 (fun m => m.body.length == 16 && m.msgB == 0 && bitsOf m.msgA 8 16 == 0 && m.fld 10 6 == 0) fun d m =>
    let r := bitsOf m.msgA 4 4
    let f := m.fld 0 8
    let g := m.fld 8 2
    let d := d.touchHost m.src r
    match d.slotFor m.src r with
    | none => d.hostRefuse m.src r f g cNoSlot
    | some n =>
      let s := d.slot n
      if g < s.gen then d.hostRefuse m.src r f g cOldGen
      else
        let hit (b : HBuf) : Bool := b.st != 0 && b.st != 4 && decide (b.gen < g) && decide (f ≤ b.epoch)
        let d := d.updSlot n fun y => { y with gen := g, bufs := y.bufs.map fun b => if hit b then { b with st := 4 } else b }
        let d := if s.bufs.any hit then d.raise ckBlk 1 1 else d
        d.lrMsg 11 m.src (r * 16 + 2) 0 m.body

/-- HOST_LEASE_EXPIRY (R429, R430). -/
def execHostLeaseExpiry (n : Nat) (s : State) : Out := s.run fun d =>
  match (d.slot n).lease with
  | none => d
  | some (t, ms) =>
    if d.asleep ∨ d.gh.timer < t + msToTicks ms then d
    else
      let old (b : HBuf) : HBuf := if b.st = 2 then { b with st := 3 } else if b.st = 1 then HBuf.reset else b
      (d.updSlot n fun y => { y with lease := none, bufs := y.bufs.map old }).raise ckBlk 1 0

/-- A slot takes its space in the tier of HOST_TIER, charged to no partner; with none there, its offers find no space
(notes/assumptions/15.md). -/
def Dev.slotPlace (d : Dev) (n : Nat) : Dev :=
  let d := match (d.slot n).place with
    | some p => d.release p 0
    | none => d
  let bytes := d.rd (.HOST_SLOT_BYTES n) * 65536
  let q := if d.get (.HOST_SLOT_CTRL_EN n) = 1 ∧ bytes ≠ 0 then d.findPlace (d.get .HOST_TIER_TIER) 0 bytes else none
  let d := match q with
    | some p => d.takeFree p 0
    | none => d
  d.updSlot n fun y => { y with place := q }

/-- HOST_SLOT_CTRL_WRITE (R434): both buffers empty and GEN clear, or CK_BUSY while the lease is live. -/
def Dev.hostSlotWrite (d : Dev) (p : Path) (n : Nat) (v : Word) : Dev :=
  if 7 < n then d
  else
    let off := 0x90 + 16 * n
    if d.leaseLive (d.slot n) then d.errWr p ckBlk 1 off 0x0910 v.toNat
    else
      let d := d.updSlot n fun y => { HSlot.reset with place := y.place }
      (d.wr (.HOST_SLOT_CTRL n) (v.toNat &&& 0x80FF0FFF)).slotPlace n

def execHostSlotCtrlWrite (p : Path) (n : Nat) (v : Word) (s : State) : Out := s.run fun d =>
  d.viaReg p (.HOST_SLOT_CTRL n) 0 v.toNat fun e => e.hostSlotWrite p n v

/-- What a host answers to a read of the checkpoint space: STATUS and data (R440, Table 23-1). -/
def Dev.hostRead (d : Dev) (src region b off len : Nat) (force : Bool) : Nat × List Byte :=
  match d.slotFor src region with
  | none => (2, [])
  | some n =>
    let s := d.slot n
    match s.area off len with
    | none => (3, [])
    | some 1 => (0, d.rbs spHost (hostKey n 2 off) len)
    | some _ =>
      let st := (s.buf b).st
      if st = 2 ∨ (st = 3 ∧ force) then (0, d.rbs spHost (hostKey n b off) len) else (4, [])

end Sys2Proof.Machine
end

