-- ==== Sys2Proof/Machine/BlockRegs.lean ====
section
/-! DEFINITION. What a block reset does to a block's registers (R664). -/
namespace Sys2Proof.Machine

/-- The counter registers of a class: page and offset of the first of its row. A block reset clears them. -/
def counterRows (cls : Nat) : List (Nat × Nat) :=
  if cls = 0x10 then [
    (0, 0xb0), (0, 0xb4), (0, 0xbc), (0, 0xc0), (0, 0xcc)]
  else if cls = 0x20 then [
    (0, 0xb8), (0, 0xbc), (0, 0xc0), (0, 0xc4), (0, 0xc8), (0, 0xcc), (1, 0x100), (1, 0x104), (2, 0xe0)]
  else if cls = 0x30 then [
    (0, 0x8c), (0, 0x9c), (0, 0xa4), (0, 0xa8), (0, 0xb0), (0, 0xb4), (0, 0xb8), (0, 0xc0)]
  else if cls = 0x31 then [
    (0, 0xa0), (0, 0xa4), (0, 0xa8), (0, 0xac), (0, 0xb0), (0, 0xb4), (0, 0xb8), (0, 0xbc), (0, 0xc0), (0, 0xc4),
    (0, 0xc8), (1, 0x9c), (3, 0x80), (3, 0x84), (3, 0x88)]
  else if cls = 0x40 then [
    (0, 0x94), (0, 0x98), (0, 0x9c), (0, 0xa0), (0, 0xa4), (0, 0xa8), (0, 0xac), (0, 0xb0), (1, 0x210), (1, 0x308),
    (1, 0x314), (1, 0x318), (1, 0x31c), (1, 0x320)]
  else if cls = 0x50 then [
    (0, 0x88), (0, 0x8c), (0, 0x90), (0, 0xa0), (0, 0xa4), (0, 0xa8), (0, 0xac), (0, 0xb0), (0, 0xb4), (0, 0xc4),
    (0, 0xc8), (0, 0xcc), (0, 0xd0), (0, 0xd4), (0, 0xd8)]
  else if cls = 0x51 then [
    (0, 0xb4)]
  else if cls = 0x60 then [
    (0, 0x90), (0, 0x94), (0, 0x98), (0, 0xb0), (0, 0xb4), (0, 0xb8), (0, 0xbc), (0, 0xc0)]
  else if cls = 0x61 then [
    (0, 0x90), (0, 0x94), (0, 0x98), (0, 0x9c), (0, 0xa0)]
  else if cls = 0x70 then [
    (0, 0xa0), (0, 0xb0), (0, 0xb4), (0, 0xb8), (0, 0xbc), (0, 0xc0), (0, 0xc4), (1, 0x8c), (1, 0xa4), (1, 0xa8),
    (1, 0xc0), (1, 0xc4)]
  else if cls = 0x80 then [
    (0, 0xa4), (0, 0xb4), (0, 0xb8), (0, 0xbc), (0, 0xc0), (0, 0xc4), (0, 0xc8), (1, 0x12c), (2, 0x8c)]
  else if cls = 0x90 then [
    (0, 0xa4), (0, 0xa8), (0, 0xac), (0, 0xb0), (0, 0xb4), (0, 0xb8), (0, 0xbc), (0, 0xc0), (0, 0xc4), (1, 0x90)]
  else if cls = 0xa0 then [
    (0, 0x98), (0, 0x9c), (0, 0xa0), (0, 0xa4), (0, 0xa8), (0, 0xac)]
  else if cls = 0xa1 then [
    (0, 0x88), (0, 0x8c), (0, 0x90), (0, 0x94), (0, 0x98), (0, 0x9c), (0, 0xa0)]
  else if cls = 0xb0 then [
    (0, 0x9c), (0, 0xac), (0, 0xb0), (0, 0xbc), (0, 0xc0), (0, 0xc4), (0, 0xc8), (0, 0xcc), (0, 0xd0), (0, 0xd4),
    (0, 0xd8), (1, 0x94), (1, 0x98), (1, 0x9c), (1, 0xc0)]
  else if cls = 0xb1 then [
    (0, 0xa8), (0, 0xac), (0, 0xb0), (0, 0xb4), (0, 0xb8), (0, 0xbc), (0, 0xc0), (1, 0xa0)]
  else if cls = 0xc0 then [
    (0, 0x94), (0, 0x98), (0, 0x9c), (0, 0xa0), (0, 0xa4), (0, 0xa8), (0, 0xac)]
  else if cls = 0xd0 then [
    (0, 0xd0), (0, 0x10c)]
  else if cls = 0xe0 then [
    (0, 0xa4), (0, 0xa8), (0, 0xc0), (0, 0xc4), (0, 0xcc), (0, 0xd0), (0, 0xd4), (0, 0x114)]
  else if cls = 0xe1 then [
    (0, 0xb8), (0, 0xe8), (0, 0xf0)]
  else []

/-- Registers of type RW that hold memory, retained settings, a lock, the rings, the device-wide lead settings, the trace settings, or what the
AO domain's sequencer runs (R50, R166, R282, R572, R586, R617, R664, chapter 06): a block reset keeps them (notes/assumptions/28.md). -/
def keptRow (cls page off : Nat) : Bool :=
  if cls = 0xe0 then off == 0xb4 || off == 0xb8 || off == 0xbc || (decide (0xe0 ≤ off) && decide (off < 0x100)) || decide (0x200 ≤ off)
  else if cls = 0x10 then page == 1 || (page == 0 && (off == 0x80 || off == 0x88))
  else if cls = 0x11 then true
  else if cls = 0x20 then (page == 0 && off == 0xb4) || (page == 1 && decide (off < 0x100))
  else if cls = 0x40 then page == 1 && (decide (0x800 ≤ off) || (decide (0x200 ≤ off) && decide (off ≤ 0x210)))
  else if cls = 0xd0 then true
  else false

/-- What a register's word becomes: RW and WO fields take their reset value, counters clear, the rest stays. -/
def resetWord (cls page off v : Nat) : Nat :=
  match rowAt cls page off with
  | none => v
  | some r =>
    if keptRow cls page off then v
    else
      let cnt := (counterRows cls).any fun e => e.1 == r.page && e.2 == r.off
      r.flds.foldl (fun a f =>
        if f.acc == .rw || f.acc == .wo || f.acc == .w1s || (cnt && f.acc == .ro) then putBits a f.lo (f.hi + 1 - f.lo) f.rst else a) v

/-- One stored register of a block at its reset: of the header, BLK_STATUS keeps only what the chapters put there (31:16) and
DISABLED; IRQ, error registers and IRQ_SEQ return to their reset values. -/
def resetReg (e : Nat × Word) : Option (Nat × Word) :=
  let b := e.1 / 32768
  let page := e.1 / 4096 % 8
  let off := e.1 % 4096
  let v := e.2.toNat
  let w := if off = offStatus then v - bitsOf v 0 16 + putBits 0 4 1 (bitsOf v 4 1)
    else if off < 0x80 then (regDefault e.1).toNat
    else resetWord (blkClass b) page off v
  if BitVec.ofNat 32 w = regDefault e.1 then none else some (e.1, BitVec.ofNat 32 w)

/-- The registers of a block return to their reset state. -/
def Dev.regsReset (d : Dev) (b : Nat) : Dev :=
  { d with
    regs := d.regs.filterMap fun e => if e.1 / 32768 = b then resetReg e else some e
    sel := d.sel.filter fun e => e.1 / 8 % 128 != b
    stage := d.stage.filter fun e => e.1 / 32768 % 128 != b }

end Sys2Proof.Machine
end

