-- ==== Sys2Proof/Machine/Host.lean ====
section
/-! DEFINITION. The Host Port's and expander ports' commands (chapter 21), but for the register accesses of BAR-0 and BAR-4. -/
namespace Sys2Proof.Machine

/-! ### The host function -/

/-- The host function's configuration space, block, MSI-X table and translations are reset (R470); the link and the messages that
wait in the PBA stay. -/
def Dev.hostReset (d : Dev) : Dev :=
  let link := d.rd .HOST_LINK
  let d := (d.regsReset hostBlk).wr .HOST_LINK (link - link % 2)
  let d := { d with
    msix := { d.msix with en := false, fmask := false, tbl := [] }
    host := { pri := false, cpl := false, range := false, inv := [] }
    mgmt := { d.mgmt with events := [] } }
  (d.set .MCTP_EID_VDM 0).t3Update

/-- HOST_LINK changes state, with its LINK packet. -/
def Dev.hostLink (d : Dev) (st : Nat) : Dev :=
  let d := d.set .HOST_LINK_STATE st
  d.traceLink hostBlk st (d.get .HOST_LINK_RATE) (d.get .HOST_LINK_WIDTH)

/-- HOST_RESET (R470, R471, R595, R607, R632, R634). A falling HOST_PERST_N wakes the device; a hot reset and a link loss take the
link out of L0, and it trains again; FLR_OR_RESET is raised. -/
def execHostReset (k : HostRst) (s : State) : Out := s.run fun d =>
  if k = .perst ∧ !d.pins.hostPerst ∨ k ≠ .perst ∧ !d.hostUp then d
  else
    let d := if k = .perst then
        let d := if d.asleep then d.wake 3 else d
        { d with pins := { d.pins with hostPerst := false } }
      else d
    let up := d.hostUp
    let d := if k = .flr then d else d.hostLink (if k = .perst then 0 else 1)
    let d := d.hostReset
    let d := if k ≠ .flr && up then d.raise hostBlk 0 0 else d
    d.raise hostBlk 0 2

/-- A boot that halted before the end of stage 7 has no host link until the next reboot or device reset (R128). -/
def Dev.hostless (d : Dev) : Bool := d.get .BOOT_STATUS_RESULT == 2 && decide (d.boot.next ≤ 7)

/-- HOST_PERST_RELEASE (R633): the link trains from stage 3 on. -/
def execHostPerstRelease (s : State) : Out := s.run fun d =>
  if d.pins.hostPerst then d
  else
    let d := { d with pins := { d.pins with hostPerst := true } }
    if d.bootPast 3 && !d.hostless then d.hostLink 1 else d

/-- HOST_LINK_UP (R471): the link reaches L0. -/
def execHostLinkUp (width rate : Nat) (s : State) : Out := s.run fun d =>
  if d.get .HOST_LINK_STATE ≠ 1 ∨ !d.pins.hostPerst then d
  else
    let d := ((d.set .HOST_LINK_WIDTH width).set .HOST_LINK_RATE rate).hostLink 2
    (d.raise hostBlk 0 1).t3Update

/-- Messages that wait in the PBA are sent where nothing masks them, if their summary is then 1 (R471); vector 0 has no summary (R43). -/
def Dev.sendPending (d : Dev) (v : Nat) : Dev :=
  if bitsOf d.msix.pba v 1 = 0 ∨ !d.msix.en ∨ d.msix.fmask ∨ d.msixWord v 3 % 2 = 1 then d
  else
    let d := { d with msix := { d.msix with pba := putBits d.msix.pba v 1 0 } }
    if v = 0 || d.vecSummary v then d.sendVec v else d

/-- From the end of stage 7 until READY or a halt, requests are answered Request Retry Status (R129). -/
def Dev.retryStatus (d : Dev) : Bool := d.boot.running && decide (7 < d.boot.next)

/-- The dword that a configuration read returns: identity, Bus Master Enable and class code as Table 21-1 gives them; what PCIe 6.0
defines and this spec does not give is a free value (notes/assumptions/42.md). -/
def Dev.cfgRead (d : Dev) (off : Nat) : Nat × Dev :=
  if off = 0 then (0x4460 * 65536 + Config.vendorId () % 65536, d)
  else
    let r := d.fresh
    if off = 4 then (putBits (r.1 % 2 ^ 32) 2 1 (d.get .HOST_LINK_BME), r.2)
    else if off = 8 then (0x12000000 + r.1 % 256, r.2)
    else (r.1 % 2 ^ 32, r.2)

/-- HOST_CONFIG_REQUEST (R129, R469, R471). -/
def execHostConfigRequest (c : CfgReq) (tid : Nat) (s : State) : Out := s.run fun d =>
  if !d.hostUp then d
  else if d.retryStatus then d.emit (.host tid 4 [])
  else match c with
    | .read off => let r := d.cfgRead off; r.2.emit (.host tid 0 (leBytes 4 r.1))
    | .bme on => ((d.set .HOST_LINK_BME (bit01 on)).t3Update).emit (.host tid 0 [])
    | .msix en mask =>
      let d := { d with msix := { d.msix with en := en, fmask := mask } }
      ((List.range 256).foldl (fun e v => e.sendPending v) d).emit (.host tid 0 [])
    | .other => d.emit (.host tid 0 [])

/-- A write of word `w` of MSI-X table entry `v`. -/
def Dev.msixWrite (d : Dev) (v w x : Nat) : Dev :=
  ({ d with msix := { d.msix with tbl := Sparse.put msixDefault d.msix.tbl (4 * v + w) (BitVec.ofNat 32 x) } }).sendPending v

/-- MSI_X_TABLE_WRITE (R471), at BAR-4 offset 16·v + 4·w. -/
def execMsiXTableWrite (v w : Nat) (x : Word) (s : State) : Out := s.run fun d =>
  if !d.hostUp ∨ 255 < v ∨ 3 < w then d else d.heldAccess 3 (.msix v w x.toNat) fun e => e.msixWrite v w x.toNat

/-- APERTURE_READ (R478, R479, R481, R482): at byte `addr` of BAR-2. -/
def execApertureRead (addr len tid : Nat) (s : State) : Out := s.run fun d =>
  if !d.hostUp ∨ 2 ^ 36 ≤ addr then d else d.heldAccess 3 (.apRead addr len tid) fun e => e.apRead addr len tid

/-- APERTURE_WRITE (R229, R232, R478 to R480). -/
def execApertureWrite (addr : Nat) (data : List (Option Byte)) (s : State) : Out := s.run fun d =>
  if !d.hostUp ∨ 2 ^ 36 ≤ addr then d else d.heldAccess 3 (.apWrite addr data) fun e => e.apWrite addr data

/-! ### ATS (R476) -/

/-- Does a T3 byte lie in an invalidated I/O virtual range? -/
def Dev.inRange (d : Dev) (a n addr len : Nat) : Bool :=
  let v := d.rd64 .HOST_T3_BASE_LO + a
  decide (v < addr + len) && decide (addr < v + n)

/-- What an invalidation waits for at a stream: reads outstanding from the range, issued writes to it. -/
def Dev.invalWait (d : Dev) (s : Stream) (addr len : Nat) : Option ((Nat × Nat × Nat) × (Bool × List (Nat × Nat))) :=
  let n := match d.obj? s.handle with
    | some o => s.srcBlk o
    | none => 65536
  let reads := s.src.tier == 3 && (s.rdq.map Prod.fst).any fun j =>
    d.inRange (s.src.addr + s.blk (j / pieces n) * n + 4096 * (j % pieces n)) (min 4096 (n - 4096 * (j % pieces n))) addr len
  let writes := match s.dst with
    | some p => if p.tier = 3 then ((s.wq.take s.wi).filter fun w => d.inRange (p.addr + w.addr) w.bytes.length addr len).map
        fun w => (w.blk, w.addr) else []
    | none => []
  if reads || !writes.isEmpty then some (s.key, reads, writes) else none

/-- ATS_INVALIDATION: it waits for the transfers issued under its translations. -/
def execAtsInvalidation (itag addr len : Nat) (s : State) : Out := s.run fun d =>
  if !d.hostUp then d
  else
    let x : Inval := { itag := itag, since := d.gh.timer, waits := d.flm.streams.filterMap fun s => d.invalWait s addr len }
    { d with host := { d.host with inv := d.host.inv ++ [x] } }

/-- Does a stream still hold what the invalidation waits for? -/
def Dev.invalHeld (d : Dev) (x : Inval) : List Stream :=
  x.waits.filterMap fun w => (d.stream? w.1).bind fun s =>
    let reads := w.2.1 && s.rdq.any fun e => decide (e.2 ≤ x.since)
    let writes := (s.wq.take s.wi).any fun y => w.2.2.contains (y.blk, y.addr)
    if reads || writes then some s else none

/-- STALL_LIMIT.ENGINE in ticks. -/
def Dev.stallTicks (d : Dev) : Nat := usToTicks (d.get .STALL_LIMIT_ENGINE)

/-- ATS_INVALIDATION_COMPLETE: once its transfers have completed, or at STALL_LIMIT.ENGINE, when they fail under R266. -/
def execAtsInvalidationComplete (itag : Nat) (s : State) : Out := s.run fun d =>
  match d.host.inv.find? fun x => x.itag == itag with
  | none => d
  | some x =>
    let held := d.invalHeld x
    if !held.isEmpty ∧ d.gh.timer < x.since + d.stallTicks then d
    else
      let d := held.foldl (fun e s => e.streamTierFail s) d
      let d := { d with host := { d.host with inv := d.host.inv.filter fun y => y.itag != itag } }
      (d.bump .ATS_INVAL_COUNT).emit (.ats itag)

/-! ### Completion errors (R477) -/

/-- The block of expander port `e`. -/
def expb (e : Nat) : Nat := 75 + e

/-- TIER_COMPLETION_ERROR: the oldest outstanding read of a stream from T2 or T3 completes with poison or an error. -/
def execTierCompletionError (f c slot : Nat) (e : CplErr) (s : State) : Out := s.run fun d =>
  match d.stream? (f, c, slot) with
  | none => d
  | some x => match x.nextRead with
    | none => d
    | some i =>
      if x.src.tier ≠ 2 ∧ x.src.tier ≠ 3 then d else
      let u := x.src.unit
      let d := if x.src.tier = 3 then
          { d.bump .T3_CPL_ERR_COUNT with host := { d.host with cpl := true } }.t3Update
        else if e = .poison then (d.bump .POISON_RX_COUNT u).raise (expb u) 0 2
        else d.bump .CPL_ERR_COUNT u
      let d := d.updStream x.key fun y => { y with rdq := y.rdq.filter fun e => e.1 != i }
      (d.streamTierFail x).issueAll f

/-! ### Expander ports (R484 to R490) -/

def Dev.exp (d : Dev) (e : Nat) : Exp := d.exps.getD e { down := none }
def Dev.setDown (d : Dev) (e : Nat) (t : Option Nat) : Dev := { d with exps := d.exps.set e { down := t } }

/-- EXP_STATUS changes state, with its LINK packet. -/
def Dev.expLink (d : Dev) (e st : Nat) : Dev :=
  let d := d.set .EXP_STATUS_STATE st e
  d.traceLink (expb e) st (d.get .EXP_STATUS_RATE e) (d.get .EXP_STATUS_WIDTH e)

/-- EXPANDER_LINK_DOWN (R487): the link leaves L0 other than by a power state. -/
def execExpanderLinkDown (e : Nat) (s : State) : Out := s.run fun d =>
  let st := d.get .EXP_STATUS_STATE e
  if 3 < e ∨ st < 2 ∨ 4 < st then d
  else
    let d := ((d.expLink e 1).bump .EXP_RETRAIN_COUNT e).set .EXP_STATUS_PATH_FAILED 1 e
    ((d.setDown e (some d.gh.timer)).raise (expb e) 0 0).setPath 2 e true

/-- EXPANDER_LINK_UP (R485, R487): back in L0, or a late expander that adds no capacity until the next boot. -/
def execExpanderLinkUp (e width rate : Nat) (flit256 : Bool) (s : State) : Out := s.run fun d =>
  let st := d.get .EXP_STATUS_STATE e
  if 3 < e ∨ !d.mayTrain 9 (e, (48 + e, expb e)) rate ∨ (st ≠ 1 ∧ st ≠ 6) then d
  else
    let d := ((d.set .EXP_STATUS_WIDTH width e).set .EXP_STATUS_RATE rate e).set .EXP_STATUS_FLIT256 (bit01 flit256) e
    let d := ((d.expLink e 2).set .EXP_STATUS_PATH_FAILED 0 e).setDown e none
    ((d.raise (expb e) 0 1).setPath 2 e false).mapParam (expb e) 16 (rate * 256 + width)

/-- Does a place touch a unit of its tier? -/
def Place.on (p : Place) (tier unit : Nat) : Bool := p.tier == tier && p.unit == unit

/-- The objects homed on a unit become DAMAGED; no task found it (notes/assumptions/20.md). -/
def Dev.damageUnit (d : Dev) (tier unit : Nat) : Dev :=
  let hs := (d.objs.map (·.2)).filter fun o => o.state != oFREE && o.state != oRETIRED && o.place.on tier unit
  hs.foldl (fun e o => (e.damage o.handle
    { svc := 4, deadline := 2 ^ 64, ring := 0, step := o.step, mb := o.mb, tag := none }).1) d

/-- Host slots with bytes on a unit have both buffers EMPTY (R488). -/
def Dev.emptySlots (d : Dev) (tier unit : Nat) : Dev :=
  { d with ck := { d.ck with slots := d.ck.slots.map fun y =>
      if (y.place.map fun p => p.on tier unit).getD false then { y with bufs := [HBuf.reset, HBuf.reset] } else y } }

/-- EXPANDER_DOWN_LIMIT (R42, R43, R487, R488, R635): the port becomes PRESENT_DISABLED. -/
def execExpanderDownLimit (e : Nat) (s : State) : Out := s.run fun d =>
  match (d.exp e).down with
  | none => d
  | some t =>
    if d.get .EXP_STATUS_STATE e ≠ 1 ∨ d.gh.timer < t + msToTicks (d.get .EXP_DOWN_LIMIT_MS e) ∨ !d.present (expb e) then d
    else
      let cap := d.unitCap 2 e
      let d := d.wr64 (.CAPACITY_T_LO 2) (d.rd64 (.CAPACITY_T_LO 2) - cap)
      let d := ((d.expLink e 5).setDown e none).disableUnit (expb e) 0x0B10
      let d := { d with pins := { d.pins with expPerst := putBits d.pins.expPerst e 1 0 } }
      ((d.raise (expb e) 0 3).damageUnit 2 e).emptySlots 2 e

/-- EXPANDER_EVENT_POLL (R490): in RUN and IDLE; the counts of Warning records and of Failure and Fatal records read. -/
def execExpanderEventPoll (e warn fail : Nat) (s : State) : Out := s.run fun d =>
  if 3 < e ∨ d.asleep ∨ d.get .EXP_STATUS_STATE e ≠ 2 then d
  else
    let d := (d.bumpBy .EXP_WARN_COUNT warn e).bumpBy .EXP_FAIL_COUNT fail e
    if fail = 0 then d else d.raise (expb e) 0 4

end Sys2Proof.Machine
end

