-- ==== Sys2Proof/Machine/Dot.lean ====
section
/-! DEFINITION. Dot-product arithmetic of the array (chapter 16). -/
namespace Sys2Proof.Machine

/-- Flags of one output element (Table 16-3, R348). -/
structure ElFlags where
  ovf : Bool
  inv : Bool
  sat : Bool
  convOvf : Bool
  convInv : Bool
deriving DecidableEq, Repr

def ElFlags.none : ElFlags := { ovf := false, inv := false, sat := false, convOvf := false, convInv := false }

/-- An element and its flags. -/
abbrev El := Nat × ElFlags

def Val.isNan : Val → Bool
  | .nan _ _ _ => true
  | _ => false

def Val.isSnan : Val → Bool
  | .nan _ _ s => s
  | _ => false

def Val.isInf : Val → Bool
  | .inf _ => true
  | _ => false

def Val.isZero : Val → Bool
  | .fin _ m _ => m == 0
  | _ => false

def Val.neg : Val → Bool
  | .fin s _ _ => s
  | .inf s => s
  | .nan s _ _ => s

/-- The exact product of two values that are not NaN (R357); `none` for infinity times zero. -/
def Val.mul (a b : Val) : Option Val :=
  match a, b with
  | .fin s m e, .fin t n f => some (.fin (s != t) (m * n) (e + f))
  | .inf s, .inf t => some (.inf (s != t))
  | .inf s, .fin t m _ => if m = 0 then none else some (.inf (s != t))
  | .fin s m _, .inf t => if m = 0 then none else some (.inf (s != t))
  | _, _ => none

/-- A NaN as FP32, quieted (R362). -/
def Val.quiet : Val → Nat
  | .nan s g _ => fpInf 4 s + (g ||| 2 ^ 22)
  | v => toF32 v

/-- Truncate an exact product to the FP32 grid (section "PRODUCT_ROUNDED"); the flag is the clamp. -/
def truncF32 : Val → Nat × Bool
  | .fin s m e =>
    if m = 0 then (fpSign 4 s, false)
    else
      let x : Int := (Nat.log2 m : Int) + e
      let q := max x (-126) - 23
      let n := truncAt m e q
      let above := q == 104 && n == 2 ^ 24 - 1 && decide ((m : Int) * 2 ^ (e + 1100).toNat > n * 2 ^ 1204)
      if 127 < x ∨ above then (fpSign 4 s + 0x7F7FFFFF, true)
      else if n < 2 ^ 23 then (fpSign 4 s + n, false)
      else (fpSign 4 s + (q + 150).toNat * 2 ^ 23 + (n - 2 ^ 23), false)
  | v => (toF32 v, false)

/-- A rounded addition with its flags: overflow from finite terms, infinity minus infinity. -/
def addFlag (x y : Nat) (o i : Bool) : Nat × Bool × Bool :=
  let r := fadd x y
  (r, o || (isInf32 r && !isInf32 x && !isInf32 y), i || (isNan32 r && !isNan32 x && !isNan32 y))

/-- The fixed pairwise tree over 2^n terms. -/
def tree : Nat → List (Nat × Bool × Bool) → Nat × Bool × Bool
  | 0, l => l.headD (0, false, false)
  | n + 1, l =>
    let rec pairs : List (Nat × Bool × Bool) → List (Nat × Bool × Bool)
      | a :: b :: t => addFlag a.1 b.1 (a.2.1 || b.2.1) (a.2.2 || b.2.2) :: pairs t
      | l => l
    tree n (pairs l)

/-- One group of 32 products in PRODUCT_ROUNDED. -/
def groupRounded (acc : Nat × Bool × Bool) (p : List Val) : Nat × Bool × Bool :=
  let t := p.map fun v => ((truncF32 v).1, false, false)
  let r := tree 5 (t ++ List.replicate (32 - t.length) (0x80000000, false, false))
  addFlag acc.1 r.1 (acc.2.1 || r.2.1) (acc.2.2 || r.2.2)

/-- floor(log2 |t|) of a non-zero term. -/
def termExp : Val → Int
  | .fin _ m e => (Nat.log2 m : Int) + e
  | _ => 0

/-- One group in ALIGNED with `g` guard bits; the accumulator is an FP32 word. -/
def groupAligned (g : Nat) (acc : Nat × Bool × Bool) (p : List Val) : Nat × Bool × Bool :=
  let a := f32 acc.1
  if a.isNan then acc
  else
    let terms := a :: p
    let infs := terms.filter Val.isInf
    match infs with
    | i :: _ =>
      if infs.any fun x => x.neg != i.neg then (qnan, acc.2.1, true)
      else (fpInf 4 i.neg, acc.2.1, acc.2.2)
    | [] =>
      let nz := terms.filter fun t => !t.isZero
      match nz with
      | [] => (if (terms.all Val.neg) then 0x80000000 else 0, acc.2.1, acc.2.2)
      | t0 :: ts =>
        let e := ts.foldl (fun m t => max m (termExp t)) (termExp t0)
        let q := e - 23 - g
        let s : Int := nz.foldl (fun n t => match t with
          | .fin sg m x => n + (if sg then -1 else 1) * (truncAt m x q : Nat)
          | _ => n) 0
        if s = 0 then (0, acc.2.1, acc.2.2)
        else
          let r := convert 4 true (.fin (decide (s < 0)) s.natAbs q)
          (r.1, acc.2.1 || r.2.1, acc.2.2)

/-- The groups of 32 of a list. -/
def groups32 : Nat → List Val → List (List Val)
  | 0, _ => []
  | f + 1, l => if l.isEmpty then [] else l.take 32 :: groups32 f (l.drop 32)

/-- The raw FP32 result and flags of a dot product (R357 to R363). `mode`: 1 PRODUCT_ROUNDED, 3 to 8 ALIGNED. -/
def dotF32 (mode : Nat) (c : Option Val) (a b : List Val) : El :=
  let ab := (a.zip b).flatMap fun p => [p.1, p.2]
  let ops := match c with
    | some v => v :: ab
    | none => ab
  let snan := ops.any Val.isSnan
  let prods := (a.zip b).map fun p => if p.1.isNan || p.2.isNan then none else p.1.mul p.2
  let clamp := mode == 1 && prods.any fun p => match p with
    | some v => !v.isInf && (truncF32 v).2
    | none => false
  match ops.find? Val.isNan with
  | some v => (v.quiet, { ElFlags.none with ovf := clamp, inv := snan })
  | none =>
    if prods.any Option.isNone then (qnan, { ElFlags.none with ovf := clamp, inv := snan })
    else
      let p := prods.filterMap id
      let start := match c with
        | some v => toF32 v
        | none => 0x80000000
      let r := (groups32 (p.length + 1) p).foldl
        (fun acc g => if mode = 1 then groupRounded acc g else groupAligned mode acc g) (start, false, false)
      (r.1, { ElFlags.none with ovf := clamp || r.2.1, inv := snan || r.2.2 })

/-- An integer of a decoded element. -/
def Val.int : Val → Int
  | .fin s m e => (if s then -1 else 1) * ((m * 2 ^ e.toNat : Nat) : Int)
  | _ => 0

/-- sat32. -/
def sat32 (i : Int) : Int := max (-(2 ^ 31 : Int)) (min (2 ^ 31 - 1 : Int) i)

/-- The INT32 result and flags (R364), as a 32-bit word. -/
def dotInt (c : Option Val) (a b : List Val) : El :=
  let p := (a.zip b).map fun x => x.1.int * x.2.int
  let rec go : Nat → Int × Bool → List Int → Int × Bool
    | 0, acc, _ => acc
    | f + 1, acc, l =>
      if l.isEmpty then acc
      else
        let s := acc.1 + (l.take 32).foldl (· + ·) 0
        go f (sat32 s, acc.2 || sat32 s != s) (l.drop 32)
  let r := go (p.length + 1) ((match c with
    | some v => v.int
    | none => 0), false) p
  (unsigned 32 r.1, { ElFlags.none with sat := r.2 })

/-- The output stage (R367, R382): FP32 to FP32 and INT32 to INT32 pass unchanged. -/
def outStage (int : Bool) (dfmt oscale : Nat) (ieee : Bool) (x : El) : El :=
  if (!int && dfmt == 4) || (int && dfmt == 7) then x
  else
    let v := if int then decodeFmt 7 x.1 else f32 x.1
    let r := convert dfmt ieee (v.scale ((oscale : Int) - 127))
    (r.1, { x.2 with convOvf := r.2.1, convInv := r.2.2 })

end Sys2Proof.Machine
end

