-- ==== Sys2Proof/Machine/Turnout.lean ====
section
/-! DEFINITION. Turnout programs: the sequencer's instructions as commands of a Flume's context (chapter 13). An
instruction's command takes effect when the word at the context's pc is that instruction and the context is ready. -/
namespace Sys2Proof.Machine

/-! ### Instruction words -/

def tOpc (w : Nat) : Nat := bitsOf w 26 6
def tD (w : Nat) : Nat := bitsOf w 23 3
def tS (w : Nat) : Nat := bitsOf w 20 3
def tT (w : Nat) : Nat := bitsOf w 17 3
def tOff (w : Nat) : Int := signed 9 (bitsOf w 0 9)
def tImm (w : Nat) : Nat := bitsOf w 0 16

/-- The bits that Table 13-2 names for an opcode. -/
def tNamed (opc : Nat) : Nat :=
  let top := 63 * 2 ^ 26
  let d := 7 * 2 ^ 23
  let s := 7 * 2 ^ 20
  let t := 7 * 2 ^ 17
  let x := 3 * 2 ^ 24
  if opc = 0x00 then top else if opc = 0x01 then top + 1 else if opc = 0x02 ∨ opc = 0x03 then top + d + 0x1FF
  else if opc = 0x04 then top + d + s + t + 15 else if opc = 0x05 then top + d + s + 0xFFFF
  else if opc = 0x06 ∨ opc = 0x07 then top + d + 0xFFFF else if opc = 0x08 then top + x + s + t
  else if opc = 0x09 then top + x + s + 7 else if opc = 0x0A then top + d + 3 * 2 ^ 21 + 7 * 2 ^ 18 + 0xFF
  else if opc = 0x0B then top + d + s + 7 else if opc = 0x0C then top + d + s else if opc = 0x0D then top + d
  else if opc = 0x0E then top + s else if opc = 0x0F then top + s + t + 2 ^ 16 + 0xFF
  else if opc = 0x10 then top + 0x3FFFE00 else if opc = 0x11 then top + d + 15 else if opc = 0x12 then top + 0xFF
  else if opc = 0x13 then top + 0xFFF else if opc = 0x14 ∨ opc = 0x15 then top + s else 0

/-- Is the word a program fault TURN_ILLEGAL when it executes (R298)? -/
def tIllegal (w : Nat) : Bool :=
  decide (0x15 < tOpc w) || (w &&& tNamed (tOpc w)) != w || (tOpc w == 0x02 && tD w == 7)
    || (tOpc w == 0x04 && (decide (8 < bitsOf w 0 4) || (bitsOf w 0 4 == 8 && tD w != 0)))

/-! ### Context state -/

def Turn.ra (t : Turn) (n : Nat) : Nat := t.a.getD n 0
def Turn.rb (t : Turn) (n : Nat) : Nat := t.b.getD n 0

/-- Write a register. -/
def Turn.setA (t : Turn) (n v : Nat) : Turn := { t with a := t.a.set n (v % 2 ^ 32) }
def Turn.setB (t : Turn) (n v : Nat) : Turn := { t with b := t.b.set n (v % 2 ^ 64) }

/-- Z and N from a result. -/
def Turn.flags (t : Turn) (v : Nat) : Turn := { t with z := v % 2 ^ 32 == 0, n := bitsOf v 31 1 == 1 }

/-- A new context's state (Table 13-1). -/
def turnInit (f c : Nat) (t : Task) : Turn :=
  { flume := f, ctx := c, tag := t.tag, a := [bitsOf t.w1 0 32, bitsOf t.w1 32 32, 0, 0, 0, 0, 0, 0], b := [t.w2, 0, 0, 0],
    z := false, n := false, t := false, pc := bitsOf t.w3 0 9, lanes := 0, tid := 0, dl := t.deadlineUs,
    status := [0, 0, 0, 0], wait := .none, halted := false, ending := none, failed := false, late := false, moved := 0,
    fault := 0, done := false }

/-- A burst slot is busy while its stream lives. -/
def Dev.slotBusy (d : Dev) (f c n : Nat) : Bool := (d.stream? (f, c, n)).isSome

def Dev.anyBusy (d : Dev) (f c : Nat) : Bool := (List.range 4).any fun n => d.slotBusy f c n

/-- µs since the task's issue AO time, saturating (R306). -/
def Dev.tnow (d : Dev) (t : Turn) : Nat := min 0xFFFFFFFF (ticksToUs (d.gh.timer - d.issuedAt t.tag))

/-- The task's record at its end (section "Ending", R309), or after a fault or an abort. The context stays the task's until that record is
written (R294): with the task, `Dev.dropTask` frees it. -/
def Dev.turnRecord (d : Dev) (t : Turn) (fail : Bool) : Dev :=
  let d := d.updTurn t.flume t.ctx fun u => { u with wait := .none, done := true }
  let d := if (d.task? t.tag).isNone then d.dropTurn t.tag else d
  match t.ending with
  | some code => d.taskEnd t.tag 3 code t.moved
  | none =>
    if fail then d.taskEnd t.tag 3 0x0525 t.moved
    else if t.failed then d.taskEnd t.tag 3 0x0524 t.moved
    else d.taskEnd t.tag (if t.late then 1 else 0) 0 t.moved

/-- A context that was told to end writes its record once its bursts have ended. -/
def Dev.turnSettle (d : Dev) (f c : Nat) : Dev :=
  match d.turn? f c with
  | some t => if t.ending.isSome && !t.done && !d.anyBusy f c then d.turnRecord t false else d
  | none => d

/-- Every burst of the context ends with a cause (R299, R310). -/
def Dev.endBursts (d : Dev) (f c cause : Nat) : Dev :=
  (List.range 4).foldl (fun e n => e.streamEnding (f, c, n) cause) d

/-- A program fault (R299): the context stops, its bursts end with the code, and the first fault is captured. -/
def Dev.turnFault (d : Dev) (t : Turn) (code insn : Nat) : Dev :=
  let f := t.flume
  let c := t.ctx
  let d := if d.get .TURN_FAULT_CODE f = 0 then
      (d.wr .TURN_FAULT (code * 65536 + c * 4096 + t.pc % 512) f).wr .TURN_FAULT_INSN insn f
    else d
  let d := d.raise (6 + f) 1 1
  let d := d.updTurn f c fun u => { u with ending := some code, wait := .none }
  (d.endBursts f c code).turnSettle f c

/-- Is the context ready to execute: a program, not waiting, halted, ending or frozen (R297, R310, R311)? -/
def Dev.turnReady (d : Dev) (t : Turn) : Bool :=
  t.wait == .none && !t.halted && t.ending.isNone && !t.done && !d.frozen (6 + t.flume)

/-- The ready context of a Flume that its sequencer serves next: in ascending order after the one it served last (R297). -/
def Dev.turnNext (d : Dev) (f : Nat) : Option Nat :=
  (circle 16 (Sparse.get (fun _ => 15) d.flm.served f + 1)).find? fun c =>
    ((d.turn? f c).map fun t => d.turnReady t).getD false

/-- The sequencer serves a context. -/
def Dev.turnServe (d : Dev) (f c : Nat) : Dev := { d with flm := { d.flm with served := Sparse.put (fun _ => 15) d.flm.served f c } }

/-- Count an executed instruction. -/
def Dev.turnCount (d : Dev) (f : Nat) : Dev := d.add64 .TURN_INSN_LO 1 f

/-- Move a context to a pc; outside 0 to 511 it is a program fault (R298). -/
def Dev.turnGoto (d : Dev) (t : Turn) (pc : Int) (w : Nat) : Dev :=
  if pc < 0 ∨ 511 < pc then d.turnFault t 0x0521 w
  else d.updTurn t.flume t.ctx fun u => { u with pc := pc.toNat }

/-- Does the word at a context's pc hold an uncorrectable error (memory code 6 of Table 26-3)? -/
def Dev.turnBad (d : Dev) (t : Turn) : Bool := d.ecc.contains (6, t.flume * 512 + t.pc)

/-- An uncorrectable error on fetch (R298, R580). -/
def Dev.turnEcc (d : Dev) (t : Turn) : Dev := (d.controlUe (6 + t.flume) 1 6 (t.flume * 512 + t.pc)).turnFault t 0x0522 0

/-- A step of the task in a context reads its words (R581). -/
def Dev.ctxUse (d : Dev) (f c : Nat) : Dev := (d.touchCtx f c).turnSettle f c

/-- The sequencer serves the context whose turn it is when its opcode is `opc`: `g` gives the effect, given the word. -/
def Dev.turnExec (d : Dev) (f c opc : Nat) (g : Dev → Turn → Nat → Dev) : Dev :=
  let d := d.ctxUse f c
  match d.turn? f c with
  | none => d
  | some t =>
    let w := d.rd (.FLM_PROG t.pc) f
    if d.turnNext f != some c || tOpc w != opc then d
    else
      let d := d.turnServe f c
      if d.turnBad t then d.turnEcc t
      else if tIllegal w then (d.turnCount f).turnFault t 0x0520 w
      else g (d.turnCount f) t w

/-- An instruction that rewrites the context and goes on. -/
def Dev.turnStep (d : Dev) (f c opc : Nat) (g : Dev → Turn → Nat → Turn) : Dev :=
  d.turnExec f c opc fun d t w =>
    let u := g d t w
    (d.updTurn f c fun _ => u).turnGoto u (u.pc + 1) w

/-- Does a waiting context's wait stand to be evaluated (R310, R311)? -/
def Dev.waitLive (d : Dev) (t : Turn) : Bool := !t.halted && !d.frozen (6 + t.flume)

/-- Wait in a context. -/
def Dev.turnWait (d : Dev) (t : Turn) (x : TWait) : Dev := d.updTurn t.flume t.ctx fun u => { u with wait := x }

/-- A wait ends: rewrite the context and go on. -/
def Dev.turnGo (d : Dev) (t : Turn) (g : Turn → Turn) : Dev :=
  let u := g { t with wait := .none }
  (d.updTurn t.flume t.ctx fun _ => u).turnGoto u (u.pc + 1) (d.rd (.FLM_PROG t.pc) t.flume)

/-! ### Results of the instructions -/

/-- ALU functions 0 to 7 (Table 13-2). -/
def tAlu (fn a b : Nat) : Nat :=
  (if fn = 0 then a + b else if fn = 1 then a + (2 ^ 32 - b) else if fn = 2 then a &&& b else if fn = 3 then a ||| b
   else if fn = 4 then a ^^^ b else if fn = 5 then a * 2 ^ (b % 32) else if fn = 6 then a / 2 ^ (b % 32)
   else a * b) % 2 ^ 32

/-- The condition of B. -/
def tCond (t : Turn) (c : Nat) : Bool :=
  if c = 0 then true else if c = 1 then t.z else if c = 2 then !t.z else if c = 3 then t.n else if c = 4 then !t.n
  else if c = 5 then t.t else !t.t

/-- ALU and CMP. -/
def tAluStep (t : Turn) (w : Nat) : Turn :=
  let a := t.ra (tS w)
  let b := t.ra (tT w)
  if bitsOf w 0 4 = 8 then { t with z := a == b, n := decide (a < b) }
  else (t.setA (tD w) (tAlu (bitsOf w 0 4) a b)).flags (tAlu (bitsOf w 0 4) a b)

/-- ADDI. -/
def tAddiStep (t : Turn) (w : Nat) : Turn :=
  let v := unsigned 32 ((t.ra (tS w) : Int) + signed 16 (tImm w))
  (t.setA (tD w) v).flags v

/-- WAITB's result: the status of the lowest slot of the mask that ended badly (R303). -/
def tWaitbStep (t : Turn) (dd mask : Nat) : Turn :=
  let bad := (List.range 4).find? fun n => bitsOf mask n 1 == 1 && decide (2 ≤ bitsOf (t.status.getD n 0) 12 4)
  match bad with
  | some n => { t.setA dd (t.status.getD n 0) with z := false }
  | none => { t.setA dd 0 with z := true }

/-- WAITB's condition: every slot in the mask is idle. -/
def Dev.waitbDone (d : Dev) (t : Turn) (mask : Nat) : Bool :=
  (List.range 4).all fun n => bitsOf mask n 1 == 0 || !d.slotBusy t.flume t.ctx n

/-- WAITO ends with T = 1: counted (WAITO_TIMEOUT_COUNT); Z tells a lost object from a timeout (R305). -/
def Dev.waitoLost (d : Dev) (t : Turn) (z : Bool) : Dev :=
  (d.bump .WAITO_TIMEOUT_COUNT t.flume).turnGo t fun u => { u with t := true, z := z }

/-! ### Bursts (section "Bursts", R300 to R302) -/

/-- The burst's settings. -/
def Dev.burstSpec (d : Dev) (t : Turn) (w : Nat) : Spec :=
  let kind := bitsOf w 22 2
  let h := t.ra (bitsOf w 19 3)
  let o := d.obj? h
  let task := d.task? t.tag
  let svc := match task with
    | some x => x.svc
    | none => 0
  let dl := if t.dl = 0 ∧ svc = 0 then (match task with
      | some x => x.deadlineUs
      | none => 0) else t.dl
  { flume := t.flume, ctx := t.ctx, slot := bitsOf w 24 2, tag := t.tag, op := kind + 1, obj := h,
    first := t.ra (bitsOf w 16 3), count := t.ra (bitsOf w 13 3), lanes := t.lanes, obs := bitsOf w 11 1 == 1,
    gate := bitsOf w 12 1 == 1, abort := bitsOf w 10 1 == 1,
    dest := (if kind = 0 then (match o with
        | some x => x.fate
        | none => 0)
      else if kind = 1 then bitsOf w 9 1 else if kind = 2 then 1 else 15),
    node := (match o with
      | some x => if kind = 0 && x.fate == 4 then x.node else 0
      | none => 0),
    mb := t.rb 3 / 2 ^ 32 % 2 ^ 16, step := t.rb 3 % 2 ^ 32, svc := svc, deadlineUs := dl, tensor := t.tid, burst := true }

/-- Checks that refuse a burst before those of its stream: R301, and R189's for an operation that cannot open a gate or
whose live object has no tier to park in. -/
def Spec.badBurst (sp : Spec) (live : Bool) : Bool :=
  decide (2 ^ 24 ≤ sp.first) || decide (2 ^ 24 ≤ sp.count) || (sp.gate && sp.op != 2)
    || (live && sp.op == 1 && !(sp.dest == 2 || sp.dest == 3 || sp.dest == 4))

/-- A burst starts, or ends at once REFUSED with the cause of its stream's refusal (R300). -/
def Dev.burst (d : Dev) (sp : Spec) : Dev :=
  if sp.badBurst (d.obj? sp.obj).isSome then d.burstEnd sp.flume sp.ctx sp.slot 3 cDescParam 0
  else match d.checkSpec sp with
    | some cause =>
      (if cause = cHandleStale then d.staleHandle sp.obj else d).burstEnd sp.flume sp.ctx sp.slot 3 cause 0
    | none =>
      let r := d.startStream sp
      match r.2 with
      | some cause => r.1.burstEnd sp.flume sp.ctx sp.slot 3 cause 0
      | none => r.1.issueAll sp.flume

/-- Start the burst of the BURST instruction `w`, and go on. -/
def Dev.startBurst (d : Dev) (t : Turn) (w : Nat) : Dev :=
  let sp := d.burstSpec t w
  let d := (d.updTurn t.flume t.ctx fun u => { u with wait := .none, status := u.status.set sp.slot 0 }).burst sp
  match d.turn? t.flume t.ctx with
  | some u => d.turnGo u id
  | none => d

/-! ### Commands -/

/-- TURNOUT (R271, R294, R296): a free context takes the task and the initial state of Table 13-1. -/
def execTurnout (tag : Nat) (s : State) : Out := s.run fun d =>
  match d.sentTask tag 0x40 5 with
  | none => d
  | some t =>
    match d.freeCtx t.inst with
    | none => d
    | some c =>
      if !d.enabled (6 + t.inst) || d.frozen (6 + t.inst) then d
      else if t.badSvc || bitsOf t.w3 60 1 != 0 || bitsOf t.w3 9 27 != 0 then d.refuse tag cDescParam
      else
        let d := (d.acceptTask tag).freshCtx t.inst c
        { d with flm := { d.flm with turns := d.flm.turns ++ [turnInit t.inst c t] } }

/-- Write a word of the program window (R295). -/
def Dev.turnProgWrite (d : Dev) (p : Path) (f i v : Nat) : Dev :=
  let busy := (d.flm.turns.any fun t => t.flume == f) ||
    (d.hg.tasks.any fun t => t.st == 1 && t.cls == 0x40 && t.op == 5 && t.inst == f)
  if busy then d.errWr p (6 + f) 1 (0x800 + 4 * i) 0x0513 v else (d.wr (.FLM_PROG i) v f).eccWrite 6 (f * 512 + i)

/-- TURNOUT_PROGRAM_WRITE (R295). -/
def execTurnoutProgramWrite (p : Path) (f i : Nat) (v : Word) (s : State) : Out := s.run fun d =>
  if i < 512 ∧ f < 32 then d.viaReg p (.FLM_PROG i) f v.toNat fun e => e.turnProgWrite p f i v.toNat else d

/-- NOP. -/
def execTurnNop (f c : Nat) (s : State) : Out := s.run fun d => d.turnStep f c 0x00 fun _ t _ => t

/-- END: the context waits for its bursts (section "Ending"). -/
def execTurnEnd (f c : Nat) (s : State) : Out := s.run fun d =>
  d.turnExec f c 0x01 fun d t w =>
    let d := d.turnWait t (.ending (bitsOf w 0 1 == 1))
    if d.anyBusy f c then d else d.turnRecord t (bitsOf w 0 1 == 1)

/-- END_RECORD (R309): the last burst of an ending context has ended. -/
def execEndRecord (f c : Nat) (s : State) : Out := s.run fun d =>
  match d.turn? f c with
  | none => d
  | some t => match t.wait with
    | .ending fail => if d.anyBusy f c || !d.waitLive t then d else d.turnRecord t fail
    | _ => d

/-- B (R298). -/
def execTurnB (f c : Nat) (s : State) : Out := s.run fun d =>
  d.turnExec f c 0x02 fun d t w => d.turnGoto t (if tCond t (tD w) then (t.pc : Int) + tOff w else t.pc + 1) w

/-- DJNZ. -/
def execDjnz (f c : Nat) (s : State) : Out := s.run fun d =>
  d.turnExec f c 0x03 fun d t w =>
    let v := (t.ra (tD w) + (2 ^ 32 - 1)) % 2 ^ 32
    let u := t.setA (tD w) v
    (d.updTurn f c fun _ => u).turnGoto u (if v = 0 then (t.pc : Int) + 1 else (t.pc : Int) + tOff w) w

/-- ALU. -/
def execTurnAlu (f c : Nat) (s : State) : Out := s.run fun d => d.turnStep f c 0x04 fun _ t w => tAluStep t w

/-- ADDI. -/
def execTurnAddi (f c : Nat) (s : State) : Out := s.run fun d => d.turnStep f c 0x05 fun _ t w => tAddiStep t w

/-- MOVI. -/
def execMovi (f c : Nat) (s : State) : Out := s.run fun d => d.turnStep f c 0x06 fun _ t w => t.setA (tD w) (tImm w)

/-- MOVHI. -/
def execMovhi (f c : Nat) (s : State) : Out := s.run fun d =>
  d.turnStep f c 0x07 fun _ t w => t.setA (tD w) (tImm w * 65536 + t.ra (tD w) % 65536)

/-- BSET. -/
def execBset (f c : Nat) (s : State) : Out := s.run fun d =>
  d.turnStep f c 0x08 fun _ t w => t.setB (bitsOf w 24 2) (t.ra (tT w) * 2 ^ 32 + t.ra (tS w))

/-- BADD. -/
def execBadd (f c : Nat) (s : State) : Out := s.run fun d =>
  d.turnStep f c 0x09 fun _ t w => t.setB (bitsOf w 24 2) (t.rb (bitsOf w 24 2) + t.ra (tS w) * 2 ^ bitsOf w 0 3)

/-- LDW (R298, R307). -/
def execLdw (f c : Nat) (s : State) : Out := s.run fun d =>
  d.turnExec f c 0x0A fun d t w =>
    let a := (t.rb (bitsOf w 21 2) + 4 * (t.ra (bitsOf w 18 3) + bitsOf w 0 8)) % 2 ^ 64
    if a % 4 ≠ 0 ∨ 0x1FEFFC < a then d.turnFault t 0x0523 w
    else
      let u := t.setA (tD w) (d.ld spDmem a 4)
      (d.updTurn f c fun _ => u).turnGoto u (t.pc + 1) w

/-- LDOBJ (R306). -/
def execLdobj (f c : Nat) (s : State) : Out := s.run fun d =>
  d.turnStep f c 0x0B fun d t w => t.setA (tD w) (d.entryWord (t.ra (tS w) % 2 ^ 20) (bitsOf w 0 3))

/-- LDLEAD (R304). -/
def execLdlead (f c : Nat) (s : State) : Out := s.run fun d =>
  d.turnStep f c 0x0C fun d t w =>
    t.setA (tD w) (match (d.obj? (t.ra (tS w))).bind Obj.slot with
      | some n => (d.leadOf n).1
      | none => 0xFFFFFFFF)

/-- TNOW (R306). -/
def execTurnTnow (f c : Nat) (s : State) : Out := s.run fun d =>
  d.turnStep f c 0x0D fun d t w => t.setA (tD w) (d.tnow t)

/-- WAITT. -/
def execWaitt (f c : Nat) (s : State) : Out := s.run fun d =>
  d.turnExec f c 0x0E fun d t w =>
    if t.ra (tS w) ≤ d.tnow t then d.turnGo t id else d.turnWait t (.waitt (t.ra (tS w)))

/-- WAITT_END: TNOW has reached a_s. -/
def execWaittEnd (f c : Nat) (s : State) : Out := s.run fun d =>
  match d.turn? f c with
  | none => d
  | some t => match t.wait with
    | .waitt v => if v ≤ d.tnow t ∧ d.waitLive t then d.turnGo t id else d
    | _ => d

/-- WAITO (R305). -/
def execWaito (f c : Nat) (s : State) : Out := s.run fun d =>
  d.turnExec f c 0x0F fun d t w =>
    let h := t.ra (tS w)
    match d.obj? h with
    | none => d.waitoLost t true
    | some o =>
      if waitoHits o (t.rb 3) (bitsOf w 0 8) (bitsOf w 16 1 == 1) then d.turnGo t fun u => { u with t := false, z := false }
      else
        let lim := t.ra (tT w)
        d.turnWait t (.waito 0 h (bitsOf w 0 8) (bitsOf w 16 1 == 1)
          (if lim = 0 then none else some (d.gh.timer + usToTicks lim)) false)

/-- WAITO_END (R305): the object has entered the state, or is gone. -/
def execWaitoEnd (f c : Nat) (s : State) : Out := s.run fun d =>
  match d.turn? f c with
  | none => d
  | some t => match t.wait with
    | .waito _ h _ _ _ hit =>
      if !d.waitLive t then d
      else if hit then d.turnGo t fun u => { u with t := false, z := false }
      else if (d.obj? h).isNone then d.waitoLost t true
      else d
    | _ => d

/-- WAITO_TIMEOUT (R305). -/
def execWaitoTimeout (f c : Nat) (s : State) : Out := s.run fun d =>
  match d.turn? f c with
  | none => d
  | some t => match t.wait with
    | .waito _ _ _ _ (some lim) hit =>
      if d.waitLive t && !hit && decide (lim ≤ d.gh.timer) then (d.waitoLost t false).raise (6 + f) 1 3 else d
    | _ => d

/-- BURST (R300 to R302): stalls while its slot is busy. -/
def execBurst (f c : Nat) (s : State) : Out := s.run fun d =>
  d.turnExec f c 0x10 fun d t w =>
    if d.slotBusy f c (bitsOf w 24 2) then d.turnWait t (.burst w) else d.startBurst t w

/-- BURST_SLOT_FREE (R302): the slot's burst has ended, and the stalled BURST starts. -/
def execBurstSlotFree (f c : Nat) (s : State) : Out := s.run fun d =>
  match d.turn? f c with
  | none => d
  | some t => match t.wait with
    | .burst w => if d.waitLive t && !d.slotBusy f c (bitsOf w 24 2) then d.startBurst t w else d
    | _ => d

/-- WAITB (R303). -/
def execWaitb (f c : Nat) (s : State) : Out := s.run fun d =>
  d.turnExec f c 0x11 fun d t w =>
    if d.waitbDone t (bitsOf w 0 4) then d.turnGo t fun u => tWaitbStep u (tD w) (bitsOf w 0 4)
    else d.turnWait t (.waitb (tD w) (bitsOf w 0 4))

/-- WAITB_END (R303). -/
def execWaitbEnd (f c : Nat) (s : State) : Out := s.run fun d =>
  match d.turn? f c with
  | none => d
  | some t => match t.wait with
    | .waitb dd m => if d.waitLive t && d.waitbDone t m then d.turnGo t fun u => tWaitbStep u dd m else d
    | _ => d

/-- LANES. -/
def execLanes (f c : Nat) (s : State) : Out := s.run fun d =>
  d.turnStep f c 0x12 fun _ t w => { t with lanes := bitsOf w 0 8 }

/-- OBSID. -/
def execObsid (f c : Nat) (s : State) : Out := s.run fun d =>
  d.turnStep f c 0x13 fun _ t w => { t with tid := bitsOf w 0 12 }

/-- DLINE. -/
def execDline (f c : Nat) (s : State) : Out := s.run fun d =>
  d.turnStep f c 0x14 fun _ t w => { t with dl := t.ra (tS w) }

/-- SIG (R308). -/
def execTurnSig (f c : Nat) (s : State) : Out := s.run fun d =>
  d.turnExec f c 0x15 fun d t w =>
    let d := ((d.wr .TSIG_VALUE (t.ra (tS w)) f).bump .SIG_COUNT f).raise (6 + f) 1 0
    (d.evSet 38).turnGoto t (t.pc + 1) w

/-- TURN_ILLEGAL (R298, R299): the word at the pc is illegal, or its fetch finds an uncorrectable error. -/
def execTurnIllegal (f c : Nat) (ue : Bool) (s : State) : Out := s.run fun d =>
  let d := d.ctxUse f c
  match d.turn? f c with
  | none => d
  | some t =>
    let w := d.rd (.FLM_PROG t.pc) f
    if d.turnNext f != some c then d
    else if ue || d.turnBad t then ((d.turnServe f c).eccBad 6 (f * 512 + t.pc)).turnEcc t
    else if tIllegal w then ((d.turnServe f c).turnCount f).turnFault t 0x0520 w
    else d

end Sys2Proof.Machine
end

