-- ==== Sys2Proof/Machine/Flume.lean ====
section
/-! DEFINITION. The Flume's commands: acceptance, transfers, page faults, halts, resumes and aborts (chapter 12). -/
namespace Sys2Proof.Machine

/-! ### Page requests (R290, R291) -/

/-- The first group number that a Flume has free: at most 8 outstanding. -/
def Dev.freePri (d : Dev) (f : Nat) : Option Nat :=
  (List.range 8).find? fun g => !(d.flm.pri.any fun e => e.flume == f && e.group == some g)

def Pri.key (e : Pri) : Nat × Nat × Nat := (e.flume, e.ctx, e.slot)

/-- A page request is sent under the T3 PASID; a stream in ABORT mode ends with that. -/
def Dev.pageSend (d : Dev) (e : Pri) (g : Nat) : Dev :=
  let d := { d with flm := { d.flm with pri := d.flm.pri.map fun x => if x == e then { x with group := some g } else x } }
  let d := (d.bump .PRI_REQ_COUNT e.flume).emit (.pageReq e.flume g (d.get .HOST_T3_PASID_PASID) (d.rd64 .HOST_T3_BASE_LO + e.addr))
  match d.stream? e.key with
  | some s => if s.abort then d.streamFault e.key 0x0505 else d
  | none => d

/-- The requests of a Flume that wait for a group are sent as far as there are free ones, in order; those of streams that have gone are
dropped. -/
def Dev.pageNext (d : Dev) (f : Nat) : Dev :=
  let live (e : Pri) : Bool := e.group.isSome || ((d.stream? e.key).map Stream.moving).getD false
  let d := { d with flm := { d.flm with pri := d.flm.pri.filter live } }
  (d.flm.pri.filter fun e => e.flume == f && e.group.isNone).foldl (fun x e => match x.freePri f with
    | some g => x.pageSend e g
    | none => x) d

/-- A T3 translation of a stream's oldest transfer in a direction fails: a page request goes out, or waits while all 8 groups are in use, and
the transfer waits for its page (R290). -/
def Dev.pageFault (d : Dev) (s : Stream) (write : Bool) (o : Obj) : Dev :=
  let n := s.srcBlk o
  let add (d : Dev) (piece addr : Nat) : Dev :=
    let e : Pri := { flume := s.flume, group := none, ctx := s.ctx, slot := s.slot, write := write, piece := piece, addr := addr }
    ({ d with flm := { d.flm with pri := d.flm.pri ++ [e] } }).pageNext s.flume
  let wait (x : Stream) : Stream := { x with st := if x.st = 2 ∧ !x.abort then 3 else x.st, cause := 0x0505 }
  if write then
    match s.wq, s.dst with
    | w :: t, some p =>
      let at_ := s.wiq.headD d.gh.timer
      let d := d.updStream s.key fun x => wait { x with wq := t, wi := x.wi - 1, wiq := x.wiq.drop 1, pgW := x.pgW ++ [(at_, w)] }
      add d w.addr (p.addr + w.addr)
    | _, _ => d
  else match s.nextRead with
    | some i =>
      let d := d.updStream s.key fun x => wait { x with pgR := x.pgR ++ [i] }
      add d i (s.src.addr + s.blk (i / pieces n) * n + 4096 * (i % pieces n))
    | none => d

/-- A transfer no longer waits for its page: it is outstanding again, and the stream leaves PAGE_WAIT with the last of them. -/
def Dev.pageLeave (d : Dev) (e : Pri) : Dev :=
  d.updStream e.key fun x =>
    let x := if e.write then
        match x.pgW.find? fun y => y.2.addr == e.piece with
        | some y => { x with pgW := x.pgW.erase y, wq := y.2 :: x.wq, wi := x.wi + 1, wiq := y.1 :: x.wiq }
        | none => x
      else { x with pgR := x.pgR.filter fun i => i != e.piece }
    { x with st := if x.st = 3 ∧ x.pgR.isEmpty ∧ x.pgW.isEmpty then 2 else x.st }

/-- A page response reaches the transfer of its group; one whose PASID or group matches no request is discarded (R475), and so is one for a
stream that is being aborted (R291). A failure fails the T3 path, and the transfer then follows R266. -/
def Dev.priResponse (d : Dev) (f g pasid : Nat) (ok : Bool) : Dev :=
  match (if pasid = d.get .HOST_T3_PASID_PASID then d.flm.pri.find? fun e => e.flume == f && e.group == some g else none) with
  | none => d.bump .PRI_STRAY_COUNT
  | some e =>
    let aborted := match d.stream? e.key with
      | some s => s.st == 6 && s.cause == cTaskAborted
      | none => false
    let d := { d with flm := { d.flm with pri := d.flm.pri.filter fun x => x != e } }
    let d := if ok || aborted then d
      else { (d.bump .PRI_FAIL_COUNT f).raise (6 + f) 0 2 with host := { d.host with pri := true } }.t3Update
    (d.pageLeave e).pageNext f

/-! ### FLM_CTX_CMD (R286 to R289) -/

/-- The streams of a context, in slot order. -/
def Dev.ctxStreams (d : Dev) (f c : Nat) : List Stream := (List.range 4).filterMap fun n => d.stream? (f, c, n)

/-- The state code of a context (Table 12-7). -/
def Dev.ctxState (d : Dev) (f c : Nat) : Nat :=
  let ss := d.ctxStreams f c
  match d.turn? f c with
  | some t =>
    if t.ending.isSome || t.done then 6 else if t.halted then (if ss.any fun s => s.st == 4 then 4 else 5)
    else if ss.any fun s => s.st == 4 then 4 else if ss.any fun s => s.st == 3 then 3 else 2
  | none => match ss with
    | s :: _ => s.st
    | [] => 0

/-- The tag of a context's task; none in an idle context. -/
def Dev.ctxTag (d : Dev) (f c : Nat) : Option Nat :=
  match d.turn? f c with
  | some t => some t.tag
  | none => match d.ctxStreams f c with
    | s :: _ => some s.tag
    | [] => none

/-- Resume one halted stream at its saved position, with a new lane mask where one is given (R288); an object no longer
in the stream's state ends it (R245). One that was halted before its start waits for it again (R280). A kept list with no PRESENT lane stays as
it is: the next block finds LANE_LOST. -/
def Dev.resumeStream (d : Dev) (s : Stream) (mask : Nat) : Dev :=
  match d.obj? s.handle with
  | none => d.streamEnding s.key cObjectState
  | some o =>
    if s.op ≠ 4 ∧ !s.chained ∧ s.entered ∧ o.state ≠ s.transit then d.streamEnding s.key cObjectState
    else
      let n := pieces (s.srcBlk o)
      let at_ := s.low * n + (if s.laned then 0 else s.gran)
      let list := d.lanesOf (if mask = 0 then s.mask else mask)
      d.updStream s.key fun x => { x with
        st := if x.chained ∨ x.startAt.isSome then 1 else 2
        mask := if mask = 0 then x.mask else mask
        lanes := if x.laned && !list.isEmpty then list else x.lanes
        fin := []
        rd := at_
        rdDone := at_
        gSrc := x.low
        gDst := x.low
        cur := if x.laned then [] else d.placeRd x.src (x.blk x.low * 65536) (4096 * x.gran) }

/-- A mask that RESUME must not take: no PRESENT lane in it, or a stream that uses no lane (R288). -/
def Dev.badResumeMask (d : Dev) (ss : List Stream) (mask : Nat) : Bool :=
  mask != 0 && ((d.lanesOf mask).isEmpty || ss.any fun s => s.st == 5 && !s.laned)

/-- Did the stream of this tag complete in the context in this very tick (R289)? -/
def Dev.justEnded (d : Dev) (f c tag : Nat) : Bool := d.flm.ended.any fun e => e == ((f, c), (d.gh.timer, tag))

/-- A write of FLM_CTX_CMD (R286 to R288, R310). -/
def Dev.ctxCmd (d : Dev) (p : Path) (f v : Nat) : Dev :=
  let c := bitsOf v 0 4
  let cmd := bitsOf v 8 2
  let d := d.ctxUse f c
  let ss := d.ctxStreams f c
  let st := d.ctxState f c
  let bad (d : Dev) (code : Nat) := d.errWr p (6 + f) 0 0x8C code v
  if cmd = 0 then bad d 0x0001
  else if d.ctxTag f c ≠ some (bitsOf v 16 16) then bad d (if cmd ≠ 1 ∧ d.justEnded f c (bitsOf v 16 16) then 0x0511 else 0x0510)
  else if cmd = 3 then
    if st = 1 ∨ st = 2 ∨ st = 3 then
      let d := ss.foldl (fun e s => e.streamFault s.key 0x0504) d
      match d.turn? f c with
      | some _ =>
        let d := d.updTurn f c fun t => { t with halted := true }
        if ss.isEmpty then (d.bump .HALT_COUNT f).raise (6 + f) 0 0 else d
      | none => d
    else bad d 0x0511
  else if st ≠ 5 then bad d 0x0511
  else if cmd = 2 then
    let d := d.endBursts f c cTaskAborted
    (d.updTurn f c fun t => { t with ending := some cTaskAborted, wait := .none }).turnSettle f c
  else
    let mask := d.rd .FLM_RESUME_LANES f
    if d.badResumeMask ss mask then bad d 0x0512
    else
      let d := d.wr .FLM_RESUME_LANES 0 f
      let d := (ss.filter fun s => s.st == 5).foldl (fun e s => e.resumeStream s mask) d
      (d.updTurn f c fun t => { t with halted := false }).issueAll f

/-- The task of a context, ended by an abort under R169 in any state (R286, R310). -/
def Dev.ctxAbort (d : Dev) (f c cause : Nat) : Dev :=
  let d := d.endBursts f c cause
  (d.updTurn f c fun t => { t with ending := some cause, wait := .none }).turnSettle f c

/-! ### Commands -/

/-- PARK (R249, R271, R272). -/
def execPark (tag : Nat) (s : State) : Out := s.run fun d => d.acceptStream tag 1

/-- LIFT (R239, R243, R273, R280): waits in WAIT_START for its start time or its drain, or starts. -/
def execLift (tag : Nat) (s : State) : Out := s.run fun d => d.acceptStream tag 2

/-- COMPRESS (R271, R272). -/
def execCompress (tag : Nat) (s : State) : Out := s.run fun d => d.acceptStream tag 3

/-- OBSERVE (R278, R279). -/
def execObserve (tag : Nat) (s : State) : Out := s.run fun d => d.acceptStream tag 4

/-- May a stream in WAIT_START start: its start time has come, and the drain it is chained to is complete? -/
def Dev.startDue (d : Dev) (x : Stream) : Bool :=
  x.st == 1 && !x.chained && !d.frozen (6 + x.flume) && !d.asleep && (match x.startAt with
    | some t => decide (t ≤ d.gh.timer)
    | none => true)

/-- LIFT_START (R219, R280, R293, R310): the streams of a context that may start do. -/
def execLiftStart (f c : Nat) (s : State) : Out := s.run fun d =>
  let d := d.ctxUse f c
  ((d.ctxStreams f c).filter fun x => d.startDue x).foldl (fun e x =>
    (e.updStream x.key fun y => { y with st := 2, startAt := none }).issueAll f) d

/-- TRANSFER_COMPLETE (R274, R275, R278, R281, R290): the oldest outstanding transfer of a stream in one direction
completes, or its T3 translation fails; the stream issues its next transfers. -/
def execTransferComplete (f c slot : Nat) (write fault : Bool) (s : State) : Out := s.run fun d =>
  let d := d.ctxUse f c
  match d.stream? (f, c, slot) with
  | none => d
  | some x =>
    match d.obj? x.handle with
    | none => (d.streamEnding x.key cObjectState).issueAll f
    | some o =>
      let tier := if write then (match x.dst with
          | some p => p.tier
          | none => 0) else x.src.tier
      let some_ := if write then decide (0 < x.wi) else x.nextRead.isSome
      if !some_ then d
      else if fault ∧ tier = 3 then (d.pageFault x write o).issueAll f
      else if tier = 4 ∧ ((d.tagOf (x.owner write)).bind RTag.status).isNone then d
      else if tier = 4 ∧ (((d.tagOf (x.owner write)).bind RTag.status).getD 0) ≠ bit01 write then
        ((d.endTag (x.owner write) true).streamTierFail x).issueAll f
      else
        let d := if tier = 3 ∧ !write then { d with host := { d.host with cpl := false } }.t3Update else d
        ((if write then d.writeDone x else d.readDone x o).turnSettle f c).issueAll f

/-- PRI_RESPONSE (R291, R475). -/
def execPriResponse (f g pasid : Nat) (ok : Bool) (s : State) : Out := s.run fun d => (d.priResponse f g pasid ok).issueAll f

/-- STREAM_HALT_COMPLETE (R284): a halting stream's outstanding transfers have completed. -/
def execStreamHaltComplete (f c slot : Nat) (s : State) : Out := s.run fun d => d.haltStream (f, c, slot)

/-- STREAM_ABORT_COMPLETE (R285, R286, R299): an ending stream's outstanding transfers have completed. -/
def execStreamAbortComplete (f c slot : Nat) (s : State) : Out := s.run fun d =>
  (d.abortStream (f, c, slot)).turnSettle f c

/-- FLM_CTX_RESUME (R245, R287, R288, R310). -/
def execFlmCtxResume (p : Path) (f c tag : Nat) (s : State) : Out := s.run fun d =>
  let w := tag % 65536 * 65536 + 0x100 + c % 16
  if 31 < f then d else d.viaReg p .FLM_CTX_CMD f w fun e => e.ctxCmd p f w

/-- FLM_CTX_ABORT (R286, R287, R289, R310). -/
def execFlmCtxAbort (p : Path) (f c tag : Nat) (s : State) : Out := s.run fun d =>
  let w := tag % 65536 * 65536 + 0x200 + c % 16
  if 31 < f then d else d.viaReg p .FLM_CTX_CMD f w fun e => e.ctxCmd p f w

/-- FLM_CTX_HALT (R284, R287, R289, R310). -/
def execFlmCtxHalt (p : Path) (f c tag : Nat) (s : State) : Out := s.run fun d =>
  let w := tag % 65536 * 65536 + 0x300 + c % 16
  if 31 < f then d else d.viaReg p .FLM_CTX_CMD f w fun e => e.ctxCmd p f w

end Sys2Proof.Machine
end

