-- ==== Sys2Proof/Machine/Pool.lean ====
section
/-! DEFINITION. The Pool Manager's commands (chapter 11). -/
namespace Sys2Proof.Machine

/-- PARTNER, TIER and BYTES of an EVICT or RESERVE descriptor (Table 8-10). -/
def Task.poolPartner (t : Task) : Nat := bitsOf t.w1 52 3
def Task.poolTier (t : Task) : Nat := bitsOf t.w1 48 4
def Task.poolBytes (t : Task) : Nat := bitsOf t.w1 0 48

/-- R189 for a Pool Manager descriptor. -/
def Task.badPool (t : Task) : Bool :=
  t.badSvc || bitsOf t.w1 55 9 != 0 || t.w2 != 0 || bitsOf t.w3 60 1 != 0 || bitsOf t.w3 0 36 != 0
    || t.poolTier == 0 || decide (4 < t.poolTier)

/-- A partner's run-time reservation in a tier. -/
def Dev.resv (d : Dev) (p t : Nat) : Nat := Sparse.get (fun _ => 0) d.pool.resv (p * 8 + t)

/-- Change a partner's run-time reservation, its charge and the tier's RESERVED (R251, Table 8-10). -/
def Dev.addResv (d : Dev) (p t : Nat) (v : Int) : Dev :=
  let new := ((d.resv p t : Int) + v).toNat
  let d := d.charge p t ((units new : Int) - (units (d.resv p t) : Int))
  let d := d.wr64 (.RESERVED_T_LO t) ((d.rd64 (.RESERVED_T_LO t) : Int) + v).toNat
  { d with pool := { d.pool with resv := Sparse.put (fun _ => 0) d.pool.resv (p * 8 + t) new } }

/-- The pool takes a dispatched task, if it is not frozen (R268). -/
def Dev.poolTask (d : Dev) (tag op : Nat) (g : Dev → Task → Dev) : Dev :=
  match d.sentTask tag 0x31 op with
  | none => d
  | some t =>
    if d.frozen 5 || !d.enabled 5 then d
    else if t.badPool then d.refuse tag cDescParam
    else g (d.acceptTask tag) t

/-- EVICT (R251): an on-demand eviction of T1, or a release of the partner's reservation in a lower tier. -/
def execEvict (tag : Nat) (s : State) : Out := s.run fun d =>
  d.poolTask tag 1 fun d t =>
    if t.poolTier = 1 then
      let r := d.evict t.svc (some tag) t.poolBytes
      let d := if r.2.2 then r.1.updTask tag fun x => { x with cause := cPromote } else r.1
      d.evictTaskCheck tag 0
    else
      let n := min t.poolBytes (d.resv t.poolPartner t.poolTier)
      (d.addResv t.poolPartner t.poolTier (-(n : Int))).served tag 0

/-- Try a RESERVE: it fits, it waits (C0 to C2), or it is refused (R251, R257, R259). -/
def Dev.tryReserve (d : Dev) (t : Task) (again : Bool) : Dev :=
  if 3 ≤ t.svc ∧ d.overQuota t.poolPartner t.poolTier t.poolBytes then d.quotaRefused.refuse t.tag cQuota
  else if d.rd64 (.RESERVED_T_LO t.poolTier) + t.poolBytes ≤ d.rd64 (.CAPACITY_T_LO t.poolTier) then
    let d := { d with pool := { d.pool with waiting := d.pool.waiting.filter fun x => x != t.tag * 4 } }
    (((d.waitEnd t.tag).quotaOver t.poolPartner t.poolTier t.poolBytes).addResv t.poolPartner t.poolTier t.poolBytes).served t.tag 0
  else if 3 ≤ t.svc then (d.bump .SPACE_REFUSE_COUNT).refuse t.tag cNoSpace
  else if again then d
  else ({ d with pool := { d.pool with waiting := d.pool.waiting ++ [t.tag * 4] } }).waitBegin t.tag cPoolFull

/-- RESERVE (R251). -/
def execReserve (tag : Nat) (s : State) : Out := s.run fun d => d.poolTask tag 2 fun d t => d.tryReserve t false

/-! ### Waiting allocations (R259) -/

/-- The destination a waiting stream asks for: its object, tier, node and bytes. -/
def Dev.waitingDest (d : Dev) (s : Stream) : Option (Obj × Nat × Nat × Nat) :=
  (d.obj? s.handle).map fun o =>
    if s.op = 2 then
      (o, s.dest, 0, o.blocks * 65536)
    else if s.op = 3 then (o, 1, 0, o.packedBytes)
    else (o, o.fate, o.node, o.packedBytes)

/-- Judge a waiting stream's allocation again (R257, R259): it gets its destination, ends refused, or waits on. -/
def Dev.tryGrant (d : Dev) (s : Stream) : Dev :=
  match d.waitingDest s with
  | none => d
  | some (o, tier, node, n) =>
    let r := d.allocJudge s.svc o.partner tier node n
    let out (d : Dev) : Dev := { d with pool := { d.pool with waiting := d.pool.waiting.filter fun x => x != s.tag * 4 + s.slot } }
    match r.2 with
    | .wait => r.1
    | .refused c => (out r.1).streamEnding s.key c
    | .got p => ((out r.1).updStream s.key fun x => { x with dst := some p, entered := true }).issueAll s.flume

/-- One waiting entry: a stream or a RESERVE. -/
def Dev.tryWaiting (d : Dev) (e : Nat) : Dev :=
  match d.flm.streams.find? fun s => s.tag * 4 + s.slot == e && s.dst.isNone && s.op != 4 with
  | some s => d.tryGrant s
  | none => match d.task? (e / 4) with
    | some t => if t.cls = 0x31 then d.tryReserve t true else d
    | none => d

/-- ALLOCATION_GRANT (R248, R250, R259): space has come, and the allocations that wait are tried in their order. -/
def execAllocationGrant (s : State) : Out := s.run fun d =>
  if d.frozen 5 then d else (d.pool.waiting.foldl (fun e x => e.tryWaiting x) d).drainRetry

/-- ARBITRATION_GRANT (R258): a point grants one block in a direction (1 from its tier, 0 towards it). -/
def execArbitrationGrant (pt dir : Nat) (s : State) : Out := s.run fun d =>
  let d := (d.grant pt dir).drainRetry.stuckRelease
  (List.range 32).foldl (fun e f => e.issueAll f) d

/-- AGE_LOOP_UPDATE (R20, R21, R24, R255): every 1 ms (19,200 ticks) of RUN and IDLE the threshold follows waits and regrets. -/
def execAgeLoopUpdate (s : State) : Out := s.run fun d =>
  if d.asleep ∨ d.pool.ageRun < 19200 then d
  else
    let a := d.rd .AGE_APPLIED
    let sh := min 0xFFFFFFFF (if 0 < d.pool.fullWaits then a / 2 else if 0 < d.pool.regrets then a * 2 else a)
    let lo := d.get .AGE_LOW_US
    let hi := d.get .AGE_HIGH_US
    let pin := d.get .AGE_PIN_PIN_EN == 1
    let tied := d.isTied 0x31 0
    let ap := if tied then a else if pin then d.get .AGE_PIN_US else max lo (min hi sh)
    let d := ((d.untie 0x31 0).wr .AGE_SHADOW sh).wr .AGE_APPLIED ap
    let d := { d with pool := { d.pool with fullWaits := 0, regrets := 0, ageRun := 0 } }
    let d := if !tied && clamped lo hi sh a pin then (d.bump .AGE_CLAMP_COUNT).raise 5 0 5 else d
    if d.frozen 5 then d else (d.pool.waiting.foldl (fun e x => e.tryWaiting x) d).background

end Sys2Proof.Machine
end

