-- ==== Sys2Proof/Machine/Sluice.lean ====
section
/-! DEFINITION. The Sluice codec: slots, compression, expansion, keys, and their commands (chapter 14). -/
namespace Sys2Proof.Machine

/-! ### Blocks as matrices -/

/-- Element size in bytes of a format code. -/
def fmtSize (c : Nat) : Nat := fmtBits c / 8

/-- Columns of a block in a format code. -/
def fmtCols (c : Nat) : Nat := 512 / fmtSize c

/-- Elements of `n` bytes each, little-endian. -/
def elems (n : Nat) : Nat → List Byte → List Nat
  | 0, _ => []
  | k + 1, l => leNat (l.take n) :: elems n k (l.drop n)

/-- Split a list into rows of `n`. -/
def rowsOfLen (n : Nat) : Nat → List Nat → List (List Nat)
  | 0, _ => []
  | k + 1, l => l.take n :: rowsOfLen n k (l.drop n)

/-- Columns of a matrix of rows, `n` of them. -/
def transposeMat (n : Nat) (m : List (List Nat)) : List (List Nat) :=
  (List.range n).map fun c => m.map fun r => r.getD c 0

/-! ### hqr (section "Compression") -/

/-- A reflector: its place, v and vv. -/
structure Refl where
  j : Nat
  v : List Nat
  vv : Nat

/-- Step 4 on one column: subtract t·v, t = 2·dot/vv. -/
def Refl.apply (f : Refl) (col : List Nat) : List Nat :=
  let low := col.drop f.j
  let w := fdot f.v low
  let t := fdiv (fmul 0x40000000 w) f.vv
  col.take f.j ++ (low.zip f.v).map fun p => fsub p.1 (fmul t p.2)

/-- The column of the largest sum of squares below row `j`, the lowest index winning a tie. -/
def pivot (j : Nat) (cols : List (List Nat)) : Nat :=
  ((cols.zip (List.range cols.length)).foldl (fun (b : Nat × Option Nat) p =>
    let q := fsumsq (p.1.drop j)
    match b.2 with
    | none => (p.2, some q)
    | some x => if flt x q then (p.2, some q) else b) (0, none)).1

/-- Reflectors of columns `j` on (columns before `j` are done and gone). -/
def hqrSteps : Nat → Nat → List (List Nat) → List Refl
  | 0, _, _ => []
  | f + 1, j, cols =>
    let k := pivot j cols
    let col := cols.getD k []
    let rest := (cols.set k (cols.headD [])).drop 1
    let v0 := col.drop j
    let nrm := fsqrt (fsumsq v0)
    if nrm = 0 then hqrSteps f (j + 1) rest
    else
      let h := v0.headD 0
      let alpha := if fle 0 h then fneg nrm else nrm
      let v := fsub h alpha :: v0.drop 1
      let r : Refl := { j := j, v := v, vv := fsumsq v }
      r :: hqrSteps f (j + 1) (rest.map r.apply)

/-- hqr of an m × p matrix given by columns, as columns. -/
def hqr (m : Nat) (cols : List (List Nat)) : List (List Nat) :=
  let p := cols.length
  let rs := (hqrSteps p 0 cols).reverse
  (List.range p).map fun c =>
    rs.foldl (fun col r => r.apply col) ((List.range m).map fun i => if i = c then 0x3F800000 else 0)

/-! ### Compression -/

/-- What compression of a block gives: rank, iterations, exponent, whether over tolerance, U by columns and B by rows of
the last iteration, RESID. -/
structure Comp where
  k : Nat
  q : Nat
  e : Int
  ovr : Bool
  u : List (List Nat)
  b : List (List Nat)
  resid : Nat

/-- The test matrix omega's column `j` (n entries). -/
def omegaCol (handle blk n j : Nat) : List Nat :=
  (List.range n).map fun i =>
    if bitsOf (philox i (j / 4) 0 0 handle blk (j % 4)) 31 1 = 1 then 0xBF800000 else 0x3F800000

/-- y = a · w, a by rows, w by columns; as columns. -/
def mulCols (a w : List (List Nat)) : List (List Nat) := w.map fun c => a.map fun r => fdot r c

/-- RESID: sqrt((s − kept) / s); where rounding leaves a negative difference the spec states no value, and it is a free
one that R322's check accepts. -/
def residOf (s kept : Nat) : Nat :=
  let x := fsub s kept
  if flt x 0 then Config.freeNat (s * 2 ^ 32 + kept) % 0x7F800000 else fsqrt (fdiv x s)

/-- The smallest rank that passes: the sums of squares of the first 8, 16, … rows of B. -/
def passing (s t2 kd : Nat) (b : List (List Nat)) : Option (Nat × Nat) :=
  ((List.range (kd / 8)).map fun i => 8 * (i + 1)).foldl (fun r k =>
    match r with
    | some x => some x
    | none =>
      let kept := fsumsq (b.take k).flatten
      if fle (fsub s kept) t2 then some (k, kept) else none) none

/-- The iterations from `q`, with `f` left. -/
def compLoop (n kd s t2 : Nat) (e : Int) (a acols : List (List Nat)) : Nat → Nat → List (List Nat) → Comp
  | 0, q, _ => { k := kd, q := q, e := e, ovr := true, u := [], b := [], resid := 0 }
  | f + 1, q, y =>
    let u := hqr 128 y
    let b := u.map fun c => acols.map fun ac => fdot c ac
    match passing s t2 kd b with
    | some (k, kept) => { k := k, q := q, e := e, ovr := false, u := u, b := b, resid := residOf s kept }
    | none =>
      if f = 0 then { k := kd, q := q, e := e, ovr := true, u := u, b := b, resid := residOf s (fsumsq b.flatten) }
      else
        let z := hqr n b
        compLoop n kd s t2 e a acols f (q + 1) (mulCols a z)

/-- Compress a block of FP32 words (finite), row-major. -/
def compress (n kd tolx qmax handle blk : Nat) (x : List Nat) : Comp :=
  let amax := x.foldl (fun m w => if m < w % 2 ^ 31 then w % 2 ^ 31 else m) 0
  match f32 amax with
  | .fin _ m e0 =>
    if m = 0 then { k := 0, q := 0, e := 0, ovr := false, u := [], b := [], resid := 0 }
    else
      let e : Int := (Nat.log2 m : Int) + e0
      let a := rowsOfLen n 128 (x.map fun w => fscale w (-e))
      let s := fsumsq a.flatten
      let t2 := fscale s (-(2 * tolx : Nat))
      let acols := transposeMat n a
      compLoop n kd s t2 e a acols (qmax + 1) 0 (mulCols a ((List.range kd).map fun j => omegaCol handle blk n j))
  | _ => { k := 0, q := 0, e := 0, ovr := false, u := [], b := [], resid := 0 }

/-- The payload: U row-major (128 × k), then V (k × n), in BF16. -/
def Comp.payload (c : Comp) : List Byte :=
  let bf (w : Nat) : List Byte := leBytes 2 (convert 0 true (f32 w)).1
  let u := (List.range 128).flatMap fun r => (c.u.take c.k).map fun col => col.getD r 0
  (u.flatMap bf) ++ ((c.b.take c.k).flatten.flatMap bf)

/-! ### Headers (Table 14-2) -/

/-- The 64 bytes of a slot header. -/
def slotHeader (fmt decl act : Nat) (esc ovr nf enc : Bool) (e : Int) (q key len handle blk escIx resid : Nat) :
    List Byte :=
  let w1 := 2 ^ 28 + fmt * 2 ^ 25 + bit01 esc * 2 ^ 24 + bit01 ovr * 2 ^ 23 + bit01 nf * 2 ^ 22 + bit01 enc * 2 ^ 21
    + decl * 2 ^ 8 + act
  let w2 := unsigned 16 e * 2 ^ 16 + q * 2 ^ 12 + (if enc then key else 0) * 2 ^ 8
  let h := leBytes 4 0x42434C53 ++ leBytes 4 w1 ++ leBytes 4 w2 ++ leBytes 4 len ++ leBytes 4 handle ++ leBytes 4 blk
    ++ leBytes 4 escIx ++ leBytes 4 resid ++ List.replicate 28 0
  h ++ leBytes 4 (crc32c h)

/-- A header word. -/
def hdrWord (l : List Byte) (off : Nat) : Nat := leNat ((l.drop off).take 4)

/-- The first of the ten checks that fails (Table 14-3), or none. -/
def headerCheck (l : List Byte) (o : Obj) (blk : Nat) : Option Nat :=
  let w1 := hdrWord l 4
  let w2 := hdrWord l 8
  let fmt := bitsOf w1 25 3
  let esc := bitsOf w1 24 1 == 1
  let enc := bitsOf w1 21 1 == 1
  let decl := bitsOf w1 8 8
  let act := bitsOf w1 0 8
  let resid := hdrWord l 28
  if hdrWord l 0 ≠ 0x42434C53 then some 0x0601
  else if crc32c (l.take 60) ≠ hdrWord l 60 then some 0x0602
  else if bitsOf w1 28 4 ≠ 1 then some 0x0603
  else if bitsOf w1 16 5 ≠ 0 ∨ bitsOf w2 0 8 ≠ 0 ∨ ((l.drop 32).take 28).any (· != 0) ∨ (!enc && bitsOf w2 8 4 != 0)
      ∨ (0x7F800000 ≤ resid ∧ resid ≠ 0x80000000) then some 0x0604
  else if fmt > 4 ∨ blockFmt o.format (if fmt = 1 then 1 else if fmt = 3 then 2 else 0) ≠ fmt then some 0x0605
  else if hdrWord l 16 ≠ o.handle ∨ hdrWord l 20 ≠ blk then some 0x0606
  else if enc ≠ o.enc ∨ (enc ∧ bitsOf w2 8 4 ≠ o.key) then some 0x0607
  else if decl ≠ rankOf o.codec ∨ decl < act ∨ act % 8 ≠ 0 ∨ (esc ∧ act ≠ 0) then some 0x0608
  else if hdrWord l 12 ≠ 64 + 2 * act * (128 + colsOf o.format) then some 0x0609
  else if (esc ∧ o.escBlocks ≤ hdrWord l 24) ∨ (!esc ∧ hdrWord l 24 ≠ 0xFFFFFFFF) then some 0x060A
  else none

/-! ### Expansion -/

/-- One element: ascending sum of separately rounded products, times 2^e, converted under SATURATE. -/
def expandElem (fmt : Nat) (e : Int) (u v : List Nat) : Nat × Bool × Bool :=
  convert fmt false (f32 (fscale (fdot u v) e))

/-- The elements of a checked slot's payload (bytes after its header), each with its OVERFLOW and INVALID. -/
def expandElems (fmt act : Nat) (e : Int) (pay : List Byte) : List (Nat × Bool × Bool) :=
  let n := fmtCols fmt
  let w := (elems 2 (128 * act + act * n) pay).map fun x => x * 65536
  let u := rowsOfLen act 128 (w.take (128 * act))
  let vcols := transposeMat n (rowsOfLen n act (w.drop (128 * act)))
  u.flatMap fun r => vcols.map fun c => expandElem fmt e r c

/-- Expand a payload: the block's bytes and its OVERFLOW and INVALID counts. -/
def expandPayload (fmt act : Nat) (e : Int) (pay : List Byte) : List Byte × Nat × Nat :=
  let out := expandElems fmt act e pay
  (out.flatMap (fun x => leBytes (fmtSize fmt) x.1), (out.filter fun x => x.2.1).length, (out.filter fun x => x.2.2).length)

/-! ### Lanes -/

def Dev.laneHead (d : Dev) (n : Nat) : Option LaneBlk := d.slc.q.find? fun b => b.lane == n

/-- Remove a block from its lane's queue. -/
def Dev.laneDrop (d : Dev) (b : LaneBlk) : Dev := { d with slc := { d.slc with q := d.slc.q.erase b } }

/-- The lane's head may be worked: its block is present, enabled and not frozen. -/
def Dev.laneReady (d : Dev) (n : Nat) : Bool := d.enabled (38 + n) && !d.frozen (38 + n)

/-- A block that reaches its cipher stage while its key slot is empty (R328): its stream faults. -/
def Dev.keyFail (d : Dev) (b : LaneBlk) : Dev :=
  ((d.laneDrop b).keyMissing b.lane).streamFault (b.flume, b.ctx, b.slot) 0x0502

/-- The blocks dealt again that wait for room, in order, as far as there is some (R276, R332). -/
def Dev.fullEnter : Nat → Nat × Nat × Nat → Dev → Dev
  | 0, _, d => d
  | f + 1, k, d =>
    match d.stream? k with
    | none => d
    | some s => match s.full, d.obj? s.handle with
      | (rel, n, data) :: rest, some o =>
        if 4194304 < d.laneBytes n + data.length then d.queueWait s n rel
        else Dev.fullEnter f k ((d.updStream k fun x => { x with full := rest }).laneEnter s o n rel data)
      | _, _ => d

/-- Blocks that waited for a lane's queue try again, and the Flume issues what it can (R277, R332). -/
def Dev.retryFull (d : Dev) : Dev :=
  let d := (d.flm.streams.filter Stream.moving).foldl (fun e s =>
    Dev.takeAhead (s.ahead.length + 1) s.key (Dev.fullEnter (s.full.length + 1) s.key e)) d
  (List.range 32).foldl (fun e f => e.issueAll f) d

/-- A block leaves the lane: its output goes to its stream's writes. -/
def Dev.laneOut (d : Dev) (b : LaneBlk) (ps : List WPiece) : Dev :=
  let n := ps.foldl (fun a p => a + p.bytes.length) 0
  let d := (d.laneDrop b).add64 .LANE_BYTES_OUT_LO n b.lane
  d.queueWrites (b.flume, b.ctx, b.slot) ps

/-- A slot with its payload and its zeros, as writes; `pay` is what follows the header. -/
def slotPieces (o : Obj) (rel blk : Nat) (hdr pay : List Byte) : List WPiece :=
  let bytes := hdr ++ pay
  cutPieces rel 16 (blk * o.slotSize) (bytes ++ List.replicate (o.slotSize - bytes.length) 0)

/-- Store a compressed block (R315, R316, R318). -/
def Dev.storeComp (d : Dev) (b : LaneBlk) (o : Obj) (blk : Nat) (c : Comp) (nf : Bool) (key : Option (List Byte)) : Dev :=
  let fmt := blockFmt o.format b.policy
  let pay := c.payload
  let pay := match key with
    | some k => if pay.isEmpty then pay else xtsEncrypt k (tweak o.handle blk) pay
    | none => pay
  let hdr := slotHeader fmt (rankOf o.codec) c.k false c.ovr nf o.enc c.e c.q o.key (64 + 2 * c.k * (128 + colsOf o.format))
    o.handle blk 0xFFFFFFFF c.resid
  let d := (d.bump .BLK_COMP_COUNT b.lane).bump (.ITER_COUNT c.q) b.lane
  let d := if c.k < rankOf o.codec then d.bump .SMALLER_COUNT b.lane else d
  let d := if nf then (d.bump .NONFINITE_COUNT b.lane).raise (38 + b.lane) 0 3 else d
  d.laneOut b (slotPieces o b.rel blk hdr pay)

/-- Store a block in the escape area (R317): the raw block, and its slot's header. -/
def Dev.storeEscape (d : Dev) (b : LaneBlk) (o : Obj) (blk ix : Nat) (c : Comp) (key : Option (List Byte)) : Dev :=
  let raw := match key with
    | some k => xtsEncrypt k (tweak o.handle blk) b.data
    | none => b.data
  let hdr := slotHeader (blockFmt o.format b.policy) (rankOf o.codec) 0 true false false o.enc c.e c.q o.key 64 o.handle blk ix
    c.resid
  let d := ((d.bump .BLK_COMP_COUNT b.lane).bump (.ITER_COUNT c.q) b.lane).bump .ESCAPE_COUNT b.lane
  let d := d.updStream (b.flume, b.ctx, b.slot) fun s => { s with esc := ix + 1, escAt := s.escAt ++ [(b.rel, ix)] }
  let esc := (cutPieces b.rel 16 (o.blocks * o.slotSize + 65536 * ix) raw).map fun w => { w with last := false }
  d.laneOut b (esc ++ slotPieces o b.rel blk hdr [])

/-- The lane's work on a block: whether it holds non-finite elements, and its compression with them replaced by +0. -/
def LaneBlk.work (b : LaneBlk) (o : Obj) (blk : Nat) : Bool × Comp :=
  let fmt := blockFmt o.format b.policy
  let n := colsOf o.format
  let x := (elems (fmtSize fmt) (128 * n) b.data).map fun w => toF32 (decodeFmt fmt w)
  let nf := x.any fun w => isNan32 w || isInf32 w
  let x := x.map fun w => if isNan32 w || isInf32 w then 0 else w
  (nf, compress n (rankOf o.codec) (bitsOf b.policy 8 5) (bitsOf b.policy 4 2) o.handle blk x)

/-- Run `g` on the head of a lane's queue, with its stream and object; a block whose object is gone, or whose stream halts or ends, leaves
without output (R333). -/
def Dev.onLane (d : Dev) (n dir : Nat) (g : Dev → LaneBlk → Stream → Obj → Dev) : Dev :=
  match d.laneHead n with
  | none => d
  | some b =>
    if b.dir ≠ dir || !d.laneReady n then d
    else match d.stream? (b.flume, b.ctx, b.slot), d.obj? b.handle with
      | some s, some o => (if s.moving then g d b s o else d.laneDrop b).retryFull
      | _, _ => (d.laneDrop b).retryFull

/-- Latch the object's key, where it has one: `none` where it is missing. -/
def Dev.latchKey (d : Dev) (o : Obj) : Option (Option (List Byte)) :=
  if o.enc then (d.keyOf o.key).map some else some none

/-- BLOCK_COMPRESS (R312 to R316, R318, R320, R324, R328): the lane compresses or encrypts its next block; one that may
need an escape waits for its decision (R319). -/
def execBlockCompress (n : Nat) (s : State) : Out := s.run fun d =>
  d.onLane n 0 fun d b st o =>
    let blk := st.blk b.rel
    if b.escape then d
    else match d.latchKey o with
      | none => d.keyFail b
      | some key =>
        if o.codec = 0 then
          let out := match key with
            | some k => xtsEncrypt k (tweak o.handle blk) b.data
            | none => b.data
          (d.bump .BLK_COMP_COUNT n).laneOut b (cutPieces b.rel 16 (blk * 65536) out)
        else
          let w := b.work o blk
          if (w.1 || w.2.ovr) && !o.accept then
            { d with slc := { d.slc with q := d.slc.q.map fun x => if x == b then { x with escape := true } else x } }
          else
            let d := if w.2.ovr then (d.bump .OVER_COUNT n).raise (38 + n) 0 1 else d
            d.storeComp b o blk w.2 w.1 key

/-- ESCAPE_DECISION (R317 to R320): taken once every lower block of the stream has been decided. -/
def execEscapeDecision (n : Nat) (s : State) : Out := s.run fun d =>
  d.onLane n 0 fun d b st o =>
    let blk := st.blk b.rel
    let lower := (d.slc.q.any fun x =>
      x.flume == b.flume && x.ctx == b.ctx && x.slot == b.slot && decide (x.rel < b.rel)) || st.full.any fun e => decide (e.1 < b.rel)
    if !b.escape || lower then d
    else match d.latchKey o with
      | none => d.keyFail b
      | some key =>
        let w := b.work o blk
        if st.esc < o.escBlocks then d.storeEscape b o blk st.esc w.2 key
        else
          let d := if w.2.ovr then (d.bump .ESC_EXHAUST_COUNT n).raise (38 + n) 0 2 else d
          d.storeComp b o blk w.2 w.1 key

/-- A block fails a header check (R322). -/
def Dev.checkFail (d : Dev) (b : LaneBlk) (st : Stream) (blk code : Nat) : Dev :=
  let d := ((d.wr .CHECK_FAIL_CAUSE code b.lane).wr .CHECK_FAIL_HANDLE b.handle b.lane).wr .CHECK_FAIL_BLOCK blk b.lane
  let d := (d.bump .CHECK_FAIL_COUNT b.lane).raise (38 + b.lane) 0 0
  (d.laneDrop b).streamDamage st

/-- An expanded or decrypted block: observed, written, its granules wet (O6). -/
def Dev.laneExpanded (d : Dev) (b : LaneBlk) (st : Stream) (o : Obj) (data : List Byte) : Dev :=
  let blk := st.blk b.rel
  let d := (d.bump .BLK_EXP_COUNT b.lane).observe st b.rel data
  let d := if o.codec = 0 then d else d.wetBlock o blk
  d.laneOut b (cutPieces b.rel 16 (blk * 65536) data)

/-- Conversions that overflowed or were invalid, under the object's partner (R348, R413). -/
def Dev.countConv (d : Dev) (partner ovf inv : Nat) : Dev :=
  (d.bumpBy (.CONV_OVF partner) ovf).bumpBy (.CONV_INV partner) inv

/-- BLOCK_EXPAND (R322 to R325, R328): checks, then decryption, then expansion. -/
def execBlockExpand (n : Nat) (s : State) : Out := s.run fun d =>
  d.onLane n 1 fun d b st o =>
    let blk := st.blk b.rel
    let dec (k : Option (List Byte)) (x : List Byte) : List Byte := match k with
      | some k => if x.isEmpty then x else xtsDecrypt k (tweak o.handle blk) x
      | none => x
    let check := if o.codec = 0 then none else headerCheck b.data o blk
    match check with
    | some code => d.checkFail b st blk code
    | none => match d.latchKey o with
      | none => d.keyFail b
      | some key =>
        if o.codec = 0 then d.laneExpanded b st o (dec key b.data)
        else
          let w1 := hdrWord b.data 4
          if bitsOf w1 24 1 = 1 then
            let off := o.blocks * o.slotSize + 65536 * hdrWord b.data 24
            d.laneExpanded b st o (dec key (d.placeRd st.src off 65536))
          else
            let act := bitsOf w1 0 8
            let pay := dec key ((b.data.drop 64).take (2 * act * (128 + colsOf o.format)))
            let r := expandPayload (bitsOf w1 25 3) act (signed 16 (hdrWord b.data 8 / 65536)) pay
            (d.countConv o.partner r.2.1 r.2.2).laneExpanded b st o r.1

/-! ### Keys (R326 to R329) -/

def Dev.keyStage (d : Dev) (p : Path) : List Word := d.slc.keyStage.getD p.ix []

def Dev.setKeyStage (d : Dev) (p : Path) (l : List Word) : Dev :=
  { d with slc := { d.slc with keyStage := d.slc.keyStage.set p.ix l } }

/-- Stage a key word; a seventeenth is not kept. -/
def Dev.keyData (d : Dev) (p : Path) (v : Word) : Dev :=
  if (d.keyStage p).length < 16 then d.setKeyStage p (d.keyStage p ++ [v]) else d

/-- Write KEY_SEL: discards the path's staging. -/
def Dev.keySel (d : Dev) (p : Path) (v : Nat) : Dev := (d.set .KEY_SEL_SLOT v).setKeyStage p []

/-- The 64 bytes of staged key words. -/
def keyBytes (l : List Word) : List Byte := l.flatMap fun w => leBytes 4 w.toNat

/-- Put a key into a slot, in slot order. -/
def Dev.putKey (d : Dev) (slot : Nat) (k : List Byte) : Dev :=
  { d with keys := Sparse.ins (d.keys.filter fun e => e.1 != slot) slot k }

/-- KEY_CMD LOAD (R327). -/
def Dev.keyLoad (d : Dev) (p : Path) : Dev :=
  let st := d.keyStage p
  let slot := d.get .KEY_SEL_SLOT
  let k := keyBytes st
  let d := d.setKeyStage p []
  if st.length < 16 then d.errWr p 46 0 0xA8 0x0621 1
  else if (d.keyOf slot).isSome then d.errWr p 46 0 0xA8 0x0620 1
  else if k.take 32 = k.drop 32 then d.errWr p 46 0 0xA8 0x0622 1
  else d.putKey slot k

/-- KEY_CMD CLEAR (R328). -/
def Dev.keyClear (d : Dev) : Dev := { d with keys := d.keys.filter fun e => e.1 != d.get .KEY_SEL_SLOT }

/-- Would this retention setting create combination X5 (R38, Table 2-4)? -/
def Dev.x5 (d : Dev) (retain : Nat) (hold : Bool) : Bool :=
  hold && d.plan.admitted && d.objs.any fun e =>
    e.2.state != oFREE && e.2.state != oRETIRED && e.2.enc && bitsOf retain e.2.key 1 == 0

/-- Write KEY_RETAIN (R38, R329). -/
def Dev.keyRetain (d : Dev) (p : Path) (v : Nat) : Dev :=
  if d.x5 v d.holdPermitted then d.errWr p 46 0 0xB0 0x0024 v else d.wr .KEY_RETAIN (v % 65536)

/-- KEY_DATA_WRITE (R326). -/
def execKeyDataWrite (p : Path) (v : Word) (s : State) : Out := s.run fun d =>
  d.viaReg p .KEY_DATA 0 v.toNat fun e => e.keyData p v

/-- KEY_SEL_WRITE (R326). -/
def execKeySelWrite (p : Path) (v : Word) (s : State) : Out := s.run fun d =>
  d.viaReg p .KEY_SEL 0 v.toNat fun e => e.keySel p v.toNat

/-- KEY_LOAD (R327). -/
def execKeyLoad (p : Path) (s : State) : Out := s.run fun d =>
  d.viaReg p .KEY_CMD 0 1 fun e => e.keyLoad p

/-- KEY_CLEAR (R328). -/
def execKeyClear (p : Path) (s : State) : Out := s.run fun d => d.viaReg p .KEY_CMD 0 2 fun e => e.keyClear

/-- KEY_RETAIN_WRITE (R329). -/
def execKeyRetainWrite (p : Path) (v : Word) (s : State) : Out := s.run fun d =>
  d.viaReg p .KEY_RETAIN 0 v.toNat fun e => e.keyRetain p v.toNat

end Sys2Proof.Machine
end

