-- ==== Sys2Proof/Machine/Siphon.lean ====
section
/-! DEFINITION. The Siphon Array: chains, their descriptors and operations, and its commands (chapter 17). -/
namespace Sys2Proof.Machine

/-! ### Descriptors (Tables 17-1 and 17-2) -/

/-- Word `w` of section entry `i`. -/
def Dev.chainWord (d : Dev) (i w : Nat) : Nat := d.ld spT1 (d.rd64 .SPH_CHAIN_BASE_LO + 64 * i + 4 * w) 4

/-- The sixteen words of an entry. -/
def Dev.chainEntry (d : Dev) (i : Nat) : List Nat := (List.range 16).map fun w => d.chainWord i w

/-- A field of a descriptor. -/
def dw (ws : List Nat) (w lo n : Nat) : Nat := bitsOf (ws.getD w 0) lo n

/-- OP_COUNT of a head. -/
def opCount (hd : List Nat) : Nat := dw hd 0 20 8

/-- Descriptor fields by their names. -/
def dOpc (ws : List Nat) : Nat := dw ws 0 20 8
def dSub (ws : List Nat) : Nat := dw ws 0 0 4
def dDst (ws : List Nat) : Nat := dw ws 1 16 16
def dA (ws : List Nat) : Nat := dw ws 1 0 16
def dB (ws : List Nat) : Nat := dw ws 2 16 16
def dC (ws : List Nat) : Nat := dw ws 2 0 16
def dDfmt (ws : List Nat) : Nat := dw ws 3 28 4
def dM (ws : List Nat) : Nat := ws.getD 4 0
def dN (ws : List Nat) : Nat := ws.getD 5 0
def dK (ws : List Nat) : Nat := ws.getD 6 0
def dBatch (ws : List Nat) : Nat := dw ws 7 16 16
def dOff (ws : List Nat) (i : Nat) : Nat := ws.getD (8 + i) 0

def isGemm (opc : Nat) : Bool := opc == 0x01 || opc == 0x02

/-- The result's shape: rows and columns. -/
def resultShape (ws : List Nat) : Nat × Nat :=
  if dOpc ws = 0x02 then (dBatch ws * dM ws, dN ws)
  else if dOpc ws = 0x51 then (max 1 (dBatch ws) * dN ws, dM ws)
  else (dM ws, dN ws)

/-- Bytes of `n` elements of a format (two INT4 elements a byte, R340). -/
def elemBytes (fmt n : Nat) : Nat := (n * fmtBits fmt + 7) / 8

/-- Pack elements into bytes (R340). -/
def packElems (fmt : Nat) (l : List Nat) : List Byte :=
  if fmt = 6 then
    let rec nib : List Nat → List Byte
      | a :: b :: t => BitVec.ofNat 8 (a % 16 + 16 * (b % 16)) :: nib t
      | [a] => [BitVec.ofNat 8 (a % 16)]
      | [] => []
    nib l
  else l.flatMap fun x => leBytes (fmtSize fmt) x

/-- `n` elements out of bytes. -/
def unpackElems (fmt n : Nat) (b : List Byte) : List Nat :=
  if fmt = 6 then (b.flatMap fun x => [x.toNat % 16, x.toNat / 16]).take n else elems (fmtSize fmt) n b

/-! ### Row dealing (section "Tiles, SRAM and the weight chain") -/

/-- The place of a row's tile in a tile set of `t` members. -/
def rowTile (t r : Nat) : Nat := r / 64 % t

/-- Rows of `r` dealt to member `i` of `t`. -/
def rowShare (t r i : Nat) : Nat := ((List.range ((r + 63) / 64)).filter fun j => j % t == i).foldl
  (fun a j => a + min 64 (r - 64 * j)) 0

/-- Scratch bytes of member 0, the largest share, over the buffers that operations name as DST. -/
def opsShare (ops : List (List Nat)) (tiles : Nat) : Nat :=
  ((ops.foldl (fun (acc : Nat × List Nat) ws =>
    let r := dDst ws
    if r < 0x8000 ∨ r = 0xFFFF ∨ acc.2.contains r then acc
    else (acc.1 + elemBytes (dDfmt ws) (rowShare tiles (resultShape ws).1 0 * (resultShape ws).2), r :: acc.2)) (0, []))).1

/-- The same for a chain in T1. -/
def Dev.scratchShare (d : Dev) (index tiles : Nat) : Nat :=
  opsShare ((List.range (opCount (d.chainEntry index))).map fun i => d.chainEntry (index + 1 + i)) tiles

/-- Bytes of the output that the chain writes: the furthest end of a result in binding 0. -/
def Dev.chainBytes (d : Dev) (index : Nat) : Nat :=
  ((List.range (opCount (d.chainEntry index))).map fun i => d.chainEntry (index + 1 + i)).foldl
    (fun a ws => if dDst ws = 0 then
      max a (dOff ws 3 + elemBytes (dDfmt ws) ((resultShape ws).1 * (resultShape ws).2)) else a) 0

/-- The PRESENT tiles of a mask (0 stands for all). -/
def Dev.tilesOf (d : Dev) (mask : Nat) : List Nat :=
  (List.range 16).filter fun n => (mask == 0 || bitsOf mask n 1 == 1) && d.present (47 + n)

/-! ### Operands -/

/-- The object of a binding (Table 17-1). -/
def Dev.bindHandle (d : Dev) (c : Chain) (k : Nat) : Nat := if k = 0 then c.handle else d.chainWord c.index (3 + k)

/-- The bytes of a binding's object: a dry granule reads as zeros (O7). -/
def Dev.objBytes (d : Dev) (o : Obj) (off n : Nat) : List Byte :=
  ((d.placeRd o.place off n).zip (List.range n)).map fun p => if d.isWet o ((off + p.2) / 4096) then p.1 else 0

/-- Elements `n` from byte `off` of a tensor reference; empty for a reference to nothing. -/
def Dev.operand (d : Dev) (c : Chain) (ref fmt off n : Nat) : List Nat :=
  if ref = 0xFFFF then []
  else if 0x8000 ≤ ref then
    match c.scratch.find? fun s => s.id == ref % 64 with
    | some s => (s.data.drop (off * 8 / fmtBits s.fmt)).take n
    | none => []
  else match d.obj? (d.bindHandle c (ref % 8)) with
    | some o => unpackElems fmt n (d.objBytes o off (elemBytes fmt n))
    | none => []

/-- A tensor as a matrix: element (r, c) of `cols` columns, decoded, or as stored for a scale array. -/
structure Mat where
  cols : Nat
  fmt : Nat
  data : List Nat

def Mat.raw (m : Mat) (r c : Nat) : Nat := m.data.getD (r * m.cols + c) 0
def Mat.val (m : Mat) (r c : Nat) : Val := decodeFmt m.fmt (m.raw r c)

/-- An E8M0 scale applied (R337, R341). -/
def applyScale (v : Val) (x : Nat) : Val := if x = 255 then .nan false 0x400000 false else v.scale ((x : Int) - 127)

/-- FP32 word of a decoded element, a NaN left as it is (signalling NaNs stay so). -/
def Val.word : Val → Nat
  | .nan s g _ => fpInf 4 s + g
  | v => toF32 v

/-! ### Element-wise steps (R381): a word and whether INVALID was raised -/

abbrev Fv := Nat × Bool

def isSnan32 (x : Nat) : Bool := isNan32 x && bitsOf x 22 1 == 0

/-- One step of one operand, and of two. -/
def step1 (f : Nat → Nat) (x : Fv) : Fv :=
  let r := f x.1
  (r, x.2 || isSnan32 x.1 || (isNan32 r && !isNan32 x.1))

def step2 (f : Nat → Nat → Nat) (x y : Fv) : Fv :=
  let r := f x.1 y.1
  (r, x.2 || y.2 || isSnan32 x.1 || isSnan32 y.1 || (isNan32 r && !isNan32 x.1 && !isNan32 y.1))

def fvAdd := step2 fadd
def fvSub := step2 fsub
def fvMul := step2 fmul
def fvDiv := step2 fdiv
def fvMax := step2 fmax
def fvSum (l : List Fv) : Fv := l.foldl fvAdd (0, false)
def fvSumsq (l : List Fv) : Fv := l.foldl (fun a x => fvAdd a (fvMul x x)) (0, false)
def fvK (w : Nat) : Fv := (w, false)
def fvOne : Fv := fvK 0x3F800000

/-- sig(A) = rne(1 / rne(1 + exp(−A))). -/
def fvSig (a : Fv) : Fv := fvDiv fvOne (fvAdd fvOne (step1 (fun x => fexp (if isNan32 x then x else fneg x)) a))

/-- GELU, tanh form (SUB 0) and erf form. -/
def fvGelu (sub : Nat) (a : Fv) : Fv :=
  let t := if sub = 0 then
      let u := fvMul a (fvMul (fvMul a a) a)
      let v := fvAdd (fvMul (fvK 0x3D372713) u) a
      step1 ftanh (fvMul (fvK 0x3F4C422A) v)
    else step1 ferf (fvMul a (fvK 0x3F3504F3))
  fvMul (fvMul (fvK 0x3F000000) a) (fvAdd fvOne t)

/-- What an operation reads: its descriptor, its chain's seed, STEP and MB, its loaded operands, and the conversion flags of an EXPAND's
elements. -/
structure OpIn where
  ws : List Nat
  a : Mat
  b : Mat
  c : Mat
  sa : Mat
  sb : Mat
  seed0 : Nat
  seed1 : Nat
  step : Nat
  mb : Nat
  mode : Nat
  conv : List (Bool × Bool)

def OpIn.aS (x : OpIn) (r c : Nat) : Val :=
  let v := x.a.val r c
  if dw x.ws 3 15 1 = 0 then v
  else
    let s := 16 * 2 ^ dw x.ws 3 11 3
    applyScale v (if dw x.ws 3 14 1 = 0 then x.sa.raw r (c / s) else x.sa.raw (r / s) c)

/-- Element (k, n) of B, with its scale. -/
def OpIn.bS (x : OpIn) (batch k n : Nat) : Val :=
  let kk := dK x.ws
  let nn := dN x.ws
  let v := if dw x.ws 7 15 1 = 1 then x.b.val (batch * nn + n) k else x.b.val (batch * kk + k) n
  if dw x.ws 3 10 1 = 0 then v
  else
    let s := 16 * 2 ^ dw x.ws 3 6 3
    applyScale v (if dw x.ws 3 9 1 = 0 then x.sb.raw (batch * (kk / s) + k / s) n else x.sb.raw (batch * kk + k) (n / s))

def OpIn.fa (x : OpIn) (r c : Nat) : Fv := ((x.aS r c).word, false)
def OpIn.fb (x : OpIn) (r c : Nat) : Fv := ((x.b.val r c).word, false)
def OpIn.fc (x : OpIn) (r c : Nat) : Fv := ((x.c.val r c).word, false)
def OpIn.p0 (x : OpIn) : Fv := fvK (x.ws.getD 12 0)

/-- One GEMM element. -/
def OpIn.gemm (x : OpIn) (r n : Nat) : El :=
  let batch := if dOpc x.ws = 0x02 then r / max 1 (dM x.ws) else 0
  let a := (List.range (dK x.ws)).map fun k => x.aS r k
  let b := (List.range (dK x.ws)).map fun k => x.bS batch k n
  let c := if dC x.ws = 0xFFFF then none else some (x.c.val r n)
  let afmt := dw x.ws 3 24 4
  if (afmt = 5 ∨ afmt = 6) ∧ dw x.ws 3 15 1 = 0 ∧ dw x.ws 3 10 1 = 0 then dotInt c a b else dotF32 x.mode c a b

/-- A row of an element-wise or row-wise operation, before the output stage (Table 17-3). -/
def OpIn.row (x : OpIn) (r : Nat) : List Fv :=
  let n := (resultShape x.ws).2
  let cs := List.range n
  let opc := dOpc x.ws
  let sub := dSub x.ws
  let nW := fvK (fOfInt n)
  if opc = 0x10 then cs.map fun c => fvAdd (x.fa r c) (x.fc 0 c)
  else if opc = 0x11 then cs.map fun c => fvAdd (x.fa r c) (x.fb r c)
  else if opc = 0x12 then cs.map fun c => fvMul (x.fa r c) (if dB x.ws = 0xFFFF then x.p0 else x.fb r c)
  else if opc = 0x20 then cs.map fun c => fvMax (x.fa r c) (fvK 0)
  else if opc = 0x21 then cs.map fun c => fvGelu sub (x.fa r c)
  else if opc = 0x22 then cs.map fun c => fvMul (x.fa r c) (fvSig (x.fa r c))
  else if opc = 0x23 then cs.map fun c => fvSig (x.fa r c)
  else if opc = 0x30 then
    let mu := fvDiv (fvSum (cs.map (x.fa r))) nW
    let ds := cs.map fun c => fvSub (x.fa r c) mu
    let sg := step1 frsqrt (fvAdd (fvDiv (fvSumsq ds) nW) x.p0)
    (ds.zip cs).map fun p =>
      let y := fvMul (fvMul p.1 sg) (x.fb 0 p.2)
      if dC x.ws = 0xFFFF then y else fvAdd y (x.fc 0 p.2)
  else if opc = 0x31 then
    let sg := step1 frsqrt (fvAdd (fvDiv (fvSumsq (cs.map (x.fa r))) nW) x.p0)
    cs.map fun c => fvMul (fvMul (x.fa r c) sg) (x.fb 0 c)
  else if opc = 0x32 then
    let open_ (c : Nat) : Bool :=
      sub % 2 == 0 || decide ((c : Int) ≤ ((r % max 1 (dM x.ws) : Nat) : Int) + signed 32 (x.ws.getD 13 0))
    match cs.filter open_ with
    | [] => cs.map fun _ => fvK 0
    | c0 :: ct =>
      let m := ct.foldl (fun a c => fvMax a (x.fa r c)) (x.fa r c0)
      let e (c : Nat) : Fv := step1 fexp (fvSub (x.fa r c) m)
      let s := fvSum ((c0 :: ct).map e)
      cs.map fun c => if open_ c then fvDiv (e c) s else fvK 0
  else if opc = 0x40 then
    cs.map fun c =>
      let i := if sub = 0 then c / 2 else c % (n / 2)
      let second := if sub = 0 then c % 2 == 1 else decide (n / 2 ≤ c)
      let x0 := x.fa r (if sub = 0 then 2 * i else i)
      let x1 := x.fa r (if sub = 0 then 2 * i + 1 else i + n / 2)
      if second then fvAdd (fvMul x0 (x.fc r i)) (fvMul x1 (x.fb r i)) else fvSub (fvMul x0 (x.fb r i)) (fvMul x1 (x.fc r i))
  else if opc = 0x41 then
    cs.map fun c =>
      let e := r * n + c
      let kept := decide (philox (e / 4) x.step x.mb (dw x.ws 15 0 24) x.seed0 x.seed1 (e % 4) < x.ws.getD 13 0)
      if kept then fvMul (x.fa r c) x.p0 else fvK 0
  else if opc = 0x51 then
    let m := dM x.ws
    let nn := dN x.ws
    cs.map fun c => x.fa (r / max 1 nn * m + c) (r % max 1 nn)
  else cs.map fun c => x.fa r c

/-- A row of the result, after the output stage. -/
def OpIn.out (x : OpIn) (r : Nat) : List El :=
  let ieee := dw x.ws 0 15 1 == 1
  let os := dw x.ws 15 24 8
  if isGemm (dOpc x.ws) then
    let afmt := dw x.ws 3 24 4
    let int := (afmt == 5 || afmt == 6) && dw x.ws 3 15 1 == 0 && dw x.ws 3 10 1 == 0
    (List.range (dN x.ws)).map fun n => outStage int (dDfmt x.ws) os ieee (x.gemm r n)
  else
    let out := (x.row r).map fun v => outStage false (dDfmt x.ws) os ieee (v.1, { ElFlags.none with inv := v.2 || isSnan32 v.1 })
    (out.zip (List.range out.length)).map fun p =>
      let f := x.conv.getD (r * dN x.ws + p.2) (false, false)
      (p.1.1, { p.1.2 with convOvf := p.1.2.convOvf || f.1, convInv := p.1.2.convInv || f.2 })

/-! ### Chains in the control block -/

def Dev.dropChain (d : Dev) (h : Nat) : Dev := { d with chains := d.chains.filter fun c => c.handle != h }

/-- Free the users a chain holds. -/
def Dev.chainRelease (d : Dev) (c : Chain) : Dev := c.users.foldl (fun e h => e.refDown h) (d.dropChain c.handle)

/-- Note the last failure. -/
def Dev.lastFail (d : Dev) (c : Chain) (cause : Nat) : Dev :=
  (d.wr .LAST_FAIL (cause * 65536 + c.index)).wr .LAST_FAIL_HANDLE c.handle

/-- The task that found the damage behind an automatic recompute ends with its outcome; an EVICT task once its other drains have (R244). -/
def Dev.foundResult (d : Dev) (tag cause : Nat) : Dev :=
  match d.task? tag with
  | some t => if t.cls = 0x31 then (d.evictCause (some tag) cause).evictTaskCheck tag 0 else d.taskEnd tag 3 cause t.moved
  | none => d

/-- A chain's result reaches its task: a RUN_CHAIN ends with its cause, the task behind an automatic recompute with
DAMAGED_RECOMPUTE or DAMAGED_FAIL (R244, R386). -/
def Dev.chainResult (d : Dev) (c : Chain) (cause blocks : Nat) : Dev :=
  match c.tag, c.found with
  | some t, _ => if cause = 0 then d.served t blocks else d.taskEnd t 3 cause blocks
  | none, some t => d.foundResult t (if cause = 0 then cDamagedRecompute else cDamagedFail)
  | none, none => d

/-- What R244 takes from a chain that finds damage. -/
def Dev.chainFinder (d : Dev) (c : Chain) : Finder :=
  { svc := c.svc, deadline := c.deadline, ring := ((c.tag.bind d.task?).map Task.ring).getD 0, step := c.step, mb := c.mb, tag := none }

/-- A chain fails on its input (R386). -/
def Dev.chainFail (d : Dev) (c : Chain) (cause : Nat) : Dev :=
  let d := (d.chainRelease c).updObj c.handle fun o => { o with liftLock := false }
  let d := (d.lastFail c cause).raise 63 0 0
  let r := d.damage c.handle (d.chainFinder c)
  r.1.chainResult c cause 0

/-- A chain cannot start (R377): its output stays RECOMPUTE_PENDING. -/
def Dev.chainRefuse (d : Dev) (c : Chain) (cause : Nat) : Dev :=
  let d := (d.dropChain c.handle).updObj c.handle fun o => { o with liftLock := false }
  ((d.lastFail c cause).chainResult c cause 0)

/-- The mode a tile latches for a descriptor (R353, R355). -/
def Dev.latchMode (d : Dev) (c : Chain) (ws : List Nat) (tile : Nat) : Nat :=
  let own := dw ws 0 16 4
  let hd := dw (d.chainEntry c.index) 0 14 4
  if c.arith ≠ 0 then c.arith else if own ≠ 0 then own else if hd ≠ 0 then hd else d.rd .TILE_ARITH tile

/-- The bytes of a chain's output hold free values from its start on: a block of which no descriptor writes a byte has no stated content when
the chain completes (R385, notes/assumptions/125.md). -/
def Dev.chainFresh (d : Dev) (o : Obj) (p : Place) : Dev :=
  { d with free := d.free + 1 }.wbs p.tier (p.at 0)
    ((List.range (o.blocks * 65536)).map fun i => Config.lostByte (2 ^ 32 + d.free) i)

/-- A descriptor starts: every tile of the set latches its mode. -/
def Dev.beginOp (d : Dev) (h op : Nat) : Dev :=
  d.updChain h fun c =>
    let ws := d.chainEntry (c.index + 1 + op)
    { c with op := op, opened := false, need := [], left := c.tiles, res := [], modes := c.tiles.map fun t => (t, d.latchMode c ws t) }

/-- A raw home for the output. -/
def Dev.chainHome (d : Dev) (c : Chain) (o : Obj) : Dev × AllocRes :=
  match o.home with
  | some p => if p.tier ≤ 1 ∧ !o.packed then (d, .got p)
    else
      let r := d.allocate c.svc o.partner 1 0 (o.blocks * 65536)
      (match r.2 with
        | .got q => (r.1.moveHome c.handle q, .got q)
        | x => (r.1, x))
  | none =>
    let r := d.allocate c.svc o.partner 1 0 (o.blocks * 65536)
    match r.2 with
    | .got q => (r.1.moveHome c.handle q, .got q)
    | x => (r.1, x)

/-- A chain starts: CRC and scratch checks, its home, then its first descriptor (R377). -/
def Dev.chainStart (d : Dev) (c : Chain) : Dev :=
  let hd := d.chainEntry c.index
  let tiles := d.tilesOf c.mask
  let body := d.rbs spT1 (d.rd64 .SPH_CHAIN_BASE_LO + 64 * (c.index + 1)) (64 * opCount hd)
  let d := match c.tag with
    | some t => d.waitEnd t
    | none => d
  if dw hd 0 28 4 ≠ 1 ∨ opCount hd = 0 ∨ crc32c body ≠ hd.getD 1 0 then
    ((d.bump .CRC_FAIL_COUNT).raise 63 0 1).chainRefuse c 0x0701
  else if 7 * 2 ^ 20 < d.scratchShare c.index tiles.length then
    ((d.bump .SCRATCH_REFUSE_COUNT).raise 63 0 2).chainRefuse c 0x0702
  else match d.obj? c.handle with
    | none => d.chainRefuse c cObjectState
    | some o =>
      if o.state ≠ oPENDING then d.chainRefuse c cObjectState else
      let r := d.chainHome c o
      match r.2 with
      | .wait => (match c.tag with
          | some t => r.1.waitBegin t cPoolFull
          | none => r.1)
      | .refused cause => r.1.chainRefuse c cause
      | .got p =>
        let d := ((r.1.chainFresh o p).updObj c.handle fun x => { x with packed := false, liftLock := true }).setState c.handle oRECOMPUTING
        let d := if c.auto then d.bump .AUTO_RECOMPUTE_COUNT else d
        let share := d.scratchShare c.index tiles.length
        let d := tiles.foldl (fun e n => (e.ungate (47 + n)).wr .SCRATCH_PEAK (max share (e.rd .SCRATCH_PEAK n)) n) d
        (d.updChain c.handle fun x => { x with st := 1, tiles := tiles, lost := false }).beginOp c.handle 0

/-! ### Bindings (R378, R379) -/

/-- The references an operation reads, each with its offset and the bytes it reads of it. -/
def opReads (ws : List Nat) : List (Nat × Nat × Nat) :=
  let m := dM ws
  let n := dN ws
  let k := dK ws
  let bt := max 1 (dBatch ws)
  let opc := dOpc ws
  let fa := dw ws 3 24 4
  let fb := dw ws 3 20 4
  let fc := dw ws 3 16 4
  let na := if opc = 0x01 then m * k else if opc = 0x02 then bt * m * k else if opc = 0x51 then bt * m * n else m * n
  let nb := if opc = 0x01 then k * n else if opc = 0x02 then bt * k * n else if opc = 0x11 ∨ opc = 0x12 then m * n
    else if opc = 0x40 then m * (n / 2) else n
  let nc := if opc = 0x01 then m * n else if opc = 0x02 then bt * m * n else if opc = 0x40 then m * (n / 2) else n
  ([(dA ws, dOff ws 0, elemBytes fa na), (dB ws, dOff ws 1, elemBytes fb nb), (dC ws, dOff ws 2, elemBytes fc nc),
    (dw ws 14 16 16, 0, na / (16 * 2 ^ dw ws 3 11 3)), (dw ws 14 0 16, 0, nb / (16 * 2 ^ dw ws 3 6 3))]).filter fun x =>
    decide (x.1 < 0x8000)

/-- What a binding's state allows: read, wait, or fail (R378). -/
inductive BindRes where
  | ok | wait | bad
deriving DecidableEq, Repr

def Dev.bindState (d : Dev) (c : Chain) (expand : Bool) (k : Nat) : BindRes :=
  if k = 0 then .ok
  else match d.obj? (d.bindHandle c k) with
    | none => .bad
    | some o =>
      if o.state = oLIFTING ∨ o.state = oRECOMPUTING then .wait
      else if expand then (if o.state = oPARKED ∧ o.tier = 1 then .ok else .bad)
      else if (o.state = oFILLING ∨ o.state = oWET ∨ o.state = oSEALED ∨ o.state = oREADY) ∧ o.tier ≤ 1 then .ok
      else .bad

/-- The dry granules of a byte range of an object. -/
def Dev.dryGranules (d : Dev) (o : Obj) (off n : Nat) : List Nat :=
  ((List.range ((off + n + 4095) / 4096 - off / 4096)).map fun i => off / 4096 + i).filter fun g => !d.isWet o g

/-- Count dry granules read (R233). -/
def Dev.countDry (d : Dev) (h : Nat) (gs : List Nat) : Dev :=
  match gs with
  | [] => d
  | g :: _ =>
    let d := d.bumpBy .DRY_READ_COUNT gs.length
    ((d.wr .DRY_READ_HANDLE h).wr64 .DRY_READ_OFFSET_LO (g * 4096)).raise 4 0 0

/-- The grants that a descriptor needs (R258, notes/assumptions/124.md): a block at the point of each object that it reads (direction 1) and
of the one that it writes (direction 0), per 64 KiB begun. -/
def Dev.chainNeed (d : Dev) (c : Chain) (ws : List Nat) : List (Nat × Nat) :=
  let at_ (dir : Nat) (x : Nat × Nat × Nat) : Option (Nat × Nat) := (d.obj? (d.bindHandle c (x.1 % 8))).map fun o =>
    (2 * d.point o.place + dir, (x.2.2 + 65535) / 65536)
  let sh := resultShape ws
  let out := if 0x8000 ≤ dDst ws then [] else [(dDst ws, dOff ws 3, elemBytes (dDfmt ws) (sh.1 * sh.2))]
  let all := (opReads ws).filterMap (at_ 1) ++ out.filterMap (at_ 0)
  all.foldl (fun l e => Sparse.put (fun _ => 0) l e.1 (Sparse.get (fun _ => 0) l e.1 + e.2)) []

/-- Open a descriptor: its bindings are waited for, fail the chain, or are read; `true` where it is open. -/
def Dev.openOp (d : Dev) (c : Chain) : Dev × Bool :=
  let ws := d.chainEntry (c.index + 1 + c.op)
  let reads := opReads ws
  let expand := dOpc ws == 0x60
  let st := reads.map fun x => d.bindState c expand (x.1 % 8)
  if st.contains .bad then (d.chainFail c 0x0703, false)
  else if st.contains .wait then
    let now := d.gh.timer
    let d := d.updChain c.handle fun x => { x with st := 2, waitAt := if x.st = 2 then x.waitAt else some now }
    ((match c.tag with
      | some t => d.waitBegin t 0x0406
      | none => d), false)
  else
    let hs := (reads.map fun x => d.bindHandle c (x.1 % 8)).filter fun h => h != c.handle && !c.users.contains h
    let new := hs.eraseDups
    if new.any d.refFull then
      let now := d.gh.timer
      ((d.refWaits (c.st == 1 && c.waitAt.isSome)).updChain c.handle fun x => { x with st := 1, waitAt := some now }, false)
    else
      let d := new.foldl (fun e h => e.refUp h) d
      let need := d.chainNeed c ws
      let d := d.updChain c.handle fun x => { x with users := x.users ++ new, opened := true, st := 1, need := need, waitAt := none }
      let d := reads.foldl (fun e x => match e.obj? (e.bindHandle c (x.1 % 8)) with
        | some o => e.hbmBytes o.place x.2.2 false
        | none => e) d
      let dry := if expand then [] else reads.filterMap fun x =>
        match (if x.1 % 8 = 0 then none else d.obj? (d.bindHandle c (x.1 % 8))) with
        | some o => (match d.dryGranules o x.2.1 x.2.2 with
          | [] => none
          | gs => some (o, gs))
        | none => none
      match d.chains.find? fun x => x.handle == c.handle with
      | none => (d, false)
      | some c' =>
        if dry.any fun x => x.1.poison then
          let d := dry.foldl (fun e x => e.countDry x.1.handle x.2) d
          (d.chainFail c' 0x0704, false)
        else (dry.foldl (fun e x => e.countDry x.1.handle x.2) d, true)

/-! ### Running a descriptor -/

/-- The elements that EXPAND reads, block by block from A_OFF / 65,536 on, each with the OVERFLOW and INVALID of its conversion (R323, R348,
R384); `none` where a header check fails. -/
def Dev.expandBlocks (d : Dev) (o : Obj) : Nat → Nat → Option (List (Nat × Bool × Bool))
  | 0, _ => some []
  | n + 1, blk =>
    let slot := d.placeRd o.place (blk * o.slotSize) o.slotSize
    match headerCheck slot o blk with
    | some _ => none
    | none =>
      let w1 := hdrWord slot 4
      let fmt := bitsOf w1 25 3
      let out := if bitsOf w1 24 1 = 1 then
          (elems (fmtSize fmt) (65536 / fmtSize fmt) (d.placeRd o.place (o.blocks * o.slotSize + 65536 * hdrWord slot 24) 65536)).map
            fun x => (x, false, false)
        else expandElems fmt (bitsOf w1 0 8) (signed 16 (hdrWord slot 8 / 65536)) (slot.drop 64)
      (d.expandBlocks o n (blk + 1)).map fun t => out ++ t

/-- A descriptor's operands. -/
def Dev.opIn (d : Dev) (c : Chain) (mode : Nat) : Option OpIn :=
  let ws := d.chainEntry (c.index + 1 + c.op)
  let opc := dOpc ws
  let m := dM ws
  let n := dN ws
  let k := dK ws
  let bt := max 1 (dBatch ws)
  let fa := dw ws 3 24 4
  let fb := dw ws 3 20 4
  let fc := dw ws 3 16 4
  let acols := if isGemm opc then k else n
  let arows := if opc = 0x02 then bt * m else if opc = 0x51 then bt * m else m
  let bcols := if isGemm opc then (if dw ws 7 15 1 = 1 then k else n) else if opc = 0x40 then n / 2 else n
  let brows := if isGemm opc then bt * (if dw ws 7 15 1 = 1 then n else k) else if opc = 0x30 ∨ opc = 0x31 then 1 else m
  let ccols := if opc = 0x40 then n / 2 else n
  let crows := if isGemm opc then bt * m else if opc = 0x40 then m else 1
  let sref := dw ws 14 16 16
  let tref := dw ws 14 0 16
  let asz := 16 * 2 ^ dw ws 3 11 3
  let bsz := 16 * 2 ^ dw ws 3 6 3
  let sacols := if dw ws 3 14 1 = 0 then acols / asz else acols
  let sbcols := if dw ws 3 9 1 = 0 then n else n / bsz
  let a := if opc = 0x60 then
      match d.obj? (d.bindHandle c (dA ws % 8)) with
      | some o => (d.expandBlocks o ((elemBytes fa (m * n) + 65535) / 65536) (dOff ws 0 / 65536)).map fun l => l.take (m * n)
      | none => none
    else some ((d.operand c (dA ws) fa (dOff ws 0) (arows * acols)).map fun x => (x, false, false))
  a.map fun da =>
    { ws := ws, a := { cols := acols, fmt := fa, data := da.map (·.1) }, conv := if opc = 0x60 then da.map (·.2) else [],
      b := { cols := bcols, fmt := fb, data := d.operand c (dB ws) fb (dOff ws 1) (brows * bcols) },
      c := { cols := ccols, fmt := fc, data := d.operand c (dC ws) fc (dOff ws 2) (crows * ccols) },
      sa := { cols := sacols, fmt := 0, data := d.operand c sref 5 0 (arows * acols) },
      sb := { cols := sbcols, fmt := 0, data := d.operand c tref 5 0 (brows * bcols) },
      seed0 := d.chainWord c.index 2, seed1 := d.chainWord c.index 3, step := c.step, mb := c.mb, mode := mode }

/-- MACs per cycle of a tile by operand format (Table 1-4). -/
def macRate (fmt : Nat) : Nat := if fmt = 6 then 8192 else if fmt = 2 ∨ fmt = 3 ∨ fmt = 5 then 4096 else if fmt = 4 then 256 else 2048

/-- A tile's counts of a finished descriptor (R368, R389), and the flags it leaves. -/
def Dev.tileCounts (d : Dev) (n : Nat) (els : List El) (macs : Nat) : Dev :=
  let cnt (f : ElFlags → Bool) : Nat := (els.filter fun e => f e.2).length
  let o := cnt ElFlags.ovf
  let i := cnt ElFlags.inv
  let s := cnt ElFlags.sat
  let co := cnt ElFlags.convOvf
  let ci := cnt ElFlags.convInv
  let d := ((((d.wr .LAST_OVF o n).wr .LAST_INV i n).wr .LAST_SAT s n).wr .LAST_CONV_OVF co n).wr .LAST_CONV_INV ci n
  let d := ((((d.bumpBy .TOTAL_OVF o n).bumpBy .TOTAL_INV i n).bumpBy .TOTAL_SAT s n).bumpBy .TOTAL_CONV_OVF co n).bumpBy
    .TOTAL_CONV_INV ci n
  let d := (d.bump .DESC_COUNT n).add64 .MAC_CYCLES_LO macs n
  if o + i + s + co + ci = 0 then d else d.raise (47 + n) 0 0

/-- The OR of a list of elements' flags, as LAST_CHAIN_FLAGS lays them out. -/
def flagWord (els : List El) : Nat :=
  let any_ (f : ElFlags → Bool) : Nat := bit01 (els.any fun e => f e.2)
  any_ ElFlags.ovf + 2 * any_ ElFlags.inv + 4 * any_ ElFlags.sat + 8 * any_ ElFlags.convOvf + 16 * any_ ElFlags.convInv

/-- The result of a descriptor goes to its DST. -/
def Dev.storeResult (d : Dev) (c : Chain) (ws : List Nat) : Dev :=
  let sh := resultShape ws
  let data := (List.range sh.1).flatMap fun r => match c.res.find? fun e => e.1 == r with
    | some e => e.2
    | none => []
  let dst := dDst ws
  let fmt := dDfmt ws
  let off := dOff ws 3
  if dst = 0xFFFF then d
  else if 0x8000 ≤ dst then
    let id := dst % 64
    let old := match c.scratch.find? fun s => s.id == id with
      | some s => s.data
      | none => []
    let e := off * 8 / fmtBits fmt
    let pad := old ++ List.replicate (e - old.length) 0
    let s : Scratch := { id := id, fmt := fmt, rows := sh.1, cols := sh.2, data := pad.take e ++ data ++ pad.drop (e + data.length) }
    d.updChain c.handle fun x => { x with scratch := (x.scratch.filter fun y => y.id != id) ++ [s] }
  else match d.obj? (d.bindHandle c (dst % 8)) with
    | some o => d.placeWr o.place off (packElems fmt data)
    | none => d

/-- The chain's last descriptor is finished (R385). -/
def Dev.chainComplete (d : Dev) (c : Chain) : Dev :=
  match d.obj? c.handle with
  | none => (d.chainRelease c).chainResult c cObjectState 0
  | some o =>
    let d := d.chainRelease c
    if o.state ≠ oRECOMPUTING then (d.lastFail c cObjectState).chainResult c cObjectState 0 else
    let d := ((List.range o.blocks).foldl (fun e b => e.wetBlock o b) d).wetAllUpdate c.handle
    let d := (d.bump .CHAINS_DONE).wr .LAST_CHAIN_FLAGS c.flags
    let d := if c.gate then d.setGate c.handle c.mb c.step else d
    let d := d.setState c.handle (if c.gate then oREADY else oSEALED)
    d.chainResult c 0 o.blocks

/-- Tile `n` finishes the descriptor in progress of its chain. -/
def Dev.tileFinish (d : Dev) (n : Nat) (c : Chain) : Dev :=
  let mode := ((c.modes.find? fun e => e.1 == n).map (·.2)).getD 1
  match d.opIn c mode with
  | none =>
    let ws := d.chainEntry (c.index + 1 + c.op)
    let src := d.bindHandle c (dA ws % 8)
    let r := d.damage src (d.chainFinder c)
    r.1.chainFail c 0x0705
  | some x =>
    let sh := resultShape x.ws
    let ix := (c.tiles.findIdx? fun t => t == n).getD 0
    let rows := (List.range sh.1).filter fun r => rowTile c.tiles.length r == ix
    let out := rows.map fun r => (r, x.out r)
    let els := out.flatMap (·.2)
    let macs := if isGemm (dOpc x.ws) then rows.length * dN x.ws * dK x.ws / macRate (dw x.ws 3 24 4) else 0
    let d := d.tileCounts n els macs
    let c' := { c with left := c.left.filter fun t => t != n,
                       res := c.res ++ out.map fun p => (p.1, p.2.map (·.1)),
                       flags := c.flags ||| flagWord els }
    let d := d.updChain c.handle fun _ => c'
    if !c'.left.isEmpty then d
    else
      let d := d.storeResult c' x.ws
      match d.chains.find? fun y => y.handle == c.handle with
      | none => d
      | some c2 =>
        if c.op + 1 < opCount (d.chainEntry c.index) then d.beginOp c.handle (c.op + 1) else d.chainComplete c2

/-! ### Commands -/

/-- R189 for RUN_CHAIN: zero fields, SVC, ARITH (R354). -/
def Task.badChain (t : Task) : Bool :=
  let ar := bitsOf t.w3 32 4
  t.badSvc || bitsOf t.w1 48 16 != 0 || bitsOf t.w3 60 1 != 0 || bitsOf t.w3 0 31 != 0 || ar == 2 || decide (8 < ar)

/-- The chain of a RUN_CHAIN task and its destination, waiting to start (Table 8-10). -/
def Task.chainOf (t : Task) (handle : Nat) : Chain :=
  { tag := some t.tag, found := none, auto := false, handle := handle, index := bitsOf t.w1 32 16, mask := bitsOf t.w2 48 16,
    arith := bitsOf t.w3 32 4, mb := bitsOf t.w2 32 16, step := bitsOf t.w2 0 32, gate := bitsOf t.w3 31 1 == 1, svc := t.svc,
    deadline := t.deadline, issued := t.issued, st := 0, tiles := [], op := 0, opened := false, left := [], modes := [], res := [],
    scratch := [], users := [], flags := 0, need := [], lost := false, waitAt := none }

/-- RUN_CHAIN (R239, R353, R354, R375, R376). -/
def execRunChain (tag : Nat) (s : State) : Out := s.run fun d =>
  match d.sentTask tag 0x61 1 with
  | none => d
  | some t =>
    let index := bitsOf t.w1 32 16
    let mask := bitsOf t.w2 48 16
    if d.frozen 63 || !d.enabled 63 || decide (16 ≤ d.chains.length) then d
    else if t.badChain ∨ d.rd .SPH_CHAIN_ENTRIES ≤ index then d.refuse tag cDescParam
    else if d.plan.homeLost then d.refuse tag cStackLost
    else match d.obj? t.object with
      | none => (d.staleHandle t.object).refuse tag cHandleStale
      | some o =>
        if o.state ≠ oPENDING ∨ d.chains.any (fun c => c.handle == o.handle) then d.refuse tag cObjectState
        else if (d.tilesOf mask).isEmpty then d.refuse tag cEngineAbsent
        else if o.blocks * 65536 < d.chainBytes index then d.refuse tag cDescParam
        else
          let d := (d.acceptTask tag).updObj o.handle fun x => { x with liftLock := true }
          { d with chains := d.chains ++ [t.chainOf o.handle] }

/-- An automatic recompute enters the queue (R244, R386); where its object no longer waits for one, the task that found the damage ends
DAMAGED_FAIL. -/
def Dev.takeAuto (d : Dev) (a : AutoReq) : Dev :=
  let gone (d : Dev) : Dev := match a.tag with
    | some t => d.foundResult t cDamagedFail
    | none => d
  match d.obj? a.handle with
  | none => gone d
  | some o =>
    if o.state ≠ oPENDING ∨ d.chains.any (fun c => c.handle == a.handle) then gone d
    else
      let d := d.updObj a.handle fun x => { x with liftLock := true }
      let c : Chain := { tag := none, found := a.tag, auto := true, handle := a.handle, index := o.chain, mask := 0, arith := 0,
                         mb := a.mb, step := a.step, gate := true, svc := a.svc, deadline := a.deadline, issued := d.gh.timer,
                         st := 0, tiles := [], op := 0, opened := false, left := [], modes := [], res := [], scratch := [],
                         users := [], flags := 0, need := [], lost := false, waitAt := none }
      { d with chains := d.chains ++ [c] }

/-- Tiles that running chains hold. -/
def Dev.busyTiles (d : Dev) : List Nat := (d.chains.filter fun c => c.st != 0).flatMap Chain.tiles

/-- CHAIN_START (R244, R258, R376, R377): among the chains whose tiles are all free, the one R258 puts first starts. -/
def execChainStart (s : State) : Out := s.run fun d =>
  if d.frozen 63 || !d.enabled 63 then d
  else
    let d := (d.auto.take (16 - d.chains.length)).foldl (fun e a => e.takeAuto a) { d with auto := d.auto.drop (16 - d.chains.length) }
    let busy := d.busyTiles
    let ready := d.chains.filter fun c => c.st == 0 && !(d.tilesOf c.mask).isEmpty && (d.tilesOf c.mask).all fun t => !busy.contains t
    let reqs := ready.map Chain.req
    let pos := Sparse.get (fun _ => (1, 0)) d.pool.arb 28
    let won := match firstReq (reqs.filter fun r => r.svc == 0) with
      | some r => some (r, pos)
      | none => match drrNext (fun k => reqs.any fun r => r.svc == k) d.weight 6 pos.1 pos.2 with
        | none => none
        | some (k, u) => (firstReq (reqs.filter fun r => r.svc == k)).map fun r => (r, (k, u))
    match won with
    | none => d
    | some (r, p) =>
      let d := { d with pool := { d.pool with arb := Sparse.put (fun _ => (1, 0)) d.pool.arb 28 p } }
      let d := d.losers r (d.chains.filter (fun c => c.st == 0) |>.map Chain.req)
      match d.chains.find? fun c => some c.handle == r.chain with
      | some c => d.chainStart c
      | none => d

/-- BINDING_READY (R378): a waiting chain's bindings are looked at again. -/
def execBindingReady (h : Nat) (s : State) : Out := s.run fun d =>
  match d.chains.find? fun c => c.handle == h with
  | some c =>
    if c.st = 2 ∧ !d.frozen 63 then
      let d := match c.tag with
        | some t => d.waitEnd t
        | none => d
      (d.openOp c).1
    else d
  | none => d

/-- DESCRIPTOR_EXECUTE (R323, R351 to R371, R378 to R389): tile `n` finishes the descriptor in progress of its chain, once the descriptor has
its grants (R258). -/
def execDescriptorExecute (n : Nat) (s : State) : Out := s.run fun d =>
  match d.chains.find? fun c => c.st == 1 && c.left.contains n with
  | none => d
  | some c =>
    if d.frozen 63 || d.frozen (47 + n) || !d.enabled (47 + n) then d
    else if c.opened then (if c.need.isEmpty then d.tileFinish n c else d)
    else
      let r := d.openOp c
      if r.2 then match r.1.chains.find? fun x => x.handle == c.handle with
        | some x => if x.need.isEmpty then r.1.tileFinish n x else r.1
        | none => r.1
      else r.1

/-- An abort of an accepted chain (R387). -/
def Dev.chainAbort (d : Dev) (c : Chain) (cause : Nat) : Dev :=
  let d := d.chainRelease c
  let d := match d.obj? c.handle with
    | some o => if o.state = oRECOMPUTING then (d.clearWet o).setState c.handle oPENDING else d
    | none => d
  (d.updObj c.handle fun x => { x with liftLock := false }).chainResult c cause 0

end Sys2Proof.Machine
end

