-- ==== Sys2Proof/Machine/Hbm.lean ====
section
/-! DEFINITION. The HBM controllers' commands, and what the loss of a stack does (chapter 24). -/
namespace Sys2Proof.Machine

/-- The block of stack `n`. -/
def hbmb (n : Nat) : Nat := 104 + n

/-- Does a chain read or write an object on a unit? -/
def Dev.chainOn (d : Dev) (c : Chain) (tier unit : Nat) : Bool :=
  (c.handle :: c.users).any fun h => ((d.obj? h).map fun o => o.place.on tier unit).getD false

/-- The streams, drains, chains and restore that move data of a unit end under R266, without waiting for the stall limit (R549). -/
def Dev.endMoves (d : Dev) (tier unit : Nat) : Dev :=
  let onDst (s : Stream) : Bool := (s.dst.map fun p => p.on tier unit).getD false
  let d := (d.flm.streams.filter fun s => s.src.on tier unit || onDst s).foldl (fun e s => e.streamTierFail s) d
  let d := (d.pool.drains.filter fun x => x.dst.on tier unit ||
    ((d.objAt (hIndex x.handle)).map fun o => o.place.on tier unit).getD false).foldl (fun e x => e.drainFail x.handle) d
  let d := (d.chains.filter fun c => c.st != 0 && d.chainOn c tier unit).foldl (fun e c => e.chainFail c cTierFail) d
  let members := match d.ck.restore with
    | some t => t.parts.flatMap fun (p : RPart) => match d.region? p.region with
      | some g => g.objs
      | none => []
    | none => []
  if members.any fun h => ((d.objAt (hIndex h)).map fun (o : Obj) => o.place.on tier unit).getD false then d.restoreFail cTierFail else d

/-- The home stack is lost (R550): every plan object DAMAGED, HOME_LOST, and the device is fatal for the plan (Table 26-4). -/
def Dev.homeLoss (d : Dev) (n : Nat) : Dev :=
  let hs := (d.objs.map (·.2)).filter fun o => o.state != oFREE && o.state != oRETIRED && o.state != oDAMAGED
  let d := hs.foldl (fun e o => (e.damage o.handle
    { svc := 4, deadline := 2 ^ 64, ring := 0, step := o.step, mb := o.mb, tag := none }).1) d
  let d := { d with plan := { d.plan with homeLost := true } }
  (d.raise (hbmb n) 0 3).fatal 1 cStackLost

/-- A stack is lost (R549, R550). The transfers end first: R551 gives the loss the cycle. -/
def Dev.stackLost (d : Dev) (n : Nat) : Dev :=
  if 3 < n ∨ !d.present (hbmb n) then d
  else
    let cap := d.unitCap 1 n
    let d := d.wr64 (.CAPACITY_T_LO 1) (d.rd64 (.CAPACITY_T_LO 1) - cap)
    let d := (d.disableUnit (hbmb n) cStackLost).set .HBM_STATUS_STATE 5 n
    let d := (((d.endMoves 1 n).damageUnit 1 n).raise (hbmb n) 0 0).background
    if d.plan.admitted ∧ d.plan.home = some n then d.homeLoss n else d

/-- Is the stack up in RUN or IDLE? -/
def Dev.stackActive (d : Dev) (n : Nat) : Bool := decide (n < 4) && d.present (hbmb n) && d.get .HBM_STATUS_STATE n == 2

/-- Where the controllers map a T1 address (R539): stack, pseudo-channel and the byte offset within it; none where the address is not
valid. Nothing outside a controller shows the mapping. -/
def Dev.hbmMap (d : Dev) (a : Nat) : Option (Nat × Nat × Nat) :=
  let s := a / 2 ^ 36 % 4
  let o := a % 2 ^ 36
  let list := (List.range 32).filter fun p => bitsOf (d.rd .HBM_PC_MASK s) p 1 == 1
  let g := 256 * 4 ^ d.get .HBM_ILV_GRANULE s
  let u := o / g
  if d.unitCap 1 s ≤ o ∨ list.isEmpty then none
  else some (s, list.getD (u % list.length) 0, u / list.length * g + o % g)

/-- REFRESH_DUE (R546): a refresh at its limit goes first; a request of the pseudo-channel that meets it is counted. -/
def execRefreshDue (n pc : Nat) (waits : Bool) (s : State) : Out := s.run fun d =>
  if d.stackActive n && bitsOf (d.rd .HBM_PC_MASK n) pc 1 == 1 && waits then d.bump .REF_BLOCK_COUNT n else d

/-- The calibration ages advance by the 1 ms that a temperature reading marks (notes/assumptions/21.md). -/
def Dev.calAge (d : Dev) (n : Nat) : Dev :=
  (List.range 32).foldl (fun e p => if e.get (.PC_STATUS_ENABLED p) n = 1 then e.bumpF (.PC_STATUS_CAL_AGE_MS p) n else e) d

/-- HBM_TEMP_READ (R547): a reading in °C, every 1 ms. -/
def execHbmTempRead (n : Nat) (t : Int) (s : State) : Out := s.run fun d =>
  if !d.stackActive n then d
  else
    let d := (d.calAge n).set .HBM_TEMP_DEG_C (unsigned 8 t) n
    let d := if 85 ≤ t then d.set .HBM_STATUS_REF_2X 1 n else if t < 82 then d.set .HBM_STATUS_REF_2X 0 n else d
    let hot := decide ((d.get .HBM_TEMP_ALARM_DEG_C n : Int) ≤ t)
    (if hot then d.raise (hbmb n) 0 2 else d).sensorLevel (0x10 + n) (bit01 hot)

/-- HBM_CALIBRATION (R548, R553): channel `c` of stack `n`, deferred while the block is frozen; one later than 256 ms raises
CAL_DONE_LATE; a failure loses the stack. -/
def execHbmCalibration (n c : Nat) (ok : Bool) (s : State) : Out := s.run fun d =>
  if !d.stackActive n ∨ d.frozen (hbmb n) ∨ 15 < c then d
  else if !ok then d.stackLost n
  else
    let late := decide (256 < max (d.get (.PC_STATUS_CAL_AGE_MS (2 * c)) n) (d.get (.PC_STATUS_CAL_AGE_MS (2 * c + 1)) n))
    let d := ((d.set (.PC_STATUS_CAL_AGE_MS (2 * c)) 0 n).set (.PC_STATUS_CAL_AGE_MS (2 * c + 1)) 0 n).bump .CAL_COUNT n
    if late then d.raise (hbmb n) 0 4 else d

/-- CA_PARITY_ERROR (R548): the `k`th failure of one command; the fourth loses the stack. -/
def execCaParityError (n k : Nat) (s : State) : Out := s.run fun d =>
  if !d.stackActive n ∨ k = 0 ∨ 4 < k then d
  else
    let d := (d.bump .CA_PAR_COUNT n).raise (hbmb n) 0 1
    if k = 4 then d.stackLost n else d

/-- A write of HBM_ILV through the page of stack `n` (R541, R6). -/
def Dev.ilvWrite (d : Dev) (p : Path) (n v : Nat) : Dev :=
  if d.plan.admitted then d.errWr p (hbmb n) 0 0x84 0x0D03 v
  else if v % 4 = 3 then d.errWr p (hbmb n) 0 0x84 0x0001 v
  else (List.range 4).foldl (fun e i => e.set .HBM_ILV_GRANULE (v % 4) i) d

/-- HBM_ILV_WRITE (R541). -/
def execHbmIlvWrite (p : Path) (n : Nat) (v : Word) (s : State) : Out := s.run fun d =>
  if 3 < n then d else d.viaReg p .HBM_ILV n v.toNat fun e => e.ilvWrite p n v.toNat

end Sys2Proof.Machine
end

