-- ==== Sys2Proof/Machine/Lateral.lean ====
section
/-! DEFINITION. The lateral links' commands: groups received, training, replay, credits, low power, the lane-rate loop
(chapter 22). -/
namespace Sys2Proof.Machine

/-! ### Receiving -/

/-- A header as received (Table 22-3) with its 240 payload bytes. -/
def flitOf (b : List Byte) : Flit :=
  let w0 := leNat (b.take 4)
  let w1 := leNat ((b.drop 4).take 4)
  let w2 := leNat ((b.drop 8).take 4)
  let len := bitsOf w1 0 8
  { type := bitsOf w0 28 4, vc := bitsOf w0 26 2, dst := bitsOf w0 12 12, src := bitsOf w0 0 12, seq := bitsOf w1 20 12,
    ack := bitsOf w1 8 12, hops := bitsOf w2 27 5, msgA := bitsOf w2 0 24, msgB := leNat ((b.drop 12).take 2),
    body := (b.drop 16).take len }

/-- Does a header break R496: non-zero zero fields, LEN above 240, TYPE 0xF? -/
def headerBad (b : List Byte) : Bool :=
  let w0 := leNat (b.take 4)
  let w1 := leNat ((b.drop 4).take 4)
  let w2 := leNat ((b.drop 8).take 4)
  bitsOf w0 24 2 != 0 || bitsOf w2 24 3 != 0 || decide (240 < bitsOf w1 0 8) || bitsOf w0 28 4 == 0xF

/-- The expected flit is missing: one NAK is outstanding at a time (R498). -/
def Dev.linkMissing (d : Dev) (l : Nat) : Dev :=
  if (d.link l).nak.isSome then d
  else (d.updLink l fun x => { x with nak := some x.expect }).nakSend l

/-- The expected sequence number is accepted. -/
def Dev.linkAccept (d : Dev) (l : Nat) : Dev := d.updLink l fun x => { x with expect := (x.expect + 1) % 4096, nak := none }

/-- A header that breaks R496: the capture, if this is the first, holds header word 0 as received (R534). -/
def Dev.headerViolation (d : Dev) (l : Nat) (b : List Byte) : Dev :=
  let e := d.violation l 0x0C01 (flitOf b)
  if d.get .LR_VIOL_FIRST_VALID = 1 then e else e.set .LR_VIOL_HDR0_WORD (leNat (b.take 4))

/-- One received flit: HCRC, ACK, header checks, SEQ, the receive buffer (R496 to R498, R502, R534). -/
def Dev.linkRx (d : Dev) (l : Nat) (b : List Byte) : Dev :=
  let f := flitOf b
  if crc16 (b.take 14) ≠ leNat ((b.drop 14).take 2) then (d.bump .HCRC_FAIL_COUNT l).linkMissing l
  else
    let d := d.linkAck l f.ack
    if isLocal f.type then
      if headerBad b then d.headerViolation l b
      else if f.vc ≠ 0 ∨ f.seq ≠ 0 ∨ f.hops ≠ 0 ∨ f.dst ≠ f.src then d.violation l 0x0C04 f
      else if f.type = tIDLE then d
      else d.updLink l fun x => { x with rxl := x.rxl ++ [f] }
    else if f.type = 0xF then d.headerViolation l b
    else if f.seq ≠ (d.link l).expect then d.linkMissing l
    else
      let d := d.linkAccept l
      if headerBad b then d.headerViolation l b
      else if f.vc ≠ vcOf f.type then d.violation l 0x0C03 f
      else if rxBuf f.vc ≤ ((d.link l).rxq.filter fun x => x.vc == f.vc).length then d.violation l 0x0C02 f
      else
        let d := d.updLink l fun x => { x with rxq := x.rxq ++ [f] }
        if d.asleep then d.wake 4 else d

/-- ALIGN ends: PARAM, or ACTIVE at a low-power exit (Table 22-7). -/
def Dev.linkAligned (d : Dev) (l : Nat) : Dev := if (d.link l).exit then d.linkUp l else (d.linkSet l 5).paramSend l

/-- FEC_GROUP_RECEIVE (R494, R495): `lanes` is what each lane in use delivered. -/
def Dev.groupRx (d : Dev) (l : Nat) (lanes : List (List Nat)) : Dev :=
  let st := d.lstate l
  if st < 4 ∨ 6 < st then d
  else
    let g := groupDecode lanes
    let ids := (List.range 2).filter fun n => bitsOf (d.get .LL_STATUS_LANE_MASK l) n 1 == 1
    let d := d.add64 .FEC_CW_LO 2 l
    let corr := (ids.zip g.corr)
    let d := corr.foldl (fun e p => e.add64 (.FEC_CORR_SYM_LO p.1) p.2 l) d
    let d := (d.bumpBy .FEC_UNCORR_CW g.uncorr l).updLink l fun x => { x with
      win := [x.win.getD 0 0 + ((corr.filter fun p => p.1 == 0).map (·.2)).sum,
              x.win.getD 1 0 + ((corr.filter fun p => p.1 == 1).map (·.2)).sum, x.win.getD 2 0 + g.uncorr] }
    if st = 4 then
      let n := if g.aClean && g.mark == 0xC5 then (d.link l).aligned + 1 else 0
      let d := d.updLink l fun x => { x with aligned := n }
      if 8 ≤ n then d.linkAligned l else d
    else (cutEvery 256 5 g.flits).foldl (fun e b => if e.lstate l = 5 ∨ e.lstate l = 6 then e.linkRx l b else e) d

/-- FEC_GROUP_RECEIVE. -/
def execFecGroupReceive (l : Nat) (lanes : List (List Nat)) (s : State) : Out := s.run fun d => d.groupRx l lanes

/-! ### Link-local flits: the oldest not yet handled, when it is the command's -/

/-- Take the oldest link-local flit if it fits. -/
def Dev.rxLocal (d : Dev) (l type ctl : Nat) (f : Dev → Flit → Dev) : Dev :=
  match (d.link l).rxl with
  | x :: t =>
    if x.type = type ∧ (type ≠ tCTL ∨ bitsOf x.msgA 16 8 = ctl) then f (d.updLink l fun y => { y with rxl := t }) x else d
  | [] => d

/-- NAK (R499): replay from EXPECT; while the link is not ACTIVE the RESUME exchange replays (R501). -/
def execNak (l : Nat) (s : State) : Out := s.run fun d =>
  d.rxLocal l tNAK 0 fun d f =>
    let d := d.bump .NAK_RX_COUNT l
    match (d.link l).replay.findIdx? fun x => x.seq == bitsOf f.msgA 0 12 with
    | some i => if d.lstate l = 6 then d.linkReplay l i else d
    | none => d

/-- CREDIT (R502). -/
def execCredit (l : Nat) (s : State) : Out := s.run fun d =>
  d.rxLocal l tCREDIT 0 fun d f =>
    (d.updLink l fun x => { x with freed := (List.range 4).map fun v => leNat ((f.body.drop (2 * v)).take 2) }).linkPump l

/-- Both halves of the PARAM exchange are done (R505). -/
def Dev.paramDone (d : Dev) (l : Nat) : Dev :=
  if (d.link l).gotParam && (d.link l).gotAck && d.lstate l == 5 then d.linkUp l else d

/-- PARAM (R505): checked, the peer recorded, PARAM_ACK sent; a mismatch fails the link. -/
def execParam (l : Nat) (s : State) : Out := s.run fun d =>
  d.rxLocal l tCTL 1 fun d f =>
    let at_ := fun o n => leNat ((f.body.drop o).take n)
    let rate := d.get .LL_STATUS_RATE l
    let code := if rate = 224 then 2 else if rate = 112 then 1 else 0
    if at_ 0 1 ≠ 1 ∨ at_ 1 2 % 4096 = d.lr.node ∨ at_ 12 1 % 4 ≠ d.get .LL_STATUS_LANES l ∨ at_ 12 1 / 16 ≠ code then
      d.linkFail l 5
    else
      let d := (d.set .LL_PEER_NODE (at_ 1 2 % 4096) l).set .LL_PEER_LINK_INDEX (at_ 3 1) l
      let d := d.updLink l fun x => { x with
        cred := (List.range 4).map fun v => at_ (4 + 2 * v) 2
        gotParam := true }
      (d.linkCtl l 2 0).paramDone l

/-- PARAM_ACK (R505). -/
def execParamAck (l : Nat) (s : State) : Out := s.run fun d =>
  d.rxLocal l tCTL 2 fun d _ => (d.updLink l fun x => { x with gotAck := true }).paramDone l

/-- A link keeps one lane at the rate in force (R509). -/
def Dev.laneKeep (d : Dev) (l lane : Nat) : Dev :=
  let d := ((d.set .LL_STATUS_LANES 1 l).set .LL_STATUS_LANE_MASK (2 ^ lane) l).updLink l fun x => { x with dropTo := none }
  let d := (d.bump .DEGRADE_COUNT l).raise (lnk l) 0 2
  ((d.linkHist l).traceLink (lnk l) (d.lstate l) (d.get .LL_STATUS_RATE l) 1).linkParam l

/-- LANE_DROP (R509): the named lane is kept. -/
def execLaneDrop (l : Nat) (s : State) : Out := s.run fun d =>
  d.rxLocal l tCTL 3 fun d f =>
    let d := d.linkCtl l 4 0
    if d.lstate l = 6 ∧ d.get .LL_STATUS_LANES l = 2 then d.laneKeep l (bitsOf f.msgA 0 1) else d

/-- LANE_DROP_ACK (R509). -/
def execLaneDropAck (l : Nat) (s : State) : Out := s.run fun d =>
  d.rxLocal l tCTL 4 fun d _ =>
    match (d.link l).dropTo with
    | some lane => if d.get .LL_STATUS_LANES l = 2 then d.laneKeep l lane else d
    | none => d

/-- LP_REQ (R507): never refused; answered once the replay buffer is empty. -/
def execLpReq (l : Nat) (s : State) : Out := s.run fun d =>
  d.rxLocal l tCTL 5 fun d _ => (d.updLink l fun x => { x with lpOwe := true }).linkLp l

/-- LP_ACK (R507): both ends are in LOW_POWER. -/
def execLpAck (l : Nat) (s : State) : Out := s.run fun d =>
  d.rxLocal l tCTL 6 fun d _ => if d.lstate l = 6 ∧ (d.link l).lpSent then d.linkSleep l else d

/-- LINK_RESUME (R501): replay from the peer's EXPECT; what it has accepted leaves the replay buffer. -/
def execLinkResume (l : Nat) (s : State) : Out := s.run fun d =>
  d.rxLocal l tCTL 7 fun d f =>
    let e := bitsOf f.msgA 0 12
    let x := d.link l
    let d := d.updLink l fun y => { y with
      resume := false
      replay := match x.replay.findIdx? fun g => g.seq == e with
        | some i => x.replay.drop i
        | none => []
      nextSeq := if x.replay.any fun g => g.seq == e then x.nextSeq else e }
    (d.linkSend l (d.link l).replay).linkPump l

/-! ### Timers -/

/-- Has a time in ns passed since an AO time? -/
def Dev.passed (d : Dev) (since ns : Nat) : Bool := decide (ns ≤ ticksToNs (d.gh.timer - since))

/-- NAK_REPEAT_TIMER (R498): 1 µs since the last NAK. -/
def execNakRepeatTimer (l : Nat) (s : State) : Out := s.run fun d =>
  let x := d.link l
  if x.nak.isSome ∧ d.lstate l = 6 ∧ d.passed x.nakAt 1000 then d.nakSend l else d

/-- ACK_TIMEOUT (R499): ACK has not advanced for LL_ACK_TIMEOUT; the oldest unacknowledged flit and all after it go again. -/
def execAckTimeout (l : Nat) (s : State) : Out := s.run fun d =>
  if d.lstate l = 6 ∧ d.passed (d.link l).ackAt (d.get .LL_ACK_TIMEOUT_NS l) then d.linkReplay l 0 else d

/-- Is a CREDIT due (R503): 100 ns after an advance, or 10 µs after the last? An advance by 8 sends one at once (`Dev.rxPop`). -/
def Dev.creditDue (d : Dev) (x : Link) : Bool := (x.tookAt.any fun t => d.passed t 100) || d.passed x.credAt 10000

/-- CREDIT_SEND (R503). -/
def execCreditSend (l : Nat) (s : State) : Out := s.run fun d =>
  if d.lstate l = 6 ∧ d.creditDue (d.link l) then d.creditSend l else d

/-! ### Training (Table 22-7) -/

/-- ENERGY_DETECT (R504): DETECT goes to CDR. -/
def execEnergyDetect (l : Nat) (s : State) : Out := s.run fun d =>
  if d.lstate l = 1 then d.linkCdr l (d.linkRate l) else d

/-- The lanes offered: what LANE_ALLOW lets (R504), or the lanes a failed promotion went back to. -/
def Dev.lanesOffered (d : Dev) (l : Nat) : Nat := (d.link l).offer.getD (d.get .LL_CTRL_LANE_ALLOW l)

/-- The lanes of a mask are in use at the rate being trained. -/
def Dev.linkLanes (d : Dev) (l mask : Nat) : Dev :=
  let d := (d.set .LL_STATUS_LANE_MASK mask l).set .LL_STATUS_LANES (if mask = 3 then 2 else 1) l
  d.set .LL_STATUS_RATE (d.link l).rate l

/-- CDR ends with the lanes locked: EQ, or ALIGN with the stored taps at a low-power exit. -/
def Dev.linkLocked (d : Dev) (l : Nat) : Dev :=
  let d := d.linkLanes l (d.link l).locked
  d.linkSet l (if (d.link l).exit then 4 else 3)

/-- A training frame (section "Training"): `bits` are its 80 content and checksum bits; `peer` the lanes on which the far end
reports lock (how it reports is not stated: DESIGN CHOICE, notes/assumptions/12.md); `eq` whether this end's equaliser has converged. -/
def Dev.tsFrame (d : Dev) (l bits peer : Nat) (eq : Bool) : Dev :=
  let c := bits / 65536 % 2 ^ 64
  let lane := bitsOf c 59 1
  let bytes := (leBytes 8 c).reverse
  let rate := d.link l |>.rate
  let code := if rate = 224 then 2 else if rate = 112 then 1 else 0
  if crc16 bytes ≠ bits % 65536 ∨ bitsOf c 57 2 ≠ code then d
  else if d.lstate l = 2 then
    if bitsOf peer lane 1 = 1 ∧ bitsOf (d.lanesOffered l) lane 1 = 1 then
      let d := d.updLink l fun x => { x with locked := x.locked ||| 2 ^ lane }
      if (d.link l).locked = d.lanesOffered l then d.linkLocked l else d
    else d
  else if d.lstate l = 3 then
    let tap := fun lo => signed 8 (bitsOf c lo 8)
    let done := bitsOf c 56 1 == 1 && eq
    let d := d.updLink l fun x => { x with
      taps := ((x.taps.set (3 * lane) (x.taps.getD (3 * lane) 0 + tap 48)).set (3 * lane + 1)
        (x.taps.getD (3 * lane + 1) 0 + tap 40)).set (3 * lane + 2) (x.taps.getD (3 * lane + 2) 0 + tap 32)
      eq := if done then x.eq + 1 else 0 }
    if 16 ≤ (d.link l).eq then d.linkSet l 4 else d
  else d

/-- TS_FRAME (R504). -/
def execTsFrame (l bits peer : Nat) (eq : Bool) (s : State) : Out := s.run fun d => d.tsFrame l bits peer eq

/-- The next lower rate, or the configuration a promotion left, or FAILED (Table 22-7, R504, R511). -/
def Dev.linkLower (d : Dev) (l cause : Nat) : Dev :=
  let d := d.set .LL_STATUS_TRAIN_FAIL_CAUSE cause l
  match (d.link l).old with
  | some (rate, mask) =>
    ((d.updLink l fun x => { x with old := none }).linkCdr l rate).updLink l fun x => { x with offer := some mask }
  | none =>
    let r := (d.link l).rate / 2
    if r < 56 ∨ r < d.get .LL_RATE_BOUNDS_LOW l then d.linkFail l cause else ((d.linkHist l).linkCdr l r)

/-- Has the training state in force run out its time (Table 22-7): 2 ms CDR, 10 ms EQ, 1 ms ALIGN and PARAM, 90 µs of a low-power exit? -/
def Dev.trainOver (d : Dev) (x : Link) (st : Nat) : Bool :=
  if x.exit then d.passed x.exitAt 90000
  else d.passed x.stAt (if st = 2 then 2000000 else if st = 3 then 10000000 else 1000000)

/-- TRAIN_TIMEOUT (R504, Table 22-7). -/
def execTrainTimeout (l : Nat) (s : State) : Out := s.run fun d =>
  let x := d.link l
  let st := d.lstate l
  if !d.trainOver x st then d
  else if x.exit then
    (if st = 2 ∨ st = 4 then (d.updLink l fun y => { y with exit := false }).linkCdr l x.rate else d)
  else if st = 2 then
    if x.locked ≠ 0 then (d.linkLocked l).linkHist l else d.linkLower l 1
  else if st = 3 then d.linkLower l 2
  else if st = 4 then
    if x.again then d.linkLower l 3
    else ((d.set .LL_STATUS_TRAIN_FAIL_CAUSE 3 l).updLink l fun y => { y with again := true }).linkCdr l x.rate
  else if st = 5 then
    ((d.set .LL_STATUS_TRAIN_FAIL_CAUSE 4 l).updLink l fun y => { y with aligned := 0, gotParam := false, gotAck := false }).linkSet l 4
  else d

/-- LINK_RETRY_TIMER (R506): LL_RETRY_MS after it failed, a FAILED link goes back to DETECT, unless it is quarantined or boot left it out (R123). -/
def execLinkRetryTimer (l : Nat) (s : State) : Out := s.run fun d =>
  if d.lstate l = 8 ∧ d.passed (d.link l).stAt (1000000 * d.get .LL_RETRY_MS_MS l) ∧ d.present (lnk l) ∧ bitsOf (d.get .LR_QUARANTINED_LINKS) l 1 = 0 then d.linkSet l 1 else d

/-! ### The lane-rate loop -/

/-- A degrade trigger (R509, R510): a link with two lanes drops one; with one lane, in a window in which software wrote the loop it changes
only the shadow (R512, Edge 22-3). -/
def Dev.degrade (d : Dev) (l c0 c1 : Nat) (wrote : Bool) : Dev :=
  if d.get .LL_STATUS_LANES l = 2 then
    let keep := if c1 < c0 then 1 else 0
    (d.updLink l fun x => { x with dropTo := some keep }).linkCtl l 3 keep
  else
    let rate := d.get .LL_STATUS_RATE l
    let half := rate / 2
    let d := d.set .LL_RATE_SHADOW_RATE half l
    let applied := d.linkRate l
    if wrote || decide (rate ≤ applied) then d.rateClamp l
    else (((d.rateCheck l rate).bump .DEGRADE_COUNT l).raise (lnk l) 0 2).linkRetrain l applied

/-- FEC_WINDOW (R508): FEC_WINDOW_US after the window began (at ACTIVE or the last one's end), its counts against the thresholds. -/
def execFecWindow (l : Nat) (s : State) : Out := s.run fun d =>
  if d.lstate l ≠ 6 ∨ d.gh.timer < (d.link l).winAt + usToTicks (d.get .FEC_WINDOW_US l) then d
  else
    let w := (d.link l).win
    let c := w.getD 0 0 + w.getD 1 0
    let u := w.getD 2 0
    let tc := d.get .FEC_THRESH_CORR l
    let tu := d.get .FEC_THRESH_UNCORR l
    let trig := decide (tc ≤ c) || (tu != 0 && decide (tu ≤ u))
    let calm := decide (16 * c < tc) && (tu == 0 || decide (16 * u < tu))
    let now := d.gh.timer
    let wrote := (d.link l).wrote
    let d := d.updLink l fun x =>
      { x with win := [0, 0, 0], winAt := now, wrote := false, cleanSince := if trig || !calm then now else x.cleanSince }
    if trig then d.degrade l (w.getD 0 0) (w.getD 1 0) wrote else d

/-- PROMOTE_PERIOD (R511): a clean period doubles the shadow and retrains at the applied value, both lanes offered. A link at
that value with both lanes has nothing to gain and is left alone (DESIGN CHOICE, notes/assumptions/12.md). -/
def execPromotePeriod (l : Nat) (s : State) : Out := s.run fun d =>
  let x := d.link l
  if d.lstate l = 6 ∧ d.get .LL_PROMOTE_EN l = 1 ∧ x.cleanSince + 19200000 * d.get .LL_PROMOTE_PERIOD_S l ≤ d.gh.timer then
    let rate := d.get .LL_STATUS_RATE l
    let lanes := d.get .LL_STATUS_LANES l
    let mask := d.get .LL_STATUS_LANE_MASK l
    let d := (d.set .LL_RATE_SHADOW_RATE (min 224 (2 * rate)) l).rateCheck l rate
    let applied := d.linkRate l
    let now := d.gh.timer
    let d := d.updLink l fun y => { y with cleanSince := now }
    if applied = rate ∧ lanes = 2 then d
    else
      let d := ((d.bump .PROMOTE_COUNT l).raise (lnk l) 0 3).linkRetrain l applied
      d.updLink l fun y => { y with old := some (rate, mask) }
  else d

/-- A write of LL_CTRL (R6, R512): LANE_ALLOW 0 is reserved; RETRAIN retrains at the applied value. -/
def Dev.llCtrlWrite (d : Dev) (p : Path) (l : Nat) (v : Word) : Dev :=
  let allow := bitsOf v.toNat 0 2
  let d := if allow = 0 then d.errWr p (lnk l) 0 0x84 0x0001 v.toNat else d.set .LL_CTRL_LANE_ALLOW allow l
  if bitsOf v.toNat 2 1 = 1 then
    let d := d.updLink l fun x => { x with wrote := true }
    if 2 ≤ d.lstate l ∧ d.lstate l ≤ 6 then (d.rateCheck l (d.get .LL_RATE_APPLIED_RATE l)).linkRetrain l (d.linkRate l) else d
  else d

/-- RETRAIN (R512): a write of LL_CTRL with RETRAIN set. -/
def execRetrain (p : Path) (l : Nat) (v : Word) (s : State) : Out := s.run fun d =>
  if 23 < l then d else d.viaReg p .LL_CTRL l (v ||| 4).toNat fun e => e.llCtrlWrite p l (v ||| 4)

/-- LINK_WAKE_SIGNAL (R507): both ends leave LOW_POWER; wake source 0x04. -/
def execLinkWakeSignal (l : Nat) (s : State) : Out := s.run fun d =>
  let x := d.link l
  if d.lstate l = 7 then ((d.updLink l fun y => { y with exit := true, exitAt := d.gh.timer }).linkCdr l x.rate).wake 4
  else if x.lpSent then (d.updLink l fun y => { y with lpWake := true }).wake 4
  else d

end Sys2Proof.Machine
end

