-- ==== Sys2Proof/Machine/Trace.lean ====
section
/-! DEFINITION. The Trace Unit's commands (chapter 25). -/
namespace Sys2Proof.Machine

/-- After an accepted settings write the unit writes a SYNC with REASON CONFIG (R558). -/
def Dev.trcConfig (d : Dev) : Dev :=
  if d.get .TRC_CTRL_RECORD = 1 then Dev.trcEvents (d.trcSync 2) else d

/-- RECORD changes from 0 to 1: recording, and a SYNC with REASON START (R558). -/
def Dev.trcStart (d : Dev) : Dev :=
  let d := ((d.set .TRC_CTRL_RECORD 1).set .TRC_STATUS_RECORDING 1).set .TRC_STATUS_STOP_CAUSE 0
  Dev.trcEvents (d.trcSync 1)

/-- A write of TRC_CTRL (R563, R568): MODE is refused with TRC_BUSY while RECORD is 1, a reserved MODE under R6;
FLUSH writes the open line; RECORD starts or stops. -/
def Dev.trcCtrlWrite (d : Dev) (p : Path) (v : Nat) : Dev :=
  let oldRec := d.get .TRC_CTRL_RECORD
  let mode := bitsOf v 4 2
  let oldMode := d.get .TRC_CTRL_MODE
  let oldHe := d.get .TRC_CTRL_HANDLE_EN
  let d := if mode = oldMode then d
    else if 1 < mode then d.errWr p 108 0 0x80 0x0001 v
    else if oldRec = 1 then d.errWr p 108 0 0x80 0x0F01 v
    else d.set .TRC_CTRL_MODE mode
  let d := d.set .TRC_CTRL_HANDLE_EN (bitsOf v 3 1)
  let d := if bitsOf v 2 1 = 1 then Dev.trcEvents d.trcWriteLine else d
  if oldRec = 0 ∧ bitsOf v 1 1 = 1 then d.trcStart
  else if oldRec = 1 ∧ bitsOf v 1 1 = 0 then d.trcStop 1
  else if d.get .TRC_CTRL_MODE ≠ oldMode ∨ d.get .TRC_CTRL_HANDLE_EN ≠ oldHe then d.trcConfig else d

/-- Count trigger hits whose actions a driver write of the same cycle overrides (R563, Edge 25-1). -/
def Dev.trcHitsOnly (d : Dev) (mask : Nat) : Dev :=
  Dev.trcEvents (d.trcCountHits ((List.range 4).filter fun t => bitsOf mask t 1 == 1))

/-- Write TRC_RD (R568): only a value from VALID_FROM to WRITTEN. Where it makes room, a LOST packet that is due is recorded (Edge 25-5). -/
def Dev.trcRdWrite (d : Dev) (p : Path) (v : Nat) : Dev :=
  if d.rd64 .TRC_VALID_FROM_LO ≤ v ∧ v ≤ d.rd64 .TRC_WRITTEN_LO then Dev.trcEvents (d.wr64 .TRC_RD_LO v).trcLost
  else d.errWr p 108 0 0x9C 0x0F02 (v / 2 ^ 32)

/-- The low word staged for a 64-bit register of a page on a path (R52); with none staged the current one. -/
def Dev.stagedLow (d : Dev) (p : Path) (b page off : Nat) : Nat :=
  match d.stage.find? fun e => e.1 == (p.ix * 1024 + b * 8 + page) * 4096 + off with
  | some e => e.2.toNat
  | none => d.hrd b page off

/-- The staging is used up. -/
def Dev.unstage (d : Dev) (p : Path) (b page off : Nat) : Dev :=
  { d with stage := d.stage.filter fun e => e.1 != (p.ix * 1024 + b * 8 + page) * 4096 + off }

/-- Record an SW packet (R571). -/
def Dev.trcSw (d : Dev) (v : Nat) : Dev :=
  d.trace { src := 16, type := 0x05, key := some (v % 2 ^ 32), body := leBytes 8 v }

/-- A block reset of the Trace Unit (R572). -/
def Dev.trcReset (d : Dev) : Dev :=
  let d := (d.set .TRC_CTRL_RECORD 0).set .TRC_STATUS_RECORDING 0
  let d := (List.range 4).foldl (fun e t => e.wr (.TRIG_HITS t) 0) d
  let d := (d.set .TRC_STATUS_ARMED 0).wr .TRC_LOST_TOTAL 0
  let d := d.setLine []
  let d := d.wr64 .TRC_VALID_FROM_LO (d.rd64 .TRC_WRITTEN_LO)
  { d with trc := { d.trc with cnt := [], lostN := 0, lostMask := 0, post := none, wrapped := false } }

/-- A FREEZE packet for each change of an effective freeze (R570): bit 0 set, bit 1 global. -/
def Dev.trcFreezePkt (d : Dev) (b : Nat) (set glob : Bool) : Dev :=
  d.trace { src := 14, type := 0x13, key := some (blkClass b),
            body := leBytes 2 (blkClass b) ++ leBytes 1 (blkInst b) ++ leBytes 1 (bit01 set + 2 * bit01 glob) }

/-- The unit thaws: LOST where packets were dropped, then a SYNC with REASON CONFIG (R570). -/
def Dev.trcThaw (d : Dev) : Dev := d.trcConfig

/-- The sources of a LINK, POWER, GOV or OBJ_STATE packet record their chapters' codes. -/
def Dev.trcLink (d : Dev) (b st rate lanes : Nat) : Dev :=
  d.trace { src := trcSource (blkClass b), type := 0x10, key := some (blkClass b * 65536 + blkInst b),
            body := leBytes 2 (blkClass b) ++ leBytes 1 (blkInst b) ++ leBytes 1 st ++ leBytes 1 rate ++ leBytes 1 lanes }

/-! ### Commands -/

/-- TRACE_IDLE_FLUSH (R556, R566): the open line has had no packet for TRC_FLUSH_IDLE cycles. -/
def execTraceIdleFlush (s : State) : Out := s.run fun d =>
  if d.trc.last + d.get .TRC_FLUSH_IDLE_CYCLES ≤ d.trcNow then Dev.trcEvents d.trcWriteLine else d

/-- TRC_FLUSH (R556): the open line is written now. -/
def execTrcFlush (p : Path) (s : State) : Out := s.run fun d =>
  d.viaReg p .TRC_CTRL 0 (d.rd .TRC_CTRL ||| 4) fun e => Dev.trcEvents e.trcWriteLine

/-- SYNC_PERIODIC (R558): exactly SYNC_PERIOD cycles after the previous SYNC, with both times of that cycle. -/
def execSyncPeriodic (s : State) : Out := s.run fun d =>
  let t := d.trc.lastSync + d.get .TRC_SYNC_PERIOD_CYCLES
  if d.get .TRC_CTRL_RECORD = 1 ∧ t ≤ d.trcNow then
    Dev.trcEvents (d.trcSyncAt t (d.gh.timer - (d.trcNow - t) * 3 / 250) 0)
  else d

/-- STOP_AFTER_DONE (R564): the last of the TRIG_POST_LINES lines is written. -/
def execStopAfterDone (s : State) : Out := s.run fun d =>
  if d.trc.post = some 0 then (d.trcStop 3).raise 108 0 1 else d

/-- TRC_RECORD_WRITE (R563): a write of TRC_CTRL, which wins over a trigger action of the same cycle; `hits` are
the triggers that hit in that cycle. -/
def execTrcRecordWrite (p : Path) (v : Word) (hits : Nat) (s : State) : Out := s.run fun d =>
  d.viaReg p .TRC_CTRL 0 v.toNat fun e => (e.trcHitsOnly hits).trcCtrlWrite p v.toNat

/-- TRC_RD_WRITE (R568): the high word's write commits the staged low word (R52). -/
def Dev.trcRdHi (d : Dev) (p : Path) (v : Word) : Dev :=
  (d.trcRdWrite p (v.toNat * 2 ^ 32 + d.stagedLow p 108 0 0x98)).unstage p 108 0 0x98

def execTrcRdWrite (p : Path) (v : Word) (s : State) : Out := s.run fun d =>
  d.viaReg p .TRC_RD_HI 0 v.toNat fun e => e.trcRdHi p v

/-- TRC_SW_HI_WRITE (R571): records an SW packet of the staged low word and the written high word. -/
def Dev.trcSwHi (d : Dev) (p : Path) (v : Word) : Dev :=
  (d.trcSw (v.toNat * 2 ^ 32 + d.stagedLow p 108 0 0xC0)).unstage p 108 0 0xC0

def execTrcSwHiWrite (p : Path) (v : Word) (s : State) : Out := s.run fun d =>
  d.viaReg p .TRC_SW_HI 0 v.toNat fun e => e.trcSwHi p v

end Sys2Proof.Machine
end

