-- ==== Sys2Proof/Machine/Power.lean ====
section
/-! DEFINITION. Power states: requests, blockers, entry, the governor, the junction (chapter 04). -/
namespace Sys2Proof.Machine

/-- The power block. -/
def pwrBlk : Nat := 110

/-! ### Blockers (Table 4-8) -/

/-- Work that blocks a request (cause 6): tasks that an engine has or will have, transfers in flight. -/
def Dev.workBusy (d : Dev) : Bool :=
  (d.hg.tasks.any fun t => t.st == 1 || t.st == 2) || !d.flm.streams.isEmpty || (d.flm.turns.any fun t => !t.done) || !d.pool.drains.isEmpty ||
    !d.chains.isEmpty || !d.slc.q.isEmpty || d.ck.restore.isSome || (d.lr.tags.any fun t => !t.dead)

/-- Is a block or a global freeze set? -/
def Dev.anyFreeze (d : Dev) : Bool := d.get .GLOBAL_CTRL_FREEZE == 1 || (List.range blkCount).any fun b => d.ctrlBit b 3

/-- PWR_BLOCKERS: bit n − 1 for cause n (R72). -/
def Dev.blockers (d : Dev) : Nat :=
  let halted := (d.flm.streams.any fun s => (s.st == 4 || s.st == 5) && (!s.abort || s.cause == 0x0504)) || (d.flm.turns.any fun t => t.halted) ||
    d.ck.regions.any fun g => g.halted
  let train := (List.range 8).any fun p => d.get .PORT_STATUS_LINK p == 1 || d.get .PORT_STATUS_LINK p == 4
  bit01 halted + 2 * bit01 d.voteOpen + 4 * bit01 (!d.reads.isEmpty) + 8 * bit01 d.anyFreeze + 16 * bit01 train +
    32 * bit01 d.workBusy

/-- Work that bars IDLE (R68): work that an engine has accepted and transfers outstanding, but for a halted stream's or program's (O4). -/
def Dev.activeWork (d : Dev) : Bool :=
  let halted (tag : Nat) : Bool :=
    (d.flm.streams.any fun s => s.tag == tag && s.st == 5) || d.flm.turns.any fun t => t.tag == tag && t.halted
  (d.hg.tasks.any fun t => t.st == 2 && !halted t.tag) || (d.flm.streams.any fun s => s.st != 5) ||
    (d.flm.turns.any fun t => !t.halted && !t.done) || !d.pool.drains.isEmpty || !d.chains.isEmpty || !d.slc.q.isEmpty || d.ck.restore.isSome ||
    (d.lr.tags.any fun t => !t.dead)

/-- The lowest cause in force; 0 with none. -/
def lowestCause (m : Nat) : Nat := match (List.range 6).find? fun i => bitsOf m i 1 == 1 with
  | some i => i + 1
  | none => 0

/-! ### Checks of a request (R69, R70) -/

/-- Is a state (1 IDLE, 2 DOZE, 3 HOLD) in the effective permitted set? -/
def Dev.permits (d : Dev) (st : Nat) : Bool := bitsOf d.pwrEffective (st - 1) 1 == 1

/-- PWR_MIN_RESIDENCY of DOZE or HOLD in ticks. -/
def Dev.minTicks (d : Dev) (st : Nat) : Nat :=
  192 * (if st = 3 then d.get .PWR_MIN_RESIDENCY_HOLD_MIN else d.get .PWR_MIN_RESIDENCY_DOZE_MIN)

/-- Is the wake time less than the state's minimum residency ahead? -/
def Dev.tooShort (d : Dev) (st wake : Nat) : Bool := decide (wake < d.gh.timer + d.minTicks st)

/-- The state that a request enters: the one it names, or the next shallower one (R70). -/
def Dev.stateFor (d : Dev) (r : PwrReq) : Nat :=
  if !d.tooShort r.target r.wake then r.target
  else if r.target = 3 && d.permits 2 && !d.tooShort 2 r.wake then 2
  else if d.permits 1 then 1 else 0

/-! ### Entry -/

/-- The stacks that are in one state of HBM_STATUS go to another (R668). -/
def Dev.hbmAll (d : Dev) (from_ to_ : Nat) : Dev :=
  (List.range 4).foldl (fun e n => if e.get .HBM_STATUS_STATE n = from_ then e.set .HBM_STATUS_STATE to_ n else e) d

/-- RESULT of an entry. -/
def entered (demoted : Bool) : Nat := if demoted then 2 else 1

/-- DOZE entry runs none of the steps of Table 4-5 (R666, R103). -/
def Dev.dozeEnter (d : Dev) (r : PwrReq) : Dev :=
  let d := { d with pwr := { d.pwr with pend := none, cur := some r } }
  let d := ((d.wr .WAKE_SRC_SEEN 0).tc0Load 2 r.wake).hbmAll 2 3
  (d.setPower 2 0).reqDone (entered r.demoted) 0 2

/-- The objects kept in T0 that no drain moves. -/
def Dev.t0Objs (d : Dev) : List Obj :=
  (d.objs.map (·.2)).filter fun o => o.tier == 0 && o.home.isSome && o.state != oFREE && o.state != oRETIRED &&
    !d.pool.drains.any fun x => x.handle == o.handle

/-- Step 1 of HOLD entry: an object kept in T0 moves to T1 in class C3 (O8), with C3's quota, eviction and grants; its state stays. One that
T1 has no place for stays in T0, and its bytes are lost (notes/assumptions/22.md). -/
def Dev.t0Move (d : Dev) (o : Obj) : Dev :=
  let r := d.allocJudge 3 o.partner 1 0 (o.blocks * 65536)
  match r.2 with
  | .got p => { r.1 with pool := { r.1.pool with drains := r.1.pool.drains ++
      [{ handle := o.handle, svc := 3, dst := p, gSrc := 0, gDst := 0, moved := 0, tag := none, capacity := false, since := d.gh.timer,
         prior := o.state, counted := false, refWait := false, lost := false, blocked := none, keep := true }] } }
  | _ => r.1

def Dev.t0Drain (d : Dev) : Dev := d.t0Objs.foldl (fun e o => e.t0Move o) d

/-- Is step 1 still moving an object, or waiting for one's place? -/
def Dev.t0Waits (d : Dev) : Bool :=
  d.t0Objs.any fun o => !d.overQuota o.partner 1 (o.blocks * 65536) && d.willFit 1 0 (o.blocks * 65536)

/-- HOLD entry begins (R74, R103): steps 1 and 2, of which step 2 sends each lease once more (R429). -/
def Dev.holdEnter (d : Dev) (r : PwrReq) : Dev :=
  let d := { d.idleExit with pwr := { d.pwr with pend := none, cur := some r, entry := 1, wakeAfter := 0 } }
  (((d.wr .WAKE_SRC_SEEN 0).tc0Load 3 r.wake).set .PWR_STATE_IN_TRANSITION 1).leaseAll.t0Drain

def Dev.pwrEnter (d : Dev) (r : PwrReq) : Dev := if r.target = 3 then d.holdEnter r else d.dozeEnter r

/-- A request for `asked` that meets blockers stays pending, as `r` (R71, R115). -/
def Dev.pwrPend (d : Dev) (r : PwrReq) (asked : Nat) : Dev :=
  let d := { d with pwr := { d.pwr with pend := some r } }
  let d := if asked = 3 then (d.bump .HOLD_BLOCKED_COUNT).raise 1 0 6 else d
  d.reqDone 3 (lowestCause d.blockers) (d.get .PWR_STATE_STATE)

/-- A request from RUN or IDLE that is permitted and whose wake time is not past (R70, R71). -/
def Dev.pwrNew (d : Dev) (r : PwrReq) : Dev :=
  let st := d.stateFor r
  if st < 2 then d.reqDone 2 0 st
  else
    let q := { r with target := st, demoted := r.demoted || st != r.target }
    if d.blockers ≠ 0 then d.pwrPend q r.target else d.pwrEnter q

/-- A request while DOZE or HOLD is entered or in force (R73): the earlier wake time counts. -/
def Dev.pwrJoin (d : Dev) (c : PwrReq) (wake : Nat) : Dev :=
  let w := min c.wake wake
  let st := if d.pwr.entry = 0 then d.get .PWR_STATE_STATE else 3
  let d := { d with pwr := { d.pwr with cur := some { c with wake := w } } }
  let d := d.tc0Load st w
  let d := if d.pwr.entry = 0 then d.reqDone 1 0 st else d
  if w ≤ d.gh.timer + exitTicks st then d.wake 1 else d

/-- A DOZE or HOLD request (R69 to R73). One outside the permitted set, or with a wake time that the timer has reached (notes/assumptions/106.md),
completes at once; one while another is pending merges with it and completes PENDING_BLOCKED as a blocked request does
(notes/assumptions/107.md); while DOZE is in force a HOLD request leaves DOZE and is taken as new. -/
def Dev.pwrRequest (d : Dev) (target wake : Nat) : Dev :=
  let st := d.get .PWR_STATE_STATE
  if !d.permits target then d.reqDone 5 0 st
  else if wake ≤ d.gh.timer then d.reqDone 6 0 st
  else if d.pwr.exiting then d.reqDone 1 0 st
  else match d.pwr.pend, d.pwr.cur with
    | some r, _ =>
      d.pwrPend { target := min r.target target, wake := min r.wake wake, demoted := r.demoted } target
    | none, some c =>
      if target = 3 ∧ st = 2 then
        let d := ({ d.tc0Disarm with pwr := { d.pwr with cur := none } }.hbmAll 3 2).setPower 0 0
        d.leaseRestart.pwrNew { target := 3, wake := min c.wake wake, demoted := false }
      else d.pwrJoin c wake
    | none, none => d.pwrNew { target := target, wake := wake, demoted := false }

/-- A cancel (R73). -/
def Dev.pwrCancel (d : Dev) : Dev :=
  ({ d with pwr := { d.pwr with pend := none } }).reqDone 8 0 (d.get .PWR_STATE_STATE)

/-- A PWR_REQ write on a path: the request of its TARGET at PWR_WAKE_AT. TARGET 1 is reserved (R6). -/
def Dev.pwrReqWrite (d : Dev) (p : Path) (v : Nat) : Dev :=
  match v % 4 with
  | 0 => d.pwrCancel
  | 1 => d.errWr p pwrBlk 0 0x8C 0x0001 v
  | t => d.pwrRequest t (d.rd64 .PWR_WAKE_AT_LO)

/-- PWR_REQ_DOZE (R69, R70, R72, R73, R666). -/
def execPwrReqDoze (p : Path) (s : State) : Out := s.run fun d => d.viaReg p .PWR_REQ 0 2 fun e => e.pwrReqWrite p 2

/-- PWR_REQ_HOLD (R69 to R74, R115). -/
def execPwrReqHold (p : Path) (s : State) : Out := s.run fun d => d.viaReg p .PWR_REQ 0 3 fun e => e.pwrReqWrite p 3

/-- PWR_REQ_CANCEL (R73). -/
def execPwrReqCancel (p : Path) (s : State) : Out := s.run fun d => d.viaReg p .PWR_REQ 0 0 fun e => e.pwrReqWrite p 0

/-! ### A pending request (R71) -/

/-- May a pending request become DOZE, because its wake time is closer than HOLD_MIN? -/
def Dev.canDemote (d : Dev) (r : PwrReq) : Bool := r.target == 3 && d.tooShort 3 r.wake && d.permits 2 && !d.tooShort 2 r.wake

/-- Is the wake time closer than the minimum residency of every state it could still name? -/
def Dev.mustDrop (d : Dev) (r : PwrReq) : Bool := d.tooShort r.target r.wake && !d.canDemote r

/-- PENDING_REQUEST_DEMOTE. -/
def execPendingRequestDemote (s : State) : Out := s.run fun d =>
  match d.pwr.pend with
  | none => d
  | some r => if d.canDemote r then { d with pwr := { d.pwr with pend := some { r with target := 2, demoted := true } } } else d

def Dev.pwrDrop (d : Dev) : Dev :=
  ({ d with pwr := { d.pwr with pend := none } }).reqDone 4 (lowestCause d.blockers) (d.get .PWR_STATE_STATE)

/-- PENDING_REQUEST_DROP. -/
def execPendingRequestDrop (s : State) : Out := s.run fun d =>
  match d.pwr.pend with
  | none => d
  | some r => if d.mustDrop r then d.pwrDrop else d

/-- PENDING_REQUEST_ENTER: the last blocker has cleared. A state that has left the permitted set is not entered (R69). -/
def execPendingRequestEnter (s : State) : Out := s.run fun d =>
  match d.pwr.pend with
  | none => d
  | some r =>
    if d.blockers ≠ 0 then d
    else if !d.permits r.target then ({ d with pwr := { d.pwr with pend := none } }).reqDone 5 0 (d.get .PWR_STATE_STATE)
    else if d.mustDrop r then d.pwrDrop
    else d.pwrEnter (if d.canDemote r then { r with target := 2, demoted := true } else r)

/-! ### HOLD entry (Table 4-5) -/

/-- Step 3: the power-state packet, and the open line (R569). What follows until the exit's SYNC is dropped and counted. -/
def Dev.trcHold (d : Dev) : Dev :=
  let d := d.tracePower (d.get .PWR_STATE_STATE) 3 0
  let d := Dev.trcEvents d.trcWriteLine
  { d with trc := { d.trc with gapEntry := d.gh.timer, gapOpen := true } }

/-- Step 4: key slots set RETAIN are copied to the AO key store, and every slot is cleared. -/
def Dev.keyHold (d : Dev) : Dev :=
  let keep := d.keys.filter fun e => bitsOf (d.rd .KEY_RETAIN) e.1 1 == 1
  let d := { d with keys := [], gh := { d.gh with keyStore := keep } }
  d.set .KEY_RET_STATUS_HELD (keep.foldl (fun a e => a ||| 2 ^ e.1) 0)

/-- Step 4 saves the Headgate's state to the save area of the data SRAM (R147). Its layout is not given: what the area reads afterwards is a
free value, and the registers come back as they were (notes/assumptions/108.md). -/
def Dev.hgSave (d : Dev) : Dev :=
  { d with mem := d.mem.filter fun c => !saveArea c.1, lostEpoch := { d.lostEpoch with saves := d.lostEpoch.saves + 1 } }

/-- Is CKPT_DATA on its way to a neighbour (O9)? -/
def Dev.ckptInFlight (d : Dev) : Bool :=
  d.links.any fun x => (x.txq.any fun m => m.2.type == 8) || x.replay.any fun f => f.type == 8

/-- HOLD_DRAIN_DONE (R74): steps 1 and 2 have ended, and the core is at a bundle boundary or in WAIT (R168); steps 3 and 4 run, and at
step 5 the sequencer jumps to V_ENTER (R97). `bad`: the slots of the key store that a copy-back would find uncorrectable (R108). -/
def execHoldDrainDone (bad : Nat) (s : State) : Out := s.run fun d =>
  if d.pwr.entry ≠ 1 ∨ d.hg.stall.isSome ∨ d.hg.inD ∨ !d.hg.ldv.isEmpty ∨ d.ckptInFlight ∨
      d.pool.drains.any Drain.keep then d
  else if d.t0Waits then d.t0Drain
  else
    let d := d.trcHold.keyHold.hgSave
    let d := { d with gh := { d.gh with keyBad := bad } }
    let hg := d.get .HG_STATE_STATE
    let d := { d.set .HG_STATE_STATE 6 with pwr := { d.pwr with entry := 5, hgWas := hg }, gh := { d.gh with enterAt := some d.gh.timer } }
    (d.ghJump 1).set .GH_STATUS_SEQ_POS 0

/-! ### IDLE (R68) -/

/-- Is a bundle executed or work in progress, which bars IDLE? -/
def Dev.stirring (d : Dev) : Bool := d.get .HG_STATE_STATE == 2 || d.activeWork

/-- IDLE_ENTRY: for IDLE_ENTRY_DELAY fabric cycles, 250 / 3 of them a tick, no bundle was executed and nothing was in progress. -/
def execIdleEntry (s : State) : Out := s.run fun d =>
  if d.get .PWR_STATE_STATE ≠ 0 ∨ d.pwr.entry ≠ 0 ∨ !d.permits 1 ∨ d.stirring ∨ 250 * d.due.quiet < 3 * d.get .IDLE_ENTRY_DELAY_CYCLES then d
  else d.setPower 1 0

/-! ### Timer channel 0 (R103, R105) -/

/-- TC0_FIRE: tc0 fires at the first tick at which the timer is not less than its compare value. -/
def execTc0Fire (s : State) : Out := s.run fun d =>
  if d.bit .TC_ARMED 0 && decide (d.rd64 (.TC_CMP_LO 0) ≤ d.gh.timer) then ((d.evpSet 0).tc0Disarm).wake 1
  else if d.gh.tc0At = some d.gh.timer then ({ d.evpSet 0 with gh := { d.gh with tc0At := none } }).wake 1
  else d

/-! ### The governor (R84 to R88, R20 to R24) -/

/-- vfused of a frequency in MHz. -/
def vOf (mhz : Nat) : Nat := Config.vfused ((mhz - 200) / 50)

/-- The highest 50 MHz step at or below `t` whose vfused does not pass `vhi`. -/
def govStep (vhi : Nat) : Nat → Nat
  | 0 => 200
  | n + 1 => if vOf (200 + 50 * (n + 1)) ≤ vhi then 200 + 50 * (n + 1) else govStep vhi n

/-- The clock runs at a frequency and VDD_CORE is what belongs to it, with the GOVERNOR packet. -/
def Dev.govSet (d : Dev) (mhz mv : Nat) : Dev :=
  let same := d.get .GOV_APPLIED_MHZ == mhz && d.get .GOV_APPLIED_MV == mv
  let d := (d.set .GOV_APPLIED_MHZ mhz).set .GOV_APPLIED_MV mv
  let d := { d with pwr := { d.pwr with ask := none } }
  if same then d else d.trace { src := 13, type := 0x12, key := some mhz, body := leBytes 2 mhz ++ leBytes 2 mv }

/-- A rise that has its voltage: VID stands at the code asked for, and the 5 µs in which the regulator settles are over (R85, R637). -/
def Dev.govRise (d : Dev) : Dev :=
  match d.pwr.ask with
  | some (mhz, mv) => if d.pwr.vid = d.pwr.vidTarget ∧ d.pwr.stepped + 96 ≤ d.gh.timer then d.govSet mhz mv else d
  | none => d

/-- The governor applies a frequency and a voltage (R85): a rise first asks for the voltage, a fall changes the clock first. -/
def Dev.govApply (d : Dev) (mhz mv : Nat) : Dev :=
  let code := (mv - 650) / 5
  let rise := decide (d.get .GOV_APPLIED_MHZ < mhz) && decide (d.pwr.vid < code)
  let e := { d with pwr := { d.pwr with vidTarget := code } }
  if rise then { e with pwr := { e.pwr with ask := some (mhz, mv) } } else e.govSet mhz mv

/-- GOVERNOR_UPDATE, every 100 µs (1,920 ticks) of RUN; `p` is the 1 ms average board power in 0.125 W. POWER_NOW follows in every state (R88), the loop only in
RUN (R84). -/
def execGovernorUpdate (p : Nat) (s : State) : Out := s.run fun d =>
  let d := d.set .POWER_NOW_POWER p
  if d.get .PWR_STATE_STATE ≠ 0 ∨ !d.bootPast 3 ∨ d.due.run < 1920 then d
  else
    let d := ({ d with due := { d.due with run := 0 } } : Dev).govRise
    let tied := d.isTied 0xE1 0
    let d := d.untie 0xE1 0
    let cap := d.get .POWER_CAP_WATTS
    let f := d.get .GOV_APPLIED_MHZ
    let was := d.get .GOV_APPLIED_MV
    let hot := decide (signed 16 (d.get .THROTTLE_THRESH_ON) ≤ d.pwr.tj) || decide (8 * cap < p)
    let cool := decide (d.pwr.tj < signed 16 (d.get .THROTTLE_THRESH_OFF)) && decide (p ≤ 8 * (cap - 10))
    let sh := max 200 (min 1600 (if hot then f - 50 else if cool then f + 50 else f))
    let lo := d.get .GOV_FREQ_BOUNDS_LOW
    let hi := d.get .GOV_FREQ_BOUNDS_HIGH
    let vlo := d.get .GOV_VOLT_BOUNDS_LOW
    let vhi := d.get .GOV_VOLT_BOUNDS_HIGH
    let pin := d.get .GOV_PIN_PIN_EN == 1
    let t := if pin then d.get .GOV_PIN_FREQ else max lo (min hi sh)
    let ap := govStep vhi ((t - 200) / 50)
    let d := (d.set .GOV_SHADOW_MHZ sh).set .GOV_SHADOW_MV (max (vOf sh) vlo)
    let d := if tied then d
      else
        let d := d.govApply ap (max (vOf ap) vlo)
        if clamped lo hi sh f pin || clamped vlo vhi (max (vOf sh) vlo) was pin then (d.bump .GOV_CLAMP_COUNT).raise pwrBlk 0 4 else d
    let d := if 8 * cap < p then d.raise pwrBlk 0 5 else d
    d.sensorLevel 0x20 (bit01 (decide (8 * cap < p)))

/-! ### The junction (R26, R90, R91) -/

/-- The trip: THERM_TRIP_N, every clock outside the AO domain stops, the records, the key store erased (R107), the alert. -/
def Dev.trip (d : Dev) (tj : Int) : Dev :=
  let w := unsigned 16 tj
  let d := (d.bumpF .TRIP_STATUS_TRIP_COUNT).set .TRIP_STATUS_TJ_AT_TRIP w
  let d := (d.ledgerEvent 0 w).bootAbort.set .KEY_RET_STATUS_HELD 0
  let d := ((d.fatal 2 0x0126).alert 2).sensorLevel 1 3
  { d with gh := { d.gh with keyStore := [] }
           pwr := { d.pwr with tripped := true } }

/-- The level of TJ_HOT (Table 27-4). -/
def Dev.tjLevel (d : Dev) (tj : Int) : Nat :=
  if 440 ≤ tj then 3 else if 420 ≤ tj then 2 else if signed 16 (d.get .THROTTLE_THRESH_ON) ≤ tj then 1 else 0

/-- TJ_SAMPLE: the hottest junction in 0.25 °C and its sensor, every 10 µs in every state. -/
def execTjSample (tj : Int) (sensor : Nat) (s : State) : Out := s.runOn fun d =>
  let old := d.pwr.tj
  let d := { d with pwr := { d.pwr with tj := tj } }
  let d := (d.set .TJ_NOW_TJ (unsigned 16 tj)).set .TJ_NOW_SENSOR sensor
  let d := if signed 16 (d.get .TJ_PEAK_TJ) < tj then d.set .TJ_PEAK_TJ (unsigned 16 tj) else d
  let on := signed 16 (d.get .THROTTLE_THRESH_ON)
  let off := signed 16 (d.get .THROTTLE_THRESH_OFF)
  let alarm := signed 16 (d.get .GH_TJ_ALARM_TJ)
  let d := if old < alarm ∧ alarm ≤ tj then d.evpSet 9 else d
  if d.pwr.tripped then d
  else
    let d := if old < on ∧ on ≤ tj then d.raise pwrBlk 0 2 else d
    let d := if off ≤ old ∧ tj < off then d.raise pwrBlk 0 3 else d
    let d := if old ≤ 420 ∧ 420 < tj then (d.raise pwrBlk 0 6).alert 3 else d
    let d := if 0 ≤ old ∧ tj < 0 then d.raise pwrBlk 0 7 else d
    if 440 ≤ tj then d.trip tj else d.sensorLevel 1 (d.tjLevel tj)

/-! ### Power gating (R82, Table 4-4) -/

/-- Is a lane or a tile idle: an empty queue, no chain? -/
def Dev.unitIdle (d : Dev) (b : Nat) : Bool :=
  if 38 ≤ b ∧ b < 46 then (d.slc.q.all fun x => x.lane + 38 != b) else !d.busyTiles.contains (b - 47)

/-- POWER_GATE: a lane or tile (block `b`) that has been idle for 100 µs, as GATE_CTL enables. -/
def execPowerGate (b : Nat) (s : State) : Out := s.run fun d =>
  let lane := decide (38 ≤ b) && decide (b < 46)
  let tile := decide (47 ≤ b) && decide (b < 63)
  let since := Sparse.get (fun _ => 0) d.due.busy b
  if !(lane || tile) || d.asleep || !d.unitIdle b || d.pwr.gated.contains b || decide (d.gh.timer < since + 1920) then d
  else if (if lane then d.get .GATE_CTL_SLUICE_PG else d.get .GATE_CTL_SIPHON_PG) = 0 then d
  else { d with pwr := { d.pwr with gated := d.pwr.gated ++ [b] } }

/-! ### The AO tick (R92, R93) -/

/-- What R68, R82 and R84 count from: work seen at this tick, time in RUN. -/
def Dev.dueTick (d : Dev) : Dev :=
  let now := d.gh.timer
  let run := d.get .PWR_STATE_STATE == 0
  let busy := (List.range 24).foldl (fun l i =>
    let b := if i < 8 then 38 + i else 39 + i
    if d.unitIdle b then l else Sparse.ins (Sparse.del l b) b now) d.due.busy
  { d with due := { run := d.due.run + bit01 run, quiet := if run && !d.stirring then d.due.quiet + 1 else 0, busy := busy } }

/-- One tick of the AO timer, with the residency counter of the power state in force (R92). -/
def Dev.timeTick (d : Dev) : Dev :=
  let d := { d with gh := { d.gh with timer := (d.gh.timer + 1) % 2 ^ 64 } }
  let st := d.get .PWR_STATE_STATE
  if d.pwr.exiting then d
  else if st = 1 then d.add64 .RES_IDLE_LO 1 else if st = 2 then d.add64 .RES_DOZE_LO 1 else if st = 3 then d.add64 .RES_HOLD_LO 1 else d

end Sys2Proof.Machine
end

