-- ==== Sys2Proof/Machine/GaugeHouse.lean ====
section
/-! DEFINITION. The Gauge House sequencer: wake programs, the power sequences, the scrub (chapter 05). A command of the sequencer runs
the word at its pc, when that word is the command's instruction. -/
namespace Sys2Proof.Machine

/-! ### Fetch and decode (Table 5-2) -/

/-- The ROM program: its main loop waits for nothing, its handlers are those of Table 5-5 (notes/assumptions/8.md). -/
def romWord (a : Nat) : Nat :=
  if a = 0 then 0x004 else if a = 1 then 0x020 else if a = 2 then 0x028 else if a = 4 then 0x1200 else if a = 5 then 0x0A01
  else if 0x020 ≤ a ∧ a ≤ 0x023 then 0x0401 + (a - 0x020) else if 0x028 ≤ a ∧ a ≤ 0x02C then 0x0411 + (a - 0x028)
  else if a = 0x024 ∨ a = 0x02D then 0x0100 else 0

def Dev.ghPc (d : Dev) : Nat := d.get .GH_STATUS_PC
def Dev.ghRom (d : Dev) : Bool := d.get .GH_STATUS_ROM_ACTIVE == 1
def Dev.ghLen (d : Dev) : Nat := d.get .GH_PROG_LEN_LEN

/-- The word at an address of the program in force. -/
def Dev.ghFetch (d : Dev) (a : Nat) : Nat := if d.ghRom then romWord a else d.ghWord a

/-- The arguments of SEQ (Table 5-3). -/
def seqArg (a : Nat) : Bool := (decide (1 ≤ a) && decide (a ≤ 4)) || (decide (0x11 ≤ a) && decide (a ≤ 0x15))

/-- Does a word decode to an instruction of Tables 5-2 and 5-3 (R94)? -/
def ghValid (w : Nat) : Bool :=
  let op := w / 4096
  if op = 0 then
    w == 0 || w == 0x100 || w == 0x200 || w == 0x300 || (w / 256 == 4 && seqArg (w % 256)) || w / 8 == 0xA0 || w / 8 == 0xE0 ||
      w / 8 == 0x100 || w / 64 == 0x24 || w / 8 == 0x140 || w / 256 == 0x0B
  else if op = 5 then decide (bitsOf w 9 3 ≤ 4)
  else if op = 6 then bitsOf w 10 2 == 0
  else if op = 8 then decide (bitsOf w 9 3 ≤ 4) && w % 8 == 0
  else if op = 9 then bitsOf w 5 3 == 0
  else if op = 0xA then bitsOf w 5 4 == 0
  else decide (op ≤ 7)

/-- The target of a branch or call at an address. -/
def ghTarget (a w : Nat) : Int := if w / 4096 = 6 then (w % 1024 : Nat) else (a : Int) + signed 9 (w % 512)

/-- Is a code word or a vector right (R94)? -/
def Dev.ghWordOk (d : Dev) (len a : Nat) : Bool :=
  let w := d.ghWord a
  let inCode (t : Int) : Bool := decide (4 ≤ t) && decide (t < len)
  if d.ecc.contains (7, a / 2) then false
  else if a < 3 then inCode w
  else if a = 3 then w == 0
  else ghValid w && (!(w / 4096 == 5 || w / 4096 == 6) || inCode (ghTarget a w))

/-- The load check: the first failing word, or 0xFFFF_FFFF for a length out of range. -/
def Dev.ghCheck (d : Dev) : Option Nat :=
  let len := d.ghLen
  match (List.range (max 4 (min len 1024))).find? fun a => !d.ghWordOk len a with
  | some a => some a
  | none => if len < 5 ∨ 1024 < len then some 0xFFFFFFFF else none

/-! ### Faults and steps -/

/-- The power sequence in progress: 1 entry, 2 exit, 0 none. -/
def Dev.ghSeq (d : Dev) : Nat := if 5 ≤ d.pwr.entry then 1 else if d.pwr.exiting && d.get .PWR_STATE_STATE == 3 then 2 else 0

/-- Where the ROM program goes on after the step at SEQ_POS `pos`. -/
def romResume (h pos : Nat) : Nat := romVector h + (if h = 1 then pos else if h = 2 ∧ 9 ≤ pos then pos - 8 else 0)

/-- Put the sequencer at an address of a handler, with nothing waited for and an empty return stack. -/
def Dev.ghPut (d : Dev) (h a : Nat) : Dev :=
  let d := { d with gh := { d.gh with handler := h, wait := none, stack := [] } }
  d.set .GH_STATUS_PC a

/-- A fault (R100): the records, and the ROM program, which completes a power sequence in progress from the first step not executed. -/
def Dev.ghFault (d : Dev) (code : Nat) : Dev :=
  let h := d.ghSeq
  let a := romResume h (d.get .GH_STATUS_SEQ_POS)
  let d := ((d.err 1 0 code (d.ghPc + d.ghFetch d.ghPc * 65536) 0).raise 1 0 0).raise 1 0 1
  let d := (d.set .GH_CTRL_PROG_RUN 0).set .GH_STATUS_ROM_ACTIVE 1
  d.ghPut h a

/-- Is the sequencer executing: not frozen in its main loop (R106), not in a WAIT? -/
def Dev.ghRuns (d : Dev) : Bool := !(d.ctrlBit 1 3 && d.gh.handler == 0) && d.gh.wait.isNone

/-- Run the word at the pc, when it is the command's; a fetch out of the code or of a bad word faults (R99). -/
def Dev.ghExec (d : Dev) (m : Nat → Bool) (f : Dev → Nat → Dev) : Dev :=
  let pc := d.ghPc
  if !d.ghRuns then d
  else if d.ghRom then (if m (romWord pc) then f d (romWord pc) else d)
  else if pc < 4 ∨ d.ghLen ≤ pc then d.ghFault 0x0109
  else if d.ecc.contains (7, pc / 2) then (d.controlUe 1 0 7 (pc / 2)).ghFault 0x0101
  else if m (d.ghWord pc) then f d (d.ghWord pc) else d

def Dev.ghGoto (d : Dev) (a : Nat) : Dev := d.set .GH_STATUS_PC (a % 1024)
def Dev.ghNext (d : Dev) : Dev := d.ghGoto (d.ghPc + 1)

def Dev.kk (d : Dev) (n : Nat) : Nat := d.gh.k.getD n 0
def Dev.setK (d : Dev) (n v : Nat) : Dev := { d with gh := { d.gh with k := d.gh.k.set n (v % 2 ^ 32) } }
def Dev.setZ (d : Dev) (z : Bool) : Dev := { d with gh := { d.gh with z := z } }
def Dev.setC (d : Dev) (c : Bool) : Dev := { d with gh := { d.gh with c := c } }

/-- An instruction that only changes registers and flags, then steps on. -/
def Dev.ghStep (d : Dev) (m : Nat → Bool) (f : Dev → Nat → Dev) : Dev := d.ghExec m fun e w => (f e w).ghNext

/-- Opcode 15:12. -/
def ghOp (n w : Nat) : Bool := w / 4096 == n

/-! ### Control -/

/-- GH_NOP. -/
def execGhNop (s : State) : Out := s.runOn fun d => d.ghStep (· == 0) fun e _ => e

/-- STOP: back to V_MAIN, the return stack emptied. -/
def execGhStop (s : State) : Out := s.runOn fun d => d.ghExec (· == 0x100) fun e _ =>
  ({ e with gh := { e.gh with stack := [] } }).ghJump 0

/-- RET (R99). -/
def execGhRet (s : State) : Out := s.runOn fun d => d.ghExec (· == 0x200) fun e _ =>
  match e.gh.stack with
  | [] => e.ghFault 0x0102
  | a :: t => ({ e with gh := { e.gh with stack := t } }).ghGoto a

/-- CALL (R99): the stack has 4 entries. -/
def execGhCall (s : State) : Out := s.runOn fun d => d.ghExec (ghOp 6) fun e w =>
  if 4 ≤ e.gh.stack.length then e.ghFault 0x0102
  else ({ e with gh := { e.gh with stack := (e.ghPc + 1) % 1024 :: e.gh.stack } }).ghGoto w

/-- WAKE (R104): in DOZE, HOLD or HOLD entry, wake source 0x08. -/
def execGhWake (s : State) : Out := s.runOn fun d => d.ghExec (· == 0x300) fun e _ =>
  let e := e.ghNext
  if e.asleep ∨ e.pwr.entry ≠ 0 then e.wake 8 else e

/-- GH_B. -/
def execGhB (s : State) : Out := s.runOn fun d => d.ghExec (ghOp 5) fun e w =>
  let c := bitsOf w 9 3
  let taken := c == 0 || (c == 1 && e.gh.z) || (c == 2 && !e.gh.z) || (c == 3 && e.gh.c) || (c == 4 && !e.gh.c)
  if taken then e.ghGoto (ghTarget e.ghPc w).toNat else e.ghNext

/-- GH_WAIT: at once where a matching bit is set, else it sleeps. -/
def execGhWait (s : State) : Out := s.runOn fun d => d.ghExec (fun w => w / 8 == 0x140) fun e w =>
  let m := e.kk (w % 8) % 65536
  if (e.rd .GH_EVP &&& m) ≠ 0 then e.ghNext else { e with gh := { e.gh with wait := some m } }

/-- GH_WAIT_MATCH: a matching EVP bit is set. -/
def execGhWaitMatch (s : State) : Out := s.runOn fun d =>
  match d.gh.wait with
  | none => d
  | some m =>
    if (d.rd .GH_EVP &&& m) = 0 ∨ (d.ctrlBit 1 3 && d.gh.handler == 0) then d
    else ({ d with gh := { d.gh with wait := none } }).ghNext

/-! ### Registers, flags, timers, scratch -/

/-- GH_TEMP. -/
def execGhTemp (s : State) : Out := s.runOn fun d => d.ghStep (fun w => w / 8 == 0xE0) fun e w =>
  e.setK (w % 8) (unsigned 32 e.pwr.tj)

/-- GPIN. -/
def execGpin (s : State) : Out := s.runOn fun d => d.ghStep (fun w => w / 8 == 0x100) fun e w => e.setK (w % 8) (e.gh.gpio % 256)

/-- EVT: takes and clears the masked EVP bits. -/
def execEvt (s : State) : Out := s.runOn fun d => d.ghStep (fun w => w / 64 == 0x24) fun e w =>
  let v := e.rd .GH_EVP &&& (e.kk (w % 8) % 65536)
  ((e.wr .GH_EVP (e.rd .GH_EVP - v)).setK (bitsOf w 3 3) v).setZ (v == 0)

/-- GH_SIG. -/
def execGhSig (s : State) : Out := s.runOn fun d => d.ghStep (fun w => w / 256 == 0x0B) fun e w =>
  (e.set .GH_SIGNAL_VALUE (w % 256)).raise 1 0 7

/-- LDI. -/
def execLdi (s : State) : Out := s.runOn fun d => d.ghStep (ghOp 1) fun e w => e.setK (bitsOf w 9 3) (w % 512)

/-- The ALU: result and, where the operation sets it, C. -/
def ghAlu (fn a b : Nat) : Nat × Option Bool :=
  if fn = 0 then ((a + b) % 2 ^ 32, some (decide (2 ^ 32 ≤ a + b)))
  else if fn = 1 ∨ fn = 7 then ((a + 2 ^ 32 - b) % 2 ^ 32, some (decide (a < b)))
  else if fn = 2 then (a &&& b, none)
  else if fn = 3 then (a ||| b, none)
  else if fn = 4 then (a ^^^ b, none)
  else if fn = 5 then (a * 2 ^ (b % 32) % 2 ^ 32, none)
  else (a / 2 ^ (b % 32), none)

/-- Flags of a result. -/
def Dev.ghFlags (d : Dev) (r : Nat × Option Bool) : Dev :=
  let d := d.setZ (r.1 == 0)
  match r.2 with
  | some c => d.setC c
  | none => d

/-- GH_ALU. -/
def execGhAlu (s : State) : Out := s.runOn fun d => d.ghStep (ghOp 2) fun e w =>
  let r := ghAlu (w % 8) (e.kk (bitsOf w 6 3)) (e.kk (bitsOf w 3 3))
  (if w % 8 = 7 then e else e.setK (bitsOf w 9 3) r.1).ghFlags r

/-- GH_ADDI. -/
def execGhAddi (s : State) : Out := s.runOn fun d => d.ghStep (ghOp 3) fun e w =>
  let r := ghAlu 0 (e.kk (bitsOf w 9 3)) (unsigned 32 (signed 9 (w % 512)))
  (e.setK (bitsOf w 9 3) r.1).ghFlags r

/-- GH_CMPI. -/
def execGhCmpi (s : State) : Out := s.runOn fun d => d.ghStep (ghOp 4) fun e w => e.ghFlags (ghAlu 7 (e.kk (bitsOf w 9 3)) (w % 512))

/-- LDC: two words of the program memory, the second in bits 31:16. -/
def execLdc (s : State) : Out := s.runOn fun d => d.ghExec (ghOp 7) fun e w =>
  let i := w % 512
  if !e.ghRom && e.ecc.contains (7, i) then (e.controlUe 1 0 7 i).ghFault 0x0101
  else (e.setK (bitsOf w 9 3) (e.ghFetch (2 * i) + 65536 * e.ghFetch (2 * i + 1))).ghNext

/-- A TIMER word of a sub-code. -/
def ghTimer (sub w : Nat) : Bool := w / 4096 == 8 && bitsOf w 9 3 == sub && w % 8 == 0

/-- TCSET (R97, R99). -/
def execTcset (s : State) : Out := s.runOn fun d => d.ghExec (ghTimer 0) fun e w =>
  let n := bitsOf w 3 3
  if n = 0 then e.ghFault 0x0105
  else ((e.wr64 (.TC_CMP_LO n) (e.gh.timer + e.kk (bitsOf w 6 3))).setBit .TC_ARMED n true).ghNext

/-- TCCLR (R99). -/
def execTcclr (s : State) : Out := s.runOn fun d => d.ghExec (ghTimer 1) fun e w =>
  let n := bitsOf w 3 3
  if n = 0 then e.ghFault 0x0105 else (e.setBit .TC_ARMED n false).ghNext

/-- TCRD: remaining ticks, saturated; 0 where the channel is not armed. -/
def execTcrd (s : State) : Out := s.runOn fun d => d.ghStep (ghTimer 2) fun e w =>
  let n := bitsOf w 3 3
  e.setK (bitsOf w 6 3) (if e.bit .TC_ARMED n then min 0xFFFFFFFF (e.rd64 (.TC_CMP_LO n) - e.gh.timer) else 0)

/-- GH_TNOW. -/
def execGhTnow (s : State) : Out := s.runOn fun d => d.ghStep (ghTimer 3) fun e w => e.setK (bitsOf w 6 3) e.gh.timer

/-- TNOWH. -/
def execTnowh (s : State) : Out := s.runOn fun d => d.ghStep (ghTimer 4) fun e w => e.setK (bitsOf w 6 3) (e.gh.timer / 2 ^ 32)

/-- A scratch access word. -/
def ghScr (st w : Nat) : Bool := w / 4096 == 9 && bitsOf w 8 1 == st && bitsOf w 5 3 == 0

/-- GH_LD. -/
def execGhLd (s : State) : Out := s.runOn fun d => d.ghStep (ghScr 0) fun e w => e.setK (bitsOf w 9 3) (e.rd (.SCRATCH (w % 32)))

/-- GH_ST. -/
def execGhSt (s : State) : Out := s.runOn fun d => d.ghStep (ghScr 1) fun e w => e.wr (.SCRATCH (w % 32)) (e.kk (bitsOf w 9 3))

/-- BTST. -/
def execBtst (s : State) : Out := s.runOn fun d => d.ghStep (ghOp 0xA) fun e w =>
  e.setZ (bitsOf (e.kk (bitsOf w 9 3)) (w % 32) 1 == 0)

/-! ### The power sequences (Table 5-3) -/

/-- A SEQ step of a handler, after the step at `prev` (R99), which waits until `ready`; `f` is its action, `pos` its place. -/
def Dev.seqStepWhen (d : Dev) (a h prev pos : Nat) (ready : Dev → Bool) (f : Dev → Dev) : Dev :=
  d.ghExec (· == 0x0400 + a) fun e _ =>
    if e.gh.handler ≠ h ∨ e.get .GH_STATUS_SEQ_POS ≠ prev then e.ghFault 0x0103
    else if ready e then f ((e.set .GH_STATUS_SEQ_POS pos).ghNext)
    else e

/-- A SEQ step that waits for nothing. -/
def Dev.seqStep (d : Dev) (a h prev pos : Nat) (f : Dev → Dev) : Dev := d.ghExec (· == 0x0400 + a) fun e _ =>
  if e.gh.handler ≠ h ∨ e.get .GH_STATUS_SEQ_POS ≠ prev then e.ghFault 0x0103
  else f ((e.set .GH_STATUS_SEQ_POS pos).ghNext)

/-- SEQ_VRET (R112): no lower than the fused minimum. -/
def execSeqVret (s : State) : Out := s.run fun d => d.seqStep 0x01 1 0 1 fun e =>
  { e with gh := { e.gh with retMv := max (e.get .GH_RET_MV_MV) (Config.fusedRetMv ()), atRet := true, segUp := none } }

/-- SEQ_SRE (R75, R552): the point of no return. -/
def execSeqSre (s : State) : Out := s.run fun d => d.seqStep 0x02 1 1 2 fun e =>
  { (e.hbmAll 2 4).hbmAll 3 4 with pwr := { e.pwr with entry := 6 } }

/-- Step 7 (R489): `l1` marks the ports whose link partner lacks L1 substates (bit 0 host, bit 1 + e expander e). -/
def Dev.linksDown (d : Dev) (l1 : Nat) : Dev :=
  let lp (i : Nat) : Nat := if bitsOf l1 i 1 = 1 then 3 else 4
  let d := if d.get .HOST_LINK_STATE = 2 then d.hostLink (lp 0) else d
  let d := (List.range 4).foldl (fun e i => if e.get .EXP_STATUS_STATE i = 2 then e.expLink i (lp (1 + i)) else e) d
  let d := (List.range 8).foldl (fun e p => if e.get .PORT_STATUS_LINK p = 2 then e.set .PORT_STATUS_LINK 3 p else e) d
  (List.range 24).foldl (fun e l => if e.lstate l = 6 then (e.updLink l fun x => { x with lpWant := true }).linkLp l else e) d

/-- SEQ_LINKLP. -/
def execSeqLinklp (l1 : Nat) (s : State) : Out := s.run fun d => d.seqStep 0x03 1 2 3 fun e =>
  let e := e.linksDown l1
  { e with pwr := { e.pwr with entry := 7 } }

/-- Memory that HOLD does not keep (Table 4-3, R81): staging SRAM, trace buffer, tile SRAM. -/
def lostSpace (k : Nat) : Bool := k / 2 ^ 64 == spT0 || k / 2 ^ 64 == spTrace || k / 2 ^ 64 == spTile

/-- Step 8: HOLD. A wake seen since step 6 starts the exit at once (R75). -/
def Dev.holdReached (d : Dev) : Dev :=
  let after := d.pwr.wakeAfter
  let since := d.pwr.afterAt
  let mask := d.pwr.afterMask
  let now := d.trcNow
  let d := { d with
    mem := d.mem.filter fun c => !lostSpace c.1
    lostEpoch := { d.lostEpoch with holds := d.lostEpoch.holds + 1 }
    slc := { d.slc with q := [] }
    trc := { d.trc with held := some now }
    gh := { d.gh with enterAt := none }
    pwr := { d.pwr with entry := 0, wakeAfter := 0 } }
  let d := ((d.setState3 3).set .PWR_STATE_IN_TRANSITION 0).reqDone 1 0 3
  let d := { d with hg := { d.hg with sleepVal := d.hg.sleepGd.map fun _ => d.rd .PWR_REQ_STATUS } }
  if after = 0 then d
  else
    let d := (d.exitStart after).wr .WAKE_SRC_SEEN mask
    { d with gh := { d.gh with wakeAt := some since } }

/-- Has every link that step 7 asked to sleep done so (R74, R507)? -/
def Dev.linksAsleep (d : Dev) : Bool := (List.range 24).all fun l => !(d.lstate l == 6 && (d.link l).lpWant)

/-- SEQ_FASTOFF: step 8 follows step 7's exchanges (R74). -/
def execSeqFastoff (s : State) : Out := s.run fun d => d.seqStepWhen 0x04 1 3 4 Dev.linksAsleep Dev.holdReached

/-- SEQ_FASTON. -/
def execSeqFaston (s : State) : Out := s.run fun d => d.seqStep 0x11 2 0 9 id

/-- SEQ_VOPR. -/
def execSeqVopr (s : State) : Out := s.run fun d => d.seqStep 0x12 2 9 10 fun e =>
  { e with gh := { e.gh with atRet := false, segUp := none } }

/-- SEQ_SRX (R552): the stacks in `bad` fail to leave self-refresh, or their calibration, and are lost. -/
def execSeqSrx (bad : Nat) (s : State) : Out := s.run fun d => d.seqStep 0x13 2 10 11 fun e =>
  let e := { e.hbmAll 4 2 with pwr := { e.pwr with srx := true } }
  (List.range 4).foldl (fun x n => if bitsOf bad n 1 = 1 then x.stackLost n else x) e

/-- Every port starts to leave its low-power state; a lateral link trains from CDR with its stored taps. -/
def Dev.linksUp (d : Dev) : Dev :=
  let d := if 3 ≤ d.get .HOST_LINK_STATE then d.hostLink 2 else d
  let d := (List.range 4).foldl (fun e i =>
    if e.get .EXP_STATUS_STATE i = 3 ∨ e.get .EXP_STATUS_STATE i = 4 then e.expLink i 2 else e) d
  let d := (List.range 8).foldl (fun e p => if e.get .PORT_STATUS_LINK p = 3 then e.set .PORT_STATUS_LINK 2 p else e) d
  (List.range 24).foldl (fun e l =>
    if e.lstate l = 7 then (e.updLink l fun x => { x with exit := true, exitAt := d.gh.timer }).linkCdr l (e.link l).rate
    else e.updLink l fun x => { x with lpWant := false }) d

/-- SEQ_LINKUP. -/
def execSeqLinkup (s : State) : Out := s.run fun d => d.seqStep 0x14 2 11 12 Dev.linksUp

/-! ### Scrub (R99, R109, R110) -/

/-- SCRUB: `ce` and `ue` are the words of the segment (by index, in order) that the scrub will find in error, correctable or not. While
the HOLD exit runs, PWR_STATE still reads HOLD and no scrub starts (DESIGN CHOICE, notes/assumptions/104.md). -/
def execScrub (ce ue : List Nat) (s : State) : Out := s.runOn fun d => d.ghExec (fun w => w / 8 == 0xA0) fun e w =>
  if e.get .PWR_STATE_STATE ≠ 3 ∨ e.pwr.exiting then (e.setZ true).ghNext
  else if e.gh.scrub.isSome then e.ghFault 0x0104
  else if e.param 1 8 ≤ e.kk (w % 8) then e.ghFault 0x0108
  else
    let e := { e with gh := { e.gh with scrub := some ⟨e.kk (w % 8), e.gh.timer, ce, ue⟩, z := false } }
    (e.set .GH_STATUS_SCRUB_BUSY 1).ghNext

/-- SCRUB_DONE: the segment is read, 2,144 ticks after it was begun, and goes back to the retention voltage. -/
def execScrubDone (s : State) : Out := s.runOn fun d =>
  match d.gh.scrub with
  | none => d
  | some j =>
    if d.gh.timer < j.since + 2144 then d
    else
      let d := { d with gh := { d.gh with scrub := none } }
      (((d.set .GH_STATUS_SCRUB_BUSY 0).bump .SCRUB_COUNT).scrubFound j.seg j.ce j.ue).evpSet 11

/-! ### Timers, doorbell, budget -/

/-- GH_TIMER_FIRE: channel tc1 to tc7. -/
def execGhTimerFire (n : Nat) (s : State) : Out := s.runOn fun d =>
  if 1 ≤ n ∧ n ≤ 7 ∧ d.bit .TC_ARMED n ∧ d.rd64 (.TC_CMP_LO n) ≤ d.gh.timer then (d.evpSet n).setBit .TC_ARMED n false else d

/-- GH_DOORBELL. -/
def execGhDoorbell (p : Path) (v : Word) (s : State) : Out := s.run fun d =>
  d.viaReg p .GH_DOORBELL 0 v.toNat fun e => e.evpSet 12

/-- GH_BUDGET_EXCEEDED (R101). -/
def execGhBudgetExceeded (s : State) : Out := s.runOn fun d =>
  let past (t : Option Nat) (b : Nat) : Bool := (t.map fun x => decide (x + b < d.gh.timer)).getD false
  if 5 ≤ d.pwr.entry ∧ past d.gh.enterAt (d.get .GH_BUDGET_ENTER) then
    ({ d with gh := { d.gh with enterAt := none } }).ghFault 0x0106
  else if d.pwr.exiting ∧ d.get .PWR_STATE_STATE = 3 ∧ past d.gh.exitAt (d.get .GH_BUDGET_EXIT) then
    ((({ d with gh := { d.gh with exitAt := none } }).ghFault 0x0106).bump .EXIT_LATE_COUNT).raise 1 0 5
  else d

/-! ### Loading (R94 to R96) -/

/-- Is a write of GH_CTRL busy (R96)? -/
def Dev.ghBusy (d : Dev) : Bool := d.asleep || d.pwr.exiting || decide (d.pwr.entry ≠ 0) || d.pwr.pend.isSome

/-- Control goes back to the ROM program's main loop. -/
def Dev.ghToRom (d : Dev) : Dev :=
  let d := (d.set .GH_CTRL_PROG_RUN 0).set .GH_STATUS_ROM_ACTIVE 1
  d.ghPut 0 (d.ghVector 0)

/-- The program starts at V_MAIN, if the load check passes. -/
def Dev.ghLoad (d : Dev) : Dev :=
  match d.ghCheck with
  | some a =>
    let d := d.err 1 0 0x0100 a 0
    if d.ecc.contains (7, a / 2) then d.ueSeen 1 7 (a / 2) else d
  | none =>
    let d := (d.set .GH_CTRL_PROG_RUN 1).set .GH_STATUS_ROM_ACTIVE 0
    d.ghPut 0 (d.ghVector 0)

/-- A write of GH_CTRL. -/
def Dev.ghCtrlWrite (d : Dev) (p : Path) (v : Nat) : Dev :=
  if d.ghBusy then d.errWr p 1 0 0x80 0x0107 v
  else if v % 2 = d.get .GH_CTRL_PROG_RUN then d
  else if v % 2 = 1 then d.ghLoad else d.ghToRom

/-- GH_PROG_RUN_SET. -/
def execGhProgRunSet (p : Path) (s : State) : Out := s.run fun d => d.viaReg p .GH_CTRL 0 1 fun e => e.ghCtrlWrite p 1

/-- GH_PROG_RUN_CLEAR. -/
def execGhProgRunClear (p : Path) (s : State) : Out := s.run fun d => d.viaReg p .GH_CTRL 0 0 fun e => e.ghCtrlWrite p 0

end Sys2Proof.Machine
end

