-- ==== Sys2Proof/Machine/Freeboard.lean ====
section
/-! DEFINITION. Freeboard: observation, publishing, norms, the fleet vote, the loss scale, per-tensor scales (chapter 18). -/
namespace Sys2Proof.Machine

/-- Freeboard's block index, and whether it may start work. -/
def fbBlk : Nat := 64
def Dev.fbFree (d : Dev) : Bool := !d.frozen fbBlk && !d.asleep

/-! ### Observation (R390 to R392) -/

/-- The elements of a block's bytes in a format of 8, 16 or 32 bits. -/
def elemsOf (fmt : Nat) (b : List Byte) : List Nat :=
  let n := fmtBits fmt / 8
  (cutEvery n (b.length / n) b).map leNat

/-- |x|, and x² in units of 2^−298, of a finite element; none for an infinity or a NaN. -/
def elemFigures (fmt x : Nat) : Option (Nat × Nat) :=
  match decodeFmt fmt x with
  | .fin _ m e => some (toF32 (.fin false m e), m * m * 2 ^ (2 * e + 298).toNat)
  | _ => none

/-- The histogram word that an element adds to (R349), and whether it adds to SUBNORMAL. -/
def histWord (fmt x : Nat) : Nat × Bool :=
  match decodeFmt fmt x with
  | .fin _ m e => (if m = 0 then 256 else bitsOf (toF32 (.fin false m e)) 23 8, isSubnormal fmt x)
  | .inf _ => (258, false)
  | .nan _ _ _ => (259, false)

/-- Add one to a word of a list, saturating. -/
def bumpWord (l : List Nat) (i : Nat) : List Nat := l.set i (min 0xFFFFFFFF (l.getD i 0 + 1))

/-- Count elements into a histogram of 260 words. -/
def histAdd (fmt : Nat) (h : List Nat) (xs : List Nat) : List Nat :=
  xs.foldl (fun a x =>
    let w := histWord fmt x
    let a := bumpWord a w.1
    if w.2 then bumpWord a 257 else a) h

/-- The T1 address of the histogram of tensor `t` in a bank (R411). -/
def Dev.histAddr (d : Dev) (bank t : Nat) : Nat := d.rd64 .FB_T1_BASE_LO + d.fb.histBytes + 1040 * (4096 * bank + t)

def Dev.histRead (d : Dev) (a : Nat) : List Nat := (cutEvery 4 260 (d.rbs spT1 a 1040)).map leNat
def Dev.histWrite (d : Dev) (a : Nat) (h : List Nat) : Dev := d.wbs spT1 a (h.flatMap (leBytes 4))

def Dev.acc? (d : Dev) (t : Nat) : Option Acc := d.fb.accs.find? fun a => a.tensor == t

/-- Put a tensor's accumulators, in tensor order. -/
def Dev.putAcc (d : Dev) (a : Acc) : Dev :=
  d.updFb fun f => { f with
    accs := (f.accs.filter fun x => decide (x.tensor < a.tensor)) ++ [a] ++ f.accs.filter fun x => decide (a.tensor < x.tensor) }

/-- Open a step. -/
def Dev.fbOpen (d : Dev) (step : Nat) : Dev :=
  let d := d.updFb fun f => { f with step := some step, accs := [], voteBit := false }
  (d.wr .FB_OPEN_STEP step).set .FB_STATUS_OPEN 1

/-- Close the open step. -/
def Dev.fbClose (d : Dev) : Dev :=
  (d.updFb fun f => { f with step := none, accs := [], voteBit := false }).set .FB_STATUS_OPEN 0

/-- A tensor's figures grow by a block; its first block in the step clears its accumulators and its histogram. -/
def Dev.accumulate (d : Dev) (t fmt step : Nat) (xs : List Nat) : Dev :=
  let fresh := (d.acc? t).isNone
  let a := (d.acc? t).getD { tensor := t, amax := 0, ss := 0, bad := 0, published := false }
  let a := xs.foldl (fun a x => match elemFigures fmt x with
    | some (m, q) => { a with amax := max a.amax m, ss := a.ss + q }
    | none => { a with bad := min 0xFFFFFFFF (a.bad + 1) }) a
  let d := d.putAcc a
  if d.rd64 .FB_T1_BYTES_LO = 0 then d
  else
    let addr := d.histAddr (step % 2) t
    d.histWrite addr (histAdd fmt (if fresh then List.replicate 260 0 else d.histRead addr) xs)

/-- Freeboard takes one observed block. -/
def Dev.observeBlock (d : Dev) (b : ObsBlk) : Dev :=
  let d := if d.fb.step.isNone then d.fbOpen b.step else d
  let xs := elemsOf b.fmt b.data
  let bad := xs.any fun x => (elemFigures b.fmt x).isNone
  let d := d.updFb fun f => { f with voteBit := f.voteBit || bad }
  if d.fb.step ≠ some b.step then (d.bump .STEP_MISMATCH_COUNT).raise fbBlk 0 6
  else if ((d.acc? b.tensor).map Acc.published).getD false then d.bump .LATE_OBSERVE_COUNT
  else d.accumulate b.tensor b.fmt b.step xs

/-- OBSERVE_BLOCK (R390 to R392, R349): the oldest block on the observe path. -/
def execObserveBlock (s : State) : Out := s.run fun d =>
  match d.obsQ with
  | b :: t => if d.fbFree then ({ d with obsQ := t }).observeBlock b else d
  | [] => d

/-! ### Publishing (R393) -/

/-- A published tensor is pending; one with no block in the step has zero figures and an empty histogram. -/
def Dev.publishOne (d : Dev) (step t : Nat) : Dev :=
  match d.acc? t with
  | some a => d.putAcc { a with published := true }
  | none =>
    let d := d.putAcc { tensor := t, amax := 0, ss := 0, bad := 0, published := true }
    if d.rd64 .FB_T1_BYTES_LO = 0 then d else d.histWrite (d.histAddr (step % 2) t) (List.replicate 260 0)

/-- PUBLISH (R392, R393): it waits for the blocks of its tensors that are on the observe path before it. -/
def execPublish (tag : Nat) (s : State) : Out := s.run fun d =>
  match d.sentTask tag 0x70 2 with
  | none => d
  | some t =>
    let step := bitsOf t.w1 0 32
    let first := bitsOf t.w1 32 12
    let count := if bitsOf t.w1 44 12 = 0 then 4096 else bitsOf t.w1 44 12
    if !d.enabled fbBlk || !d.fbFree then d
    else if 4096 < first + count ∨ bitsOf t.w1 56 8 ≠ 0 ∨ t.w2 ≠ 0 ∨ t.w3 ≠ 0 then d.refuse tag cDescParam
    else if d.obsQ.any (fun b => b.step == step && (d.fb.step.isNone || (decide (first ≤ b.tensor) && decide (b.tensor < first + count)))) then d
    else if d.fb.step ≠ some step then d.refuse tag 0x0803
    else
      let d := d.acceptTask tag
      let d := (List.range count).foldl (fun e i => e.publishOne step (first + i)) d
      (d.set .HIST_BANK_BANK (step % 2)).served tag count

/-! ### Norms and clip factors (R395) -/

/-- The applied loss-scale exponent. -/
def Dev.lsApplied (d : Dev) : Int := signed 8 (d.get .LS_APPLIED_EXP)

/-- s[t]: the sum of squares rounded once; a NaN where an element was non-finite. -/
def Acc.s (a : Acc) : Nat := if 0 < a.bad then qnan else toF32 (.fin false a.ss (-298))

/-- rne(rne_sqrt(s)·2^−ls). -/
def normOf (s : Nat) (ls : Int) : Nat := fscale (fsqrt s) (-ls)

/-- gnorm and clip of a group of sums, given CLIP_MAX. -/
def groupClip (sums : List Nat) (ls : Int) (cmax : Nat) : Nat × Nat :=
  let g := normOf (sums.foldl fadd 0) ls
  (g, if isNan32 g then 0x7FC00000 else if cmax = 0 ∨ fle g cmax then 0x3F800000 else fdiv cmax g)

/-- NORM and CLIP of every pending tensor, GROUP_NORM and GROUP_CLIP of every group with one. -/
def Dev.computeNorms (d : Dev) : Dev :=
  let pend := d.fb.accs.filter Acc.published
  let ls := d.lsApplied
  let d := (List.range 63).foldl (fun e i =>
    let g := i + 1
    let mem := pend.filter fun a => (e.tensor a.tensor).group == g
    if mem.isEmpty then e
    else
      let r := groupClip (mem.map Acc.s) ls (e.rd (.CLIP_MAX g))
      (e.wr (.GROUP_NORM g) r.1).wr (.GROUP_CLIP g) r.2) d
  pend.foldl (fun e a =>
    let g := (e.tensor a.tensor).group
    let clip := if g = 0 then 0x3F800000 else e.rd (.GROUP_CLIP g)
    e.updFb fun f => { f with norms := Sparse.put (fun _ => (0, 0)) f.norms a.tensor (normOf a.s ls, clip) }) d

/-! ### The loss scale (R402) and publication (R399, R404 to R407) -/

/-- The RANGE_MODE of the variant: 0 GLOBAL, 1 PER_TENSOR, 2 BOTH. -/
def Dev.lossLoop (d : Dev) : Bool := d.get .FB_STATUS_RANGE_MODE != 1
def Dev.tensorLoop (d : Dev) : Bool := d.get .FB_STATUS_RANGE_MODE != 0

/-- One update of the loss-scale loop (section "Loss scale"): `v` 1 PROCEED, 2 SKIP, 3 INCOMPLETE. -/
def Dev.lossUpdate (d : Dev) (v : Nat) : Dev :=
  let applied := d.lsApplied
  let clean := d.get .LS_CLEAN_CLEAN
  let clean := if v = 2 then 0 else if v = 3 then clean else min (clean + 1) 65535
  let shadow : Int := if v = 2 then applied - 1 else if v = 3 then applied
    else if d.get .LS_CLEAN_INTERVAL ≤ clean then applied + 1 else applied
  let lo := signed 8 (d.get .LS_BOUNDS_LOW)
  let hi := signed 8 (d.get .LS_BOUNDS_HIGH)
  let pin := d.get .LS_PIN_PIN_EN == 1
  let tied := d.isTied 0x70 0
  let new := if tied then applied else if pin then signed 8 (d.get .LS_PIN_EXP) else max lo (min hi shadow)
  let d := (d.untie 0x70 0).set .LS_CLEAN_CLEAN (if applied < new then 0 else clean)
  let d := (d.set .LS_APPLIED_EXP (unsigned 8 new)).set .LS_SHADOW_EXP (unsigned 16 shadow)
  if !tied && clamped lo hi shadow applied pin then (d.bump .LS_CLAMP_COUNT).raise fbBlk 0 5 else d

/-- The eight words of a verdict record (Table 18-3). -/
def Dev.verdictWords (d : Dev) (x : Verdict) : List Nat :=
  let sh := max (-128) (min 127 (signed 16 (d.get .LS_SHADOW_EXP)))
  [x.step, x.verdict * 2 ^ 28 + x.cause, x.bads % 8192 * 2 ^ 16 + x.voters % 8192,
   d.get .LS_CLEAN_CLEAN * 2 ^ 16 + unsigned 8 sh * 2 ^ 8 + d.get .LS_APPLIED_EXP, d.get .VOTE_FLEET_FLEET_SIZE,
   bit01 x.missed * 4 + bit01 x.force * 2 + x.own, d.gh.timer % 2 ^ 32, d.gh.timer / 2 ^ 32 % 2 ^ 32]

/-- Publish a verdict on this device, in the order of R399. -/
def Dev.publishNow (d : Dev) (x : Verdict) : Dev :=
  let d := if d.lossLoop then d.lossUpdate x.verdict else d
  let w := d.verdictWords x
  let d := d.updFb fun f => { f with recs := Sparse.put (fun _ => []) f.recs (x.step % 64) w }
  let d := (d.set .LAST_VERDICT_VERDICT x.verdict).set .LAST_VERDICT_CAUSE x.cause
  let d := d.wr .LAST_VERDICT_STEP x.step
  let d := d.bump (if x.verdict = 1 then .PROCEED_COUNT else if x.verdict = 2 then .SKIP_COUNT else .INCOMPLETE_COUNT)
  let d := d.trace { src := 7, type := 0x0E, key := some x.step,
                     body := leBytes 4 x.step ++ leBytes 1 x.verdict ++ leBytes 2 x.cause }
  let pend := (d.fb.accs.filter fun a => a.published && d.fb.step == some x.step).map fun a => (a.tensor, a.amax)
  let go := if x.verdict = 1 ∧ d.tensorLoop then pend.filter fun p => (d.tensor p.1).scaleEn else []
  let d := d.updFb fun f => { f with
    commits := go
    commitStep := x.step
    vote := match f.vote with
      | some v => if v.step = x.step then none else some v
      | none => none
    decided := some x.step
    missedStep := if x.missed then some x.step else f.missedStep }
  let d := d.set .FB_STATUS_COMMIT_BUSY (bit01 (!go.isEmpty))
  let d := if d.fb.vote.isNone then (d.set .FB_STATUS_VOTE_OPEN 0).set .CHILD_WAIT_SETS 0 else d
  let d := (d.evSet 37).raise fbBlk 0 0
  let d := if x.verdict = 2 then d.raise fbBlk 0 1 else if x.verdict = 3 then (d.raise fbBlk 0 2).alert 4 else d
  match x.tag with
  | some t =>
    let d := if d.fb.step = some x.step then d.fbClose else d
    d.taskEnd t 0 (if x.missed then 0x0805 else x.cause) 0
  | none => d

/-- A verdict waits while commits run (R406). -/
def Dev.publish (d : Dev) (x : Verdict) : Dev :=
  if d.fb.commits.isEmpty then d.publishNow x
  else d.updFb fun f => { f with waiting := f.waiting ++ [x], decided := some x.step }

/-- FMT_MAX of a target format. -/
def fmtMax (f : Nat) : Nat := if f = 2 then 448 else if f = 3 then 57344 else if f = 5 then 127 else 7

/-- The smallest e with a ≤ max·2^e, for a positive FP32 word `a`. -/
def scaleExp (a max_ : Nat) : Int :=
  match f32 a with
  | .fin _ m x =>
    let i := ((List.range 400).find? fun i => decide (m * 2 ^ (x + 400).toNat ≤ max_ * 2 ^ (200 + i))).getD 0
    (i : Int) - 200
  | _ => 127

/-- One commit (section "Per-tensor scale", R405). -/
def Dev.commitOne (d : Dev) (t amax step : Nat) : Dev :=
  let d := d.touchScales fun g => g == t
  let x := d.tensor t
  let base := d.rd64 .FB_T1_BASE_LO + x.base
  let d := d.st spT1 (base + 4 * x.ptr) 4 amax
  let fill := min x.histLen (x.fill + 1)
  let hist := (cutEvery 4 fill (d.rbs spT1 base (4 * fill))).map leNat
  let hi := hist.foldl max 0
  let applied : Int := x.scale - 127
  let shadow := if hi = 0 then applied else max (-127) (min 127 (scaleExp hi (fmtMax x.fmt) + x.margin))
  let lo := signed 8 (d.get .PTS_BOUNDS_LOW)
  let top := signed 8 (d.get .PTS_BOUNDS_HIGH)
  let tied := d.isTied 0x71 t
  let out := if tied then applied else if x.pinEn then (x.pin : Int) - 127 else max lo (min top shadow)
  let d := (d.untie 0x71 t).putTensor { x with
    ptr := (x.ptr + 1) % x.histLen, fill := fill, amaxLast := amax, amaxHist := hi, scale := (127 + out).toNat,
    shadow := (127 + shadow).toNat, step := step }
  if !tied && clamped lo top shadow applied x.pinEn then (d.bump .PTS_CLAMP_COUNT).raise fbBlk 0 5 else d

/-- SCALE_COMMIT (R404 to R406): the next pending tensor's commit completes; with the last, SCALES_COMMITTED, and a
verdict that waited is published. -/
def execScaleCommit (s : State) : Out := s.run fun d =>
  match d.fb.commits with
  | [] => d
  | (t, amax) :: rest =>
    if !d.fbFree then d
    else
      let d := d.commitOne t amax d.fb.commitStep
      let d := d.updFb fun f => { f with commits := rest }
      if rest.isEmpty then
        let d := (d.set .FB_STATUS_COMMIT_BUSY 0).raise fbBlk 0 7
        match d.fb.waiting with
        | [] => d
        | x :: w => (d.updFb fun f => { f with waiting := w }).publish x
      else d

/-! ### The vote (R394 to R401) -/

/-- The child sets of VOTE_CFG; the two sets of a dimension of size 2 count as one. -/
def Dev.childSets (d : Dev) : List Nat := (List.range 6).filter fun s => bitsOf (d.get .VOTE_CFG_CHILD_SETS) s 1 == 1

/-- The child set that a link belongs to. -/
def Dev.childOf (d : Dev) (l : Nat) : Option Nat := d.childSets.find? fun s => decide (d.setOf l < 6) && d.sameSet (d.setOf l) s

/-- Is the link in the parent set (a root has none)? -/
def Dev.fromParent (d : Dev) (l : Nat) : Bool :=
  d.get .VOTE_CFG_ROOT == 0 && decide (d.setOf l < 6) && d.sameSet (d.setOf l) (d.get .VOTE_CFG_PARENT_SET)

/-- Voters, non-finite voters and the OR counted so far. -/
def Vote.totals (v : Vote) : Nat × Nat × Nat :=
  let own := v.own.getD 0
  v.kids.foldl (fun a k => (a.1 + k.2.1, a.2.1 + k.2.2.1, a.2.2 ||| k.2.2.2))
    (bit01 v.own.isSome, own, own)

/-- The payload of VOTE and of VOTE_RESULT (Table 23-1). -/
def voteBody (step voters bads orBit : Nat) : List Byte :=
  leBytes 4 step ++ leBytes 2 voters ++ leBytes 2 bads ++ leBytes 1 orBit ++ leBytes 3 0
def resultBody (step verdict cause voters bads fleet : Nat) : List Byte :=
  leBytes 4 step ++ leBytes 1 verdict ++ leBytes 1 0 ++ leBytes 2 cause ++ leBytes 2 voters ++ leBytes 2 bads
    ++ leBytes 2 fleet ++ leBytes 2 0

/-- A verdict of an open vote, for this device's record. -/
def Vote.verdict (v : Vote) (verdict cause voters bads : Nat) (missed : Bool) : Verdict :=
  { step := v.step, verdict := verdict, cause := cause, voters := voters, bads := bads, missed := missed, own := v.own.getD 0,
    force := v.force, tag := v.tag }

/-- The words 0, 1 and 5 of the verdict record kept for a step. -/
def Dev.verdictRec (d : Dev) (step : Nat) : Option (Nat × Nat) :=
  match Sparse.get (fun _ => []) d.fb.recs (step % 64) with
  | w0 :: w1 :: _ :: _ :: _ :: w5 :: _ => if w0 = step then some (w1, w5) else none
  | _ => none

/-- Has this device a verdict of the step, published or waiting for a commit to end (R398, R406)? -/
def Dev.decidedStep (d : Dev) (step : Nat) : Bool :=
  d.fb.decided == some step || (d.fb.waiting.any fun x => x.step == step) || (d.verdictRec step).isSome

/-- Did this device publish INCOMPLETE for the step itself (R401)? -/
def Dev.localStep (d : Dev) (step : Nat) : Bool :=
  d.fb.local_ == some step || ((d.verdictRec step).any fun w => bitsOf w.1 0 16 == 0x0802)

/-- The root decides (Table 18-1): VOTE_RESULT to every child set, then its own publication. -/
def Dev.rootDecide (d : Dev) (v : Vote) (closed : Bool) : Dev :=
  let t := v.totals
  let fleet := d.get .VOTE_FLEET_FLEET_SIZE
  let vc := if t.1 = fleet then (if t.2.2 = 1 then (2, 0x0806) else (1, 0))
    else (3, if fleet < t.1 then 0x0807 else 0x0801)
  if d.decidedStep v.step then d
  else if t.1 = fleet ∨ closed then
    let d := d.childSets.foldl (fun e s => e.treeSend s 5 0 (resultBody v.step vc.1 vc.2 t.1 t.2.1 fleet)) d
    let missed := v.own.isNone
    let d := if missed then ((d.bump .MISSED_COUNT).ledgerEvent 1 v.step).raise fbBlk 0 3 else d
    d.publish (v.verdict vc.1 vc.2 t.1 t.2.1 missed)
  else d

/-- A vote moves on: the children still awaited; a root that has all decides; another device with its own vote and every
child's sends VOTE up (R397, R398). -/
def Dev.voteProgress (d : Dev) : Dev :=
  match d.fb.vote with
  | none => d
  | some v =>
    let kids := d.childSets
    let left := kids.filter fun s => !(v.kids.any fun k => k.1 == s)
    let d := d.set .CHILD_WAIT_SETS (left.foldl (fun a s => a + 2 ^ s) 0)
    let d := d.set .FB_STATUS_VOTE_OPEN (bit01 d.voteOpen)
    if !d.fbFree || d.decidedStep v.step then d
    else if d.isRoot then d.rootDecide v false
    else if v.own.isSome ∧ left.isEmpty ∧ v.sentAt.isNone then
      let t := v.totals
      let d := if d.get .VOTE_CFG_ENABLE = 1 then
          d.treeSend (d.get .VOTE_CFG_PARENT_SET) 4 0 (voteBody v.step t.1 t.2.1 t.2.2)
        else d
      let now := d.gh.timer
      (d.updFb fun f => { f with vote := some { v with sentAt := some now } }).set .FB_STATUS_VOTE_OPEN 1
    else d

/-- A vote that nobody has heard of yet. -/
def Vote.new (step now : Nat) : Vote :=
  { step := step, tag := none, own := none, force := false, kids := [], first := now, sentAt := none }

/-- Has a step been voted on this device? -/
def Dev.votedStep (d : Dev) (step : Nat) : Bool :=
  d.fb.voted == some step || (d.verdictRec step).any fun w => bitsOf w.2 2 1 == 0

/-- VOTE (R394, R395, R397, R400). -/
def execVote (tag : Nat) (s : State) : Out := s.run fun d =>
  match d.sentTask tag 0x70 1 with
  | none => d
  | some t =>
    let step := bitsOf t.w1 0 32
    let force := bitsOf t.w1 32 1 == 1
    if !d.enabled fbBlk || !d.fbFree then d
    else if bitsOf t.w1 33 31 ≠ 0 ∨ t.w2 ≠ 0 ∨ t.w3 ≠ 0 then d.refuse tag cDescParam
    else if d.fb.missedStep = some step then
      let d := (d.acceptTask tag).computeNorms
      (if d.fb.step = some step then d.fbClose else d).taskEnd tag 0 0x0805 0
    else
    let d := d.touchVerdict step
    if d.votedStep step then d.refuse tag 0x0804
    else if d.fb.waiting.any (fun x => x.step == step) then d
    else if d.fb.step.isSome ∧ d.fb.step ≠ some step then d.refuse tag 0x0803
    else if (match d.fb.vote with
        | some v => v.step != step
        | none => false) then d
    else
      let d := (if d.fb.step.isNone then d.fbOpen step else d).acceptTask tag
      let d := d.computeNorms
      let v := d.fb.vote.getD (Vote.new step d.gh.timer)
      let own := bit01 (d.fb.voteBit || force)
      (d.updFb fun f => { f with vote := some { v with tag := some tag, own := some own, force := force }, voted := some step }).voteProgress

/-- Does an open vote for another step keep this message waiting? -/
def Dev.voteBusy (d : Dev) (l : Nat) : Bool :=
  match d.rxHead l 0, d.fb.vote with
  | some m, some v => m.type == 4 && m.fld 0 4 != v.step && !d.decidedStep (m.fld 0 4)
  | _, _ => false

/-- VOTE_MSG (R397, R398). -/
def execVoteMsg (l : Nat) (s : State) : Out := s.run fun d =>
  if d.voteBusy l then d
  else d.lrTake l 4 none fbBlk (fun m => m.body.length == 12 && m.fld 8 1 < 2 && m.fld 9 3 == 0 && m.msgA == 0 && m.msgB == 0)
    fun d m =>
      match (if d.get .VOTE_CFG_ENABLE = 1 then d.childOf l else none) with
      | none => d.violation l 0x0C0B m
      | some s =>
        let step := m.fld 0 4
        let d := d.touchVerdict step
        if d.decidedStep step then d.bump .LATE_VOTES
        else
          let v := d.fb.vote.getD (Vote.new step d.gh.timer)
          let v := { v with kids := Sparse.ins (Sparse.del v.kids s) s (m.fld 4 2, m.fld 6 2, m.fld 8 1) }
          (d.updFb fun f => { f with vote := some v }).voteProgress

/-- VOTE_RESULT (R397, R399 to R401). -/
def execVoteResult (l : Nat) (s : State) : Out := s.run fun d =>
  d.lrTake l 5 none fbBlk (fun m => m.body.length == 16 && m.fld 5 1 == 0 && m.fld 14 2 == 0 && m.fld 4 1 < 4 &&
      m.fld 4 1 != 0 && m.msgA == 0 && m.msgB == 0)
    fun d m =>
      if d.get .VOTE_CFG_ENABLE = 0 ∨ !d.fromParent l then d.violation l 0x0C0B m
      else
        let step := m.fld 0 4
        let d := (d.childSets.foldl (fun e s => e.treeSend s 5 0 m.body) d).touchVerdict step
        if d.localStep step then d.bump .RESULT_TIMEOUT_COUNT
        else if d.decidedStep step then d
        else
          let v := match d.fb.vote with
            | some v => if v.step = step then v else Vote.new step d.gh.timer
            | none => Vote.new step d.gh.timer
          let missed := v.sentAt.isNone
          let d := if missed then ((d.bump .MISSED_COUNT).ledgerEvent 1 step).raise fbBlk 0 3 else d
          d.publish (v.verdict (m.fld 4 1) (m.fld 6 2) (m.fld 8 2) (m.fld 10 2) missed)

/-- VOTE_WINDOW_CLOSE (R398): the root's window has run its time since the first vote. -/
def execVoteWindowClose (s : State) : Out := s.run fun d =>
  match d.fb.vote with
  | none => d
  | some v =>
    if d.isRoot ∧ d.fbFree ∧ v.first + usToTicks (d.get .VOTE_WINDOW_WINDOW_US) ≤ d.gh.timer then d.rootDecide v true else d

/-- RESULT_TIMEOUT (R401). The record's voters are those this device counted (notes/assumptions/13.md). -/
def execResultTimeout (s : State) : Out := s.run fun d =>
  match d.fb.vote with
  | none => d
  | some v => match v.sentAt with
    | none => d
    | some t =>
      if d.isRoot ∨ !d.fbFree ∨ d.decidedStep v.step ∨ d.gh.timer < t + usToTicks (d.get .VOTE_WINDOW_RESULT_TIMEOUT_US) then d
      else
        let n := v.totals
        let d := (d.bump .RESULT_TIMEOUT_COUNT).raise fbBlk 0 4
        let d := d.updFb fun f => { f with local_ := some v.step }
        d.publish (v.verdict 3 0x0802 n.1 n.2.1 false)

end Sys2Proof.Machine
end

