-- ==== Sys2Proof/Machine/Router.lean ====
section
/-! DEFINITION. The Lateral Router's commands (chapter 23): hosting windows, reads and flushes, barriers, configuration. -/
namespace Sys2Proof.Machine

/-! ### Hosting windows (R516, R517) -/

/-- The enabled hosting window of a source node. -/
def Dev.window (d : Dev) (src : Nat) : Option Nat :=
  (List.range 8).find? fun n => d.get (.LR_HOST_CTRL_EN n) == 1 && d.get (.LR_HOST_CTRL_SOURCE n) == src

/-- The place that a window occupies. -/
def Dev.windowPlace (d : Dev) (n : Nat) : Place :=
  { tier := 1 + d.get (.LR_HOST_CTRL_TIER n), node := 0, addr := d.rd64 (.LR_HOST_BASE_LO n),
    size := d.rd (.LR_HOST_BLOCKS n) * 65536 }

/-- LR_HOST_CTRL_WRITE (R517). A window is charged to no partner (DESIGN CHOICE, notes/assumptions/16.md). -/
def Dev.hostCtrlWrite (d : Dev) (p : Path) (n v : Nat) : Dev :=
  let off := 0x100 + 16 * n
  let v := v &&& 0xC0000FFF
  let was := d.rd (.LR_HOST_CTRL n)
  if bitsOf was 31 1 = 1 then
    if bitsOf v 0 31 ≠ bitsOf was 0 31 then d.errWr p rtr 1 off 0x0C24 v
    else if bitsOf v 31 1 = 1 then d
    else (d.release (d.windowPlace n) 0).wr (.LR_HOST_CTRL n) v
  else if bitsOf v 31 1 = 0 then d.wr (.LR_HOST_CTRL n) v
  else match d.findPlace (1 + bitsOf v 30 1) 0 (d.rd (.LR_HOST_BLOCKS n) * 65536) with
    | none => d.errWr p rtr 1 off 0x0C23 v
    | some q => (((d.takeFree q 0).wr (.LR_HOST_CTRL n) v)).wr64 (.LR_HOST_BASE_LO n) q.addr

def execLrHostCtrlWrite (p : Path) (n : Nat) (v : Word) (s : State) : Out := s.run fun d =>
  if 7 < n then d else d.viaReg p (.LR_HOST_CTRL n) 0 v.toNat fun e => e.hostCtrlWrite p n v.toNat

/-! ### Writes, reads, flushes (R515, R516, R518 to R520, R522) -/

/-- WRITE: lands in its source's window. One whose tier path has failed lands nowhere. -/
def execWrite (l : Nat) (s : State) : Out := s.run fun d =>
  d.lrTake l 1 none 0 (fun m => m.body.length != 0 && m.body.length % 16 == 0 && bitsOf m.msgB 10 6 == 0) fun d m =>
    match d.window m.src with
    | none => d.violation l 0x0C08 m
    | some n =>
      let p := d.windowPlace n
      if p.size < m.off + m.body.length then d.violation l 0x0C09 m
      else if d.pathFailed p.tier p.unit then d
      else d.placeWr p m.off m.body

/-- Fields of a READ_REQ (Table 23-1). -/
def Flit.rtag (m : Flit) : Nat := m.fld 0 2
def Flit.rlen (m : Flit) : Nat := m.fld 2 2
def Flit.space (m : Flit) : Nat := bitsOf m.msgB 15 1
def Flit.reqOk (m : Flit) : Bool :=
  m.body.length == 8 && decide (m.rtag < 4096) && decide (m.rlen ≤ 256) && decide (m.fld 4 1 < 5) && decide (m.fld 5 1 < 2)
    && m.fld 6 2 == 0

/-- Answer a read: pieces of 240 bytes in ascending order on one link (R518). -/
def Dev.respond (d : Dev) (dst tag status : Nat) (data : List Byte) : Dev :=
  let ps := if data.isEmpty then [(0, [])] else cut240 (data.length + 1) 0 data
  (d.lrSend dst (ps.map fun p => message 3 dst d.lr.node (tag % 4096 * 2 ^ 12 + status * 2 ^ 8 + p.1 / 240) 0 p.2)).1

/-- STATUS and data of a read of a hosting window, with the violation it is, if any. -/
def Dev.windowRead (d : Dev) (m : Flit) : Nat × List Byte × Nat :=
  match d.window m.src with
  | none => (2, [], 0x0C08)
  | some n =>
    let p := d.windowPlace n
    if p.size < m.off + 16 * m.rlen then (3, [], 0x0C09)
    else if d.pathFailed p.tier p.unit then (5, [], 0)
    else (0, d.placeRd p m.off (16 * m.rlen), 0)

/-- READ_REQ with a LENGTH (R440, R515, R516, R522): answered from the window or the checkpoint space. -/
def execReadReq (l : Nat) (s : State) : Out := s.run fun d =>
  match d.rxHead l 1 with
  | none => d
  | some h =>
    if h.dst == d.lr.node && (!d.canReply h.src 2 || (h.reqOk && h.rlen == 0)) then d
    else d.lrTake l 2 none 0 (fun _ => true) fun d m =>
      if !m.reqOk then (d.violation l 0x0C0C m).respond m.src m.rtag 3 []
      else if m.space = 1 then
        let d := d.touchHost m.src (bitsOf m.msgB 11 4)
        let r := d.hostRead m.src (bitsOf m.msgB 11 4) (bitsOf m.msgB 10 1) m.off (16 * m.rlen) (m.fld 5 1 == 1)
        let d := if r.1 = 3 then d.violation l 0x0C09 m else d
        d.respond m.src m.rtag r.1 r.2
      else
        let r := d.windowRead m
        let d := if r.2.2 = 0 then d else d.violation l r.2.2 m
        d.respond m.src m.rtag r.1 r.2.1

/-- FLUSH_ANSWER (R519, R520): the flush is the oldest flit of its link that is not consumed. -/
def execFlushAnswer (l : Nat) (s : State) : Out := s.run fun d =>
  match (d.link l).rxq with
  | [] => d
  | h :: _ =>
    if h.type ≠ 2 ∨ h.dst ≠ d.lr.node ∨ !h.reqOk ∨ h.rlen ≠ 0 ∨ !d.canReply h.src 2 then d
    else d.lrTake l 2 none 0 (fun _ => true) fun d m => d.respond m.src m.rtag 1 []

/-! ### Answers (R520, R523) -/

/-- The pieces of a request of `len` 16-byte units. -/
def pieceCount (len : Nat) : Nat := (16 * len + 239) / 240

/-- A request is answered in full: its owner goes on. -/
def Dev.tagDone (d : Dev) (t : RTag) (status : Nat) : Dev :=
  match t.owner with
  | .stream _ _ _ _ => d
  | .drain h =>
    let d := d.dropTag t
    if status ≠ 1 then d.drainFail h else if (d.tagOf (.drain h)).isSome then d else d.drainLanded h
  | .ckFlush r _ _ => (d.dropTag t).ckProgress r
  | .restore r k off =>
    let d := d.dropTag t
    if status = 0 then d.restoreRead r k off t.data else d.restoreFail cTierFail

/-- READ_RSP: one piece; late answers and duplicates are discarded and counted. -/
def execReadRsp (l : Nat) (s : State) : Out := s.run fun d =>
  d.lrTake l 3 none 0 (fun m => m.msgB == 0 && bitsOf m.msgA 5 3 == 0 && bitsOf m.msgA 8 4 < 6 && bitsOf m.msgA 0 5 < 18) fun d m =>
    let st := bitsOf m.msgA 8 4
    let i := bitsOf m.msgA 0 5
    match d.lr.tags.find? fun t => t.tag == bitsOf m.msgA 12 12 && t.dst == m.src with
    | none => d.bump .LATE_RSP_COUNT
    | some t =>
      if t.dead then d.bump .LATE_RSP_COUNT
      else if t.status.isSome ∨ t.got.any (fun p => p.1 == i) then d.bump .DUP_DISCARD_COUNT
      else
        let got := Sparse.ins t.got i m.body
        let whole := st != 0 || got.length == pieceCount t.len
        let t' := { t with got := got, status := if whole then some st else none }
        let d := { d with lr := { d.lr with tags := d.lr.tags.map fun x => if x == t then t' else x } }
        if whole then d.tagDone t' st else d

/-! ### Barriers (R536, R524) -/

def Dev.barrier? (d : Dev) (g step : Nat) : Option Barrier := d.lr.bars.find? fun b => b.group == g && b.step == step

def Dev.dropBarrier (d : Dev) (g step : Nat) : Dev :=
  { d with lr := { d.lr with bars := d.lr.bars.filter fun b => !(b.group == g && b.step == step) } }

def Dev.putBarrier (d : Dev) (b : Barrier) : Dev :=
  let x := d.dropBarrier b.group b.step
  { x with lr := { x.lr with bars := x.lr.bars ++ [b] } }

/-- The payload of a BARRIER message. -/
def barrierBody (step n : Nat) : List Byte := leBytes 4 step ++ leBytes 2 n ++ leBytes 2 0

/-- RELEASE to the child sets, and the end of this device's own task. -/
def Dev.barrierRelease (d : Dev) (g step status : Nat) (tag : Option Nat) : Dev :=
  let d := d.childSets.foldl (fun e s => e.treeSend s 6 (g * 256 + 2) (barrierBody step status)) (d.dropBarrier g step)
  let d := if status = 0 then d else d.raise rtr 0 6
  match tag with
  | some t => if status = 0 then d.served t 0 else d.refuse t 0x0C21
  | none => d

/-- A barrier moves on: the root releases at FLEET_SIZE; another device that has arrived with every child set sends ARRIVE. -/
def Dev.barrierStep (d : Dev) (b : Barrier) : Dev :=
  let n := b.kids.foldl (fun a k => a + k.2) (bit01 b.tag.isSome)
  let all := b.tag.isSome && d.childSets.all fun s => b.kids.any fun k => k.1 == s
  let now := d.gh.timer
  let d := d.putBarrier b
  if d.isRoot then
    if d.get .VOTE_FLEET_FLEET_SIZE ≤ n then d.barrierRelease b.group b.step 0 b.tag else d
  else if all ∧ b.sentAt.isNone then
    let d := if d.get .VOTE_CFG_ENABLE = 1 then
        d.treeSend (d.get .VOTE_CFG_PARENT_SET) 6 (b.group * 256 + 1) (barrierBody b.step n)
      else d
    d.putBarrier { b with sentAt := some now }
  else d

/-- A barrier nobody has heard of. -/
def Barrier.new (g step now : Nat) : Barrier := { group := g, step := step, tag := none, kids := [], first := now, sentAt := none }

/-- BARRIER. A second task of one (GROUP, STEP) is accepted once the first has ended (DESIGN CHOICE, notes/assumptions/130.md). -/
def execBarrier (tag : Nat) (s : State) : Out := s.run fun d =>
  match d.sentTask tag 0xB1 1 with
  | none => d
  | some t =>
    let g := bitsOf t.w1 32 8
    let step := bitsOf t.w1 0 32
    if d.frozen rtr || !d.enabled rtr || d.asleep then d
    else if 15 < g ∨ bitsOf t.w1 40 24 ≠ 0 ∨ t.w2 ≠ 0 ∨ t.w3 ≠ 0 then d.refuse tag cDescParam
    else
      let b := (d.barrier? g step).getD (Barrier.new g step d.gh.timer)
      if b.tag.isSome then d else (d.acceptTask tag).barrierStep { b with tag := some tag }

/-- Is a message a well-formed BARRIER? -/
def barrierOk (m : Flit) : Bool :=
  m.body.length == 8 && m.msgB == 0 && bitsOf m.msgA 4 4 == 0 && bitsOf m.msgA 12 12 == 0 && m.fld 6 2 == 0

/-- BARRIER_ARRIVE: a child set's count; a duplicate replaces it. -/
def execBarrierArrive (l : Nat) (s : State) : Out := s.run fun d =>
  d.lrTake l 6 (some 1) 0 barrierOk fun d m =>
    match (if d.get .VOTE_CFG_ENABLE = 1 then d.childOf l else none) with
    | none => d.violation l 0x0C0B m
    | some c =>
      let g := bitsOf m.msgA 8 4
      let b := (d.barrier? g (m.fld 0 4)).getD (Barrier.new g (m.fld 0 4) d.gh.timer)
      d.barrierStep { b with kids := Sparse.ins (Sparse.del b.kids c) c (m.fld 4 2) }

/-- BARRIER_RELEASE: forwarded to the child sets; the own task ends. -/
def execBarrierRelease (l : Nat) (s : State) : Out := s.run fun d =>
  d.lrTake l 6 (some 2) 0 (fun m => barrierOk m && decide (m.fld 4 2 < 2)) fun d m =>
    if d.get .VOTE_CFG_ENABLE = 0 ∨ !d.fromParent l then d.violation l 0x0C0B m
    else
      let g := bitsOf m.msgA 8 4
      d.barrierRelease g (m.fld 0 4) (m.fld 4 2) ((d.barrier? g (m.fld 0 4)).bind Barrier.tag)

/-- BARRIER_ROOT_TIMEOUT: TIMEOUT_US since the first arrival at the root. -/
def execBarrierRootTimeout (g step : Nat) (s : State) : Out := s.run fun d =>
  match d.barrier? g step with
  | none => d
  | some b =>
    if d.isRoot ∧ !d.frozen rtr ∧ b.first + usToTicks (d.get .LR_BARRIER_TIMEOUT_US) ≤ d.gh.timer then
      d.barrierRelease g step 1 b.tag
    else d

/-- BARRIER_TIMEOUT: no RELEASE 2·TIMEOUT_US after this device's ARRIVE. -/
def execBarrierTimeout (g step : Nat) (s : State) : Out := s.run fun d =>
  match d.barrier? g step with
  | none => d
  | some b => match b.sentAt, b.tag with
    | some t, some tag =>
      if d.isRoot ∨ d.gh.timer < t + 2 * usToTicks (d.get .LR_BARRIER_TIMEOUT_US) then d
      else ((d.dropBarrier g step).raise rtr 0 6).refuse tag 0x0C22
    | _, _ => d

/-! ### Configuration (R525, R526, R535) -/

/-- Dimensions that a KIND uses. -/
def kindDims (k : Nat) : Nat := k

/-- The sizes in LR_DIM_XY and LR_DIM_Z. -/
def Dev.dimRegs (d : Dev) : List Nat := [d.get .LR_DIM_XY_X, d.get .LR_DIM_XY_Y, d.get .LR_DIM_Z_Z]

/-- Does APPLY accept what the registers hold (R525)? The two sets of a dimension of size 2 count as one. -/
def Dev.topoOk (d : Dev) : Bool :=
  let k := d.get .LR_TOPO_KIND
  let dims := d.dimRegs
  let n := dims.foldl (· * ·) 1
  let has (s : Nat) : Bool := (List.range 24).any fun l => d.setReg l == s
  k != 0 && decide (n ≤ 4096) && decide (d.get .LR_TOPO_NODE < n) &&
    (List.range 3).all fun i =>
      let sz := dims.getD i 1
      if i < kindDims k then decide (2 ≤ sz) && decide (sz ≤ 4096) &&
        (if sz = 2 then has (2 * i) || has (2 * i + 1) else has (2 * i) && has (2 * i + 1))
      else sz == 1 && !has (2 * i) && !has (2 * i + 1)

/-- LR_APPLY (R11, R525). -/
def Dev.lrApply (d : Dev) : Dev :=
  if d.topoOk then
    let d := { d with lr := { d.lr with
      kind := d.get .LR_TOPO_KIND
      node := d.get .LR_TOPO_NODE
      dims := d.dimRegs
      sets := (List.range 24).map d.setReg } }
    let n := d.dimRegs.foldl (· * ·) 1
    let d := { d with lr := { d.lr with table := (List.range n).map fun i => (i, d.routeOf i) } }
    let d := ((d.eccClear 0x0B 0 1024).set .LR_CFG_STATUS_RESULT 1).set .LR_CFG_STATUS_CAUSE 0
    (d.raise rtr 0 0).routesChanged
  else ((d.set .LR_CFG_STATUS_RESULT 2).set .LR_CFG_STATUS_CAUSE 0x0C20).raise rtr 0 1

def execLrApply (p : Path) (s : State) : Out := s.run fun d => d.viaReg p .LR_CMD 0 0x01000000 fun e => e.lrApply

/-- LR_QUARANTINE (R535, R532). -/
def execLrQuarantine (l : Nat) (s : State) : Out := s.run fun d => d.quarantine l

/-- LR_ROUTE_DATA_WRITE (R526, R6): one entry; a set with no assigned link is refused. -/
def Dev.routeDataWrite (d : Dev) (p : Path) (v : Nat) : Dev :=
  let e := v % 16
  let known := e == 0xE || e == 0xF || (decide (e < 6) && (List.range 24).any fun l => decide (d.setOf l < 6) && d.sameSet (d.setOf l) e)
  if !known then d.errWr p rtr 0 0x98 1 v
  else
    let d := d.touchRoute (d.get .LR_ROUTE_SEL_NODE)
    ({ d with lr := { d.lr with table := Sparse.put (fun _ => 0xF) d.lr.table (d.get .LR_ROUTE_SEL_NODE) e } }).routesChanged

def execLrRouteDataWrite (p : Path) (v : Word) (s : State) : Out := s.run fun d =>
  d.viaReg p .LR_ROUTE_DATA 0 v.toNat fun e => e.routeDataWrite p v.toNat

end Sys2Proof.Machine
end

