-- ==== Sys2Proof/Machine/Boot.lean ====
section
/-! DEFINITION. Resets and power-up (R630 to R650), the boot stages, verdicts and the Boot Ledger (chapter 06). -/
namespace Sys2Proof.Machine

/-! ### Power-up and resets -/

/-- Registers that a device reset keeps: the ledger's own, TRIP_STATUS, the GPIO and alert settings of R617 (R632), and the Gauge House's program,
scratch and EVP (R116). A reboot keeps the lock bits and what counts from device reset too (R50; notes/assumptions/23.md). -/
def resetKeeps (full : Bool) (k : Nat) : Bool :=
  let c := blkClass (k / 32768)
  let page := k / 4096 % 8
  let off := k % 4096
  if c = 0x10 then (page == 1 && decide (0x800 ≤ off)) || k == Reg.key .GH_EVP 0 || (List.range 32).any fun i => k == Reg.key (.SCRATCH i) 0
  else if c = 0x11 then page == 1 || off == 0x84 || off == 0x90 || off == 0xA0
  else if c = 0xe1 then off == 0xF4 || (!full && off == 0xC4)
  else if c = 0xe0 then page == 0 && (off == 0xBC || off == 0xE0 || off == 0xE4 || off == 0xE8 || off == 0xEC || off == 0xF8 ||
    off == 0xFC || (!full && off == 0xB8))
  else if c = 0x20 then !full && page == 0 && off == 0xB4
  else false

/-- What no reset of this device touches: flash, the ledger retention, the host's memory, other devices' memories, expanders. -/
def resetKeepsMem (ledger : Bool) (k : Nat) : Bool :=
  let sp := k / 2 ^ 64
  sp == spT2 || sp == spT4 || sp == spFlash || sp == spHost || sp == spImem || sp == spDmem || (ledger && sp == spLedger)

/-- The state after a device reset (R632, R646), or at the start of a reboot: every block but the AO timer, the Gauge House retention, the
settings of R617 and the TAP; the contents of HBM are free values from then on (R140). -/
def Dev.restart (d : Dev) (full : Bool) : Dev :=
  { Dev.reset with
    free := d.free, lostEpoch := { d.lostEpoch with resets := d.lostEpoch.resets + 1 }, out := d.out
    regs := d.regs.filter fun e => resetKeeps full e.1
    mem := d.mem.filter fun e => resetKeepsMem true e.1
    gh := { Gh.reset with timer := d.gh.timer, gpio := d.gh.gpio }
    pwr := { Pwr.reset with vid := d.pwr.vid, tj := d.pwr.tj }
    pins := { d.pins with expPerst := 0 }
    mgmt := { Mgmt.reset with ir := d.mgmt.ir, access := d.mgmt.access, alertAt := d.mgmt.alertAt }
    boot := { Boot.reset with region := d.boot.region, copied := d.boot.copied, why := d.boot.why,
                              bad := d.boot.bad, again := d.boot.again }
    ecc := d.ecc.filter fun e => e.1 == 7 }

/-- The straps name the SMBus address (R630). -/
def Dev.strap (d : Dev) (straps : Nat) : Dev :=
  { d with pins := { d.pins with straps := straps % 8 } }.set .SMB_CFG_ADDR (0x58 + straps % 8)

/-- AO_POWER_UP (R93, R617, R630, R644): every block at its reset values, the AO timer at 0, the ledger retention lost; `straps` is what the
strap pins hold. DEV_RESET_N is held low. -/
def execAoPowerUp (straps : Nat) (s : State) : Out := s.runAo fun d =>
  ({ Dev.reset with
    free := d.free, lostEpoch := { d.lostEpoch with resets := d.lostEpoch.resets + 1 }, out := d.out
    mem := d.mem.filter fun e => resetKeepsMem false e.1
    gh := { Gh.reset with gpio := d.gh.gpio }
    pins := { d.pins with expPerst := 0, devReset := true } }).strap straps

/-- AO_DOMAIN_RESET (R649, R650): the AO timer, the retention, the trip latch, the straps and the settings of R617 start afresh. After a
trip the main rails are gone and nothing else goes on; in DOZE, HOLD or on the way the power state is lost with the domain that holds it,
and the device is undefined until its next reset (notes/assumptions/24.md). -/
def execAoDomainReset (straps : Nat) (s : State) : Out := s.runAo fun d =>
  let gone := d.pwr.tripped
  let lost := d.asleep || d.pwr.exiting || decide (d.pwr.entry ≠ 0)
  let d := if gone then d.restart true else d
  let d := { d with
    undef := d.undef || (!gone && lost)
    regs := d.regs.filter fun e => !(blkClass (e.1 / 32768) == 0x10 || resetKeeps true e.1)
    mem := d.mem.filter fun e => e.1 / 2 ^ 64 != spLedger
    gh := { Gh.reset with gpio := d.gh.gpio }
    boot := { d.boot with why := 1, region := 1, copied := 0 } }
  (d.strap straps).alertDrive

/-- DEV_RESET_ASSERT (R135, R632, R646): the running boot's slot is ABORTED, every block outside the AO domain is reset, the VID code
steps towards 20. While the trip latch holds, the pin does not matter (R648). -/
def execDevResetAssert (s : State) : Out := s.runAo fun d =>
  if d.pwr.tripped then { d with pins := { d.pins with devReset := true } }
  else
    let d := d.bootAbort.restart true
    { d with pins := { d.pins with devReset := true }, boot := { d.boot with bad := [], again := 0 } }

/-- VID_STEP (R636): one code towards the code asked for, 0.5 µs (10 ticks) after the last at the soonest; the pins carry its Gray code. Where
the code stands there, a rise that waited for it changes the clock once the voltage has settled (R85). A trip leaves the last code
(Table 28-4). -/
def execVidStep (s : State) : Out := s.runOn fun d =>
  let k := d.pwr.vid
  let t := d.pwr.vidTarget
  if d.pwr.tripped then d
  else if k = t then d.govRise
  else if d.gh.timer < d.pwr.stepped + 10 then d
  else { d with pwr := { d.pwr with vid := if k < t then k + 1 else k - 1, stepped := d.gh.timer } }

/-- The VID pins, VID_0 lowest (R636). -/
def Dev.vidPins (d : Dev) : Nat := Nat.xor d.pwr.vid (d.pwr.vid / 2)

/-- MAIN_RAIL_EXCURSION (R645, R649): `core` says that VDD_CORE went below 0.30 V. The device is undefined until its next reset, unless it
is held in reset or has tripped. -/
def execMainRailExcursion (core : Bool) (s : State) : Out := s.runAo fun d =>
  { d with
    undef := d.undef || !(d.pins.devReset || d.pwr.tripped)
    boot := { d.boot with why := if core && d.boot.why != 1 then 2 else d.boot.why } }

/-- REFERENCE_CLOCK_LOSS (R650): while DEV_RESET_N is high the device is undefined until its next reset. -/
def execReferenceClockLoss (s : State) : Out := s.runAo fun d => { d with undef := d.undef || !d.pins.devReset }

/-! ### Records (Tables 6-7, 6-8) -/

/-- Word 0 of a STAGE or UNIT record; `fails` are the FAILS before the attempt. -/
def recW0 (kind n fails outcome cause : Nat) : Nat :=
  kind * 2 ^ 28 + n * 2 ^ 24 + min 15 (fails + 1) * 2 ^ 20 + outcome * 65536 + cause

/-- Word 1: unit, recipe, verdict after. -/
def recW1 (b r v : Nat) : Nat := unitWord b + r * 64 + vAlt v * 16 + vNext v * 4

/-- The STAGE record of a device-level stage; `v0` is its verdict before, `d` after. -/
def Dev.stageRec (d : Dev) (n v0 outcome cause detail : Nat) : Dev :=
  let v := ((stageIdx n).map d.verdict).getD 0
  d.bootRec (recW0 0 n (vFails v0) outcome cause) (recW1 2 (vRecipe v0) v) detail

/-- The UNIT record. -/
def Dev.unitRec (d : Dev) (n i b v0 outcome cause detail : Nat) : Dev :=
  d.bootRec (recW0 1 n (vFails v0) outcome cause) (recW1 b (vRecipe v0) (d.verdict i)) detail

/-- A copy of the ledger to flash starts (R138). -/
def Dev.ledgerCopy (d : Dev) : Dev :=
  let busy := (d.mgmt.flash.map fun j => j.cmd != 1).getD false && d.get .LEDGER_FLASH_COPY_PENDING == 0
  (if busy then d.bump .FLASH_PREEMPT_COUNT else d).set .LEDGER_FLASH_COPY_PENDING 1

/-! ### How a boot ends -/

/-- A halt before the end of stage 7 keeps no host link (R128): the link leaves its state, and the function behind it is reset. -/
def Dev.hostUnlink (d : Dev) : Dev :=
  if 7 < d.boot.next ∨ d.get .HOST_LINK_STATE = 0 then d
  else if d.hostUp then (d.hostLink 0).hostReset
  else d.hostLink 0

/-- The boot halts (R128, R138, R583): RESULT, cause, DEV_FATAL, the ledger's copy. -/
def Dev.bootHalt (d : Dev) (cause : Nat) : Dev :=
  let d := (d.set .BOOT_STATUS_RESULT 2).set .BOOT_HALT_CAUSE_CAUSE cause
  let d := if d.boot.opened then
      let d := d.slotWr d.curSlot 0x1C cause
      d.slotSet 12 4 2
    else d
  let d := { d.ledgerCopy with boot := { d.ledgerCopy.boot with running := false } }.hostUnlink
  (d.fatal 2 cause).sensorLevel 0x31 2

/-- A reboot is due: the boot in progress is ABORTED (R124, R135, R139). -/
def Dev.rebootWith (d : Dev) (cause : Nat) : Dev :=
  let d := d.bootAbort
  { d with boot := { d.boot with again := cause } }

/-- A device-level failure whose verdict is now `v` (R124). -/
def Dev.failOrReboot (d : Dev) (halt : Bool) (cause : Nat) : Dev :=
  if halt then d.bootHalt cause
  else if d.boot.limit ≤ d.get .BOOT_STATUS_ATTEMPT then d.bootHalt 0x0124
  else d.rebootWith 5

/-- A device-level stage fails (R124). -/
def Dev.deviceFail (d : Dev) (n cause : Nat) : Dev :=
  match stageIdx n with
  | some i =>
    let v0 := d.verdict i
    let d := d.setVerdict i (verdictFail ((d.entry n 0).getD 0 0) v0 cause)
    (d.stageRec n v0 1 cause 0).failOrReboot (vNext (d.verdict i) == 3) cause
  | none => (d.stageRec n 0 1 cause 0).failOrReboot false cause

/-! ### How a stage begins and ends -/

/-- A unit is left out of this boot (R123, R125). -/
def Dev.bootDisable (d : Dev) (b cause n : Nat) : Dev :=
  let e : Ent := { status := 2, cause := cause, origin := 1, stage := n }
  { d with map := { d.map with ents := Sparse.put (fun _ => Ent.present) d.map.ents b e } }

/-- What a stage does to an attempted unit when it begins: a stack or a port trains, EXP_PERST_N goes high (R635, R668), a link goes to
DETECT at its recipe's rate and lanes. -/
def Dev.unitBegin (d : Dev) (n : Nat) (u : Nat × (Nat × Nat)) : Dev :=
  let i := u.1
  if !d.attempted u then d
  else if n = 4 then d.set .HBM_STATUS_STATE 1 i
  else if n = 8 then d.set .PORT_STATUS_LINK 1 i
  else if n = 9 then
    let d := { d with pins := { d.pins with expPerst := putBits d.pins.expPerst i 1 1 } }
    d.expLink i 1
  else if n = 10 then
    let rate := d.bootParam 10 u.2.1 0
    let lanes := d.bootParam 10 u.2.1 1
    let d := if lanes = 1 then d.set .LL_CTRL_LANE_ALLOW 1 i else d
    (d.updLink i fun x => { x with rate := rate }).linkSet i 1
  else d

/-- A stage begins (R117). A HALT verdict halts the device before it (R125). -/
def Dev.stageBegin (d : Dev) (n : Nat) : Dev :=
  let now := d.gh.timer
  let d := { d with boot := { d.boot with next := n, since := now } }
  let d := d.set .BOOT_STATUS_STAGE (min 13 n)
  match ((stageUnits n).filter fun u => d.present u.2.2 && vNext (d.verdict u.2.1) == 3) with
  | u :: _ =>
    let d := d.unitRec n u.2.1 u.2.2 (d.verdict u.2.1) 3 0x0125 0
    d.bootHalt 0x0125
  | [] =>
    let v := ((stageIdx n).map d.verdict).getD 0
    if vNext v = 3 then (d.stageRec n v 3 0x0125 0).bootHalt 0x0125
    else (stageUnits n).foldl (fun e u => e.unitBegin n u) d

/-- A stage has completed: FINAL_STAGE, and the next begins. -/
def Dev.stageDone (d : Dev) (n : Nat) : Dev := (d.slotSet 16 8 n).stageBegin (n + 1)

/-- A device-level stage passes. -/
def Dev.devicePass (d : Dev) (n : Nat) (outcome : Nat := 0) : Dev :=
  let v := ((stageIdx n).map d.verdict).getD 0
  let d := match stageIdx n with
    | some i => if outcome = 0 then d.setVerdict i (v - vFails v) else d
    | none => d
  (d.stageRec n v outcome 0 (if outcome = 0 then 1 else 0)).stageDone n

/-- A unit ends its attempt (R123, R125 to R127, R132); `detail` is the UNIT record's. -/
def Dev.unitEnd (d : Dev) (n : Nat) (u : Nat × (Nat × Nat)) (out : BootOut) (detail : Nat) : Dev :=
  let i := u.2.1
  let b := u.2.2
  let v := d.verdict i
  if !d.present b then d
  else if vNext v = 2 then (d.bootDisable b (vCause v) n).unitRec n i b v 2 (vCause v) 0
  else match out with
    | .noPeer => d
    | .pass =>
      let d := d.setVerdict i (v - vFails v)
      if vRecipe v ≠ 0 ∨ detail ≠ 0 then d.unitRec n i b v 0 0 detail else d
    | .fail cause =>
      let d := d.setVerdict i (verdictFail ((d.entry n 0).getD 0 0) v cause)
      ((d.bootDisable b cause n).unitRec n i b v 1 cause detail).raise 2 0 1

/-- Every unit of a stage has ended: a failed unit whose verdict is HALT halts the device; stage 4 fails as a whole, with the cause `whole`,
when no stack passes (section "Stages"; notes/assumptions/114.md). `v0` is the verdict that the stage's device had before. -/
def Dev.unitsEnd (d : Dev) (n : Nat) (out : Nat → BootOut) (detail : Nat → Nat) (v0 : Nat := 0) (whole : Nat := 0x011B) : Dev :=
  let tried := (stageUnits n).filter d.attempted
  let good := (tried.filter fun u => out u.1 == .pass).foldl (fun a u => a + 2 ^ u.1) 0
  let d := (stageUnits n).foldl (fun e u => e.unitEnd n u (out u.1) (detail u.1)) d
  match tried.find? fun u => vNext (d.verdict u.2.1) == 3 with
  | some u => (d.stageRec n v0 1 (vCause (d.verdict u.2.1)) good).bootHalt (vCause (d.verdict u.2.1))
  | none =>
    if n = 4 ∧ good = 0 then (d.stageRec 4 0 1 whole 0).failOrReboot false whole
    else (d.stageRec n v0 0 0 good).stageDone n

/-- A stage's command: it acts while that stage is in progress and within its budget (R117); `late`: it looks at the budget itself. -/
def Dev.inStage (d : Dev) (n : Nat) (f : Dev → Dev) (late : Bool := false) : Dev :=
  if d.boot.running && d.boot.next == n && (late || !d.overBudget) then f d else d

/-! ### The start, and stages 0 and 1 -/

/-- Stage 0 begins with a cause and the attempt's number. -/
def Dev.bootBegin (d : Dev) (cause attempt : Nat) : Dev :=
  let now := d.gh.timer
  let d := { d with boot := { d.boot with running := true, start := now, why := 3, again := 0,
                                          bad := if cause = 5 then d.boot.bad else [] } }
  let d := (d.set .BOOT_STATUS_BOOT_CAUSE cause).set .BOOT_STATUS_ATTEMPT attempt
  (d.sensorLevel 0x31 0).stageBegin 0

/-- BOOT_START (R117, R124, R139, R631, R645): a due reboot, or the release of DEV_RESET_N, at which TEST_EN_N low holds stage 0. -/
def execBootStart (testHigh : Bool) (s : State) : Out := s.run fun d =>
  if d.boot.again ≠ 0 then
    let cause := d.boot.again
    let n := d.get .BOOT_STATUS_ATTEMPT
    (d.restart false).bootBegin cause (if cause = 5 then n + 1 else 1)
  else if d.pins.devReset then
    let d := { d with pins := { d.pins with devReset := false, testEn := testHigh } }
    if testHigh then d.bootBegin d.boot.why 1 else { d with boot := { d.boot with held := true } }
  else d

/-- STAGE_AO_START. -/
def execStageAoStart (s : State) : Out := s.run fun d => d.inStage 0 fun d => d.devicePass 0

/-- Stage 1 fails: the device halts at once (R122). -/
def Dev.fuseFail (d : Dev) (cause : Nat) : Dev := (d.stageRec 1 0 1 cause 0).bootHalt cause

/-- STAGE_FUSES (R122): `bad` is 0, FUSE_ECC or ROM_SELFTEST; `absent` the fused-out units. -/
def execStageFuses (bad : Nat) (absent : List Nat) (s : State) : Out := s.run fun d => d.inStage 1 fun d =>
  if bad ≠ 0 then d.fuseFail (if bad = 0x0111 then 0x0111 else 0x0112)
  else
    let ents := absent.foldl (fun m b => Sparse.put (fun _ => Ent.present) m b { status := 0, cause := 0, origin := 0, stage := 0xFF })
      d.map.ents
    let d := { d with map := { d.map with ents := ents } }
    (d.set .SVN_STATUS_FUSE_SVN_MIN (Config.fusedSvn ())).devicePass 1

/-! ### Stage 2: the ledger (R136, R137) -/

/-- The flash copy of region `r`, if it is valid: its bytes. -/
def Dev.flashCopy (d : Dev) (r : Nat) : Option (List Byte) :=
  let b := d.rbs spFlash (0x10000 * (r + 1)) 0x1F54
  if leNat (b.take 4) = 0x43464C42 ∧ leNat (b.drop 0x1F50) = crc32c (b.take 0x1F50) then some b else none

/-- COPY_SEQ of a copy. -/
def copySeq (b : List Byte) : Nat := leNat ((b.drop 4).take 4)

/-- The valid copy with the highest COPY_SEQ, and its region. -/
def Dev.bestCopy (d : Dev) : Option (Nat × List Byte) :=
  match d.flashCopy 0, d.flashCopy 1 with
  | some a, some b => if copySeq a < copySeq b then some (1, b) else some (0, a)
  | some a, none => some (0, a)
  | none, some b => some (1, b)
  | none, none => none

/-- Every verdict takes the words given, PRIMARY beyond them. -/
def Dev.loadVerdicts (d : Dev) (ws : List Nat) : Dev := (List.range 128).foldl (fun e i => e.wr (.BOOT_VERDICT i) (ws.getD i 0)) d

/-- The ledger from a flash copy, or an empty one; the event that says so. -/
def Dev.ledgerRestore (d : Dev) : Dev × (Nat × Nat) :=
  match d.bestCopy with
  | some (r, b) =>
    let ws := (List.range 80).map fun i => leNat ((b.drop (0x1E10 + 4 * i)).take 4)
    let d := ((d.wbs spLedger 0 ((b.drop 0x10).take 0x1E00)).loadVerdicts ws).wr .IMAGE_PREF (leNat ((b.drop 8).take 4) % 2)
    let d := { d with boot := { d.boot with region := r, copied := copySeq b } }
    ((d.set .LEDGER_FLASH_COPY_SEQ (copySeq b)).raise 2 0 3, (3, copySeq b))
  | none =>
    let d := ((d.wbs spLedger 0 (List.replicate 0x1E00 0)).loadVerdicts []).wr .IMAGE_PREF 0
    ({ d with boot := { d.boot with region := 1, copied := 0 } }.set .LEDGER_FLASH_COPY_SEQ 0, (4, 0))

/-- BOOT_SEQ of this boot: one above the highest of the valid slots. -/
def Dev.nextSeq (d : Dev) : Nat :=
  ((List.range 8).filter d.slotValid).foldl (fun a s => max a (d.slotRd s 4 + 1)) 0

/-- The slot of this boot opens (Table 6-7), and takes the records held back and the restore's event. -/
def Dev.slotOpen (d : Dev) : Dev :=
  let r := if (List.range 8).any d.slotValid then (d, none) else (d.ledgerRestore.1, some d.ledgerRestore.2)
  let d := r.1
  let seq := d.nextSeq % 2 ^ 32
  let d := (d.wr .BOOT_SEQ seq).wr .GLOBAL_EPOCH_HI seq
  let img := d.get .BOOT_STATUS_IMAGE
  let w10 := d.get .BOOT_STATUS_BOOT_CAUSE * 2 ^ 24 + 0x10000 + img * 256 + d.get .BOOT_STATUS_ATTEMPT
  let head := leBytes 4 0x47444C42 ++ leBytes 4 seq ++ leBytes 8 d.boot.start ++ leBytes 4 w10 ++ List.replicate 44 0
  let held := d.boot.buffer
  let d := { d with boot := { d.boot with opened := true, buffer := [] } }
  let d := (d.wbs spLedger (slotBase (seq % 8)) head).slotSeal (seq % 8)
  let d := held.foldl (fun e w =>
    let at_ := slotBase e.curSlot + 0x40 + 16 * (e.slotRd e.curSlot 0x14 / 65536)
    let e := e.ledgerPut (w.getD 0 0) (w.getD 1 0) (w.getD 3 0)
    (e.st spLedger (at_ + 8) 4 (w.getD 2 0)).slotSeal e.curSlot) d
  match r.2 with
  | some (c, v) => d.ledgerEvent c v
  | none => d

/-! ### Stage 2: the image (R119 to R121, Tables 6-3, 6-4) -/

/-- The image that stage 2 tries: IMAGE_PREF, or the other one where the verdict of stage 6 is ALTERNATE (Table 6-1). -/
def Dev.imagePick (d : Dev) : Nat :=
  let p := d.get .IMAGE_PREF_PREF
  if vNext (d.verdict 38) = 1 then 1 - p else p

/-- The whole image goes into staging SRAM: its cells there are those of the flash region. -/
def Dev.stageImage (d : Dev) (img : Nat) : Dev :=
  let base := memKey spFlash (if img = 0 then 0x100000 else 0x2000000)
  let cells := (d.mem.filter fun e => decide (base ≤ e.1) && decide (e.1 < base + 0x1C00000)).map fun e =>
    (memKey spStage (e.1 - base), e.2)
  { d with mem := (d.mem.filter fun e => e.1 / 2 ^ 64 != spStage) ++ cells }

/-- A word of the staged image. -/
def Dev.img (d : Dev) (off : Nat) : Nat := d.ld spStage off 4

/-- The section of a type: offset and length. -/
def Dev.section_ (d : Dev) (type : Nat) : Option (Nat × Nat) :=
  ((List.range (d.img 0x14)).find? fun i => d.img (0x100 + 16 * i) == type).map fun i =>
    (d.img (0x104 + 16 * i), d.img (0x108 + 16 * i))

/-- ON_FAIL values that Table 6-1 permits: stage 5's entry, which serves its device and its Flumes, takes those of either, and stage 13's,
for which the table has none, takes any (notes/assumptions/113.md). -/
def onFailOk (n f : Nat) : Bool :=
  if n = 3 ∨ n = 6 ∨ n = 7 then f == 0 || f == 1 || f == 3
  else if n = 12 then f == 0 || f == 3
  else if n = 13 then true
  else decide (f < 4)

/-- FINAL values that Table 6-1 permits. -/
def finalOk (n f : Nat) : Bool := f == 3 || n == 13 || (f == 2 && !(n == 3 || n == 6 || n == 7 || n == 12))

/-- Is a recipe valid (R118, R120): every stage has its entries, with permitted policies, and the budgets fit? -/
def recipeOk (es : List (List Nat)) : Bool :=
  let w := fun (e : List Nat) => e.getD 0 0
  let of := fun n r => es.find? fun e => bitsOf (w e) 24 8 == n && bitsOf (w e) 20 4 == r
  let stages := (List.range 11).map (· + 3)
  (es.all fun e => decide (3 ≤ bitsOf (w e) 24 8) && decide (bitsOf (w e) 24 8 ≤ 13) && decide (bitsOf (w e) 20 4 < 4)) &&
  (stages.all fun n => match of n 0 with
    | none => false
    | some e => onFailOk n (bitsOf (w e) 16 4) && finalOk n (bitsOf (w e) 12 4) && decide (bitsOf (w e) 8 4 < 4) &&
        ((List.range (bitsOf (w e) 8 4)).all fun i => (of n (i + 1)).isSome)) &&
  decide ((stages.map fun n => (es.filter fun e => bitsOf (w e) 24 8 == n).foldl (fun a e => max a (e.getD 1 0)) 0).sum ≤ 8188)

/-- The recipe of the staged image: AUTO_LIMIT and the entries, if it is valid. -/
def Dev.recipe (d : Dev) : Option (Nat × List (List Nat)) :=
  match d.section_ 1 with
  | none => none
  | some (o, len) =>
    let n := d.img (o + 4)
    let lim := d.img (o + 8)
    if d.img o ≠ 0x50435242 ∨ len < 16 + 32 * n ∨ lim < 1 ∨ 7 < lim ∨ crc32c (d.rbs spStage (o + 16) (32 * n)) ≠ d.img (o + 12) then none
    else
      let es := (List.range n).map fun k => (List.range 8).map fun j => d.img (o + 16 + 32 * k + 4 * j)
      if recipeOk es then some (lim, es) else none

/-- The header's fields are as Table 6-3 gives them, and each section lies inside the image. -/
def Dev.headerOk (d : Dev) : Bool :=
  let len := d.img 8
  let n := d.img 0x14
  d.img 0 == 0x474D4956 && d.img 4 == 0x00010000 && decide (0x200 + 96 ≤ len) && decide (len ≤ 0x1C00000) && decide (1 ≤ n) &&
    decide (n ≤ 16) && ((List.range n).all fun i => decide (d.img (0x104 + 16 * i) + d.img (0x108 + 16 * i) ≤ len - 96))

/-- The verification of the staged image, in order: the cause of the first step that fails (R120). -/
def Dev.imageCheck (d : Dev) : Option Nat :=
  let len := d.img 8
  let key := d.rbs spStage 0x20 97
  if !d.headerOk then some 0x0113
  else if sha384 key ≠ Config.fusedKeyHash () then some 0x0114
  else if d.img 0x10 % 256 < Config.fusedSvn () then some 0x0116
  else if !ecdsaP384 (d.rbs spStage 0 (len - 96)) key (d.rbs spStage (len - 96) 96) then some 0x0115
  else if (List.range (d.img 0x14)).any (fun i =>
      crc32c (d.rbs spStage (d.img (0x104 + 16 * i)) (d.img (0x108 + 16 * i))) != d.img (0x10C + 16 * i)) then some 0x0113
  else if d.recipe.isNone then some 0x0119
  else none

/-- An image fails (R121): the other one at the next boot, or a halt when both have failed. -/
def Dev.imageFail (d : Dev) (cause : Nat) : Dev :=
  let img := d.get .BOOT_STATUS_IMAGE
  let d := d.stageRec 2 0 1 cause 0
  if d.boot.bad.contains (1 - img) then d.bootHalt 0x0117
  else
    let d := (d.ledgerEvent 6 (1 - img)).wr .IMAGE_PREF (1 - d.get .IMAGE_PREF_PREF)
    { d with boot := { d.boot with bad := [img] } }.rebootWith 5

/-- The image is accepted: its recipe, version and SVN are in force. -/
def Dev.imageUse (d : Dev) : Dev :=
  match d.recipe with
  | none => d
  | some (lim, es) =>
    let d := { d with boot := { d.boot with recipe := es, limit := lim, chosen := (List.range 101).map fun i => vRecipe (d.verdict i) } }
    let d := ((d.wr .AUTO_LIMIT lim).set .SVN_STATUS_IMAGE_SVN (d.img 0x10 % 256)).setParam 2 8 (d.get .BOOT_STATUS_IMAGE)
    (d.slotWr d.curSlot 0x20 (d.img 0xC)).slotSeal d.curSlot

/-- Stage 2 chooses its image: before a restore, by what the flash copy holds (R137). -/
def Dev.imageChoose (d : Dev) : Dev :=
  let pre := if (List.range 8).any d.slotValid then d else d.ledgerRestore.1
  d.set .BOOT_STATUS_IMAGE pre.imagePick

/-- STAGE_IMAGE_VERIFY (R119 to R121, R136, R137): `sfdp` says that a flash of 64 MiB or more was found. -/
def execStageImageVerify (sfdp : Bool) (s : State) : Out := s.run fun d => d.inStage 2 fun d =>
  let d := d.imageChoose
  if !sfdp then (d.slotOpen.stageRec 2 0 1 0x0118 0).bootHalt 0x0118
  else
    let d := (d.slotOpen).stageImage (d.get .BOOT_STATUS_IMAGE)
    match d.imageCheck with
    | some c => d.imageFail c
    | none => d.imageUse.devicePass 2

/-! ### Stages 3 to 13 -/

/-- STAGE_PLL_LOCK (stage 3): TRC_TIME is loaded (R555), the fabric starts at the recipe's frequency, the host link begins to train. -/
def execStagePllLock (ok : Bool) (s : State) : Out := s.run fun d => d.inStage 3 fun d =>
  if !ok then d.deviceFail 3 0x011A
  else
    let d := (d.set .GOV_APPLIED_MHZ (d.bootParam 3 0 0)).set .GOV_APPLIED_MV 750
    let d := { d with trc := { d.trc with loaded := true } }
    let d := if d.pins.hostPerst then d.hostLink 1 else d
    d.devicePass 3

/-- How many of 32 bits are set. -/
def popc (m : Nat) : Nat := ((List.range 32).filter fun i => bitsOf m i 1 == 1).length

/-- What stage 4 finds of a stack (R542): it trained, its pseudo-channels `pcs` pass, its channels' command paths `chs` pass. -/
def stackMask (pcs chs : Nat) : Nat :=
  (List.range 32).foldl (fun a p => if bitsOf pcs p 1 == 1 && bitsOf chs (p / 2) 1 == 1 then a + 2 ^ p else a) 0

/-- The results of a stack (R542 to R544, R668). -/
def Dev.stackEnd (d : Dev) (n pcs chs : Nat) (out : BootOut) : Dev :=
  let m := stackMask pcs chs
  let d := (List.range 32).foldl (fun e p =>
    let r := if bitsOf chs (p / 2) 1 = 0 then 2 else if bitsOf pcs p 1 = 0 then 1 else 0
    e.wr (.PC_STATUS p) ((if out == .pass && r == 0 then 2 ^ 31 else 0) + r * 2 ^ 28) n) d
  if out == .pass then
    let rate := d.bootParam 4 (1 + n) 0
    let d := ((d.set .HBM_STATUS_STATE 2 n).set .HBM_STATUS_RATE_MBPS rate n).wr .HBM_PC_MASK m n
    ((d.setParam (hbmb n) 8 (1536 * popc m)).setParam (hbmb n) 12 m).setParam (hbmb n) 16 (rate % 65536 + d.chosen (1 + n) * 65536)
  else d.set .HBM_STATUS_STATE 0 n

/-- A stack outside its recipe's mask is left out; its verdict stays (R543). -/
def Dev.stackMasked (d : Dev) (n : Nat) : Dev :=
  if d.attempted (n, (1 + n, hbmb n)) && bitsOf (d.bootParam 4 (1 + n) 1) n 1 == 0 then
    ((List.range 32).foldl (fun e p => e.wr (.PC_STATUS p) (3 * 2 ^ 28) n) (d.set .HBM_STATUS_STATE 0 n)).bootDisable (hbmb n) 0x0D01 4
  else d

/-- CAPACITY of T1 or T2: the sum over the PRESENT units (R204). -/
def Dev.setCapacity (d : Dev) (tier : Nat) : Dev := d.wr64 (.CAPACITY_T_LO tier) ((List.range 4).map (d.unitCap tier)).sum

/-- STAGE_HBM_BRINGUP (R542 to R544): `trained` the stacks that trained; per stack, the pseudo-channels and channels that pass. -/
def execStageHbmBringup (trained : Nat) (pcs chs : List Nat) (s : State) : Out := s.run fun d => d.inStage 4 fun d =>
  let pc := fun n => pcs.getD n 0
  let ch := fun n => chs.getD n 0
  let out := fun n => if bitsOf trained n 1 = 0 then BootOut.fail 0x011B
    else if popc (stackMask (pc n) (ch n)) < 16 then .fail 0x011C else .pass
  let d := (List.range 4).foldl (fun e n => e.stackMasked n) d
  let d := (List.range 4).foldl (fun e n => if e.attempted (n, (1 + n, hbmb n)) then e.stackEnd n (pc n) (ch n) (out n) else e) d
  let detail := fun n => if out n == .pass then 2 ^ 32 - 1 - stackMask (pc n) (ch n) else 0
  (d.setCapacity 1).unitsEnd 4 out detail

/-- STAGE_SRAM_INIT (R123, R140): every control SRAM holds zeros; `ok` is its test but for the Flumes', `flumes` those that pass. -/
def execStageSramInit (ok : Bool) (flumes : Nat) (s : State) : Out := s.run fun d => d.inStage 5 fun d =>
  let d := { d with
    mem := d.mem.filter fun e => !(e.1 / 2 ^ 64 == spImem || e.1 / 2 ^ 64 == spDmem), ecc := [], keys := [], objs := [] }
  if !ok then d.deviceFail 5 0x011D
  else
    let v := d.verdict 5
    let d := (d.setVerdict 5 (v - vFails v)).wr64 (.CAPACITY_T_LO 0) 100663296
    d.unitsEnd 5 (fun i => if bitsOf flumes i 1 = 1 then .pass else .fail 0x011D) (fun _ => 0) v

/-- The default wake program of the staged image goes into the program memory; GH_PROG_LEN is Table 5-5's (notes/assumptions/25.md). -/
def Dev.wakeStore (d : Dev) (o len : Nat) : Dev :=
  let d := (List.range 512).foldl (fun e m => e.wr (.GH_PROG m) (if 4 * m < len then e.ld spStage (o + 4 * m) 4 else 0)) d
  d.set .GH_PROG_LEN_LEN 0x030

/-- The default wake program is loaded and started, where it passes the load check. -/
def Dev.wakeLoad (d : Dev) : Dev :=
  match d.section_ 3 with
  | some (o, len) => (d.wakeStore o len).ghLoad
  | none => d

/-- The firmware's bundles go into the firmware region. -/
def Dev.fwStore (d : Dev) (o len : Nat) : Dev :=
  let base := memKey spStage o
  let cells := (d.mem.filter fun e => decide (base ≤ e.1) && decide (e.1 < base + len)).map fun e => (e.1 - base, e.2)
  (List.range len).foldl (fun e a => e.wb spImem a ((cells.find? fun c => c.1 == a).map (·.2) |>.getD 0xFF)) d

/-- STAGE_FW_LOAD (stage 6): both sections of the staged image; the firmware region is locked and PROG_RUN set. `ok` is the loader's own
check. -/
def execStageFwLoad (ok : Bool) (s : State) : Out := s.run fun d => d.inStage 6 fun d =>
  match d.section_ 2, d.section_ 3 with
  | some (o, len), some _ =>
    if !ok ∨ 0x40000 < len then d.deviceFail 6 0x011E
    else
      let d := ((d.fwStore o len).wr .HG_IMEM_LOCK 1).wakeLoad
      if d.get .GH_CTRL_PROG_RUN = 0 then d.deviceFail 6 0x011E else d.devicePass 6
  | _, _ => d.deviceFail 6 0x011E

/-- STAGE_HOST_LINK (R633): the host link is in L0 within the recipe's rate and width; HOST_PERST_N low to the end of the budget is
NO_PEER; `fail`: the link has failed to train. -/
def execStageHostLink (fail : Bool) (s : State) : Out := s.run fun d => d.inStage 7 (late := true) fun d =>
  if d.overBudget then (if !d.hostUp && !d.pins.hostPerst then (d.setPath 3 0 d.t3Bad).devicePass 7 4 else d)
  else if d.hostUp then
    if d.get .HOST_LINK_RATE ≤ d.bootParam 7 39 0 ∧ d.get .HOST_LINK_WIDTH ≤ d.bootParam 7 39 1 then (d.setPath 3 0 d.t3Bad).devicePass 7
    else d.deviceFail 7 0x011F
  else if fail && d.pins.hostPerst then d.deviceFail 7 0x011F
  else d

/-- What a port's training came to: PASS is for the link that is up. -/
def trainOut (up : Bool) (o : BootOut) : BootOut := if up then .pass else match o with
  | .pass => .noPeer
  | o => o

/-- STAGE_PARTNER_PORTS (R123): PASS where the link is up by now; `outs` names the failures (LINK_TRAIN) and the ports with no signal. -/
def execStagePartnerPorts (outs : List BootOut) (s : State) : Out := s.run fun d => d.inStage 8 fun d =>
  let up := fun p => d.portUp p
  let out := fun p => match trainOut (up p) (outs.getD p .noPeer) with
    | .fail _ => BootOut.fail 0x0120
    | o => o
  let d := (List.range 8).foldl (fun e p => if up p || !e.present (66 + p) then e
    else e.portTrained p (if outs.getD p .noPeer == .noPeer then 2 else 1) 0 0 0) d
  let d := (List.range 8).foldl (fun e p => if up p || e.get .PORT_STATUS_LINK p != 1 then e else e.set .PORT_STATUS_LINK 0 p) d
  d.unitsEnd 8 out fun _ => 0

/-- Used capacity in MiB of an expander with a volatile capacity: a multiple of 256 MiB, at most 1 TiB. -/
def usedMib (mib : Nat) : Nat := min 1048576 (mib / 256 * 256)

/-- What stage 9 leaves of a port (R484, R635). -/
def Dev.expEnd (d : Dev) (e mib : Nat) (out : BootOut) : Dev :=
  match out with
  | .pass => (d.setParam (75 + e) 8 (usedMib mib)).setParam (75 + e) 12 mib
  | .noPeer => d.expLink e 6
  | .fail _ => { d with pins := { d.pins with expPerst := putBits d.pins.expPerst e 1 0 } }.expLink e 5

/-- STAGE_EXPANDER_PORTS (R484, R635): `mib` is the volatile capacity that Identify Memory Device reports; an expander whose link is up and
that reports none, or that `outs` fails (a switch, a multi-logical device, a device that is not Type-3), is CXL_ENUM. -/
def execStageExpanderPorts (outs : List BootOut) (mib : List Nat) (s : State) : Out := s.run fun d => d.inStage 9 fun d =>
  let up := fun e => d.get .EXP_STATUS_STATE e == 2
  let out := fun e =>
    if up e then (match outs.getD e .pass with
      | .fail _ => BootOut.fail 0x0121
      | _ => if mib.getD e 0 = 0 then .fail 0x0121 else .pass)
    else match trainOut false (outs.getD e .noPeer) with
      | .fail c => .fail (if c = 0x0121 then 0x0121 else 0x0120)
      | o => o
  let d := (List.range 4).foldl (fun a e =>
    if a.attempted (e, (48 + e, 75 + e)) then a.expEnd e (mib.getD e 0) (out e) else if a.present (75 + e) then a.expLink e 5 else a) d
  let d := d.unitsEnd 9 out fun _ => 0
  d.setCapacity 2

/-- The outcome of a link at the end of stage 10 (R504). -/
def Dev.linkOut (d : Dev) (l : Nat) : BootOut :=
  let st := d.lstate l
  if st = 6 then .pass else if st = 1 then .noPeer else if st = 8 then .fail 0x0120 else .fail 0x0110

/-- STAGE_LATERAL_LINKS (R504): once every link attempted is ACTIVE or FAILED, or the rest stand in DETECT at the end of the budget. -/
def execStageLateralLinks (s : State) : Out := s.run fun d => d.inStage 10 (late := true) fun d =>
  let st := ((stageUnits 10).filter d.attempted).map fun u => d.lstate u.1
  if st.all (fun x => x == 6 || x == 8) || (d.overBudget && st.all fun x => x == 6 || x == 8 || x == 1) then
    d.unitsEnd 10 d.linkOut fun _ => 0
  else d

/-- STAGE_SELFTEST (stage 11): the tiles and lanes whose results match the image's CRCs. -/
def execStageSelftest (tiles lanes : Nat) (s : State) : Out := s.run fun d => d.inStage 11 fun d =>
  d.unitsEnd 11 (fun i => if bitsOf (tiles % 65536 + lanes * 65536) i 1 = 1 then .pass else .fail 0x0122) fun _ => 0

/-- The map is published (R40 to R45): PUBLISH_SEQ 2, the masks and fixed fields, ENABLE of every PRESENT block. -/
def Dev.mapPublish (d : Dev) : Dev :=
  let mask := fun b n => (List.range n).foldl (fun a i => if d.present (b + i) then a + 2 ^ i else a) 0
  let d := { d with map := { d.map with published := true, seq := 2 } }
  let d := ((d.setParam 63 8 (mask 47 16)).setParam 46 8 (mask 38 8)).setParam 1 12 (Config.fusedRetMv () % 2 ^ 32)
  let d := (d.setParam 109 12 (d.get .SMB_CFG_ADDR)).setParam 109 16 (Config.jedecMfr () % 2048)
  (List.range blkCount).foldl (fun e b => if b != 0 && e.present b then e.setCtrl b 0 true else e) d

/-- STAGE_MAP_PUBLISH (R40, R43). -/
def execStageMapPublish (ok : Bool) (s : State) : Out := s.run fun d => d.inStage 12 fun d =>
  if ok then d.mapPublish.devicePass 12 else d.deviceFail 12 0x0123

/-- STAGE_READY (R117, R138): RESULT, READY_TIME, READY, the copy of the ledger. -/
def execStageReady (s : State) : Out := s.run fun d => d.inStage 13 fun d =>
  let d := d.stageRec 13 0 0 0 1
  let t := d.bootTime
  let d := (d.wr .BOOT_READY_TIME t).set .BOOT_STATUS_RESULT 1
  let d := d.slotWr d.curSlot 0x18 t
  let d := (d.slotSet 16 8 13).slotSet 12 4 1
  let d := { d with boot := { d.boot with running := false, next := 14 } }
  ((d.raise 2 0 0).sensorLevel 0x31 1).ledgerCopy

/-- The outcome of a unit that a stage's budget cuts off. -/
def Dev.lateOut (d : Dev) (n i : Nat) : BootOut :=
  if n = 10 then d.linkOut i
  else if n = 8 ∧ d.portUp i then .pass
  else .fail 0x0110

/-- What an overrun leaves of the units that trained (R635, R668). -/
def Dev.lateUnits (d : Dev) (n : Nat) : Dev :=
  if n = 4 then (List.range 4).foldl (fun e i => e.set .HBM_STATUS_STATE 0 i) d
  else if n = 8 then (List.range 8).foldl (fun e i => if e.get .PORT_STATUS_LINK i == 1 then e.set .PORT_STATUS_LINK 0 i else e) d
  else if n = 9 then (List.range 4).foldl (fun e i => if e.present (75 + i) then e.expEnd i 0 (.fail 0) else e) d
  else d

/-- STAGE_TIMEOUT (R117): the stage in progress has used its budget. A stage with no policy of its own halts (notes/assumptions/26.md). -/
def execStageTimeout (s : State) : Out := s.run fun d =>
  let n := d.boot.next
  if !d.boot.running ∨ !d.overBudget then d
  else if n = 1 then d.fuseFail 0x0110
  else if n = 2 then
    d.imageChoose.slotOpen.imageFail 0x0110
  else if n = 0 ∨ n = 13 then (d.stageRec n 0 1 0x0110 0).bootHalt 0x0110
  else if n = 7 ∧ !d.pins.hostPerst then d
  else if (stageIdx n).isSome then d.deviceFail n 0x0110
  else
    let out := fun i => d.lateOut n i
    (d.lateUnits n).unitsEnd n out (fun _ => 0) 0 0x0110

/-! ### The ledger's copies and the boot operations -/

/-- The bytes of a flash copy. -/
def Dev.copyBytes (d : Dev) (seq : Nat) : List Byte :=
  let b := leBytes 4 0x43464C42 ++ leBytes 4 seq ++ leBytes 4 (d.get .IMAGE_PREF_PREF) ++ leBytes 4 0 ++ d.rbs spLedger 0 0x1E00 ++
    ((List.range 80).map fun i => leBytes 4 (d.verdict i)).flatten
  b ++ leBytes 4 (crc32c b)

/-- LEDGER_COPY_DONE (R138): the region not written last takes the copy; a failed copy leaves that region erased. -/
def execLedgerCopyDone (ok : Bool) (s : State) : Out := s.run fun d =>
  if d.get .LEDGER_FLASH_COPY_PENDING = 0 then d
  else
    let r := 1 - d.boot.region
    let seq := (d.boot.copied + 1) % 2 ^ 32
    let d := d.set .LEDGER_FLASH_COPY_PENDING 0
    let d := d.wbs spFlash (0x10000 * (r + 1)) (List.replicate 0x1F54 0xFF)
    if ok then
      let d := (d.wbs spFlash (0x10000 * (r + 1)) (d.copyBytes seq)).set .LEDGER_FLASH_COPY_FAIL 0
      { d with boot := { d.boot with region := r, copied := seq } }.set .LEDGER_FLASH_COPY_SEQ seq
    else (d.set .LEDGER_FLASH_COPY_FAIL 1).raise 2 0 4

/-- Is a boot in progress, or about to start (R131)? -/
def Dev.bootBusy (d : Dev) : Bool := d.boot.running || d.boot.again != 0

/-- A verdict clear (R131): index `i`, or every index. -/
def Dev.verdictClear (d : Dev) (i : Option Nat) : Dev :=
  let d := match i with
    | some i => d.setVerdict i 0
    | none => (List.range 128).foldl (fun e i => e.setVerdict i 0) d
  (d.ledgerEvent 5 (i.getD 0xFF)).ledgerCopy

/-- A write of VERDICT_CLEAR. -/
def Dev.verdictClearWrite (d : Dev) (p : Path) (v : Nat) : Dev :=
  if d.bootBusy then d.errWr p 2 0 0x98 0x012B v
  else if bitsOf v 31 1 = 1 then d.verdictClear none
  else if 101 ≤ bitsOf v 0 7 then d.errWr p 2 0 0x98 0x012A v
  else d.verdictClear (some (bitsOf v 0 7))

/-- VERDICT_CLEAR. -/
def execVerdictClear (p : Path) (v : Word) (s : State) : Out := s.run fun d =>
  d.viaReg p .VERDICT_CLEAR 0 v.toNat fun e => e.verdictClearWrite p v.toNat

/-- May a reboot be taken: in RUN or IDLE, or halted, and no boot in progress (R131, R139)? -/
def Dev.rebootOk (d : Dev) : Bool :=
  !d.bootBusy && (d.get .BOOT_STATUS_RESULT == 2 || (!d.asleep && d.pwr.entry == 0 && !d.pwr.exiting))

/-- A write of BOOT_REBOOT. -/
def Dev.rebootWrite (d : Dev) (p : Path) (v : Nat) : Dev :=
  if v ≠ 0xB007 then d.errWr p 2 0 0x9C 0x012C v
  else if !d.rebootOk then d.errWr p 2 0 0x9C 0x012B v
  else d.rebootWith 4

/-- BOOT_REBOOT (R139). -/
def execBootReboot (p : Path) (v : Word) (s : State) : Out := s.run fun d =>
  d.viaReg p .BOOT_REBOOT 0 v.toNat fun e => e.rebootWrite p v.toNat

/-- IMAGE_PREF takes a value, and the ledger is copied (R138). -/
def Dev.imagePrefSet (d : Dev) (v : Nat) : Dev := (d.set .IMAGE_PREF_PREF v).ledgerCopy

/-- IMAGE_PREF. -/
def execImagePref (p : Path) (v : Word) (s : State) : Out := s.run fun d =>
  d.viaReg p .IMAGE_PREF 0 v.toNat fun e => e.imagePrefSet (v.toNat % 2)

end Sys2Proof.Machine
end

