-- ==== Sys2Proof/Machine/Partner.lean ====
section
/-! DEFINITION. The partner ports' commands (chapter 20). -/
namespace Sys2Proof.Machine

/-! ### Windows -/

/-- PARTNER_WINDOW_WRITE (R229 to R232, R418, R422, R448 to R452, R460). A byte that is not enabled is none. -/
def execPartnerWindowWrite (p addr : Nat) (data : List (Option Byte)) (poison : Bool) (s : State) : Out := s.run fun d =>
  if d.portUp p then d.heldAccess 2 (.pWrite p addr data poison) fun e => e.pWrite p addr data poison else d

/-- PARTNER_WINDOW_READ (R17, R233, R234, R448, R449, R451, R460, R581); `tid` names the request for its answer, and `ue` says that the
read of the Allotment entry meets an uncorrectable error. -/
def execPartnerWindowRead (p addr len tid : Nat) (ue : Bool) (s : State) : Out := s.run fun d0 =>
  let d := match (if ue then d0.objectAt p addr else none) with
    | some o => d0.eccBad 4 (8 * hIndex o.1.handle)
    | none => d0
  if d.portUp p then d.heldAccess 2 (.pRead p addr len tid) fun e => e.pRead p addr len tid else d

/-- HELD_READ_RELEASE (R17, R264): a held read that waits for nothing any more is served. -/
def execHeldReadRelease (p tid : Nat) (s : State) : Out := s.run fun d0 =>
  let d1 := if d0.asleep then d0 else d0.stuckRelease
  let d := (d1.reads.filter fun r => r.port == p && r.tid == tid).foldl (fun e r => e.touchBlocks r.port r.addr r.len) d1
  match d.reads.find? fun r => r.port == p && r.tid == tid with
  | none => d
  | some r =>
    if (d.waitsFor p r.addr r.len).isSome || d.frozen (ppb p) || d.asleep then d
    else (d.holdEnd r r.cause).pServe p r.addr r.len tid

/-- Has the tier path that the object's move uses failed: a stream's or a drain's? -/
def Dev.movePathFailed (d : Dev) (h : Nat) : Bool :=
  (d.flm.streams.any fun s => s.handle == h && s.op != 4 && (d.pathFailed s.src.tier s.src.unit || (match s.dst with
    | some p => d.pathFailed p.tier p.unit
    | none => false))) ||
  d.pool.drains.any fun x => x.handle == h && d.pathFailed x.dst.tier x.dst.unit

/-- READ_EXPIRED (R265, R80): STALL_LIMIT.PARTNER has passed since the hold began. -/
def execReadExpired (p tid : Nat) (s : State) : Out := s.run fun d =>
  match d.reads.find? fun r => r.port == p && r.tid == tid with
  | none => d
  | some r =>
    if d.asleep ∨ d.gh.timer < r.since + usToTicks (d.get .STALL_LIMIT_PARTNER) then d
    else
      let poison := ((d.obj? r.handle).map Obj.poison).getD false
      let fail := d.movePathFailed r.handle
      let d := d.holdEnd r (if fail then cTierFail else r.cause)
      let d := d.raise 5 0 (if fail then 2 else 7)
      d.pAnswer p tid (List.replicate r.len 0) poison

/-- MEMSPECRD (R445): accepted and dropped. -/
def execMemspecrd (_p _addr : Nat) (s : State) : Out := s.run fun d => d

/-- MEM_UNSUPPORTED (R466, Table 20-4): in CXL mode zero data with poison, or a write acknowledged and discarded; in aperture mode
Unsupported Request. -/
def execMemUnsupported (p addr tid : Nat) (rd : Bool) (s : State) : Out := s.run fun d =>
  if !d.portUp p then d
  else
    let d := d.pViol p 0x0A0C addr 0
    if !d.portCxl p then d.emit (.partner p tid 3 [])
    else if rd then d.pAnswer p tid (List.replicate 64 0) true
    else d.emit (.partner p tid 0 [])

/-! ### The port register block -/

/-- MARK_DOORBELL (R13, R157, R421, R424, R453 to R455, R460): a write of `size` bytes at byte `off` of the doorbell. -/
def Dev.markWrite (d : Dev) (p off size v : Nat) : Dev :=
  if off ≠ 0 ∨ size ≠ 4 then d.pViol p 0x0A02 off 0 else d.pMark p (v % 2 ^ 32)

def execMarkDoorbell (p off size : Nat) (v : Word) (s : State) : Out := s.run fun d =>
  if d.portUp p then
    d.heldAccess 2 (.pReg p off size (some v.toNat) 0) fun e => e.markWrite p off size v.toNat
  else d

/-- HINT_WRITE (R459). -/
def Dev.hintWrite (d : Dev) (p h v : Nat) : Dev :=
  if 3 < h then d else ((d.wr (.HINT h) v p).bump .HINT_COUNT p).raise (ppb p) 0 3

def execHintWrite (p h : Nat) (v : Word) (s : State) : Out := s.run fun d =>
  if d.portUp p then d.heldAccess 2 (.pHint p h v.toNat) fun e => e.hintWrite p h v.toNat else d

/-- Word at an offset of the port register block, outside the gate mirror (Table 20-3). -/
def Dev.portWord (d : Dev) (p off : Nat) : Nat :=
  if off = 4 then 64 - (d.hg.marks.getD p []).length
  else if off = 8 then (d.port p).accepted
  else if off = 0xC then d.lr.node * 2 ^ 20 + p
  else if 0x10 ≤ off ∧ off < 0x20 then d.rd (.HINT ((off - 0x10) / 4)) p
  else if off = 0x20 then d.gh.timer % 2 ^ 32
  else if off = 0x24 then (d.port p).latch
  else 0

/-- Read a word of the block: a register, or of the table mirror. -/
def Dev.mirrorRead (d : Dev) (p off : Nat) : Nat × Dev :=
  if 0x20000 ≤ off ∧ off < 0x40000 then d.fbRead (off - 0x20000) else (d.portWord p off, d)

/-- Is the offset one of the block's registers or mirrors? -/
def portKnown (off : Nat) : Bool :=
  decide (off < 0x28) || (decide (0x20000 ≤ off) && decide (off < 0x40000)) || (decide (0x800000 ≤ off) && decide (off < 0x1000000))

/-- The entry that a gate-mirror offset shows, when its object belongs to the port. -/
def Dev.gateOf (d : Dev) (p off : Nat) : Option Nat :=
  match d.objAt ((off - 0x800000) / 8) with
  | some o => if o.state = oFREE ∨ o.state = oRETIRED ∨ o.partner ≠ p then none else some o.gate
  | none => none

/-- A gate-mirror read of 8 or 4 bytes (R228, R453, R457). -/
def Dev.gateRead (d : Dev) (p off size tid : Nat) : Dev :=
  if !((size = 8 ∧ off % 8 = 0) ∨ (size = 4 ∧ off % 4 = 0)) then
    (d.pViol p 0x0A0A off 0).emit (.partner p tid 0 (List.replicate size 0))
  else match d.gateOf p off with
    | none => (d.pViol p 0x0A08 off ((off - 0x800000) / 8)).emit (.partner p tid 0 (List.replicate size 0))
    | some g => d.emit (.partner p tid 0 (((leBytes 8 g).drop (off % 8)).take size))

/-- A read of the port register block (R453, R458). -/
def Dev.portRead (d : Dev) (p off size tid : Nat) : Dev :=
  if 0x800000 ≤ off ∧ off < 0x1000000 then d.gateRead p off size tid
  else
    let mirror := decide (0x20000 ≤ off) && decide (off < 0x40000)
    let ok := (size == 4 && off % 4 == 0) || (size == 8 && off % 8 == 0 && (mirror || off == 0x20))
    if !ok then (d.pViol p 0x0A0A off 0).emit (.partner p tid 0 (List.replicate size 0))
    else
      let r := d.mirrorRead p off
      let lo := r.1
      let d := r.2
      let d := if off = 0x20 then
          let hi := d.gh.timer / 2 ^ 32
          d.updPort p fun x => { x with latch := hi % 2 ^ 32 }
        else d
      if size = 8 then
        let r := d.mirrorRead p (off + 4)
        r.2.emit (.partner p tid 0 (leBytes 4 lo ++ leBytes 4 r.1))
      else d.emit (.partner p tid 0 (leBytes 4 lo))

/-- A write of the port register block (R453, R458, R459). -/
def Dev.portWrite (d : Dev) (p off size v : Nat) : Dev :=
  if off < 4 then d.markWrite p off size v
  else if size ≠ 4 ∨ off % 4 ≠ 0 then d.pViol p 0x0A0A off 0
  else if 0x10 ≤ off ∧ off < 0x20 then d.hintWrite p ((off - 0x10) / 4) v
  else if portKnown off then d.pViol p 0x0A09 off 0
  else d

/-- One access to the block: a write where a value comes with it. -/
def Dev.portReg (d : Dev) (p off size : Nat) (v : Option Nat) (tid : Nat) : Dev :=
  match v with
  | some v => d.portWrite p off size v
  | none => d.portRead p off size tid

/-- GATE_MIRROR_READ (R228, R453, R457, R460): at byte `off` of the gate mirror. -/
def execGateMirrorRead (p off size tid : Nat) (s : State) : Out := s.run fun d =>
  if d.portUp p ∧ off < 0x800000 then
    d.heldAccess 2 (.pReg p (0x800000 + off) size none tid) fun e => e.gateRead p (0x800000 + off) size tid
  else d

/-- PORT_REGISTER_BLOCK_ACCESS (R409, R453, R456, R458, R460, R466). -/
def execPortRegisterBlockAccess (p off size : Nat) (v : Option Nat) (tid : Nat) (s : State) : Out := s.run fun d =>
  if d.portUp p then d.heldAccess 2 (.pReg p off size v tid) fun e => e.portReg p off size v tid else d

/-! ### Decoders, resets, mailbox (R445, R446, R462) -/

/-- HDM_DECODER_COMMIT (R446): decoder `k` maps `size` bytes of host physical addresses from `base`, with `ways` and a DPA skip. -/
def execHdmDecoderCommit (p k base size ways skip : Nat) (s : State) : Out := s.run fun d =>
  if !d.portUp p ∨ !d.portCxl p ∨ 1 < k then d
  else
    let c := d.get .HDM_STATUS_COMMITTED p
    if ways = 1 ∧ skip = 0 ∧ size % 2 ^ 28 = 0 ∧ size ≤ 2 ^ 40 ∧ (k = 0 ∨ bitsOf c 0 1 = 1) then
      let d := d.wr (if k = 0 then .HDM_SIZE_0 else .HDM_SIZE_1) (size / 2 ^ 28) p
      (d.set .HDM_STATUS_COMMITTED (putBits c k 1 1) p).updPort p fun x => { x with bases := x.bases.set k base }
    else (d.pViol p 0x0A0B 0 0).emit (.mailbox p 0 false [k])

/-- A reset of the partner function clears decoders and logs. -/
def Dev.partnerReset (d : Dev) (p : Nat) : Dev :=
  let d := ((d.wr .HDM_STATUS 0 p).wr .HDM_SIZE_0 0 p).wr .HDM_SIZE_1 0 p
  d.updPort p fun x => { x with bases := [0, 0], info := [], warn := [] }

/-- PARTNER_CONFIG_REQUEST (R462): a Function Level Reset, or another request, which changes nothing the spec names. -/
def execPartnerConfigRequest (p : Nat) (flr : Bool) (s : State) : Out := s.run fun d =>
  if d.portUp p ∧ flr then d.partnerReset p else d

/-- Numbers that stand for an event record in an answer. -/
def CxlEvent.vals (e : CxlEvent) : List Nat := [bit01 e.vendor, e.code, e.addr]

/-- A mailbox command of a CXL partner (Table 20-2). -/
def Dev.mailbox (d : Dev) (p op : Nat) (ok : Bool) (vals : List Nat) : Dev :=
  if d.portUp p && d.portCxl p then d.emit (.mailbox p op ok vals) else d

/-- GET_EVENT_RECORDS: log 0 Informational, 1 Warning; the other logs are empty. -/
def execGetEventRecords (p log : Nat) (s : State) : Out := s.run fun d =>
  let l := if log = 0 then (d.port p).info else if log = 1 then (d.port p).warn else []
  d.mailbox p 0x0100 true (l.flatMap CxlEvent.vals)

/-- CLEAR_EVENT_RECORDS: the oldest `n` records of a log. -/
def execClearEventRecords (p log n : Nat) (s : State) : Out := s.run fun d =>
  if d.portUp p && d.portCxl p then
    let d := d.updPort p fun x =>
      if log = 0 then { x with info := x.info.drop n } else if log = 1 then { x with warn := x.warn.drop n } else x
    d.mailbox p 0x0101 true []
  else d

/-- The commands of Table 20-2. -/
def mailboxOps : List Nat := [0x0100, 0x0101, 0x0400, 0x0401, 0x4000, 0x4200]

/-- GET_SUPPORTED_LOGS: the Command Effects Log only; here by its name. -/
def execGetSupportedLogs (p : Nat) (s : State) : Out := s.run fun d => d.mailbox p 0x0400 true [1]

/-- GET_LOG: the Command Effects Log. -/
def execGetLog (p : Nat) (s : State) : Out := s.run fun d => d.mailbox p 0x0401 true mailboxOps

/-- IDENTIFY_MEMORY_DEVICE: total and volatile 8,192 units of 256 MiB, persistent 0, poison list 0. -/
def execIdentifyMemoryDevice (p : Nat) (s : State) : Out := s.run fun d => d.mailbox p 0x4000 true [8192, 8192, 0, 0]

/-- GET_HEALTH_INFO: the temperature in whole °C, the other fields zero. -/
def execGetHealthInfo (p : Nat) (s : State) : Out := s.run fun d =>
  d.mailbox p 0x4200 true [unsigned 16 (signed 16 (d.get .TJ_NOW_TJ) / 4)]

/-- MAILBOX_UNSUPPORTED. -/
def execMailboxUnsupported (p op : Nat) (s : State) : Out := s.run fun d =>
  if mailboxOps.contains op then d else d.mailbox p op false []

/-! ### Link (R444, R461 to R465, R634) -/

/-- The LINK packet of a port. -/
def Dev.tracePort (d : Dev) (p : Nat) : Dev :=
  d.traceLink (ppb p) (d.get .PORT_STATUS_LINK p) (d.get .PORT_STATUS_RATE p) (d.get .PORT_STATUS_WIDTH p)

/-- HOLD_LEFT_MS. -/
def Dev.holdLeft (d : Dev) (p : Nat) : Nat :=
  match (d.port p).hold with
  | some t => d.get .PORT_HOLD_HOLD_MS p - (d.gh.timer - t) / 19200
  | none => d.get .PORT_HOLD_HOLD_LEFT_MS p

/-- The link leaves L0 other than by a power state (R461). -/
def Dev.partnerDown (d : Dev) (p : Nat) : Dev :=
  if !d.portUp p then d
  else
    let now := d.gh.timer
    let d := ((d.set .PORT_STATUS_LINK 4 p).set .PORT_STATUS_MODE 0 p).bump .PP_RETRAIN_COUNT p
    let d := d.updPort p fun x => { x with hold := some now }
    (d.raise (ppb p) 0 0).tracePort p

/-- PARTNER_LINK_DOWN. -/
def execPartnerLinkDown (p : Nat) (s : State) : Out := s.run fun d => d.partnerDown p

/-- PARTNER_LINK_UP (R444, R462, R464, R465): from boot stage 8 on. -/
def execPartnerLinkUp (p width rate : Nat) (cxl : Bool) (s : State) : Out := s.run fun d =>
  if 7 < p ∨ !d.mayTrain 8 (p, (40 + p, ppb p)) rate ∨ d.portUp p ∨ d.boot.next < 8 then d
  else
    let mode := if cxl then 1 else 2
    let old := (d.port p).last
    let d := d.set .PORT_HOLD_HOLD_LEFT_MS (if d.get .PORT_STATUS_LINK p = 4 then d.holdLeft p else 0) p
    let d := ((d.set .PORT_STATUS_LINK 2 p).set .PORT_STATUS_MODE mode p).set .PORT_STATUS_WIDTH width p
    let d := (d.set .PORT_STATUS_RATE rate p).updPort p fun x => { x with hold := none, last := mode }
    let d := { d with pins := { d.pins with ppPerst := putBits d.pins.ppPerst p 1 1 } }
    let d := ((d.portTrained p 0 mode width rate).raise (ppb p) 0 1).tracePort p
    if old ≠ 0 ∧ old ≠ mode then d.raise (ppb p) 0 5 else d

/-- PARTNER_HOLD_EXPIRY (R463): the activation objects are retired. -/
def execPartnerHoldExpiry (p : Nat) (s : State) : Out := s.run fun d =>
  if 7 < p ∨ d.get .PORT_STATUS_LINK p ≠ 4 ∨ 0 < d.holdLeft p then d
  else
    let d := (d.set .PORT_STATUS_LINK 5 p).set .PORT_HOLD_HOLD_LEFT_MS 0 p
    let d := (d.updPort p fun x => { x with hold := none }).bump .HOLD_EXPIRE_COUNT p
    let hs := (d.objs.map (·.2)).filter fun o => o.partner == p && !o.stateWin
    let d := hs.foldl (fun e o => e.retire o.handle) d
    ((d.raise (ppb p) 0 2).tracePort p).ledgerEvent 2 0 (unitWord (ppb p))

/-- PP_PERST_N_FALL (R634): a reset of the partner function and a link-down; a wake in DOZE and HOLD. -/
def execPpPerstNFall (p : Nat) (s : State) : Out := s.run fun d =>
  if 7 < p ∨ bitsOf d.pins.ppPerst p 1 = 0 then d
  else
    let d := { d with pins := { d.pins with ppPerst := putBits d.pins.ppPerst p 1 0 } }
    let d := if d.asleep then d.wake 2 else d
    (d.partnerReset p).partnerDown p

end Sys2Proof.Machine
end

