-- ==== Sys2Proof/Machine/Hg.lean ====
section
/-! DEFINITION. The Headgate core's control: start, halt, task table, completion rings, events, task aborts (chapter 07). -/
namespace Sys2Proof.Machine

/-! ### Running and stopping (R162 to R164) -/

/-- A wait whose mask was interrupted (R164). -/
def Dev.waitMask (d : Dev) : Nat := d.rd64 .HG_WAIT_MASK_LO

/-- The core goes from a start: an interrupted WAIT at that pc is evaluated first (R164). A start elsewhere leaves the admission service. -/
def Dev.hgGo (d : Dev) (pc : Nat) (step : Bool) : Dev :=
  let again := d.hg.kept.isSome && pc == d.get .HG_PC_PC
  let d := { d with
    hg := { d.hg with stepping := step, haltReq := false, kept := if again then d.hg.kept else none }
    plan := { d.plan with job := if pc = d.get .HG_PC_PC then d.plan.job else none } }
  (d.set .HG_PC_PC pc).setHg (if again then hgWAITING else hgRUNNING)

/-- HG_CTRL.START (R162). -/
def Dev.hgStart (d : Dev) (p : Path) (v : Nat) : Dev :=
  let st := d.hgState
  if st = hgRESET ∨ st = hgHALTED ∨ st = hgFAULTED then d.hgGo (d.get .HG_START_PC_PC) false
  else d.errWr p hgb 0 0x80 0x0211 v

/-- HG_CTRL.STEP (R164): from the current pc in HALTED, else from HG_START_PC; a running core refuses it as it does START. -/
def Dev.hgStep (d : Dev) (p : Path) (v : Nat) : Dev :=
  let st := d.hgState
  if st = hgHALTED then d.hgGo (d.get .HG_PC_PC) true
  else if st = hgRESET ∨ st = hgFAULTED then d.hgGo (d.get .HG_START_PC_PC) true
  else d.errWr p hgb 0 0x80 0x0211 v

/-- HG_CTRL.HALT_REQ (R164): at the next bundle boundary. A core in WAIT halts at once and keeps the wait. -/
def Dev.hgHaltReq (d : Dev) : Dev :=
  let st := d.hgState
  if st = hgWAITING then { d.hgHalted with hg := { d.hgHalted.hg with kept := some d.waitMask } }
  else if st = hgRUNNING ∧ d.atBundleEnd then d.hgHalted
  else if st = hgRUNNING ∨ st = hgFROZEN ∨ st = hgSLEEPING then { d with hg := { d.hg with haltReq := true } }
  else d

/-- A write of HG_CTRL: START, then HALT_REQ, then STEP. -/
def Dev.hgCtrlWrite (d : Dev) (p : Path) (v : Nat) : Dev :=
  let d := if bitsOf v 0 1 = 1 then d.hgStart p v else d
  let d := if bitsOf v 1 1 = 1 then d.hgHaltReq else d
  if bitsOf v 2 1 = 1 then d.hgStep p v else d

/-- HG_START. -/
def execHgStart (p : Path) (s : State) : Out := s.run fun d => d.viaReg p .HG_CTRL 0 1 fun e => e.hgCtrlWrite p 1

/-- HG_HALT_REQ. -/
def execHgHaltReq (p : Path) (s : State) : Out := s.run fun d => d.viaReg p .HG_CTRL 0 2 fun e => e.hgCtrlWrite p 2

/-- A write of HG_DOORBELL (Table 7-3). -/
def Dev.hgDoorbell (d : Dev) : Dev := d.evSet 36

/-- HG_DOORBELL. -/
def execHgDoorbell (p : Path) (v : Word) (s : State) : Out := s.run fun d =>
  d.viaReg p .HG_DOORBELL 0 v.toNat fun e => e.hgDoorbell

/-- HG_WAIT_END (R156, R164): EV and the mask meet: the core runs on, or halts where STEP executed the WAIT (after an interrupted WAIT
that a STEP evaluates again, the bundle at pc comes first). A HOLD entry keeps the core in its WAIT (R168). -/
def execHgWaitEnd (s : State) : Out := s.run fun d =>
  if d.hgState ≠ hgWAITING ∨ d.frozen hgb ∨ d.get .PWR_STATE_STATE = 3 ∨ d.pwr.entry ≠ 0 ∨ d.evWord &&& d.waitMask = 0 then d
  else if d.hg.stepping && d.hg.kept.isNone then d.hgHalted
  else ({ d with hg := { d.hg with kept := none } }.setHg hgRUNNING).stir.idleExit

/-- HG_TIMER_FIRE (R158): once per arming. -/
def execHgTimerFire (n : Nat) (s : State) : Out := s.run fun d =>
  if 3 < n ∨ !d.bit .HG_TMR_ARMED n ∨ bitsOf d.hg.fired n 1 = 1 ∨ d.gh.timer < d.rd64 (.HG_TMR_LO n) then d
  else d.tmrFire n

/-! ### Completion rings (R152 to R155) -/

/-- A write of RING_CONS_n. -/
def Dev.ringConsWrite (d : Dev) (p : Path) (n v : Nat) : Dev :=
  let c := v % 65536
  if d.ringEntries n < (d.rd (.RING_PROD n) + 65536 - c) % 65536 then d.errWr p hgb 1 (0x8C + 0x10 * n) 0x0213 v
  else (d.wr (.RING_CONS n) c).flushRecords

/-- RING_CONS_WRITE. -/
def execRingConsWrite (p : Path) (n : Nat) (v : Word) (s : State) : Out := s.run fun d =>
  if 7 < n then d else d.viaReg p (.RING_CONS n) 0 v.toNat fun e => e.ringConsWrite p n v.toNat

/-- Is a ring empty, and named by no task? -/
def Dev.ringUnused (d : Dev) (n : Nat) : Bool := d.ringUsed n == 0 && d.hg.tasks.all fun t => t.ring != n

/-- Would a ring of this base and size be acceptable: aligned to its length, below the state-save area (R154)? -/
def ringFits (base log2 : Nat) : Bool :=
  if log2 = 0 then true else base % (32 * 2 ^ log2) == 0 && decide (base + 32 * 2 ^ log2 ≤ 0x1FF000)

/-- A write of RING_BASE_n or RING_SIZE_n (R6, R154). -/
def Dev.ringConfigWrite (d : Dev) (p : Path) (n : Nat) (size : Bool) (v : Nat) : Dev :=
  let off := (if size then 0x84 else 0x80) + 0x10 * n
  let log2 := if size then v % 16 else d.get (.RING_SIZE_LOG2 n)
  let base := if size then d.rd (.RING_BASE n) else bitsOf v 5 16 * 32
  if size ∧ log2 ≠ 0 ∧ (log2 < 4 ∨ 12 < log2) then (d.errWr p hgb 1 off 0x0001 v).set (.RING_SIZE_NOTIFY n) (bitsOf v 31 1)
  else if !d.ringUnused n || !ringFits base log2 then d.errWr p hgb 1 off 0x0212 v
  else if size then d.wr (.RING_SIZE n) (bitsOf v 31 1 * 2 ^ 31 + log2) else d.wr (.RING_BASE n) base

/-- RING_CONFIG_WRITE: `size` tells RING_SIZE_n from RING_BASE_n. -/
def execRingConfigWrite (p : Path) (n : Nat) (size : Bool) (v : Word) (s : State) : Out := s.run fun d =>
  if 7 < n then d
  else d.viaReg p (if size then .RING_SIZE n else .RING_BASE n) 0 v.toNat fun e => e.ringConfigWrite p n size v.toNat

/-! ### The instruction SRAM window (R165) -/

/-- A 4-byte write at an offset of the window: the core is stopped, and the firmware region is not locked. -/
def Dev.imemWrite (d : Dev) (p : Path) (off v : Nat) : Dev :=
  let st := d.hgState
  let code := if !(st == hgRESET || st == hgHALTED || st == hgFAULTED) then 0x0210
    else if off < 0x40000 ∧ d.get .HG_IMEM_LOCK_LOCK = 1 then 0x0004 else 0
  if code ≠ 0 then d.err hgb 0 code (accessWord p (off % 4096) 4 true) v
  else (d.st spImem off 4 v).eccWrite (if off < 0x40000 then 1 else 2) (off / 4)

/-- IMEM_WINDOW_WRITE; a DEVICE_FATAL device discards it (R596). -/
def execImemWindowWrite (p : Path) (off : Nat) (v : Word) (s : State) : Out := s.run fun d =>
  let a := off / 4 * 4 % 0x100000
  if !d.pathUp p || d.get .DEV_FATAL_LEVEL == 2 then d
  else d.heldAccess (wakeSrc p) (.bus p (0x1000000 + a) 4 (some v.toNat)) fun e => e.imemWrite p a v.toNat

/-! ### The task table (R148 to R151, R161, R163, R186) -/

/-- The block of an engine instance (Table 8-7). -/
def engineBlk (cls inst : Nat) : Nat := blkBase cls + inst

/-- A task enters the table (R148, R149): its tag, the sequence of its slot one higher; the tag goes to its handle register, whose HDONE
clears; TASK_ISSUE. A task issued in DOZE is a wake (Table 4-7). -/
def Dev.issueTask (d : Dev) (i hdr w1 w2 w3 : Nat) : Dev :=
  let seq := (Sparse.get (fun _ => 255) d.hg.seqs i + 1) % 256
  let tag := seq * 256 + i
  let t : Task := { tag := tag, st := 1, sent := false, hdr := hdr, w1 := w1, w2 := w2, w3 := w3, issued := d.gh.timer, moved := 0,
                    winner := 7, wait := none, waits := [], outcome := 0, cause := 0, orphan := false, full := false }
  let d := { d with hg := { d.hg with seqs := Sparse.put (fun _ => 255) d.hg.seqs i seq, tasks := d.hg.tasks ++ [t] } }
  let d := if t.hv then (d.setH t.handle (BitVec.ofNat 32 (0x80000000 + tag))).clearEv (2 ^ (16 + t.handle)) else d
  let d := d.set .HG_TASKS_PEAK (max (d.get .HG_TASKS_PEAK) d.hg.tasks.length)
  let d := d.trace { src := 1, type := 0x09, key := some t.object, handle := some t.object, svc := some t.svc,
                     body := leBytes 2 tag ++ leBytes 2 t.cls ++ leBytes 1 t.inst ++ leBytes 1 t.op ++ leBytes 1 t.svc
                       ++ leBytes 4 t.object }
  if d.asleep then d.wake 7 else d.idleExit

/-- TASK_DISPATCH (R60, R161, R163, R186): the oldest undispatched task of its engine goes to it, or is REFUSED where the engine is not
PRESENT. `ue`: the read of its object's entry finds an uncorrectable error (R580, R582). -/
def execTaskDispatch (tag : Nat) (ue : Bool) (s : State) : Out := s.run fun d =>
  match d.task? tag with
  | none => d
  | some t =>
    let first := d.hg.tasks.find? fun u => u.st == 1 && !u.sent && u.cls == t.cls && u.inst == t.inst
    if t.st ≠ 1 ∨ t.sent ∨ first ≠ some t ∨ d.frozen hgb ∨ d.asleep then d
    else if !d.present (engineBlk t.cls t.inst) then d.refuse tag cEngineAbsent
    else
      let d := d.updTask tag fun u => { u with sent := true }
      if t.object = 0 then d
      else
        let i := hIndex t.object
        let d := if ue then d.eccBad 4 (8 * i + 1) else d
        let d := d.touchEntry i
        if ((d.objAt i).map fun o => o.ue).getD false then d.refuse tag 0x1001 else d

/-- An accepted task ends by an abort as its engine's chapter states (R169, R286, R310, R387, R439); where a chapter states nothing more, the
task ends REFUSED and the engine goes on (notes/assumptions/27.md). -/
def Dev.abortAccepted (d : Dev) (t : Task) : Dev :=
  if t.cls = 0x40 then
    match (d.flm.turns.find? fun x => x.tag == t.tag), (d.flm.streams.find? fun x => x.tag == t.tag) with
    | some x, _ => d.ctxAbort x.flume x.ctx cTaskAborted
    | none, some x => d.ctxAbort x.flume x.ctx cTaskAborted
    | none, none => d.refuse t.tag cTaskAborted
  else if t.cls = 0x61 then
    match d.chains.find? fun c => c.tag == some t.tag with
    | some c => d.chainAbort c cTaskAborted
    | none => d.refuse t.tag cTaskAborted
  else if t.cls = 0x31 then
    let moved := Sparse.get (fun _ => 0) d.pool.evicting t.tag
    let d := { d with pool := { d.pool with waiting := d.pool.waiting.filter fun x => x / 4 != t.tag } }
    (d.taskEnd t.tag 3 cTaskAborted moved).drainAbort t.tag
  else if t.cls = 0x80 ∧ ((d.ck.restore.map fun r => r.tag == t.tag).getD false) then d.restoreFail cTaskAborted
  else d.refuse t.tag cTaskAborted

/-- The abort of a tag (R169, R170). -/
def Dev.taskAbort (d : Dev) (tag : Nat) : Dev :=
  match d.task? tag with
  | none => d.err hgb 3 0x0214 tag 0
  | some t =>
    if t.st = 3 then d.err hgb 3 0x0214 tag 0
    else if t.st = 1 then d.refuse tag cTaskAborted
    else d.abortAccepted t

/-- Every task in the table that has not completed is aborted. -/
def Dev.taskAbortAll (d : Dev) : Dev :=
  (d.hg.tasks.filter fun t => t.st != 3).foldl (fun e t => if (e.task? t.tag).isSome then e.taskAbort t.tag else e) d

/-- A write of HG_TASK_ABORT. -/
def Dev.taskAbortWrite (d : Dev) (v : Nat) : Dev := if bitsOf v 31 1 = 1 then d.taskAbortAll else d.taskAbort (v % 65536)

/-- TASK_ABORT. -/
def execTaskAbort (p : Path) (tag : Nat) (s : State) : Out := s.run fun d =>
  d.viaReg p .HG_TASK_ABORT 0 (tag % 65536) fun e => e.taskAbortWrite (tag % 65536)

/-- TASK_ABORT_ALL. -/
def execTaskAbortAll (p : Path) (s : State) : Out := s.run fun d =>
  d.viaReg p .HG_TASK_ABORT 0 0x80000000 fun e => e.taskAbortWrite 0x80000000

end Sys2Proof.Machine
end

