-- ==== Sys2Proof/Machine/Views.lean ====
section
/-! DEFINITION. What a register reads where its value is derived from other state: the header's status, levels, occupancies, selected
views (Tables 3-7 to 27-12). Every other register reads its stored word. -/
namespace Sys2Proof.Machine

/-! ### The header (Table 3-7) -/

/-- BLK_STATUS.ERROR: ERR_CODE.VALID of any page. -/
def Dev.blkError (d : Dev) (b : Nat) : Bool := (List.range 4).any fun g => bitsOf (d.hrd b g offErr) 31 1 == 1

/-- BLK_STATUS.FROZEN: the effective freeze holds and has been reached. -/
def Dev.isFrozen (d : Dev) (b : Nat) : Bool := d.frozen b && d.statBit b 2

/-- BLK_STATUS.GFROZEN. -/
def Dev.gfrozen (d : Dev) (b : Nat) : Bool :=
  d.isFrozen b && d.get .GLOBAL_CTRL_FREEZE == 1 && !freezeExempt b && d.present b

/-- BLK_STATUS (R663). -/
def Dev.blkStatus (d : Dev) (b : Nat) : Nat :=
  bitsOf (d.hrd b 0 offStatus) 16 16 * 65536 + bit01 (d.gfrozen b) * 64 + bit01 (d.blkError b) * 32
    + bit01 ((d.ent b).status == 2) * 16 + bit01 (d.statBit b 3) * 8 + bit01 (d.isFrozen b) * 4 + bit01 (d.statBit b 1) * 2
    + bit01 (d.enabled b)

/-- BLK_VER: 1.0 for a Flume (Table 3-9); what the spec does not give is a free value (notes/assumptions/101.md). -/
def blkVer (cls : Nat) : Nat := if cls = 0x40 then 0x10000 else (Config.blkVer cls).toNat

/-- A bit per index below `n`. -/
def maskOf (n : Nat) (f : Nat → Bool) : Nat := (List.range n).foldl (fun a i => a + bit01 (f i) * 2 ^ i) 0

/-- Word `w` of a 64-bit value. -/
def half (v w : Nat) : Nat := v / 2 ^ (32 * w) % 2 ^ 32

/-! ### Derived registers, block by block -/

/-- Flash registers that each path has of its own: the management path's stand behind the page (R611). -/
def pathPage (p : Path) : Nat := match p with
  | .host => 0
  | .mgmt => 7

/-- The size of the flash in MiB (R610). -/
def flashMib : Nat := max 64 (Config.flashMib ())

/-- The level that the device drives on GPIO pin `n` by its function, none where it drives none (Table 27-8). -/
def Dev.gpioPin (d : Dev) (n : Nat) : Option Bool :=
  match bitsOf (d.get .GPIO_FUNC_FUNC) (3 * n) 3 with
  | 1 => some (d.bit .GPIO_OUT n)
  | 2 => some (d.get .BOOT_STATUS_RESULT == 1)
  | 3 => some (d.get .PWR_STATE_STATE == 3)
  | 4 => some (decide (d.get .GOV_APPLIED_MHZ < d.get .GOV_SHADOW_MHZ) || decide (d.get .GOV_APPLIED_MHZ < d.get .GOV_FREQ_BOUNDS_HIGH))
  | 5 => some (match d.trc.hitAt with
    | some t => decide (d.gh.timer < t + 2)
    | none => false)
  | _ => none

/-- The levels of the GPIO pins: a pin that the device drives has the level it drives (DESIGN CHOICE, notes/assumptions/134.md). -/
def Dev.gpioLevels (d : Dev) : Nat := maskOf 8 fun n => (d.gpioPin n).getD (bitsOf d.gh.gpio n 1 == 1)

/-- The Management Block page. -/
def Dev.mgmtView (d : Dev) (p : Path) (off : Nat) : Option Nat :=
  if off = 0x84 then
    some (bit01 (d.get .GLOBAL_CTRL_FREEZE == 1 && d.get .GLOBAL_STATUS_ALL_FROZEN == 0) * 2 + d.get .GLOBAL_STATUS_ALL_FROZEN)
  else if 0x90 ≤ off ∧ off < 0xA0 then
    let w := (off - 0x90) / 4
    some (maskOf 32 fun i => decide (32 * w + i < blkCount) && d.blkError (32 * w + i))
  else if off = 0xE8 then some d.gpioLevels
  else if off = 0x100 ∨ off = 0x104 then some (d.hrd 109 (pathPage p) off)
  else if off = 0x10C then
    let own := match d.mgmt.flash with
      | some j => bit01 j.mgmt
      | none => 0
    let busy := d.mgmt.flash.isSome
    some (bit01 busy * 2 ^ 31 + own * 2 ^ 30 + bit01 (busy && d.get .LEDGER_FLASH_COPY_PENDING == 1) * 2 ^ 29
      + bitsOf (d.hrd 109 (pathPage p) 0x10C) 0 16)
  else if off = 0x110 then some (0x10000 + flashMib % 65536)
  else if 0x200 ≤ off ∧ off < 0x300 then some (d.ld spFlashBuf (p.ix * 256 + (off - 0x200)) 4)
  else none

/-- The Thermal and power page. -/
def Dev.pwrView (d : Dev) (off : Nat) : Option Nat :=
  if off = 0x88 then some d.pwrEffective
  else if off = 0x98 then
    let v := d.rd .PWR_REQ_STATUS
    some (if d.pwr.pend.isSome then putBits v 16 16 (lowestCause d.blockers) else v)
  else if off = 0xF8 then some d.blockers
  else if off = 0x100 then some (Config.vfused (d.get .GOV_VF_SEL_STEP))
  else none

/-- The Gauge House pages: the AO timer, RUNNING, and the retention area from page 2 on (Tables 5-7, 5-8, 6-6). -/
def Dev.ghView (d : Dev) (page off : Nat) : Option Nat :=
  if page = 0 then
    if off = 0x84 then some (putBits (d.rd .GH_STATUS) 0 1 (bit01 (!(d.ctrlBit 1 3 && d.gh.handler == 0))))
    else if off = 0x8C then some (half d.gh.timer 0)
    else if off = 0x90 then some (half d.gh.timer 1)
    else none
  else if 2 ≤ page ∧ 0x100 ≤ off then some (d.ld spLedger ((page - 2) * 0xF00 + (off - 0x100)) 4)
  else none

/-- The Headgate pages. -/
def Dev.hgView (d : Dev) (page off : Nat) : Option Nat :=
  if page = 0 ∧ off = 0x9C then some (half d.evWord 0)
  else if page = 0 ∧ off = 0xA0 then some (half d.evWord 1)
  else if page = 2 ∧ 0xC0 ≤ off ∧ off < 0xE0 then some (d.hg.marks.getD ((off - 0xC0) / 4) []).length
  else if page = 3 ∧ off = 0x80 then some (d.get .HG_TASKS_PEAK * 65536 + d.hg.tasks.length)
  else none

/-- The Allotment Table pages. -/
def Dev.allotView (d : Dev) (page off : Nat) : Option Nat :=
  if page = 0 ∧ off = 0x80 then some d.objs.length
  else if page = 0 ∧ off = 0xC4 then some (d.stateCount oRETIRED)
  else if page = 1 ∧ 0x80 ≤ off ∧ off < 0xB8 then some (d.stateCount ((off - 0x80) / 4))
  else none

/-- The stream that a context shows: the lowest halted one, else the lowest (R310). -/
def Dev.shownStream (d : Dev) (f c : Nat) : Option Stream :=
  let ss := d.ctxStreams f c
  match ss.find? fun s => s.st == 5 with
  | some s => some s
  | none => ss.head?

/-- CTX_c word `w`. -/
def Dev.ctxWord (d : Dev) (f c w : Nat) : Nat :=
  match w, d.shownStream f c with
  | 0, _ => (d.ctxTag f c).getD 0 * 65536 + d.ctxState f c
  | 1, some s =>
    (if 4 ≤ s.st then s.cause else d.get (.CTX_W1_CAUSE c) f) * 65536 + s.op * 256 + bit01 s.abort
  | 1, none => (match d.ctxTag f c with
    | some _ => d.get (.CTX_W1_CAUSE c) f * 65536 + 0x500
    | none => d.rd (.CTX_W1 c) f)
  | 2, some s => s.handle
  | 2, none => d.rd (.CTX_W2 c) f
  | _, some s => s.gran % 16 * 2 ^ 24 + (s.first + s.low) % 2 ^ 24
  | _, none => d.rd (.CTX_W3 c) f

/-- Is a turnout program in WAITT, WAITO or WAITB? -/
def Turn.waits (t : Turn) : Bool := match t.wait with
  | .waitt _ => true
  | .waito _ _ _ _ _ _ => true
  | .waitb _ _ => true
  | _ => false

/-- The Flume pages. The lead settings and the lead table are device-wide (R282): held with Flume 0. -/
def Dev.flmView (d : Dev) (f page off : Nat) : Option Nat :=
  if page = 0 then
    if off = 0x80 then
      some (maskOf 16 (fun c => d.ctxState f c != 0) + 65536 * maskOf 16 fun c => d.ctxState f c == 5)
    else if off = 0x84 then some (d.get .FLM_OUT_PEAK f * 65536 + d.outstanding f)
    else none
  else if 0x80 ≤ off ∧ off < 0x180 then some (d.ctxWord f ((off - 0x80) / 16) (off / 4 % 4))
  else if 0x200 ≤ off ∧ off ≤ 0x210 then some (d.hrd 6 1 off)
  else if off = 0x214 then some d.flm.lead.tab.length
  else if off = 0x21C then some (d.leadOf (d.get .LEAD_SEL_SLOT f)).1
  else if off = 0x220 then some (d.leadOf (d.get .LEAD_SEL_SLOT f)).2
  else if off = 0x300 then
    some (65536 * maskOf 16 (fun c => ((d.turn? f c).map Turn.waits).getD false) + maskOf 16 fun c => (d.turn? f c).isSome)
  else none

/-- The Siphon's pages. -/
def Dev.tileView (d : Dev) (n off : Nat) : Option Nat :=
  let run := d.chains.find? fun c => c.st != 0 && c.tiles.contains n
  if off = 0x80 then
    some (match run with
      | some c => bit01 (c.left.contains n && c.st == 1) * 2 ^ 31 + c.op % 256 * 65536 + c.index % 65536
      | none => 0)
  else if off = 0x88 then some (match run with
    | some c => d.scratchShare c.index c.tiles.length
    | none => 0)
  else none

/-- The Cistern's pages. -/
def Dev.ckView (d : Dev) (page off : Nat) : Option Nat :=
  let g := d.region? (d.get .CK_REGION_SEL_REGION)
  let nb (x : Nat) : Nat := ((g.bind fun r => r.nbrs[x]?).map Nbr.st).getD 0
  if page = 0 then
    if off = 0x80 then
      some (d.get .CK_STATUS_RESTORING * 2 ^ 31
        + maskOf 16 fun r => ((d.region? r).map fun g => d.phase g != 0).getD false)
    else if off = 0x88 then some ((g.map Region.nextStep).getD 0)
    else if off = 0x90 then some (((g.map d.phase).getD 0) * 2 ^ 28 + nb 0 * 2 ^ 26 + nb 1 * 2 ^ 24)
    else if off = 0x94 then some (half ((g.map Region.epoch).getD 0) 0)
    else if off = 0x98 then some (half ((g.map Region.epoch).getD 0) 1)
    else if off = 0xA4 ∨ off = 0xA0 then none
    else none
  else if page = 1 then
    if off = 0x124 ∨ off = 0x128 then
      some (half ((d.slot (d.get .HOST_SEL_SLOT)).buf (d.get .HOST_SEL_BUF)).epoch ((off - 0x124) / 4))
    else if 0x90 ≤ off ∧ off % 256 = 0x98 then
      let s := d.slot ((off - 0x98) / 256)
      some (s.gen * 65536 + (s.buf 1).st * 16 + (s.buf 0).st)
    else if 0x90 ≤ off ∧ off % 256 = 0x9C then
      let s := d.slot ((off - 0x9C) / 256)
      some (match s.lease with
        | some (t, ms) => min 0xFFFFFFFF (ticksToUs (t + msToTicks ms - d.gh.timer))
        | none => 0)
    else none
  else none

/-- A lateral link's page 1. -/
def Dev.linkView (d : Dev) (l off : Nat) : Option Nat :=
  let x := d.link l
  if off = 0x80 then some (x.nextSeq * 65536 + x.expect)
  else if off = 0x84 then
    some (x.replay.length * 65536 + (match x.replay with
      | f :: _ => (f.seq + 4095) % 4096
      | [] => (x.nextSeq + 4095) % 4096))
  else if 0xA0 ≤ off ∧ off < 0xB0 then some (x.avail ((off - 0xA0) / 4))
  else if 0xB0 ≤ off ∧ off < 0xC0 then
    let v := (off - 0xB0) / 4
    some (rxBuf v - (x.rxq.filter fun f => f.vc == v).length)
  else none

/-- The value of a register that is derived, on a path. -/
def Dev.derived (d : Dev) (p : Path) (b page off : Nat) : Option Nat :=
  let i := blkInst b
  let c := blkClass b
  if c = 0xe0 then d.mgmtView p off
  else if c = 0xe1 then d.pwrView off
  else if c = 0x10 then d.ghView page off
  else if c = 0x20 then d.hgView page off
  else if c = 0x30 then d.allotView page off
  else if c = 0x31 then
    let n := (off - 0x14C) / 16
    if page = 1 ∧ 0x14C ≤ off ∧ off < 0x18C ∧ (off - 0x14C) % 16 = 0 then
      some (d.get (.NODE_STATUS_FAILED n) + 2 * bit01 (d.get (.NODE_VALID n) == 1 && d.nodeDegraded (d.get (.NODE_NODE n))))
    else none
  else if c = 0x40 then d.flmView i page off
  else if c = 0x50 then
    if off = 0x80 then some (bit01 ((d.laneHead i).isSome) * 2 ^ 31 + d.laneBytes i) else none
  else if c = 0x51 then
    if off = 0xAC then
      some ((d.keyStage p).length * 65536 + maskOf 16 fun s => (d.keyOf s).isSome)
    else none
  else if c = 0x61 then
    if off = 0x80 then some (65536 * maskOf 16 (fun n => d.busyTiles.contains n) + d.chains.length) else none
  else if c = 0x60 then d.tileView i off
  else if c = 0x70 then
    if page = 1 ∧ off = 0x88 then
      let t := d.tensor (d.get .PTS_SEL_TENSOR)
      some (bit01 t.pinEn * 2 ^ 31 + t.pin)
    else none
  else if c = 0x80 then d.ckView page off
  else if c = 0x90 then
    if page = 0 ∧ off = 0x84 then some (d.get .PORT_HOLD_HOLD_MS i * 65536 + d.holdLeft i) else none
  else if c = 0xa1 then
    if off = 0xA4 ∨ off = 0xA8 then some (half (d.unitUsed 2 i) ((off - 0xA4) / 4)) else none
  else if c = 0xb0 then (if page = 1 then d.linkView i off else none)
  else if c = 0xb1 then (if page = 0 ∧ off = 0x98 then some (d.route (d.get .LR_ROUTE_SEL_NODE)) else none)
  else if c = 0xc0 then
    if page = 0 ∧ (off = 0xB0 ∨ off = 0xB4) then some (half (d.unitUsed 1 i) ((off - 0xB0) / 4)) else none
  else if c = 0xd0 then
    if off = 0xC8 ∨ off = 0xCC then some (half d.trcNow ((off - 0xC8) / 4)) else none
  else none

/-- Registers whose value nothing in the spec fixes at the accuracy this model keeps: cycle counts (section "Timing and hazards"). They read
a free value. -/
def freeReg (b page off : Nat) : Bool := b == 3 && page == 0 && (off == 0xB8 || off == 0xBC || off == 0xC8)

/-- IRQ_RAW (R47): the present level of each event's condition. An event that is a moment has level 0 (DEDUCED,
notes/assumptions/111.md). -/
def Dev.irqRaw (d : Dev) (b page : Nat) : Nat :=
  let c := blkClass b
  let i := blkInst b
  let out (lo hi x : Int) : Bool := decide (x < lo) || decide (hi < x)
  if c = 0xb0 ∧ page = 0 then
    32 * bit01 (d.get .LL_RATE_SHADOW_RATE i != 0 && out (d.get .LL_RATE_BOUNDS_LOW i) (d.get .LL_RATE_BOUNDS_HIGH i) (d.get .LL_RATE_SHADOW_RATE i))
      + 64 * bit01 (d.get .LL_STATUS_STATE i == 8)
  else if page ≠ 0 then 0
  else if c = 0x10 then
    16 * bit01 (d.get .KEY_RET_STATUS_LOST != 0) + 64 * bit01 ((d.pwr.pend.map fun r => r.target == 3).getD false)
  else if c = 0x11 then bit01 (d.get .BOOT_STATUS_RESULT == 1)
  else if c = 0x20 then bit01 (d.get .HG_STATE_STATE == 4) + 2 * bit01 (d.get .HG_STATE_STATE == 1)
  else if c = 0x31 then 32 * bit01 (out (d.get .AGE_LOW_US) (d.get .AGE_HIGH_US) (d.rd .AGE_SHADOW))
  else if c = 0x40 then bit01 (d.flm.streams.any fun s => s.flume == i && s.st == 5)
  else if c = 0x70 then
    32 * bit01 (out (signed 8 (d.get .LS_BOUNDS_LOW)) (signed 8 (d.get .LS_BOUNDS_HIGH)) (signed 16 (d.get .LS_SHADOW_EXP)))
  else if c = 0x80 then 16 * bit01 (d.ck.regions.any fun g => g.halted)
  else if c = 0xb1 then 16 * bit01 (!d.lr.unreach.isEmpty) + 32 * bit01 (!d.lr.detours.isEmpty)
  else if c = 0xc0 then 4 * bit01 (d.get .HBM_STATUS_STATE i == 2 && decide ((d.get .HBM_TEMP_ALARM_DEG_C i : Int) ≤ signed 8 (d.get .HBM_TEMP_DEG_C i)))
  else if c = 0xd0 then 4 * bit01 (d.trc.lostN != 0)
  else if c = 0xe0 then
    bit01 (d.get .GLOBAL_STATUS_ALL_FROZEN == 1) + 4 * bit01 (d.get .DEV_FATAL_LEVEL != 0) + 8 * bit01 (d.get .FA_STATUS_WIRE == 1)
  else if c = 0xe1 then
    4 * bit01 (decide (signed 16 (d.get .THROTTLE_THRESH_ON) ≤ d.pwr.tj))
      + 16 * bit01 (out (d.get .GOV_FREQ_BOUNDS_LOW) (d.get .GOV_FREQ_BOUNDS_HIGH) (d.get .GOV_SHADOW_MHZ) && d.get .GOV_SHADOW_MHZ != 0)
      + 32 * bit01 (decide (8 * d.get .POWER_CAP_WATTS < d.get .POWER_NOW_POWER)) + 64 * bit01 (decide (420 < d.pwr.tj))
      + 128 * bit01 (decide (d.pwr.tj < 0))
  else 0

/-- Does a field of this access type read zero (Table 3-5, and a W1S field clears itself)? -/
def Access.hidden : Access → Bool
  | .wo => true
  | .w1s => true
  | _ => false

/-- A register's word with its write-only fields read as zero and bits outside its fields zero (R5, R49). -/
def RegRow.shown (r : RegRow) (v : Nat) : Nat :=
  r.flds.foldl (fun a f => if f.acc.hidden then a else a + bitsOf v f.lo (f.hi + 1 - f.lo) * 2 ^ f.lo) 0

/-- The value of the register at a page offset, before any latch. -/
def Dev.regVal (d : Dev) (p : Path) (b page off : Nat) : Nat × Dev :=
  if freeReg b page off then
    let r := d.fresh
    (r.1 % 2 ^ 32, r.2)
  else
    (if off < 0x80 then
      (if off = 0 then blkClass b * 65536 + blkInst b * 256 + page
       else if off = 4 then blkVer (blkClass b)
       else if off = 8 then (Config.blkCaps (blkClass b)).toNat
       else if off = 0x0C then d.hrd b 0 offCtrl
       else if off = 0x10 then d.blkStatus b
       else if off = 0x14 then d.irqRaw b page
       else if off = 0x20 ∨ off = 0x3C ∨ 0x40 ≤ off then 0
       else if off = 0x38 then (Sparse.get (fun _ => 0) d.sel (p.ix * 1024 + b * 8 + page)).toNat
       else d.hrd b page off)
     else match d.derived p b page off with
       | some v => v % 2 ^ 32
       | none => match rowAt (blkClass b) page off with
         | some r => r.shown (d.hrd b page off)
         | none => 0, d)

end Sys2Proof.Machine
end

