-- ==== Sys2Proof/Machine/Flash.lean ====
section
/-! DEFINITION. The flash controller (R611 to R614): its command block per path, its refusals, its commands. -/
namespace Sys2Proof.Machine

/-- Does [a, a + n) meet [lo, hi)? -/
def meets (a n lo hi : Nat) : Bool := decide (a < hi) && decide (lo < a + n)

/-- The bytes that a command touches. -/
def flashSize (cmd len : Nat) : Nat := if cmd = 3 then 4096 else if cmd = 4 then 65536 else len

/-- The ledger regions, and the image region in use. -/
def Dev.flashProtected (d : Dev) (a n : Nat) : Bool :=
  meets a n 0x10000 0x30000 ||
    (if d.param 2 8 % 2 = 0 then meets a n 0x100000 0x1D00000 else meets a n 0x2000000 0x3C00000)

/-- Why a command that finds the controller free is refused (R612); 0: it is not. -/
def Dev.flashRefusal (d : Dev) (cmd addr len : Nat) : Nat :=
  let n := flashSize cmd len
  if cmd ≠ 1 ∧ d.flashProtected addr n then 0x1103
  else if d.boot.running then 0x1105
  else if flashMib * 2 ^ 20 < addr + n ∨ 3 ≤ cmd ∧ addr % n ≠ 0 then 0x1104
  else 0

/-- RESULT of a path (FLASH_STATUS). -/
def Dev.setResult (d : Dev) (p : Path) (r : Nat) : Dev := d.hwr 109 (pathPage p) 0x10C r

/-- A path's command block. -/
def Dev.flashAddr (d : Dev) (p : Path) : Nat := d.hrd 109 (pathPage p) 0x100
def Dev.flashLen (d : Dev) (p : Path) : Nat := d.hrd 109 (pathPage p) 0x104
def Dev.setFlashAddr (d : Dev) (p : Path) (v : Nat) : Dev := d.hwr 109 (pathPage p) 0x100 v
def Dev.setFlashLen (d : Dev) (p : Path) (v : Nat) : Dev := d.hwr 109 (pathPage p) 0x104 v

/-- A path's 256-byte buffer. -/
def Dev.flashBuf (d : Dev) (p : Path) (n : Nat) : List Byte := d.rbs spFlashBuf (p.ix * 256) n
def Dev.setFlashBuf (d : Dev) (p : Path) (off : Nat) (b : List Byte) : Dev := d.wbs spFlashBuf (p.ix * 256 + off) b

/-- A command starts on a path's block, or is refused with a code, which is also that path's RESULT (notes/assumptions/30.md). -/
def Dev.flashStart (d : Dev) (p : Path) (src : Option MSrc) (cmd : Nat) : Dev × Nat :=
  let addr := d.flashAddr p
  let len := d.flashLen p
  let code := if d.mgmt.flash.isSome then 0x1102 else d.flashRefusal cmd addr len
  if code ≠ 0 then (d.setResult p code, code)
  else
    let j : FJob := { mgmt := p == .mgmt, src := src, cmd := cmd, addr := addr, len := len }
    ({ d.setResult p 0 with mgmt := { d.mgmt with flash := some j } }, 0)

/-- A write of FLASH_CMD (R6, R604, R611, R612). -/
def Dev.flashCmdWrite (d : Dev) (p : Path) (v : Nat) : Dev :=
  let cmd := v % 16
  if cmd = 0 ∨ 4 < cmd then d.errWr p 109 0 0x108 0x0001 v
  else if p = .mgmt ∧ cmd ≠ 1 ∧ d.get .MGMT_CTRL_FLASH_WR_EN = 0 then
    ((d.errWr p 109 0 0x108 0x1101 v).bump .MGMT_DENIED_COUNT).raise 109 0 5
  else
    let r := d.flashStart p none cmd
    if r.2 ≠ 0 then r.1.errWr p 109 0 0x108 r.2 v else r.1

/-- FLASH_CMD_READ. -/
def execFlashCmdRead (p : Path) (s : State) : Out := s.run fun d =>
  d.viaReg p .FLASH_CMD 0 1 fun e => e.flashCmdWrite p 1

/-- FLASH_CMD_PROGRAM. -/
def execFlashCmdProgram (p : Path) (s : State) : Out := s.run fun d =>
  d.viaReg p .FLASH_CMD 0 2 fun e => e.flashCmdWrite p 2

/-- FLASH_CMD_ERASE_4K. -/
def execFlashCmdErase4k (p : Path) (s : State) : Out := s.run fun d =>
  d.viaReg p .FLASH_CMD 0 3 fun e => e.flashCmdWrite p 3

/-- FLASH_CMD_ERASE_64K. -/
def execFlashCmdErase64k (p : Path) (s : State) : Out := s.run fun d =>
  d.viaReg p .FLASH_CMD 0 4 fun e => e.flashCmdWrite p 4

/-- NOR programming clears bits and sets none (notes/assumptions/31.md). -/
def norProgram (old new : List Byte) : List Byte := (old.zip new).map fun e => e.1 &&& e.2

/-- Erase [a, a + n): its cells read 0xFF again. -/
def Dev.flashErase (d : Dev) (a n : Nat) : Dev :=
  let lo := memKey spFlash a
  { d with mem := d.mem.filter fun e => decide (e.1 < lo) || decide (lo + n ≤ e.1) }

/-- The effect of a job; `bad`: the flash itself fails. Answers RESULT (R613). -/
def Dev.flashRun (d : Dev) (j : FJob) (bad : Bool) : Dev × Nat :=
  let p : Path := if j.mgmt then .mgmt else .host
  if j.cmd = 1 then (d.setFlashBuf p 0 (d.rbs spFlash j.addr j.len), 0)
  else if j.cmd = 2 then
    let new := d.flashBuf p j.len
    let got := norProgram (d.rbs spFlash j.addr j.len) new
    (d.wbs spFlash j.addr got, if got = new ∧ !bad then 0 else 0x1106)
  else (d.flashErase j.addr (flashSize j.cmd 0), 0)

/-- FLASH_COMMAND_DONE (R611, R613, R614): not while a ledger copy has the flash; an SMBus FLASH_READ is answered now (R602). -/
def execFlashCommandDone (bad : Bool) (s : State) : Out := s.run fun d =>
  match d.mgmt.flash with
  | none => d
  | some j =>
    if d.get .LEDGER_FLASH_COPY_PENDING = 1 then d
    else
      let p : Path := if j.mgmt then .mgmt else .host
      let r := d.flashRun j bad
      let d := { r.1.setResult p r.2 with mgmt := { r.1.mgmt with flash := none } }
      let d := d.raise 109 0 4
      match j.src with
      | some m => if j.cmd = 1 then d.emit (.mgmt m 0 0 (d.flashBuf p j.len)) else d
      | none => d

end Sys2Proof.Machine
end

