-- ==== Sys2Proof/Machine/Mirror.lean ====
section
/-! DEFINITION. The state mirror: the spaces of every block and their words (R62, R63, R662, R665, Table 3-14 and the chapters). -/
namespace Sys2Proof.Machine

/-- A space: its size in words, and whether multi-word consistency needs a freeze. -/
structure Space where
  words : Nat
  freeze : Bool
deriving DecidableEq, Repr

/-- The spaces of a block beyond the directory. Every page of a block shows them all (notes/assumptions/29.md). -/
def Dev.space? (d : Dev) (b k : Nat) : Option Space :=
  let c := blkClass b
  let sz : Nat × Bool :=
    if c = 0x10 then ([14, 16, 32, 1].getD (k - 1) 0, false)
    else if c = 0x11 then (if k = 1 then 8 * d.boot.recipe.length else 0, false)
    else if c = 0x20 then ([93, 3584, 512, 32].getD (k - 1) 0, k != 3)
    else if c = 0x30 then ([8388608, 8192, 8192].getD (k - 1) 0, true)
    else if c = 0x31 then ([512, 24576, 1024].getD (k - 1) 0, true)
    else if c = 0x40 then ([192, 512, 8192, 368].getD (k - 1) 0, true)
    else if c = 0x50 then ([1024].getD (k - 1) 0, true)
    else if c = 0x51 then ([16].getD (k - 1) 0, false)
    else if c = 0x61 then ([64].getD (k - 1) 0, true)
    else if c = 0x70 then ([8, 4096, 98304].getD (k - 1) 0, true)
    else if c = 0x80 then ([128, 64, 64].getD (k - 1) 0, k != 2)
    else if c = 0x90 then ([16, 4096].getD (k - 1) 0, k == 2)
    else if c = 0xa0 then ([4096].getD (k - 1) 0, true)
    else if c = 0xb0 then ([2048, 32].getD (k - 1) 0, true)
    else if c = 0xb1 then ([1024, 8192].getD (k - 1) 0, k == 2)
    else if c = 0xc0 then ([128, 32].getD (k - 1) 0, true)
    else if c = 0xd0 then ([64, 16].getD (k - 1) 0, k == 2)
    else (0, false)
  if k = 0 ∨ sz.1 = 0 then none else some { words := sz.1, freeze := sz.2 }

/-- Directory word `k` (Table 3-10, R662). -/
def Dev.dirWord (d : Dev) (b k : Nat) : Nat :=
  if k = 0 then 0x00010005
  else match d.space? b k with
    | none => 0
    | some s =>
      let atomic := (blkClass b == 0xb1 && k == 1) || Config.mirrorAtomic (blkClass b) k
      s.words * 256 + bit01 atomic * 4 + bit01 s.freeze * 2 + 1

/-! ### The Headgate's spaces (Table 7-8) -/

/-- Blocks moved or freed so far by a task. -/
def Dev.progress (d : Dev) (t : Task) : Nat :=
  if t.st < 2 then 0
  else match d.flm.streams.find? fun s => s.tag == t.tag with
    | some s => s.landed
    | none => t.moved + (d.pool.drains.filter fun x => x.tag == some t.tag).foldl (fun a x => a + x.moved) 0

/-- The 256-bit descriptor as eight words. -/
def Task.descr (t : Task) (w : Nat) : Nat := half ([t.hdr, t.w1, t.w2, t.w3].getD (w / 2) 0) (w % 2)

def Dev.hgMirror (d : Dev) (k i : Nat) : Nat :=
  if k = 1 then
    if i < 64 then half (d.hg.g.getD (i / 2) 0).toNat (i % 2)
    else if i = 64 then d.hg.p.toNat
    else if i < 81 then (d.hg.h.getD (i - 65) 0).toNat
    else if i = 81 then d.get .HG_PC_PC
    else if i = 82 then d.hgState
    else if i < 85 then half d.evWord (i - 83)
    else d.hrd 3 2 (0x80 + 4 * (i - 85))
  else if k = 2 then
    match d.hg.tasks.find? fun t => t.slot == i / 14 with
    | none => 0
    | some t =>
      let w := i % 14
      if w = 0 then t.st * 65536 + t.tag
      else if w = 1 then t.inst * 65536 + t.cls
      else if w = 2 then t.handle * 16 + bit01 t.hv * 8 + t.ring
      else if w < 5 then half t.issued (w - 3)
      else if w = 5 then d.progress t
      else t.descr (w - 6)
  else if k = 3 then (((d.hg.marks.getD (i / 64) []).map (·.1)).getD (i % 64) 0)
  else d.hrd 3 1 (0x80 + 16 * (i / 4) + 4 * (i % 4))

/-! ### The Pool Manager's spaces (Table 11-7, Table 3-14) -/

/-- A point and direction: the head of its C0 queue, and the deficits: what the class in turn has left of its weight (section
"Arbitration"). -/
def Dev.poolPoint (d : Dev) (pt dir w : Nat) : Nat :=
  let head := firstReq ((d.requests pt dir).filter fun r => r.svc == 0)
  let pos := Sparse.get (fun _ => (1, 0)) d.pool.arb (2 * pt + dir)
  if w = 0 then (match head with
    | some r => 2 ^ 31 + r.tag.getD 0
    | none => 0)
  else if w < 3 then ((head.map fun r => half r.deadline (w - 1)).getD 0)
  else if w < 7 then (if pos.1 = w - 2 then unsigned 32 ((d.weight pos.1 : Int) - pos.2) else 0)
  else 0

/-- An allocation that waits: tag, tier, bytes. -/
def Dev.waitingEntry (d : Dev) (e : Nat) : Nat × Nat × Nat :=
  match d.flm.streams.find? fun s => s.tag * 4 + s.slot == e with
  | some s => (match d.waitingDest s with
    | some (_, tier, _, n) => (s.tag, tier, n)
    | none => (s.tag, 0, 0))
  | none => match d.task? (e / 4) with
    | some t => (t.tag, t.poolTier, t.poolBytes)
    | none => (e / 4, 0, 0)

def Dev.poolMirror (d : Dev) (k i : Nat) : Nat :=
  if k = 1 then (if i / 32 < 14 then d.poolPoint (i / 32) (i / 16 % 2) (i % 16) else 0)
  else if k = 2 then
    match (d.victims)[i / 3]? with
    | none => 0
    | some o => if i % 3 = 0 then o.handle else half o.touch (i % 3 - 1)
  else
    match d.pool.waiting[i / 4]? with
    | none => 0
    | some e =>
      let x := d.waitingEntry e
      if i % 4 = 0 then x.1 else if i % 4 = 1 then x.2.1 else half x.2.2 (i % 4 - 2)

/-! ### The Flumes' spaces (Table 12-5, chapter 13, Table 3-14) -/

/-- The outstanding transfers of a Flume: context, direction (1 write), tier, address. -/
def Dev.transfers (d : Dev) (f : Nat) : List (Nat × (Nat × (Nat × Nat))) :=
  (d.flm.streams.filter fun s => s.flume == f).flatMap fun s =>
    let n := match d.obj? s.handle with
      | some o => s.srcBlk o
      | none => 65536
    (s.rdq.map fun e => (s.ctx, (0, (s.src.tier, s.src.at (s.blk (e.1 / pieces n) * n + 4096 * (e.1 % pieces n))))))
      ++ ((s.wq.take s.wi).map fun w => (s.ctx, (1, ((s.dst.map Place.tier).getD 1, w.addr))))

def Dev.flmMirror (d : Dev) (f k i : Nat) : Nat :=
  if k = 1 then
    let c := i / 12
    if i % 12 < 8 then (((d.ctxTag f c).bind d.task?).map fun t => t.descr (i % 12)).getD 0
    else d.ctxWord f c (i % 12 - 8)
  else if k = 2 then
    match (d.transfers f)[i / 2]? with
    | none => 0
    | some (c, dir, tier, a) =>
      if i % 2 = 0 then 2 ^ 31 + tier * 2 ^ 28 + dir * 2 ^ 24 + c * 65536 + bitsOf a 12 4 * 4096 else bitsOf a 16 32
  else if k = 3 then (if i % 2 = 0 then (d.leadOf (i / 2)).1 else (d.leadOf (i / 2)).2)
  else
    match d.turn? f (i / 23) with
    | none => 0
    | some t =>
      let w := i % 23
      if w = 0 then t.pc + bit01 t.z * 2 ^ 9 + bit01 t.n * 2 ^ 10 + bit01 t.t * 2 ^ 11
      else if w < 9 then t.a.getD (w - 1) 0
      else if w < 17 then half (t.b.getD ((w - 9) / 2) 0) ((w - 9) % 2)
      else if w = 17 then t.lanes + t.tid * 2 ^ 8
      else if w = 18 then t.dl
      else t.status.getD (w - 19) 0

/-! ### The other spaces -/

def Dev.laneMirror (d : Dev) (n i : Nat) : Nat :=
  match (d.slc.q.filter fun b => b.lane == n)[i / 4]? with
  | none => 0
  | some b =>
    if i % 4 = 0 then b.handle
    else if i % 4 = 1 then ((d.stream? (b.flume, b.ctx, b.slot)).map fun s => s.blk b.rel).getD b.rel
    else if i % 4 = 2 then b.dir * 2 ^ 31 + b.data.length
    else b.flume * 65536 + b.tag

/-- A key slot: LOADED, RETAIN, the blocks in flight that have latched it. -/
def Dev.slotMirror (d : Dev) (s : Nat) : Nat :=
  let n := (d.slc.q.filter fun b => b.escape && ((d.obj? b.handle).map fun o => o.enc && o.key == s).getD false).length
  n % 65536 * 65536 + bitsOf (d.rd .KEY_RETAIN) s 1 * 2 + bit01 (d.keyOf s).isSome

def Dev.portMirror (d : Dev) (p k i : Nat) : Nat :=
  if k = 1 then
    let size (j : Nat) : Nat := (if j = 0 then d.rd .HDM_SIZE_0 p else d.rd .HDM_SIZE_1 p) * 2 ^ 28
    if i = 0 then d.rd .PORT_STATUS p
    else if i < 5 then (d.port p).hist.getD (i - 1) 0
    else if i < 7 then 0
    else if i < 9 then half (size 0) (i - 7)
    else if i < 11 then half (size 0) (i - 9)
    else if i < 13 then half (size 1) (i - 11)
    else if i = 13 then d.rd .HDM_STATUS p
    else 0
  else
    match d.win? p (i / 4) with
    | none => 0
    | some w =>
      if i % 4 < 2 then half w.base (i % 4)
      else if i % 4 = 2 then bit01 w.state * 2 ^ 31 + w.blocks
      else bitsOf w.recs 16 32

def Dev.linkMirror (d : Dev) (l k i : Nat) : Nat :=
  let x := d.link l
  if k = 1 then
    match x.replay[i / 4]? with
    | none => 0
    | some f => leNat ((f.header.drop (4 * (i % 4))).take 4)
  else if i < 6 then unsigned 32 (x.taps.getD i 0)
  else x.hist.getD (i - 6) 0

/-- Freeboard's spaces (section "Mirror spaces" of chapter 18; the order of the items: notes/assumptions/109.md). Space 1: the open step, the
children received, VOTERS, NONFINITE_VOTERS, when the window opened. Space 3, per tensor: amax, the 22 words of ss, the non-finite count. -/
def Dev.fbMirror (d : Dev) (k i : Nat) : Nat :=
  if k = 1 then
    match d.fb.vote with
    | none => 0
    | some v =>
      let own := bit01 v.own.isSome
      [v.step, maskOf 6 fun s => v.kids.any fun e => e.1 == s, v.kids.foldl (fun a e => a + e.2.1) own,
        v.kids.foldl (fun a e => a + e.2.2.1) (v.own.getD 0), half v.first 0, half v.first 1].getD i 0
  else if k = 2 then ((d.fb.accs.filter fun a => a.published).map Acc.tensor).getD i 0
  else match d.fb.accs.find? fun a => a.tensor == i / 24 with
    | none => 0
    | some a => if i % 24 = 0 then a.amax else if i % 24 = 23 then a.bad else a.ss / 2 ^ (32 * (i % 24 - 1)) % 2 ^ 32

/-- A region as its REGIONS entry gives it (Table 19-1). -/
def Region.entry (g : Region) : List Nat :=
  let node (n : Nat) : Nat := (g.nbrs[n]?.map Nbr.node).getD 0
  [g.id * 2 ^ 28 + g.ckpt * 2 ^ 26 + bit01 g.paired * 2 ^ 25 + bit01 g.abort * 2 ^ 24 + bit01 g.train * 2 ^ 23 + g.partner * 2 ^ 20 +
    g.mask * 2 ^ 12 + node 0, node 1 * 2 ^ 20]

/-- The Cistern's spaces (chapter 19; items and order: notes/assumptions/109.md). Space 1: each region's entry. Space 2: the four registers of
each slot, then the epochs of its two buffers. Space 3: for region s, which streams to its neighbours, CK_REGION_STATUS, the epoch on its way, the
granules not yet read. -/
def Dev.ckMirror (d : Dev) (k i : Nat) : Nat :=
  if k = 1 then ((d.region? (i / 8)).map fun g => g.entry.getD (i % 8) 0).getD 0
  else if k = 2 then
    let n := i / 8
    if i % 8 < 4 then (d.regVal .host 65 1 (0x90 + 16 * n + 4 * (i % 8))).1
    else half ((d.slot n).buf (i % 8 / 2 - 2)).epoch (i % 2)
  else
    match (d.region? (i / 4)).map fun g => (g, g.nbrs.findSome? Nbr.job) with
    | some (g, some j) =>
      if i % 4 = 0 then d.phase g * 2 ^ 28 + (((g.nbrs[0]?).map Nbr.st).getD 0) * 2 ^ 26 + (((g.nbrs[1]?).map Nbr.st).getD 0) * 2 ^ 24
      else if i % 4 < 3 then half j.epoch (i % 4 - 1) else j.residue.length
    | _ => 0

/-- An outstanding read tag of the router: destination and length with bit 31 VALID, then the link it went on
(notes/assumptions/109.md). -/
def Dev.tagMirror (d : Dev) (i : Nat) : Nat :=
  match d.lr.tags.find? fun t => t.tag == i / 2 with
  | none => 0
  | some t => if i % 2 = 0 then 2 ^ 31 + t.len % 512 * 2 ^ 16 + t.dst % 4096 else t.link

/-- Handles of the objects that satisfy a test, in index order, then 0. -/
def Dev.handleList (d : Dev) (f : Obj → Bool) (i : Nat) : Nat := ((d.objs.map (·.2)).filter f |>.map Obj.handle).getD i 0

/-- An HBM controller's spaces (Table 3-14; notes/assumptions/135.md). Space 1, per pseudo-channel: PC_STATUS and the codes that training chose.
Space 2: refreshes postponed, at most 8, REF_2X, in self-refresh. -/
def Dev.hbmMirror (d : Dev) (n k i : Nat) : Nat :=
  if k = 1 then
    if i % 4 = 0 then d.rd (.PC_STATUS (i / 4)) n else (Config.phyCode d.lostEpoch.resets n (i / 4) (i % 4)).toNat
  else Config.refreshesPostponed d.gh.timer n i % 9 + d.get .HBM_STATUS_REF_2X n * 2 ^ 16 + bit01 (d.get .HBM_STATUS_STATE n == 4) * 2 ^ 31

/-- Word `i` of space `k` of a block. The ATS cache's words are not described and read zero (R665, notes/assumptions/109.md). -/
def Dev.mirrorWord (d : Dev) (b k i : Nat) : Nat :=
  let n := blkInst b
  let c := blkClass b
  if c = 0x10 then (
    if k = 1 then
      (if i = 0 then d.ghPc
       else if i = 1 then bit01 d.gh.z + bit01 d.gh.c * 2
       else if i < 10 then d.kk (i - 2)
       else match d.gh.stack[i - 10]? with
         | some a => 2 ^ 31 + a
         | none => 0)
    else if k = 2 then d.hrd 1 1 (0x100 + 4 * i)
    else if k = 3 then d.rd (.SCRATCH i)
    else d.rd .GH_EVP)
  else if c = 0x11 then ((d.boot.recipe.getD (i / 8) []).getD (i % 8) 0)
  else if c = 0x20 then (d.hgMirror k i)
  else if c = 0x30 then (
    if k = 1 then d.entryWord (i / 8) (i % 8)
    else if k = 2 then d.handleList (fun o => o.liftLock || o.drainLock) i
    else d.handleList (fun o => o.evictAfter) i)
  else if c = 0x31 then (d.poolMirror k i)
  else if c = 0x40 then (d.flmMirror n k i)
  else if c = 0x50 then (d.laneMirror n i)
  else if c = 0x51 then (d.slotMirror i)
  else if c = 0x61 then (
    match d.chains[i / 4]? with
    | none => 0
    | some x => [x.tag.getD 0, x.index, maskOf 16 (fun t => x.tiles.contains t), x.st].getD (i % 4) 0)
  else if c = 0x70 then (d.fbMirror k i)
  else if c = 0x80 then (d.ckMirror k i)
  else if c = 0x90 then (d.portMirror n k i)
  else if c = 0xb0 then (d.linkMirror n k i)
  else if c = 0xb1 then (
    if k = 1 then (List.range 4).foldl (fun a j => a + d.route (4 * i + j) * 256 ^ j) 0 else d.tagMirror i)
  else if c = 0xc0 then (d.hbmMirror n k i)
  else if c = 0xd0 then (
    if k = 1 then (if i % 2 = 0 then 0 else Sparse.get (fun _ => 0) d.trc.cnt (i / 2))
    else leNat ((d.trc.line.drop (4 * i)).take 4))
  else 0

/-! ### Snapshots (R62) -/

/-- What a frozen block's mirror shows. -/
def Dev.snapshot (d : Dev) : Snap :=
  { regs := d.regs, gh := d.gh, trc := d.trc, objs := d.objs, wins := d.wins, hg := d.hg, pool := d.pool, flm := d.flm, slc := d.slc, chains := d.chains,
    links := d.links, lr := d.lr, fb := d.fb, ck := d.ck, ports := d.ports }

/-- The device as the snapshot has it. -/
def Dev.asAt (d : Dev) (s : Snap) : Dev :=
  { d with regs := s.regs, gh := s.gh, trc := s.trc, objs := s.objs, wins := s.wins, hg := s.hg, pool := s.pool, flm := s.flm, slc := s.slc,
           chains := s.chains, links := s.links, lr := s.lr, fb := s.fb, ck := s.ck, ports := s.ports }

/-- The device as a space of a block shows it: as it stood when FROZEN was reached, where the space needs a freeze. -/
def Dev.mirrored (d : Dev) (b : Nat) (sp : Space) : Dev :=
  if sp.freeze && d.isFrozen b then
    match d.snaps.find? fun e => e.1 == b with
    | some e => d.asAt e.2
    | none => d
  else d

/-- A mirror read of words of a control memory is a use of them (R581). -/
def Dev.mirrorTouch (d : Dev) (b k i : Nat) : Dev :=
  let c := blkClass b
  if c = 0x30 ∧ k = 1 then d.touchEntry (i / 8)
  else if c = 0x40 ∧ k = 1 then d.ctxUse (blkInst b) (i / 12)
  else if c = 0x40 ∧ k = 4 then d.ctxUse (blkInst b) (i / 23)
  else if c = 0x80 ∧ k = 1 then d.touchRegions fun r => r == i / 8
  else if c = 0x80 ∧ k = 2 then d.touchSlot (i / 8)
  else if c = 0xb1 ∧ k = 1 then d.touchRoute (4 * i)
  else d

/-- A read of STATE_DATA on a path (R62, R63, R662). -/
def Dev.stateData (d : Dev) (p : Path) (b page : Nat) : Nat × Dev :=
  let key := p.ix * 1024 + b * 8 + page
  let sel := (Sparse.get (fun _ => 0) d.sel key).toNat
  let k := sel / 2 ^ 24
  let i := sel % 2 ^ 24
  let e := { d with sel := Sparse.put (fun _ => 0) d.sel key (BitVec.ofNat 32 (k * 2 ^ 24 + (i + 1) % 2 ^ 24)) }
  if k = 0 ∧ i < 256 then (d.dirWord b i, e)
  else match d.space? b k with
    | none => (0, e.err b page 0x0008 sel 0)
    | some sp =>
      if sp.words ≤ i then (0, e.err b page 0x0008 sel 0)
      else
        let e := e.mirrorTouch b k i
        ((e.mirrored b sp).mirrorWord b k i % 2 ^ 32, e)

end Sys2Proof.Machine
end

