-- ==== Sys2Proof/Machine/Access.lean ====
section
/-! DEFINITION. What a 4-byte read and a 4-byte write of one register do (R5, R6, R20 to R24, R47 to R56, R58, and the chapters' own rules);
BLK_CTRL and GLOBAL_CTRL stand in `Blocks`. -/
namespace Sys2Proof.Machine

/-! ### Reads -/

/-- The latch, the staging register and STATE_SEL are per page and path (R51, R52). -/
def pathKey (p : Path) (b page : Nat) : Nat := p.ix * 1024 + b * 8 + page

def Dev.latched (d : Dev) (p : Path) (b page : Nat) : Nat := (Sparse.get (fun _ => 0) d.latch (pathKey p b page)).toNat

def Dev.setLatch (d : Dev) (p : Path) (b page v : Nat) : Dev :=
  { d with latch := Sparse.put (fun _ => 0) d.latch (pathKey p b page) (BitVec.ofNat 32 v) }

/-- 0 not of a pair, 1 the low word of a 64-bit register, 2 its high word. -/
def wideOf (b page off : Nat) : Nat := if off < 0x80 then 0 else ((rowAt (blkClass b) page off).map RegRow.wide).getD 0

/-- A read of one register (R51). The windows of program memories, and a route entry, are words of control memories (R581). -/
def Dev.regRead (d : Dev) (p : Path) (b page off : Nat) : Nat × Dev :=
  if off = 0x3C then d.stateData p b page
  else if blkClass b = 0x10 ∧ page = 1 ∧ 0x800 ≤ off then d.ueRead b 7 ((off - 0x800) / 4) (d.regVal p b page off).1
  else if blkClass b = 0x40 ∧ page = 1 ∧ 0x800 ≤ off then
    d.ueRead b 6 ((b - 6) * 512 + (off - 0x800) / 4) (d.regVal p b page off).1
  else if blkClass b = 0xb1 ∧ page = 0 ∧ off = 0x98 then (d.touchRoute (d.get .LR_ROUTE_SEL_NODE)).regVal p b page off
  else if wideOf b page off = 2 then (d.latched p b page, d)
  else
    let v := d.regVal p b page off
    if wideOf b page off = 1 then
      let h := v.2.regVal p b page (off + 4)
      (v.1, h.2.setLatch p b page h.1)
    else v

/-! ### Interrupt registers (R53, R56) -/

/-- The vectors that a page's bits map to. -/
def pageVecs (b page : Nat) : List Nat := ((List.range 32).map fun i => vecOf b page i).eraseDups

/-- Messages are sent again after a write of IRQ_PEND, IRQ_MASK or IRQ_FORCE that leaves the summary at 1 (R56). -/
def Dev.resend (d : Dev) (b page : Nat) : Dev :=
  (pageVecs b page).foldl (fun e v => if e.vecSummary v then e.sendVec v else e) d

/-- A write of IRQ_MASK. -/
def Dev.maskWrite (d : Dev) (b page v : Nat) : Dev := (d.hwr b page offMask v).resend b page

/-- A write of IRQ_PEND: 1 clears. -/
def Dev.pendWrite (d : Dev) (b page v : Nat) : Dev :=
  let x := d.hrd b page offPend
  (d.hwr b page offPend (x - (x &&& v))).resend b page

/-- A write of IRQ_FORCE: sets bits of events that the page has (R5), leaves IRQ_SEQ. -/
def Dev.forceWrite (d : Dev) (b page v : Nat) : Dev :=
  (d.hwr b page offPend (d.hrd b page offPend ||| v % 2 ^ eventCount (blkClass b) page)).resend b page

/-- A write of ERR_CODE: 1 to VALID clears it and both ERR_INFO registers (R58). -/
def Dev.errClear (d : Dev) (b page v : Nat) : Dev :=
  if bitsOf v 31 1 = 1 then ((d.hwr b page offErr 0).hwr b page offInfoLo 0).hwr b page offInfoHi 0 else d

/-- A write of STATE_SEL. -/
def Dev.selWrite (d : Dev) (p : Path) (b page v : Nat) : Dev :=
  { d with sel := Sparse.put (fun _ => 0) d.sel (pathKey p b page) (BitVec.ofNat 32 v) }

/-- A write of a header register but BLK_CTRL. -/
def Dev.headerWrite (d : Dev) (p : Path) (b page off v : Nat) : Dev :=
  if off = offMask then d.maskWrite b page v
  else if off = offPend then d.pendWrite b page v
  else if off = 0x20 then d.forceWrite b page v
  else if off = offErr then d.errClear b page v
  else if off = 0x38 then d.selWrite p b page v
  else d.errWr p b page off 0x0003 v

/-! ### Plain registers -/

/-- The ranges of fields of which the tables list part of the encodings (R6): class, page, offset, lowest bit, least, greatest. -/
def fieldRanges : List (Nat × Nat × Nat × Nat × Nat × Nat) := [
  (0xe1, 0, 0x9c, 16, 40, 65535), (0xe1, 0, 0x9c, 0, 3, 65535), (0xe1, 0, 0xbc, 0, 16, 65535), (0xe1, 0, 0xfc, 0, 0, 28),
  (0x10, 0, 0x88, 0, 5, 1024), (0x10, 0, 0xa4, 16, 3200, 3456), (0x10, 0, 0xa4, 0, 960, 4096),
  (0x31, 0, 0x84, 12, 1, 15), (0x31, 0, 0x84, 8, 1, 15), (0x31, 0, 0x84, 4, 1, 15), (0x31, 0, 0x84, 0, 1, 15),
  (0x31, 0, 0x88, 16, 50, 65535), (0x31, 0, 0x88, 0, 50, 65535),
  (0x40, 0, 0x88, 0, 1, 256), 
  (0x70, 0, 0x9c, 16, 1, 65535), (0x70, 0, 0xa4, 27, 0, 5), (0x70, 0, 0xa8, 0, 1, 4096), (0x70, 0, 0xac, 16, 50, 65535),
  (0x70, 0, 0xac, 0, 10, 65535),
  (0x80, 1, 0x80, 0, 1, 2), (0xa1, 0, 0x84, 0, 10, 65535),
  (0xb0, 0, 0xa4, 0, 100, 65535), (0xb0, 0, 0xa8, 0, 10, 65535), (0xb0, 1, 0x88, 0, 500, 65535), (0xb0, 1, 0x8c, 0, 1, 15),
  (0xb0, 1, 0x90, 0, 10, 65535),
  (0xb1, 0, 0x84, 16, 1, 4096), (0xb1, 0, 0x84, 0, 1, 4096), (0xb1, 0, 0x88, 0, 1, 4096), (0xb1, 0, 0xa4, 0, 100, 65535),
  (0xc0, 0, 0x90, 0, 60, 105),
  (0xd0, 0, 0xb4, 0, 1024, 65536), (0xd0, 0, 0xb8, 0, 1, 65536), (0xd0, 0, 0xbc, 0, 64, 65536),
  (0xd0, 0, 0x100, 0, 0, 4), (0xd0, 0, 0x110, 0, 0, 4), (0xd0, 0, 0x120, 0, 0, 4), (0xd0, 0, 0x130, 0, 0, 4)]

/-- Is a value of a field one of its listed encodings? -/
def fieldOk (cls page off lo x : Nat) : Bool :=
  if cls = 0x51 ∧ lo = 8 then decide (4 ≤ x) && decide (x ≤ 16)
  else if cls = 0xd0 ∧ 0x100 ≤ off ∧ off % 16 = 0 ∧ lo = 8 then decide (x < 0x16) && !(x == 0x06 || x == 0x07 || x == 0x0B)
  else if cls = 0x60 ∧ off = 0x84 then x == 1 || (decide (3 ≤ x) && decide (x ≤ 8))
  else fieldRanges.all fun e =>
    !(e.1 == cls && e.2.1 == page && e.2.2.1 == off && e.2.2.2.1 == lo) || (decide (e.2.2.2.2.1 ≤ x) && decide (x ≤ e.2.2.2.2.2))

/-- Is a register of any use to write? -/
def RegRow.readOnly (r : RegRow) : Bool := r.flds.all fun f => f.acc == .ro

/-- A write of one field of a plain register: RW takes a listed value, W1C clears where 1 is written; other types keep the word. -/
def Dev.fieldWrite (d : Dev) (p : Path) (b page off v : Nat) (f : FieldRow) : Dev :=
  let n := f.hi + 1 - f.lo
  let x := bitsOf v f.lo n
  let w := d.hrd b page off
  match f.acc with
  | .rw => if fieldOk (blkClass b) page off f.lo x then d.hwr b page off (putBits w f.lo n x) else d.errWr p b page off 0x0001 v
  | .w1c => let o := bitsOf w f.lo n; d.hwr b page off (putBits w f.lo n (o - (o &&& x)))
  | _ => d

/-- A write of a plain register, or of a half of a 64-bit one (R5, R49, R52). -/
def Dev.plainWrite (d : Dev) (p : Path) (b page off v : Nat) : Dev :=
  match rowAt (blkClass b) page off with
  | none => d
  | some r =>
    if r.readOnly then d.errWr p b page off 0x0003 v
    else if r.wide = 1 then
      let key := pathKey p b page * 4096 + off
      { d with stage := (d.stage.filter fun e => e.1 / 4096 != pathKey p b page) ++ [(key, BitVec.ofNat 32 v)] }
    else if r.wide = 2 then
      ((d.hwr b page (off - 4) (d.stagedLow p b page (off - 4))).hwr b page off v).unstage p b page (off - 4)
    else r.flds.foldl (fun e f => e.fieldWrite p b page off v f) d

/-! ### Adaptive loops (R20 to R24) -/

/-- Store a bound, if its loop's bounds stay ordered and every enabled pin stays inside (R22). -/
def Dev.boundsWrite (d : Dev) (p : Path) (b page off v : Nat) (low high : Int) (pins : List Int) (store : Dev → Dev) : Dev :=
  if high < low then d.errWr p b page off 0x0010 v
  else if pins.any fun x => decide (x < low) || decide (high < x) then d.errWr p b page off 0x0011 v
  else store d

/-- Store a pin, if it is not enabled or lies inside the bounds (R21). `w` is the value written and `value` what it is as a number; one that
is not listed (`ok`) keeps the field at `old` (R6), which an enabled pin must find inside the bounds too. -/
def Dev.pinWrite (d : Dev) (p : Path) (b page off v : Nat) (ok : Bool) (w old : Nat) (value : Nat → Int) (low high : Int)
    (store : Nat → Dev → Dev) : Dev :=
  let en := bitsOf v 31 1
  let out (x : Nat) : Bool := en == 1 && (decide (value x < low) || decide (high < value x))
  if out w then d.errWr p b page off 0x0011 v
  else if ok then store (en * 2 ^ 31 + w) d
  else if out old then (d.errWr p b page off 0x0001 v).errWr p b page off 0x0011 v
  else store (en * 2 ^ 31 + old) (d.errWr p b page off 0x0001 v)

/-- A field's written value where it is listed, else what it holds, with R6's error. -/
def Dev.listed (d : Dev) (p : Path) (b page off v : Nat) (ok : Bool) (new old : Nat) : Nat × Dev :=
  if ok then (new, d) else (old, d.errWr p b page off 0x0001 v)

/-- A loop whose low bound, high bound and pin stand in three registers at `lo`, `lo` + 4 and `lo` + 8 of block `rb` (the
threshold loop R255, the prefetch-lead loop R281, R282), of `w` bits with values `least` to `most`, to which the pin's are held too where
`pinned`. -/
def Dev.loop3Write (d : Dev) (p : Path) (b page off v rb lo w least most : Nat) (pinned : Bool) : Dev :=
  let low := bitsOf (d.hrd rb page lo) 0 w
  let high := bitsOf (d.hrd rb page (lo + 4)) 0 w
  let pin := d.hrd rb page (lo + 8)
  let pins : List Int := if bitsOf pin 31 1 = 1 then [(bitsOf pin 0 w : Nat)] else []
  let x := v % 2 ^ w
  let good := decide (least ≤ x) && decide (x ≤ most)
  if off = lo + 8 then
    d.pinWrite p b page off v (good || !pinned) x (bitsOf pin 0 w) (fun n => (n : Int)) low high fun n e => e.hwr rb page off n
  else if !good then d.errWr p b page off 0x0001 v
  else
    let store (e : Dev) := e.hwr rb page off x
    if off = lo then d.boundsWrite p b page off v x high pins store else d.boundsWrite p b page off v low x pins store

/-- A loop whose bounds share one register, HIGH in bits 15:8 and LOW in bits 7:0: the new values of both, with R6's errors. -/
def Dev.bounds2 (d : Dev) (p : Path) (b page off v : Nat) (ok : Nat → Bool) : Nat × Nat × Dev :=
  let old := d.hrd b page off
  let h := d.listed p b page off v (ok (bitsOf v 8 8)) (bitsOf v 8 8) (bitsOf old 8 8)
  let l := h.2.listed p b page off v (ok (bitsOf v 0 8)) (bitsOf v 0 8) (bitsOf old 0 8)
  (l.1, h.1, l.2)

/-! ### Thermal and power (R38, R86, R88, R89) -/

/-- Is the combination X6 of Table 2-4 made by permitting HOLD? -/
def Dev.x6 (d : Dev) : Bool :=
  d.plan.admitted && decide (d.plan.leaseMs * 1000 ≤ d.plan.maxHoldUs + 180) && d.ck.regions.any fun g => g.ckpt != 0

/-- A write of PWR_PERMIT_MASK (R37, R38). A mask that no longer permits the state in force ends IDLE; DOZE, HOLD and an entry under way stay
(DESIGN CHOICE, notes/assumptions/110.md). -/
def Dev.permitWrite (d : Dev) (p : Path) (v : Nat) : Dev :=
  let hold := bitsOf v 2 1 == 1 && bitsOf d.plan.power 2 1 == 1
  if d.x5 (d.rd .KEY_RETAIN) hold then d.errWr p 110 0 0x84 0x0024 v
  else if hold && d.x6 then d.errWr p 110 0 0x84 0x0025 v
  else
    let d := d.wr .PWR_PERMIT_MASK (v % 8)
    if d.permits 1 then d else d.idleExit

/-- A write of THROTTLE_THRESH. -/
def Dev.threshWrite (d : Dev) (p : Path) (v : Nat) : Dev :=
  let on := signed 16 (bitsOf v 0 16)
  if on < 340 ∨ 380 < on ∨ on - 4 < signed 16 (bitsOf v 16 16) then d.errWr p 110 0 0xC8 0x0E11 v else d.wr .THROTTLE_THRESH v

/-- A write of POWER_CAP. -/
def Dev.capWrite (d : Dev) (p : Path) (v : Nat) : Dev :=
  if v % 65536 < 100 ∨ 300 < v % 65536 then d.errWr p 110 0 0xCC 0x0E12 v else d.wr .POWER_CAP (v % 65536)

def freqOk (x : Nat) : Bool := x % 50 == 0 && decide (200 ≤ x) && decide (x ≤ 1600)
def voltOk (x : Nat) : Bool := x % 5 == 0 && decide (650 ≤ x) && decide (x ≤ 850)

/-- Are the governor's bounds feasible, with its pin where it is active (R86)? -/
def Dev.govFeasible (d : Dev) (lowF highF highV : Nat) : Bool :=
  let pin := d.get .GOV_PIN_FREQ
  decide (vOf lowF ≤ highV) &&
    (d.get .GOV_PIN_PIN_EN == 0 || (decide (lowF ≤ pin) && decide (pin ≤ highF) && decide (vOf pin ≤ highV)))

/-- A write of GOV_FREQ_BOUNDS or GOV_VOLT_BOUNDS (R6, R22, R86). -/
def Dev.govBoundsWrite (d : Dev) (p : Path) (off v : Nat) : Dev :=
  let ok := if off = 0xD4 then freqOk else voltOk
  let old := d.hrd 110 0 off
  let h := d.listed p 110 0 off v (ok (bitsOf v 16 16)) (bitsOf v 16 16) (bitsOf old 16 16)
  let l := h.2.listed p 110 0 off v (ok (bitsOf v 0 16)) (bitsOf v 0 16) (bitsOf old 0 16)
  let d := l.2
  if h.1 < l.1 then d.errWr p 110 0 off 0x0010 v
  else
    let good := if off = 0xD4 then d.govFeasible l.1 h.1 (d.get .GOV_VOLT_BOUNDS_HIGH)
      else d.govFeasible (d.get .GOV_FREQ_BOUNDS_LOW) (d.get .GOV_FREQ_BOUNDS_HIGH) h.1
    if good then d.hwr 110 0 off (h.1 * 65536 + l.1) else d.errWr p 110 0 off 0x0E10 v

/-- A write of GOV_PIN (R21, R86). -/
def Dev.govPinWrite (d : Dev) (p : Path) (v : Nat) : Dev :=
  let high := d.get .GOV_FREQ_BOUNDS_HIGH
  let value (n : Nat) : Int := if d.get .GOV_VOLT_BOUNDS_HIGH < vOf n then high + 1 else n
  d.pinWrite p 110 0 0xDC v (freqOk (v % 65536)) (v % 65536) (d.get .GOV_PIN_FREQ) value (d.get .GOV_FREQ_BOUNDS_LOW) high
    fun n e => e.wr .GOV_PIN n

def Dev.pwrPageWrite (d : Dev) (p : Path) (off v : Nat) : Option Dev :=
  if off = 0x84 then some (d.permitWrite p v)
  else if off = 0x8C then some (d.pwrReqWrite p v)
  else if off = 0xC8 then some (d.threshWrite p v)
  else if off = 0xCC then some (d.capWrite p v)
  else if off = 0xD4 ∨ off = 0xD8 then some (d.govBoundsWrite p off v)
  else if off = 0xDC then some (d.govPinWrite p v)
  else none

/-! ### Gauge House, Boot Sequencer, Headgate -/

/-- A write of GH_RET_MV (R111). -/
def Dev.retMvWrite (d : Dev) (p : Path) (v : Nat) : Dev :=
  let x := v % 65536
  if d.get .PWR_STATE_STATE = 3 ∧ d.pwr.exiting ∨ d.pwr.entry ≠ 0 then d.errWr p 1 0 0xA0 0x0107 v
  else if x < 600 ∨ 750 < x ∨ x % 10 ≠ 0 then d.errWr p 1 0 0xA0 0x0001 v
  else d.wr .GH_RET_MV x

/-- A write of the wake program's window (R95). -/
def Dev.ghProgWrite (d : Dev) (p : Path) (off v : Nat) : Dev :=
  if d.get .GH_CTRL_PROG_RUN = 1 then d.errWr p 1 1 off 0x0004 v
  else (d.hwr 1 1 off v).eccWrite 7 ((off - 0x800) / 4)

def Dev.ghPageWrite (d : Dev) (p : Path) (page off v : Nat) : Option Dev :=
  if page = 0 ∧ off = 0x80 then some (d.ghCtrlWrite p v)
  else if page = 0 ∧ off = 0xA0 then some (d.retMvWrite p v)
  else if page = 0 ∧ off = 0xC8 then some (d.evpSet 12)
  else if page = 1 ∧ 0x800 ≤ off then some (d.ghProgWrite p off v)
  else none

def Dev.bootPageWrite (d : Dev) (p : Path) (page off v : Nat) : Option Dev :=
  if page ≠ 0 then none
  else if off = 0x90 then some (d.imagePrefSet (v % 2))
  else if off = 0x98 then some (d.verdictClearWrite p v)
  else if off = 0x9C then some (d.rebootWrite p v)
  else none

def Dev.hgPageWrite (d : Dev) (p : Path) (page off v : Nat) : Option Dev :=
  if page = 0 then
    if off = 0x80 then some (d.hgCtrlWrite p v)
    else if off = 0xAC then some d.hgDoorbell
    else if off = 0xB4 then some (if v % 2 = 1 then d.set .HG_IMEM_LOCK_LOCK 1 else d)
    else none
  else if page = 1 ∧ 0x80 ≤ off ∧ off < 0x100 then
    let n := (off - 0x80) / 16
    if off % 16 = 0 then some (d.ringConfigWrite p n false v)
    else if off % 16 = 4 then some (d.ringConfigWrite p n true v)
    else if off % 16 = 12 then some (d.ringConsWrite p n v)
    else none
  else if page = 3 ∧ off = (Reg.HG_TASK_ABORT).off then some (d.taskAbortWrite v)
  else none

/-! ### Flumes, Sluice -/

def Dev.flmPageWrite (d : Dev) (p : Path) (b page off v : Nat) : Option Dev :=
  let f := b - 6
  if page = 0 then
    if off = 0x88 then some ((d.plainWrite p b page off v).issueAll f)
    else if off = 0x8C then some (d.ctxCmd p f v)
    else none
  else if 0x200 ≤ off ∧ off ≤ 0x208 then some (d.loop3Write p b 1 off v 6 0x200 13 25 5000 true)
  else if off = 0x20C then some (if v % 1024 ≤ 1000 then d.hwr 6 1 off (v % 1024) else d.errWr p b page off 0x0001 v)
  else if 0x800 ≤ off then some (d.turnProgWrite p f ((off - 0x800) / 4) v)
  else none

def Dev.slcPageWrite (d : Dev) (p : Path) (off v : Nat) : Option Dev :=
  if off = 0xA0 then some (d.keySel p (v % 16))
  else if off = 0xA4 then some (d.keyData p (BitVec.ofNat 32 v))
  else if off = 0xA8 then
    some (if v % 4 = 1 then d.keyLoad p else if v % 4 = 2 then d.keyClear else d.errWr p 46 0 off 0x0001 v)
  else if off = 0xB0 then some (d.keyRetain p v)
  else none

/-! ### Freeboard (R396, R402 to R404) -/

def lsOk (x : Nat) : Bool := decide (-126 ≤ signed 8 x)
def ptsOk (x : Nat) : Bool := decide (-127 ≤ signed 8 x)

/-- A write of LS_BOUNDS. -/
def Dev.lsBoundsWrite (d : Dev) (p : Path) (v : Nat) : Dev :=
  let r := d.bounds2 p 64 0 0x88 v lsOk
  let pins := if d.get .LS_PIN_PIN_EN = 1 then [signed 8 (d.get .LS_PIN_EXP)] else []
  r.2.2.boundsWrite p 64 0 0x88 v (signed 8 r.1) (signed 8 r.2.1) pins fun e => e.wr .LS_BOUNDS (r.2.1 * 256 + r.1)

/-- A write of LS_PIN. -/
def Dev.lsPinWrite (d : Dev) (p : Path) (v : Nat) : Dev :=
  d.pinWrite p 64 0 0x90 v (lsOk (v % 256)) (v % 256) (d.get .LS_PIN_EXP) (signed 8) (signed 8 (d.get .LS_BOUNDS_LOW))
    (signed 8 (d.get .LS_BOUNDS_HIGH)) fun n e => e.wr .LS_PIN n

/-- A write of PTS_BOUNDS: no enabled pin of any tensor may be left outside (R22). -/
def Dev.ptsBoundsWrite (d : Dev) (p : Path) (v : Nat) : Dev :=
  let r := d.bounds2 p 64 1 0x80 v ptsOk
  let pins := (d.fb.tensors.filter Tensor.pinEn).map fun t => (t.pin : Int) - 127
  r.2.2.boundsWrite p 64 1 0x80 v (signed 8 r.1) (signed 8 r.2.1) pins fun e => e.wr .PTS_BOUNDS (r.2.1 * 256 + r.1)

/-- A write of PTS_PIN: the pin of the selected tensor. -/
def Dev.ptsPinWrite (d : Dev) (p : Path) (v : Nat) : Dev :=
  let t := d.tensor (d.get .PTS_SEL_TENSOR)
  d.pinWrite p 64 1 0x88 v true (v % 256) t.pin (fun n => (n : Int) - 127) (signed 8 (d.get .PTS_BOUNDS_LOW))
    (signed 8 (d.get .PTS_BOUNDS_HIGH)) fun n e => e.putTensor { t with pinEn := bitsOf n 31 1 == 1, pin := n % 256 }

/-- A write of CLIP_MAX_g: finite, not negative; group 0 reads 0. -/
def Dev.clipWrite (d : Dev) (p : Path) (off v : Nat) : Dev :=
  if off = 0x80 then d
  else if v < 0x7F800000 then d.hwr 64 2 off v
  else d.errWr p 64 2 off 0x0001 v

def Dev.fbPageWrite (d : Dev) (p : Path) (page off v : Nat) : Option Dev :=
  if page = 0 then
    if off = 0x88 then some (d.lsBoundsWrite p v)
    else if off = 0x8C then some (if lsOk (v % 256) then d.wr .LS_START (v % 256) else d.errWr p 64 0 off 0x0001 v)
    else if off = 0x90 then some (d.lsPinWrite p v)
    else if (off = 0xA4 ∨ off = 0xA8 ∨ off = 0xAC) ∧ d.voteOpen then some (d.errWr p 64 0 off 0x0810 v)
    else none
  else if page = 1 then
    if off = 0x80 then some (d.ptsBoundsWrite p v)
    else if off = 0x88 then some (d.ptsPinWrite p v)
    else none
  else if page = 2 ∧ 0x80 ≤ off ∧ off < 0x180 then some (d.clipWrite p off v)
  else none

/-! ### Cistern, Host Port -/

/-- CK_GEN and CK_NEXT_STEP (R425). -/
def Dev.ckOpenWrite (d : Dev) (p : Path) (off v : Nat) : Dev :=
  if !d.ck.open_ then d.errWr p 65 0 off 0x0910 v
  else if off = 0x84 then d.wr .CK_GEN (v % 65536)
  else d.updRegion (d.get .CK_REGION_SEL_REGION) fun g => { g with nextStep := v }

def Dev.ckPageWrite (d : Dev) (p : Path) (page off v : Nat) : Option Dev :=
  if page = 0 then
    if off = 0x84 ∨ off = 0x88 then some (d.ckOpenWrite p off v)
    else if off = 0x9C then some (d.ckRegionWrite p (BitVec.ofNat 32 v))
    else none
  else if page = 1 ∧ 0x90 ≤ off ∧ off < 0x110 then
    let n := (off - 0x90) / 16
    if off % 16 = 0 then some (d.hostSlotWrite p n (BitVec.ofNat 32 v))
    else if off % 16 = 4 then some ((d.plainWrite p 65 1 off v).slotPlace n)
    else none
  else none

def Dev.hostPageWrite (d : Dev) (p : Path) (off v : Nat) : Option Dev :=
  if 0x84 ≤ off ∧ off ≤ 0x94 ∧ d.plan.admitted then some (d.errWr p 74 0 off 0x0B01 v) else none

/-! ### Lateral links and router -/

def rateOk (x : Nat) : Bool := x == 56 || x == 112 || x == 224

/-- A write of LL_RATE_BOUNDS (R510). -/
def Dev.llBoundsWrite (d : Dev) (p : Path) (l v : Nat) : Dev :=
  let r := d.bounds2 p (79 + l) 0 0x8C v rateOk
  let pins : List Int := if d.get .LL_RATE_PIN_PIN_EN l = 1 then [(d.get .LL_RATE_PIN_RATE l : Nat)] else []
  r.2.2.boundsWrite p (79 + l) 0 0x8C v r.1 r.2.1 pins fun e =>
    (e.wr .LL_RATE_BOUNDS (r.2.1 * 256 + r.1) l).updLink l fun x => { x with wrote := true }

/-- A write of LL_RATE_PIN (R510). -/
def Dev.llPinWrite (d : Dev) (p : Path) (l v : Nat) : Dev :=
  d.pinWrite p (79 + l) 0 0x90 v (rateOk (v % 256)) (v % 256) (d.get .LL_RATE_PIN_RATE l) (fun n => (n : Int))
    (d.get .LL_RATE_BOUNDS_LOW l) (d.get .LL_RATE_BOUNDS_HIGH l) fun n e => (e.wr .LL_RATE_PIN n l).updLink l fun x => { x with wrote := true }

def Dev.llPageWrite (d : Dev) (p : Path) (l page off v : Nat) : Option Dev :=
  if page = 0 ∧ off = 0x84 then some (d.llCtrlWrite p l (BitVec.ofNat 32 v))
  else if page = 0 ∧ off = 0x8C then some (d.llBoundsWrite p l v)
  else if page = 0 ∧ off = 0x90 then some (d.llPinWrite p l v)
  else none

/-- A register of eight 3-bit codes: a code that is not listed keeps its place's value (R6). -/
def Dev.octalWrite (d : Dev) (p : Path) (b page off v : Nat) (ok : Nat → Bool) : Dev :=
  (List.range 8).foldl (fun e i =>
    let x := bitsOf v (3 * i) 3
    if ok x then e.hwr b page off (putBits (e.hrd b page off) (3 * i) 3 x) else e.errWr p b page off 0x0001 v) d

/-- A write of LR_CMD. -/
def Dev.lrCmdWrite (d : Dev) (p : Path) (v : Nat) : Dev :=
  if bitsOf v 24 8 = 1 then d.lrApply
  else if bitsOf v 24 8 = 2 ∧ v % 32 < 24 then d.quarantine (v % 32)
  else d.errWr p 103 0 0x8C 0x0001 v

def Dev.lrPageWrite (d : Dev) (p : Path) (page off v : Nat) : Option Dev :=
  if page = 0 then
    if off = 0x8C then some (d.lrCmdWrite p v)
    else if off = 0x98 then some (d.routeDataWrite p v)
    else none
  else if 0x80 ≤ off ∧ off < 0x8C then some (d.octalWrite p 103 1 off v fun x => x != 6)
  else if 0x100 ≤ off ∧ off < 0x180 then
    let n := (off - 0x100) / 16
    if off % 16 = 0 then some (d.hostCtrlWrite p n v)
    else if off % 16 = 4 ∧ d.get (.LR_HOST_CTRL_EN n) = 1 ∧ v ≠ d.rd (.LR_HOST_BLOCKS n) then some (d.errWr p 103 1 off 0x0C24 v)
    else none
  else none

/-! ### Trace Unit (R558, R560, R568, R571) -/

/-- A write of a trace setting: SYNC_PERIOD is refused while recording; SRC_EN keeps bit 0 at 1; an accepted write is followed by a
SYNC with REASON CONFIG. -/
def Dev.trcSetting (d : Dev) (p : Path) (off v : Nat) : Dev :=
  if off = 0xB4 ∧ d.get .TRC_CTRL_RECORD = 1 then d.errWr p 108 0 off 0x0F01 v
  else
    let n := d.hrd 108 0 offErrCount
    let d := d.plainWrite p 108 0 off (if off = 0xA0 then v ||| 1 else v)
    if d.hrd 108 0 offErrCount = n then d.trcConfig else d

def Dev.trcPageWrite (d : Dev) (p : Path) (off v : Nat) : Option Dev :=
  if off = 0x80 then some (d.trcCtrlWrite p v)
  else if off = 0x9C then some (d.trcRdHi p (BitVec.ofNat 32 v))
  else if off = 0xC4 then some (d.trcSwHi p (BitVec.ofNat 32 v))
  else if (0xA0 ≤ off ∧ off < 0xC0) ∨ off = 0xD4 ∨ (0x100 ≤ off ∧ off < 0x140 ∧ off % 16 < 12) then some (d.trcSetting p off v)
  else none

/-! ### Management Block (R603, R617 to R619) -/

/-- A write of MGMT_CTRL: through the host path alone; bits 2:0 are RWL under LOCK, which only a device reset clears (R50). -/
def Dev.mgmtCtrlWrite (d : Dev) (p : Path) (v : Nat) : Dev :=
  if p = .mgmt then ((d.errWr p 109 0 0xB8 0x1101 v).bump .MGMT_DENIED_COUNT).raise 109 0 5
  else
    let old := d.rd .MGMT_CTRL
    let lock := bitsOf old 31 1
    let d := if lock = 0 then d.wr .MGMT_CTRL (putBits old 0 3 v)
      else if v % 8 ≠ old % 8 then d.errWr p 109 0 0xB8 0x0004 v else d
    if bitsOf v 31 1 = 1 then d.set .MGMT_CTRL_LOCK 1 else d

def Dev.mgmtPageWrite (d : Dev) (p : Path) (off v : Nat) : Option Dev :=
  if off = 0xB8 then some (d.mgmtCtrlWrite p v)
  else if off = 0xE0 then some (d.octalWrite p 109 0 off v fun x => decide (x < 6))
  else if off = 0xF8 ∨ off = 0xFC then some (d.plainWrite p 109 0 off v).alertDrive
  else if off = 0x100 then some (d.setFlashAddr p v)
  else if off = 0x104 then
    some (if v % 512 = 0 ∨ 256 < v % 512 then d.errWr p 109 0 off 0x0001 v else d.setFlashLen p (v % 512))
  else if off = 0x108 then some (d.flashCmdWrite p v)
  else if 0x200 ≤ off ∧ off < 0x300 then some (d.setFlashBuf p (off - 0x200) (leBytes 4 v))
  else none

/-! ### Any register -/

/-- A chapter's own rule for a write, where it has one. -/
def Dev.specialWrite (d : Dev) (p : Path) (b page off v : Nat) : Option Dev :=
  let c := blkClass b
  if c = 0xe1 then d.pwrPageWrite p off v
  else if c = 0xe0 then d.mgmtPageWrite p off v
  else if c = 0x10 then d.ghPageWrite p page off v
  else if c = 0x11 then d.bootPageWrite p page off v
  else if c = 0x20 then d.hgPageWrite p page off v
  else if c = 0x31 then (if page = 0 ∧ 0x8C ≤ off ∧ off ≤ 0x94 then some (d.loop3Write p b 0 off v b 0x8C 26 1000 60000000 false) else none)
  else if c = 0x40 then d.flmPageWrite p b page off v
  else if c = 0x51 then d.slcPageWrite p off v
  else if c = 0x70 then d.fbPageWrite p page off v
  else if c = 0x80 then d.ckPageWrite p page off v
  else if c = 0xa0 then d.hostPageWrite p off v
  else if c = 0xb0 then d.llPageWrite p (b - 79) page off v
  else if c = 0xb1 then d.lrPageWrite p page off v
  else if c = 0xc0 then (if page = 0 ∧ off = 0x84 then some (d.ilvWrite p (b - 104) v) else none)
  else if c = 0xd0 then d.trcPageWrite p off v
  else none

/-- A write of one register, but BLK_CTRL and GLOBAL_CTRL. -/
def Dev.regWriteCore (d : Dev) (p : Path) (b page off v : Nat) : Dev :=
  if off < 0x80 then d.headerWrite p b page off v
  else match d.specialWrite p b page off v with
    | some e => e
    | none => d.plainWrite p b page off v

end Sys2Proof.Machine
end

