-- ==== Sys2Proof/Machine/Blocks.lean ====
section
/-! DEFINITION. Block control (R44, R59 to R62, R106, R663, R664 and the chapters' rules on freezes and resets): BLK_CTRL, GLOBAL_CTRL, and what is
reached later: FROZEN, QUIESCED, ALL_FROZEN, the end of a reset. -/
namespace Sys2Proof.Machine

/-! ### Work -/

/-- Is work of the block accepted, in progress or queued in it? -/
def Dev.blockWork (d : Dev) (b : Nat) : Bool :=
  let c := blkClass b
  let i := blkInst b
  let tasks := d.hg.tasks.any fun t => engineBlk t.cls t.inst == b && (t.st == 2 || (t.st == 1 && t.sent))
  tasks || (
    if c = 0x20 then !d.hg.tasks.isEmpty
    else if c = 0x31 then !d.pool.drains.isEmpty
    else if c = 0x40 then (d.flm.streams.any fun s => s.flume == i) || d.flm.turns.any fun t => t.flume == i && !t.done
    else if c = 0x50 then d.slc.q.any fun x => x.lane == i
    else if c = 0x60 then d.busyTiles.contains i
    else if c = 0x61 then !d.chains.isEmpty || !d.auto.isEmpty
    else if c = 0x70 then d.fb.vote.isSome || !d.fb.commits.isEmpty || !d.obsQ.isEmpty
    else if c = 0x80 then d.ck.restore.isSome || d.ck.regions.any fun g => g.commit.isSome
    else if c = 0x90 then d.reads.any fun r => r.port == i
    else if c = 0xb1 then !d.lr.tags.isEmpty || !d.lr.bars.isEmpty
    else false)

/-! ### Freeze and thaw -/

/-- The Headgate thaws (R163, Table 7-3): it goes on from where it stopped, THAW sets, held records enter their rings; a HALT_REQ of the
frozen time takes effect. -/
def Dev.hgThaw (d : Dev) : Dev :=
  let d := if d.hgState = hgFROZEN then { d with hg := { d.hg with fz := none } }.setHg (d.hg.fz.getD hgRUNNING) else d
  let d := (d.evSet 39).flushRecords
  if d.hg.haltReq ∧ (d.hgState = hgRUNNING ∨ d.hgState = hgWAITING) then { d with hg := { d.hg with haltReq := false } }.hgHaltReq else d

/-- A register write that a freeze of the Host Port block delayed (R491) is made at the thaw. -/
def Dev.hostThaw (d : Dev) : Dev :=
  let mine (h : Held) : Bool := match h with
    | .bus _ a _ (some _) => decide (pageBase 74 ≤ a) && decide (a < pageBase 74 + 4096)
    | _ => false
  let q := d.held.filter mine
  let d := { d with held := d.held.filter fun h => !mine h }
  q.foldl (fun e h => match h with
    | .bus p a _ (some v) => e.regWriteCore p 74 0 (a % 4096) v
    | _ => e) d

/-- The effective freeze of a block has cleared: it resumes from where it stopped (R60). -/
def Dev.thawed (d : Dev) (b : Nat) : Dev :=
  let d := { d.setStat b 2 false with snaps := d.snaps.filter fun e => e.1 != b }
  if b = 3 then d.hgThaw
  else if b = 4 ∨ b = 5 then d.background
  else if b = 64 then d.voteProgress
  else if b = 65 then d.ckAll.stuckRelease
  else if b = 74 then d.hostThaw
  else if b = 103 then d.heldSend.ckAll.stuckRelease
  else if b = 108 then d.trcThaw
  else if 6 ≤ b ∧ b < 38 then d.issueAll (b - 6)
  else d

/-- BLK_CTRL.FREEZE of a block takes a value; a change of its effective freeze has its FREEZE packet (R570). -/
def Dev.blkFreeze (d : Dev) (b : Nat) (on : Bool) : Dev :=
  let was := d.frozen b
  if (d.setCtrl b 3 on).frozen b = was then d.setCtrl b 3 on
  else if on then
    let d := ((d.trcFreezePkt b true false).setCtrl b 3 true).setStat b 2 false
    if b = 108 then Dev.trcEvents d.trcWriteLine else d
  else ((d.setCtrl b 3 false).thawed b).trcFreezePkt b false false

/-- GLOBAL_CTRL.FREEZE takes a value (R61, R570). -/
def Dev.globalFreeze (d : Dev) (on : Bool) : Dev :=
  if (d.get .GLOBAL_CTRL_FREEZE == 1) = on then d
  else
    let was := d
    let d := (d.set .GLOBAL_CTRL_FREEZE (bit01 on)).trcFreezePkt 109 on true
    let ch := (List.range blkCount).filter fun b => d.frozen b != was.frozen b
    if on then ch.foldl (fun e b => (e.setStat b 2 false).trcFreezePkt b true true) d
    else ch.foldl (fun e b => (e.thawed b).trcFreezePkt b false true) (d.set .GLOBAL_STATUS_ALL_FROZEN 0)

/-- Has a block under its effective freeze reached its task boundary? -/
def Dev.atBoundary (d : Dev) (b : Nat) : Bool :=
  if b = 3 then d.hgState != hgRUNNING || (d.atBundleEnd && d.hg.ldv.isEmpty)
  else if 6 ≤ b ∧ b < 38 then d.inFlight (b - 6) == 0
  else true

/-- FROZEN is reached (R60, R62, R163): the mirror's snapshot is fixed; a Headgate that ran or waited shows FROZEN. -/
def Dev.frozenReached (d : Dev) (b : Nat) : Dev :=
  let st := d.hgState
  let d := if b = 3 ∧ (st = hgRUNNING ∨ st = hgWAITING) then { d with hg := { d.hg with fz := some st } }.setHg hgFROZEN else d
  { d.setStat b 2 true with snaps := (d.snaps.filter fun e => e.1 != b) ++ [(b, d.snapshot)] }

/-- FROZEN_REACHED. -/
def execFrozenReached (b : Nat) (s : State) : Out := s.run fun d =>
  if blkCount ≤ b ∨ b = 0 ∨ !d.frozen b ∨ d.statBit b 2 ∨ !d.atBoundary b then d else d.frozenReached b

/-- ALL_FROZEN (R61): every affected block reports FROZEN. -/
def execAllFrozen (s : State) : Out := s.run fun d =>
  let all := (List.range blkCount).all fun b => freezeExempt b || !d.present b || d.isFrozen b
  if d.get .GLOBAL_CTRL_FREEZE = 1 ∧ d.get .GLOBAL_STATUS_ALL_FROZEN = 0 ∧ all then
    (d.set .GLOBAL_STATUS_ALL_FROZEN 1).raise 109 0 0
  else d

/-! ### Quiesce and enable -/

/-- BLK_CTRL.QUIESCE takes a value. -/
def Dev.blkQuiesce (d : Dev) (b : Nat) (on : Bool) : Dev :=
  if d.ctrlBit b 1 = on then d else (d.setCtrl b 1 on).setStat b 1 false

/-- BLK_CTRL.ENABLE takes a value, but of a PRESENT_DISABLED block (R44). -/
def Dev.blkEnable (d : Dev) (b : Nat) (on : Bool) : Dev := if (d.ent b).status = 2 then d else d.setCtrl b 0 on

/-- QUIESCED_REACHED: all accepted work is finished. -/
def execQuiescedReached (b : Nat) (s : State) : Out := s.run fun d =>
  if blkCount ≤ b ∨ !d.ctrlBit b 1 ∨ d.statBit b 1 ∨ d.blockWork b then d else d.setStat b 1 true

/-! ### Reset (R59, R166, R572, R664) -/

/-- Every task that the block has accepted or queued ends as an abort would end it. -/
def Dev.endTasks (d : Dev) (b : Nat) : Dev :=
  (d.hg.tasks.filter fun t => engineBlk t.cls t.inst == b).foldl (fun e t => match e.task? t.tag with
    | none => e
    | some u =>
      if u.st = 1 ∧ u.sent then e.refuse u.tag cTaskAborted
      else if u.st = 2 then e.abortAccepted u
      else e) d

/-- The blocks in a lane's queue are dealt again, in order, to the lanes that remain of their streams (R276, R664). -/
def Dev.redeal (d : Dev) (n : Nat) : Dev :=
  let mine := d.slc.q.filter fun x => x.lane == n
  let d := { d with slc := { d.slc with q := d.slc.q.filter fun x => x.lane != n } }
  mine.foldl (fun e x =>
    e.updStream (x.flume, x.ctx, x.slot) fun s =>
      let left := s.lanes.filter fun m => m != n && e.present (38 + m)
      let y := (x.rel, (left[x.rel % left.length]?).getD n, x.data)
      { s with full := s.full.takeWhile (fun z => decide (z.1 < x.rel)) ++ y :: s.full.dropWhile fun z => decide (z.1 < x.rel) }) d |>.retryFull

/-- Running chains end under R387; queued ones end REFUSED. -/
def Dev.endChains (d : Dev) : Dev :=
  d.chains.foldl (fun e c => if e.chains.any fun x => x.handle == c.handle then
    (if c.st = 0 then e.chainRefuse c cTaskAborted else e.chainAbort c cTaskAborted) else e) d

/-- A running chain that has the tile ends under R387. -/
def Dev.endTile (d : Dev) (n : Nat) : Dev :=
  d.chains.foldl (fun e c => if c.st ≠ 0 ∧ c.tiles.contains n ∧ e.chains.any fun x => x.handle == c.handle then
    e.chainAbort c cTaskAborted else e) d

/-- RW registers that a block holds beside its pages (PTS_PIN, CK_NEXT_STEP, FLASH_ADDR, FLASH_LEN) return to their reset values (R664). -/
def Dev.resetHeld (d : Dev) (c : Nat) : Dev :=
  if c = 0x70 then { d with fb := { d.fb with tensors := d.fb.tensors.map fun t => { t with pinEn := false, pin := 127 } } }
  else if c = 0x80 then { d with ck := { d.ck with regions := d.ck.regions.map fun g => { g with nextStep := 0 } } }
  else if c = 0xe0 then
    [Path.host, .mgmt].foldl (fun e p => (e.setFlashAddr p 0).setFlashLen p 0) d
  else d

/-- A Headgate block reset (R166); it abandons the admission service (R211). -/
def Dev.hgReset (d : Dev) : Dev :=
  let ts := (d.hg.tasks.filter fun t => t.st != 1).map fun t => if t.st = 2 then { t with orphan := true } else t
  let hg := { d.hg with
    g := List.replicate 32 0, p := 1, h := List.replicate 16 0, ev := 0, kept := none, fz := none, stepping := false, haltReq := false,
    stall := none, ldv := [], inD := false, stv := 0, sleep := none, sleepGd := none, tasks := ts }
  let d := { d with hg := hg, plan := { d.plan with job := none } }
  ((d.setHg hgRESET).set .HG_PC_PC 0).wr64 .HG_WAIT_MASK_LO 0

/-- What a block's reset ends beside its registers. -/
def Dev.resetWork (d : Dev) (b : Nat) : Dev :=
  let c := blkClass b
  let d := if c = 0x61 then d.endChains else d
  let d := d.endTasks b
  if c = 0x20 then d.hgReset
  else if c = 0x30 then { d with objs := d.objs.map fun e => (e.1, { e.2 with rearm := none }) }
  else if c = 0x50 then d.redeal (blkInst b)
  else if c = 0x60 then d.endTile (blkInst b)
  else if c = 0x51 then (d.setKeyStage .host []).setKeyStage .mgmt []
  else if c = 0xd0 then d.trcReset
  else if c = 0xe0 then d.globalFreeze false
  else d

/-- BLK_CTRL.RESET: the block's work ends, its registers return to their reset state, RESETTING reads 1. A freeze of its own ends; under a
global freeze it has FROZEN to reach again. -/
def Dev.blockReset (d : Dev) (b : Nat) : Dev :=
  let was := d.frozen b
  let d := ((d.resetWork b).regsReset b).resetHeld (blkClass b)
  let d := if b = 74 then d.t3Update else d
  let d := d.setStat b 3 true
  if was ∧ !d.frozen b then
    let d := (d.thawed b).trcFreezePkt b false false
    if b = 3 then { d with hg := { d.hg with ev := 0 } } else d
  else if was ∧ !freezeExempt b then d.set .GLOBAL_STATUS_ALL_FROZEN 0
  else d

/-- RESET_COMPLETE (R663): a Flume first lets its outstanding transfers complete. -/
def execResetComplete (b : Nat) (s : State) : Out := s.run fun d =>
  let busy := decide (6 ≤ b) && decide (b < 38) &&
    ((d.flm.streams.any fun x => x.flume + 6 == b) || d.flm.turns.any fun t => t.flume + 6 == b && !t.done)
  if blkCount ≤ b ∨ !d.statBit b 3 ∨ busy then d else d.setStat b 3 false

/-! ### BLK_CTRL and GLOBAL_CTRL -/

/-- A write of BLK_CTRL (R59): RESET acts alone, else FREEZE, QUIESCE and ENABLE in that order. -/
def Dev.ctrlWrite (d : Dev) (b v : Nat) : Dev :=
  if bitsOf v 2 1 = 1 then d.blockReset b
  else ((d.blkFreeze b (bitsOf v 3 1 == 1)).blkQuiesce b (bitsOf v 1 1 == 1)).blkEnable b (bitsOf v 0 1 == 1)

/-- A write of one register. -/
def Dev.regWrite (d : Dev) (p : Path) (b page off v : Nat) : Dev :=
  if off = offCtrl then d.ctrlWrite b v
  else if b = 109 ∧ off = 0x80 then d.globalFreeze (v % 2 == 1)
  else if b = 74 ∧ d.frozen 74 then { d with held := d.held ++ [.bus p (regAddr b page off) 4 (some v)] }
  else d.regWriteCore p b page off v

/-- BLK_CTRL as it would be written with some bits changed. -/
def Dev.ctrlWith (d : Dev) (b n : Nat) (on : Bool) : Nat := putBits (d.hrd b 0 offCtrl) n 1 (bit01 on)

/-- A write of BLK_CTRL through a page of a block. -/
def Dev.viaCtrl (d : Dev) (p : Path) (b page n : Nat) (on : Bool) : Dev :=
  if b = 0 ∨ blkCount ≤ b then d
  else
    let v := d.ctrlWith b n on
    d.viaBus p b page offCtrl v fun e => e.ctrlWrite b v

/-- BLOCK_RESET. -/
def execBlockReset (p : Path) (b page : Nat) (s : State) : Out := s.run fun d => d.viaCtrl p b page 2 true

/-- BLK_FREEZE. -/
def execBlkFreeze (p : Path) (b page : Nat) (s : State) : Out := s.run fun d => d.viaCtrl p b page 3 true

/-- THAW. -/
def execThaw (p : Path) (b page : Nat) (s : State) : Out := s.run fun d => d.viaCtrl p b page 3 false

/-- BLK_QUIESCE. -/
def execBlkQuiesce (p : Path) (b page : Nat) (s : State) : Out := s.run fun d => d.viaCtrl p b page 1 true

/-- BLK_ENABLE. -/
def execBlkEnable (p : Path) (b page : Nat) (s : State) : Out := s.run fun d => d.viaCtrl p b page 0 true

/-- GLOBAL_FREEZE_SET. -/
def execGlobalFreezeSet (p : Path) (s : State) : Out := s.run fun d =>
  d.viaReg p .GLOBAL_CTRL 0 1 fun e => e.globalFreeze true

/-- GLOBAL_FREEZE_CLEAR. -/
def execGlobalFreezeClear (p : Path) (s : State) : Out := s.run fun d =>
  d.viaReg p .GLOBAL_CTRL 0 0 fun e => e.globalFreeze false

end Sys2Proof.Machine
end

