-- ==== Sys2Proof/Machine/Bus.lean ====
section
/-! DEFINITION. BAR-0: the Ditch Map, the windows, the register pages, and accesses of every size on both paths (R40 to R46, R48, R64, R78, R79,
R165, R223, R410, R483, R566). -/
namespace Sys2Proof.Machine

/-! ### The Ditch Map (Tables 3-1 to 3-3) -/

/-- 4 KiB pages of a block (the Ditch Map's own area is 16). -/
def pageCount (b : Nat) : Nat :=
  let c := blkClass b
  if c = 0x01 then 16
  else if c = 0x10 ∨ c = 0x20 ∨ c = 0x30 ∨ c = 0x31 ∨ c = 0x70 ∨ c = 0x80 ∨ c = 0xc0 then 4
  else if c = 0x11 ∨ c = 0x40 ∨ c = 0x90 ∨ c = 0xb0 ∨ c = 0xb1 then 2
  else 1

/-- The map offset of a block's parameter record: a multiple of 32, Flume 5's at 0x1A40 (notes/assumptions/32.md). -/
def paramPtr (b : Nat) : Nat := 0x1000 + 32 * ((b + 71) % 111)

/-- A record's length (R45). -/
def paramLen (b : Nat) : Nat :=
  let c := blkClass b
  if c = 0x20 ∨ c = 0xc0 ∨ c = 0xa1 ∨ c = 0xe0 then 24 else 16

/-- MSI-X vectors of a block: how many, and the first. -/
def vecCount (b : Nat) : Nat := if b = 3 then 8 else if b = 65 ∨ (66 ≤ b ∧ b < 74) then 2 else 1

/-- Word `w` of entry `b` (Table 3-2). -/
def Dev.entWord (d : Dev) (b w : Nat) : Nat :=
  let e := d.ent b
  match w with
  | 0 => blkClass b * 65536 + blkInst b * 256
  | 1 => blkVer (blkClass b)
  | 2 => pageBase b
  | 3 => pageCount b * 65536
  | 4 => vecCount b * 65536 + vecOf b 0 0
  | 5 => e.cause * 65536 + e.origin * 16 + e.status
  | 6 => paramPtr b
  | _ => paramLen b * 65536 + e.stage * 256

/-- A word of the parameter area. -/
def Dev.paramWord (d : Dev) (off : Nat) : Nat :=
  let b := ((off - 0x1000) / 32 + 40) % 111
  let o := (off - 0x1000) % 32
  if o = 0 then blkClass b * 65536 + blkInst b * 256 + 1
  else if o = 4 then paramLen b * 65536
  else if o < paramLen b then d.param b o
  else 0

/-- A word from the first entry to the end of the parameter area. -/
def Dev.mapBody (d : Dev) (off : Nat) : Nat :=
  if off < 0xE20 then d.entWord ((off - 0x40) / 32) (off / 4 % 8)
  else if 0x1000 ≤ off ∧ off < 0x1DE0 then d.paramWord off
  else 0

/-- TABLE_CRC over the entries, the padding and the records. -/
def Dev.mapCrc (d : Dev) : Nat := crc32c ((List.range 0x768).flatMap fun i => leBytes 4 (d.mapBody (0x40 + 4 * i)))

/-- MAP_FLAGS. -/
def Dev.mapFlags (d : Dev) : Nat := 1 + 2 * bit01 ((List.range blkCount).any fun b => (d.ent b).status == 2)

/-- A word of the map; zero before publication (R40). -/
def Dev.mapWord (d : Dev) (off : Nat) : Nat :=
  if !d.map.published then 0
  else if 0x40 ≤ off then d.mapBody off
  else if off = 0x00 then 0x50414D44
  else if off = 0x04 then 0x00010000
  else if off = 0x08 then blkCount
  else if off = 0x0C then 32
  else if off = 0x10 then d.mapCrc
  else if off = 0x14 then 0x1000
  else if off = 0x18 then 0xDE0
  else if off = 0x1C then d.map.seq
  else if off = 0x20 then d.mapFlags
  else 0

/-! ### Where an offset of BAR-0 lies -/

/-- The windows of Table 3-13. -/
inductive Win0 where | imem | dmem | allot | trace | fb
deriving DecidableEq, Repr

/-- The block that owns a window. -/
def Win0.owner : Win0 → Nat
  | .imem => 3
  | .dmem => 3
  | .allot => 4
  | .trace => 108
  | .fb => 64

/-- What an offset of BAR-0 names. -/
inductive Target where
  | map (off : Nat)
  | page (b page off : Nat)
  | win (w : Win0) (off : Nat)
  | hole
deriving DecidableEq, Repr

def targetOf (a : Nat) : Target :=
  if a < 0x10000 then .map a
  else if 0x2000000 ≤ a then (if a < 0x4000000 then .win .allot (a - 0x2000000) else .hole)
  else if 0x1200000 ≤ a ∧ a < 0x1400000 then .win .dmem (a - 0x1200000)
  else if 0x1000000 ≤ a ∧ a < 0x1100000 then .win .imem (a - 0x1000000)
  else if 0x800000 ≤ a ∧ a < 0xC00000 then .win .trace (a - 0x800000)
  else if 0xB4000 ≤ a ∧ a < 0xB8000 then .win .fb (a - 0xB4000)
  else match (List.range blkCount).find? fun b => b != 0 && decide (pageBase b ≤ a) && decide (a < pageBase b + 4096 * pageCount b) with
    | some b => .page b ((a - pageBase b) / 4096) (a % 4096)
    | none => .hole

/-- Is an access served in DOZE and HOLD without a wake (R79)? -/
def Target.awake : Target → Bool
  | .map _ => true
  | .page b _ _ => b == 1 || b == 110
  | _ => false

/-- The page whose ERR_CODE records a bad access. -/
def Target.errPage : Target → Nat × Nat
  | .page b g _ => (b, g)
  | .win w _ => (w.owner, 0)
  | _ => (74, 0)

/-! ### Windows -/

/-- A 4-byte read of a window. -/
def Dev.winRead (d : Dev) (w : Win0) (off : Nat) : Nat × Dev :=
  match w with
  | .imem => d.ueRead 3 (if off < 0x40000 then 1 else 2) (off / 4) (d.ld spImem off 4)
  | .dmem => d.ueRead 3 3 (off / 4) (d.ld spDmem off 4)
  | .allot => let e := d.touchEntry (off / 32); (e.entryWord (off / 32) (off / 4 % 8), e)
  | .trace => (d.ld spTrace off 4, d)
  | .fb => d.fbRead (d.get .TBL_WIN_SEL_VIEW * 16384 + off)

/-- A 4-byte write of a window. -/
def Dev.winWrite (d : Dev) (p : Path) (w : Win0) (off v : Nat) : Dev :=
  match w with
  | .imem => d.imemWrite p off v
  | .dmem => (d.st spDmem off 4 v).eccWrite 3 (off / 4)
  | .allot => d.errWr p 4 0 off 0x0003 v
  | .trace => d.errWr p 108 0 off 0x0003 v
  | .fb => d

/-! ### Accesses -/

/-- An access outside every page is counted in the Host Port page (R64, R483). -/
def Dev.unmapped (d : Dev) (a v : Nat) : Dev := ((d.bump .UNMAPPED_COUNT).err 74 0 0x0005 a v).raise 74 0 5

/-- One 4-byte read. -/
def Dev.read4 (d : Dev) (p : Path) (a : Nat) : Nat × Dev :=
  match targetOf a with
  | .map off => (d.mapWord off, d)
  | .page b g off => d.regRead p b g off
  | .win w off => d.winRead w off
  | .hole => (0, d)

/-- One 4-byte write. -/
def Dev.write4 (d : Dev) (p : Path) (a v : Nat) : Dev :=
  match targetOf a with
  | .page b g off => d.regWrite p b g off v
  | .win w off => d.winWrite p w off v
  | _ => d

/-- Is an access of 4 bytes, or of 8 on 8? -/
def goodSize (a size : Nat) : Bool := (size == 4 && a % 4 == 0) || (size == 8 && a % 8 == 0)

/-- A read of `size` bytes (R40, R48, R64). -/
def Dev.busRead (d : Dev) (p : Path) (a size : Nat) : Nat × Dev :=
  let t := targetOf a
  let ones := 2 ^ (8 * size) - 1
  if t = .hole then (0, d.unmapped a 0)
  else if goodSize a size then
    let l := d.read4 p a
    if size = 4 then l
    else
      let h := l.2.read4 p (a + 4)
      (l.1 + h.1 * 2 ^ 32, h.2)
  else match t with
    | .map _ => (ones, d)
    | _ => (ones, d.err t.errPage.1 t.errPage.2 0x0002 (accessWord p (a % 4096) size false) 0)

/-- Does a DEVICE_FATAL device turn a write away (R596)? -/
def Dev.targetShut (d : Dev) (t : Target) : Bool :=
  match t with
  | .page b g off => d.fatalShut b g off
  | _ => d.get .DEV_FATAL_LEVEL == 2

/-- A write of `size` bytes (R40, R48, R64, R596). -/
def Dev.busWrite (d : Dev) (p : Path) (a size v : Nat) : Dev :=
  let t := targetOf a
  match t with
  | .map _ => d
  | .hole => d.unmapped a (v % 2 ^ 32)
  | _ =>
    if d.targetShut t then d
    else if goodSize a size then
      let d := d.write4 p a (v % 2 ^ 32)
      if size = 4 then d else d.write4 p (a + 4) (v / 2 ^ 32 % 2 ^ 32)
    else d.err t.errPage.1 t.errPage.2 0x0002 (accessWord p (a % 4096) size true) (v % 2 ^ 32)

/-- An access that arrives on a path: served at once where R79 says so, else it wakes and waits for RUN (R78). -/
def Dev.arrive (d : Dev) (p : Path) (a size : Nat) (v : Option Nat) (f : Dev → Dev) : Dev :=
  if !d.pathUp p ∨ 0x4000000 ≤ a then d
  else if (targetOf a).awake then f d.idleExit
  else d.heldAccess (wakeSrc p) (.bus p a size v) f

/-- A read that has arrived is answered. -/
def Dev.busAnswer (d : Dev) (p : Path) (a size : Nat) : Dev :=
  let r := d.busRead p a size
  r.2.emit (.readData p a r.1)

/-! ### Commands -/

/-- REGISTER_READ. -/
def execRegisterRead (p : Path) (addr size : Nat) (s : State) : Out := s.run fun d =>
  d.arrive p addr size none fun e => e.busAnswer p addr size

/-- REGISTER_WRITE. -/
def execRegisterWrite (p : Path) (addr size v : Nat) (s : State) : Out := s.run fun d =>
  d.arrive p addr size (some v) fun e => e.busWrite p addr size v

/-- UNMAPPED_ACCESS (R64): at an offset outside every page and window. -/
def execUnmappedAccess (p : Path) (addr : Nat) (wr : Option Word) (s : State) : Out := s.run fun d =>
  if targetOf addr ≠ .hole then d
  else match wr with
    | some v => d.arrive p addr 4 (some v.toNat) fun e => e.busWrite p addr 4 v.toNat
    | none => d.arrive p addr 4 none fun e => e.busAnswer p addr 4

/-- A register of a page, by block. -/
def Dev.readAt (d : Dev) (p : Path) (b page off : Nat) : Dev :=
  let a := regAddr b page off
  if b = 0 ∨ blkCount ≤ b ∨ pageCount b ≤ page ∨ 4096 ≤ off then d else d.arrive p a 4 none fun e => e.busAnswer p a 4

def Dev.writeAt (d : Dev) (p : Path) (b page off v : Nat) : Dev :=
  let a := regAddr b page off
  if b = 0 ∨ blkCount ≤ b ∨ pageCount b ≤ page ∨ 4096 ≤ off then d else d.arrive p a 4 (some v) fun e => e.busWrite p a 4 v

/-- LATCH_READ_LOW (R51): a read of the low word of a 64-bit register. -/
def execLatchReadLow (p : Path) (b page off : Nat) (s : State) : Out := s.run fun d =>
  if wideOf b page off = 1 then d.readAt p b page off else d

/-- HIGH_WORD_WRITE (R52): a write of the high word of a 64-bit register. -/
def execHighWordWrite (p : Path) (b page off : Nat) (v : Word) (s : State) : Out := s.run fun d =>
  if wideOf b page off = 2 then d.writeAt p b page off v.toNat else d

/-- IRQ_PEND_CLEAR (R54, R55, R56). -/
def execIrqPendClear (p : Path) (b page : Nat) (v : Word) (s : State) : Out := s.run fun d => d.writeAt p b page offPend v.toNat

/-- IRQ_MASK_WRITE (R56). -/
def execIrqMaskWrite (p : Path) (b page : Nat) (v : Word) (s : State) : Out := s.run fun d => d.writeAt p b page offMask v.toNat

/-- IRQ_FORCE (R53, R56). -/
def execIrqForce (p : Path) (b page : Nat) (v : Word) (s : State) : Out := s.run fun d => d.writeAt p b page 0x20 v.toNat

/-- ERR_CODE_CLEAR (R58). -/
def execErrCodeClear (p : Path) (b page : Nat) (s : State) : Out := s.run fun d => d.writeAt p b page offErr (2 ^ 31)

/-- STATE_DATA_READ (R62, R63). -/
def execStateDataRead (p : Path) (b page : Nat) (s : State) : Out := s.run fun d => d.readAt p b page 0x3C

/-- The bounds registers of the adaptive loops, by block. -/
def boundsAt (b page off : Nat) : Bool :=
  let c := blkClass b
  (c == 0xe1 && (off == 0xD4 || off == 0xD8)) || (c == 0x31 && page == 0 && (off == 0x8C || off == 0x90))
    || (c == 0x40 && page == 1 && (off == 0x200 || off == 0x204)) || (c == 0x70 && page == 0 && off == 0x88)
    || (c == 0x70 && page == 1 && off == 0x80) || (c == 0xb0 && page == 0 && off == 0x8C)

/-- Their pins. -/
def pinAt (b page off : Nat) : Bool :=
  let c := blkClass b
  (c == 0xe1 && off == 0xDC) || (c == 0x31 && page == 0 && off == 0x94) || (c == 0x40 && page == 1 && off == 0x208)
    || (c == 0x70 && page == 0 && off == 0x90) || (c == 0x70 && page == 1 && off == 0x88) || (c == 0xb0 && page == 0 && off == 0x90)

/-- The loop of a bounds or pin register: its key in `tied`, and the instance whose update meets the write. -/
def Dev.loopAt (d : Dev) (b page off : Nat) : Nat × Nat :=
  if blkClass b = 0x70 ∧ page = 1 then (0x71, if off = 0x88 then d.get .PTS_SEL_TENSOR else 2 ^ 16) else (blkClass b, 2 ^ 16)

/-- A write of a loop's bounds or pin; with `same`, an update of that loop falls in the same cycle: the write takes effect and the update,
which comes next, changes only the shadow (R23). A refused write leaves the update as it is. The lane-rate loop's updates meet writes of their
whole window (R512). -/
def Dev.loopWrite (d : Dev) (p : Path) (b page off v : Nat) (same : Bool) : Dev :=
  if same && !d.asleep && blkClass b != 0xb0 then
    let e := ({ d with errSeen := 0 } : Dev).writeAt p b page off v
    if e.errSeen == 0 || e.hrd b page off != d.hrd b page off then { e with tied := e.tied ++ [d.loopAt b page off] } else e
  else d.writeAt p b page off v

/-- LOOP_BOUNDS_WRITE (R22 to R24). -/
def execLoopBoundsWrite (p : Path) (b page off : Nat) (v : Word) (same : Bool) (s : State) : Out := s.run fun d =>
  if boundsAt b page off then d.loopWrite p b page off v.toNat same else d

/-- LOOP_PIN_WRITE (R21, R23). -/
def execLoopPinWrite (p : Path) (b page off : Nat) (v : Word) (same : Bool) (s : State) : Out := s.run fun d =>
  if pinAt b page off then d.loopWrite p b page off v.toNat same else d

/-- UE_FIRST_CLEAR (R580): 1 to UE_FIRST_ADDR.VALID releases the capture. -/
def execUeFirstClear (p : Path) (s : State) : Out := s.run fun d => d.writeAt p 109 0 0xB0 (2 ^ 31)

/-- A write at an offset of BAR-4 beyond the MSI-X structures: the doorbells and the rings' consumer indices. -/
def Dev.aliasWrite (d : Dev) (off v : Nat) : Dev :=
  if d.get .DEV_FATAL_LEVEL = 2 then d
  else if off = 0x10000 then d.regWrite .host 3 0 0xAC v
  else if off = 0x10004 then d.regWrite .host 1 0 0xC8 v
  else if 0x10100 ≤ off ∧ off < 0x10120 ∧ off % 4 = 0 then d.regWrite .host 3 1 (0x8C + 4 * (off - 0x10100)) v
  else d

/-- BAR4_ALIAS_WRITE (R472): a write of an alias acts as a write of its register on the host path. -/
def execBar4AliasWrite (off : Nat) (v : Word) (s : State) : Out := s.run fun d =>
  if !d.hostUp then d
  else if off = 0x10004 then d.idleExit.aliasWrite off v.toNat
  else d.heldAccess 3 (.alias_ off v.toNat) fun e => e.aliasWrite off v.toNat

end Sys2Proof.Machine
end

