-- ==== Sys2Proof/Machine/Flags.lean ====
section
/-! DEFINITION. The Headgate's integer results and the conditions that it writes to predicates (Tables 8-3, 8-4, R176). It has no
condition flags; the Gauge House sequencer's Z and C are set by the instructions of that chapter. -/
namespace Sys2Proof.Machine

/-- The immediate of format I, sign-extended to 64 bits. -/
def sextImm (imm : Nat) : DWord := (BitVec.ofNat 32 imm).signExtend 64

/-- The ALU operation `f` (ALU, ALUI). -/
def aluOp (f : Nat) (a x : DWord) : DWord :=
  let n := x.toNat % 64
  if f = 0 then a + x
  else if f = 1 then a - x
  else if f = 2 then a &&& x
  else if f = 3 then a ||| x
  else if f = 4 then a ^^^ x
  else if f = 5 then a &&& ~~~x
  else if f = 6 then a <<< n
  else if f = 7 then a >>> n
  else if f = 8 then a.sshiftRight n
  else if f = 9 then a.rotateRight n
  else if f = 10 then (if a.toNat ≤ x.toNat then a else x)
  else if f = 11 then (if a.toNat ≤ x.toNat then x else a)
  else if f = 12 then (if a.toInt ≤ x.toInt then a else x)
  else if f = 13 then (if a.toInt ≤ x.toInt then x else a)
  else if f = 14 then a * x
  else BitVec.ofNat 64 (a.toNat * x.toNat / 2 ^ 64)

/-- The condition `f` (CMP, CMPI). -/
def cmpOp (f : Nat) (a x : DWord) : Bool :=
  if f = 0 then a == x
  else if f = 1 then a != x
  else if f = 2 then decide (a.toNat < x.toNat)
  else if f = 3 then decide (x.toNat ≤ a.toNat)
  else if f = 4 then decide (a.toInt < x.toInt)
  else if f = 5 then decide (x.toInt ≤ a.toInt)
  else if f = 6 then (a &&& x) != 0
  else (a &&& x) == 0

/-- The predicate operation `f` (PLOG). -/
def plogOp (f : Nat) (a b : Bool) : Bool :=
  if f = 0 then a && b else if f = 1 then a || b else if f = 2 then a != b else if f = 3 then a && !b else if f = 4 then a else !a

/-- The width that LEN names: 0 means 64. -/
def lenOf (imm : Nat) : Nat := if bitsOf imm 8 6 = 0 then 64 else bitsOf imm 8 6

/-- field(v, pos, len) of section "Bundle and slot layout". -/
def fieldOp (v : Nat) (imm : Nat) : Nat := v / 2 ^ bitsOf imm 0 6 % 2 ^ lenOf imm

/-- EXT: the field, sign-extended from its top bit where F is 1. -/
def extOp (f : Nat) (v : Nat) (imm : Nat) : Nat :=
  let x := fieldOp v imm
  if f = 1 then unsigned 64 (signed (lenOf imm) x) else x

/-- DEP: the low bits of `b` take the place of a field of `a`. -/
def depOp (a b imm : Nat) : Nat :=
  let pos := bitsOf imm 0 6
  let w := min (lenOf imm) (64 - pos)
  putBits a pos w b

/-- CNT: leading zeros, trailing zeros, ones. -/
def cntOp (f : Nat) (v : Nat) : Nat :=
  let ones := (List.range 64).filter fun i => bitsOf v i 1 == 1
  if f = 0 then (match ones.getLast? with
    | some i => 63 - i
    | none => 64)
  else if f = 1 then ones.headD 64
  else ones.length

end Sys2Proof.Machine
end

