-- ==== Sys2Proof/Machine/Operands.lean ====
section
/-! DEFINITION. The operand forms of a Headgate bundle: its slots and their fields (Tables 8-1, 8-2, 8-6), and the static checks of
decode (R173, R175, R186, R187). -/
namespace Sys2Proof.Machine

/-- A format I word with the word c1 of slot C (Table 8-2). -/
structure Slot where
  w : Nat
  c1 : Nat
deriving DecidableEq, Repr

/-- Fields of format I. -/
def Slot.opc (s : Slot) : Nat := bitsOf s.w 56 8
def Slot.qn (s : Slot) : Nat := bitsOf s.w 55 1
def Slot.qp (s : Slot) : Nat := bitsOf s.w 52 3
def Slot.d (s : Slot) : Nat := bitsOf s.w 47 5
def Slot.a (s : Slot) : Nat := bitsOf s.w 42 5
def Slot.b (s : Slot) : Nat := bitsOf s.w 37 5
def Slot.f (s : Slot) : Nat := bitsOf s.w 32 5
def Slot.imm (s : Slot) : Nat := bitsOf s.w 0 32

/-- A bundle: slots A, B, C; the header and parameter words of slot D. -/
structure Bundle where
  a : Slot
  b : Slot
  c : Slot
  hdr : Nat
  w1 : Nat
  w2 : Nat
  w3 : Nat
deriving DecidableEq, Repr

/-- The eight words of a bundle (Table 8-1). -/
def Bundle.ofWords (q : List Nat) : Bundle :=
  { a := ⟨q.getD 0 0, 0⟩, b := ⟨q.getD 1 0, 0⟩, c := ⟨q.getD 2 0, q.getD 3 0⟩, hdr := q.getD 4 0, w1 := q.getD 5 0, w2 := q.getD 6 0,
    w3 := q.getD 7 0 }

/-- Fields of the slot D header (Table 8-6). -/
def Bundle.kind (x : Bundle) : Nat := bitsOf x.hdr 60 4
def Bundle.issues (x : Bundle) : Bool := x.kind == 1
def Bundle.cls (x : Bundle) : Nat := bitsOf x.hdr 40 16
def Bundle.inst (x : Bundle) : Nat := bitsOf x.hdr 32 8
def Bundle.op (x : Bundle) : Nat := bitsOf x.hdr 24 8
def Bundle.hv (x : Bundle) : Nat := bitsOf x.hdr 23 1
def Bundle.handle (x : Bundle) : Nat := bitsOf x.hdr 19 4
def Bundle.ring (x : Bundle) : Nat := bitsOf x.hdr 16 3
def Bundle.sel (x : Bundle) : List Nat := [bitsOf x.hdr 11 5, bitsOf x.hdr 6 5, bitsOf x.hdr 1 5]

/-- What an instruction writes. -/
inductive Dest where
  | none | g | p | pair | mtp | h
deriving DecidableEq, Repr

/-- A row of Tables 8-3 to 8-5: mnemonic, F values, destination, whether D, A, B and IMM are named, which of A and B are general
registers read. -/
structure OpRow where
  name : String
  fs : List Nat
  dest : Dest
  d : Bool
  a : Bool
  b : Bool
  imm : Bool
  srcA : Bool
  srcB : Bool
deriving DecidableEq, Repr

/-- A row by the letters of the fields it names and of the sources it reads. -/
def opRow (name : String) (fs : List Nat) (dest : Dest) (fields srcs : List Char) : OpRow :=
  { name := name, fs := fs, dest := dest, d := fields.contains 'D', a := fields.contains 'A', b := fields.contains 'B',
    imm := fields.contains 'I', srcA := srcs.contains 'A', srcB := srcs.contains 'B' }

/-- Table 8-3: slots A and B. -/
def rowAB (opc : Nat) : Option OpRow :=
  if opc = 0x00 then some (opRow "NOP" [0] .none [] [])
  else if opc = 0x10 then some (opRow "ALU" (List.range 16) .g ['D', 'A', 'B'] ['A', 'B'])
  else if opc = 0x11 then some (opRow "ALUI" (List.range 16) .g ['D', 'A', 'I'] ['A'])
  else if opc = 0x14 then some (opRow "EXT" [0, 1] .g ['D', 'A', 'I'] ['A'])
  else if opc = 0x15 then some (opRow "DEP" [0] .g ['D', 'A', 'B', 'I'] ['A', 'B'])
  else if opc = 0x16 then some (opRow "CNT" [0, 1, 2] .g ['D', 'A'] ['A'])
  else if opc = 0x18 then some (opRow "CMP" (List.range 8) .p ['D', 'A', 'B'] ['A', 'B'])
  else if opc = 0x19 then some (opRow "CMPI" (List.range 8) .p ['D', 'A', 'I'] ['A'])
  else if opc = 0x1A then some (opRow "PLOG" (List.range 6) .p ['D', 'A', 'B'] [])
  else if opc = 0x1B then some (opRow "SEL" [0] .g ['D', 'A', 'B', 'I'] ['A', 'B'])
  else if opc = 0x1C then some (opRow "MFP" [0] .g ['D'] [])
  else if opc = 0x1D then some (opRow "MTP" [0] .mtp ['A'] ['A'])
  else if opc = 0x20 then some (opRow "MPEEK" (List.range 9) .g ['D', 'I'] [])
  else if opc = 0x21 then some (opRow "MPOP" (List.range 9) .g ['D'] [])
  else if opc = 0x22 then some (opRow "MFEV" [0] .g ['D'] [])
  else if opc = 0x23 then some (opRow "MFH" [0] .g ['D', 'I'] [])
  else if opc = 0x24 then some (opRow "HQRY" [0] .g ['D', 'I'] [])
  else if opc = 0x25 then some (opRow "AOT" [0] .g ['D'] [])
  else none

/-- Table 8-4: slot B only. -/
def rowB (opc : Nat) : Option OpRow :=
  if opc = 0x40 then some (opRow "BR" [0] .none ['I'] [])
  else if opc = 0x41 then some (opRow "BL" [0] .g ['D', 'I'] [])
  else if opc = 0x42 then some (opRow "BX" [0] .none ['A'] ['A'])
  else if opc = 0x43 then some (opRow "WAIT" [0] .none ['A', 'I'] ['A'])
  else if opc = 0x44 then some (opRow "EVCLR" [0] .none ['A', 'I'] ['A'])
  else if opc = 0x45 then some (opRow "TMR" [0, 1] .none ['A', 'I'] ['A'])
  else if opc = 0x46 then some (opRow "SIGNAL" [0] .none ['A'] ['A'])
  else if opc = 0x47 then some (opRow "HALT" [0] .none [] [])
  else if opc = 0x48 then some (opRow "SLEEP" [0] .g ['D', 'A', 'B'] ['A', 'B'])
  else if opc = 0x49 then some (opRow "HABORT" [0] .none ['I'] [])
  else if opc = 0x4A then some (opRow "HCLR" [0] .h ['I'] [])
  else rowAB opc

/-- Table 8-5: slot C. -/
def rowC (opc : Nat) : Option OpRow :=
  if opc = 0x00 then some (opRow "NOP" [0] .none [] [])
  else if opc = 0x80 then some (opRow "LD" [0, 1, 2, 3, 4, 8, 9, 10] .g ['D', 'A'] ['A'])
  else if opc = 0x81 then some (opRow "ST" [0, 1, 2, 3, 4] .none ['A', 'B'] ['A', 'B'])
  else if opc = 0x82 then some (opRow "LDV" [2, 3] .g ['D', 'A'] ['A'])
  else if opc = 0x83 then some (opRow "STV" [2, 3] .none ['A', 'B'] ['A', 'B'])
  else if opc = 0x84 then some (opRow "MOVW" [0] .g ['D'] [])
  else if opc = 0x85 then some (opRow "MOVP" [0] .pair ['D', 'A'] ['A'])
  else if opc = 0x86 then some (opRow "FENCE" [0] .none [] [])
  else none

/-- The row of a slot: 0 A, 1 B, 2 C. -/
def Slot.row (s : Slot) (n : Nat) : Option OpRow := if n = 0 then rowAB s.opc else if n = 1 then rowB s.opc else rowC s.opc

/-- Does a slot C instruction use IMM64? -/
def usesImm64 (opc : Nat) : Bool := opc == 0x80 || opc == 0x81 || opc == 0x82 || opc == 0x83 || opc == 0x84

/-- A slot A, B or C that raises ILLEGAL_BUNDLE by itself (R173). -/
def Slot.bad (s : Slot) (n : Nat) : Bool :=
  match s.row n with
  | none => true
  | some r =>
    let nop := s.opc == 0 && s.w != 0
    let form := !r.fs.contains s.f || (!r.d && s.d != 0) || (!r.a && s.a != 0) || (!r.b && s.b != 0) || (!r.imm && s.imm != 0)
    let pred := r.dest == .p && decide (8 ≤ s.d)
    let plog := r.name == "PLOG" && (decide (8 ≤ s.a) || decide (8 ≤ s.b) || (decide (4 ≤ s.f) && s.b != 0))
    let pair := (r.name == "LD" && s.f == 4 && s.d % 2 == 1) || (r.name == "ST" && s.f == 4 && s.b % 2 == 1) ||
      (r.dest == .pair && (s.d % 2 == 1 || s.a % 2 == 1))
    let c1 := n == 2 && !usesImm64 s.opc && s.c1 != 0
    nop || form || pred || plog || pair || c1

/-- A register that a slot writes: 0 general, 1 predicate, 2 handle; g0 and p0 are exempt (R175). -/
def Slot.writes (s : Slot) (n : Nat) : List (Nat × Nat) :=
  match s.row n with
  | none => []
  | some r =>
    let two := r.name == "LD" && s.f == 4
    let all := match r.dest with
      | .none => []
      | .g => (0, s.d) :: (if two then [(0, s.d + 1)] else [])
      | .pair => [(0, s.d), (0, s.d + 1)]
      | .p => [(1, s.d % 8)]
      | .mtp => (List.range 7).map fun i => (1, i + 1)
      | .h => [(2, s.imm % 16)]
    all.filter fun x => !(x.1 < 2 && x.2 == 0)

/-- The handle register that slot D writes. -/
def Bundle.writesD (x : Bundle) : List (Nat × Nat) := if x.issues && x.hv == 1 then [(2, x.handle)] else []

/-- Instances and operations of a task's engine class (Table 8-7). -/
def taskTarget (cls : Nat) : Nat × Nat :=
  if cls = 0x30 then (1, 4) else if cls = 0x31 then (1, 2) else if cls = 0x40 then (32, 5) else if cls = 0x61 then (1, 1)
  else if cls = 0x70 then (1, 2) else if cls = 0x80 then (1, 3) else if cls = 0xB1 then (1, 1) else (0, 0)

/-- A slot D that raises ILLEGAL_BUNDLE by itself (Table 8-6, R186, R187). -/
def Bundle.badD (x : Bundle) : Bool :=
  if x.kind = 0 then x.hdr != 0 || x.w1 != 0 || x.w2 != 0 || x.w3 != 0
  else if x.kind ≠ 1 then true
  else
    let t := taskTarget x.cls
    x.hdr % 2 == 1 || x.op == 0 || decide (t.2 < x.op) || decide (t.1 ≤ x.inst) || (x.hv == 0 && x.handle != 0) ||
      ((x.sel.zip [x.w1, x.w2, x.w3]).any fun y => y.1 != 0 && y.2 != 0)

/-- Do two slots write a register in common? -/
def clash (x y : List (Nat × Nat)) : Bool := x.any fun r => y.contains r

/-- The lowest slot that raises ILLEGAL_BUNDLE (R160, R173, R175, R186, R187). -/
def Bundle.illegal (x : Bundle) : Option Nat :=
  let wa := x.a.writes 0
  let wb := x.b.writes 1
  let wc := x.c.writes 2
  let wd := x.writesD
  let mpops := x.a.opc == 0x21 && x.b.opc == 0x21
  if x.a.bad 0 || clash wa wb || clash wa wc || clash wa wd || mpops then some 0
  else if x.b.bad 1 || clash wb wc || clash wb wd || (x.b.opc == 0x48 && x.issues) then some 1
  else if x.c.bad 2 || clash wc wd then some 2
  else if x.badD then some 3
  else none

/-- The general registers that a slot names as sources. -/
def Slot.reads (s : Slot) (n : Nat) : List Nat :=
  match s.row n with
  | none => []
  | some r => (if r.srcA then [s.a] else []) ++ (if r.srcB then [s.b] else []) ++
      (if r.dest == .pair then [s.a + 1] else []) ++ (if r.name == "ST" && s.f == 4 then [s.b + 1] else [])

/-- Every general register that a bundle names, as a source or as a destination: it waits for each (R144). -/
def Bundle.names (x : Bundle) : List Nat :=
  let ws := (x.a.writes 0 ++ x.b.writes 1 ++ x.c.writes 2).filter fun r => r.1 == 0
  x.a.reads 0 ++ x.b.reads 1 ++ x.c.reads 2 ++ (if x.issues then x.sel else []) ++ ws.map (·.2)

end Sys2Proof.Machine
end

