-- ==== Sys2Proof/Machine/HgIsa.lean ====
section
/-! DEFINITION. The Headgate's instructions (chapter 08): a bundle's checks stage by stage, what each instruction does, and the commit.
A command runs the whole bundle at pc where one of its slots holds the command's instruction. -/
namespace Sys2Proof.Machine

/-! ### Fetch and samples -/

/-- The eight words of bundle `pc` (R172). -/
def Dev.bundleAt (d : Dev) (pc : Nat) : List Nat := (List.range 8).map fun i => d.ld spImem (64 * pc + 8 * i) 8

/-- The mark FIFO that a selector names, if it is not empty. -/
def Dev.markFifo (d : Dev) (sel : Nat) : Option Nat :=
  if sel < 8 then (if (d.hg.marks.getD sel []).isEmpty then none else some sel)
  else (List.range 8).find? fun n => !(d.hg.marks.getD n []).isEmpty

/-- The FIFO and the head entry that a slot's MPEEK or MPOP samples (R177): the mark, the partner, VALID. -/
def Dev.sample (d : Dev) (s : Slot) : Option (Nat × Nat) :=
  if s.opc ≠ 0x20 ∧ s.opc ≠ 0x21 then none
  else (d.markFifo s.f).map fun n => (n, (((d.hg.marks.getD n []).map (·.1)).getD 0 0) % 2 ^ 32 + n * 2 ^ 32 + 2 ^ 35)

/-- The same core with its bundle in D or not. -/
def Dev.setD (d : Dev) (b : Bool) : Dev := { d with hg := { d.hg with inD := b } }

/-- The same core with no bundle stalled. -/
def Dev.noStall (d : Dev) : Dev := { d with hg := { d.hg with stall := none, inD := false } }

/-- A bundle in execution: the state that its slots read, its pc, what slots A and B sampled. -/
structure Run where
  d : Dev
  pc : Nat
  x : Bundle
  smp : List (Option (Nat × Nat))
deriving DecidableEq, Repr

/-- Does a slot execute (R174)? -/
def Run.on (r : Run) (qp qn : Nat) : Bool := r.d.pReg qp != (qn == 1)
def Run.slotOn (r : Run) (s : Slot) : Bool := r.on s.qp s.qn
def Run.dOn (r : Run) : Bool := r.x.issues && r.on (bitsOf r.x.hdr 56 3) (bitsOf r.x.hdr 59 1)

/-- Source registers, as every slot reads them before any slot writes (R142). -/
def Run.ga (r : Run) (s : Slot) : DWord := r.d.gReg s.a
def Run.gb (r : Run) (s : Slot) : DWord := r.d.gReg s.b
def Run.imm (_ : Run) (s : Slot) : DWord := sextImm s.imm
def Run.mask (r : Run) (s : Slot) : Nat := (r.ga s).toNat ||| s.imm

/-- The tag in h[IMM 3:0]; none where its VALID is 0. -/
def Run.tag (r : Run) (s : Slot) : Option Nat :=
  let h := (r.d.hReg (s.imm % 16)).toNat
  if bitsOf h 31 1 = 1 then some (h % 65536) else none

/-! ### Addresses of slot C (R184) -/

/-- The bytes that an access of slot C moves, and its address. -/
def Slot.size (s : Slot) : Nat := 2 ^ (s.f % 8)
def Run.addr (r : Run) (s : Slot) : Nat := ((r.ga s).toNat + s.c1) % 2 ^ 64

/-- The register view (Table 7-2): base and the BAR-0 offset of an address. -/
def viewBase : Nat := 0x100000000
def viewOff (a : Nat) : Nat := a - viewBase

/-- The exception of an LD or ST address. -/
def memFault (a size : Nat) : Option Nat :=
  if a % size ≠ 0 then some 0x0203
  else if a < 0x1FF000 then none
  else if a < 0x200000 then some 0x0205
  else some 0x0204

/-- The exception of an LDV or STV address. -/
def viewFault (a size : Nat) : Option Nat :=
  if a % size ≠ 0 then some 0x0203
  else if a < viewBase ∨ viewBase + 0x4000000 ≤ a then some 0x0204
  else match targetOf (viewOff a) with
    | .win .imem _ => some 0x0204
    | .win .dmem _ => some 0x0204
    | _ => none

/-! ### Branches -/

/-- The target of slot B's branch, where it is one. -/
def Run.target (r : Run) : Option Nat :=
  let s := r.x.b
  if !r.slotOn s then none
  else if s.opc = 0x40 ∨ s.opc = 0x41 then some (s.imm % 16384)
  else if s.opc = 0x42 then some (r.ga s).toNat
  else none

/-- PC_RANGE (Table 7-6, R179). -/
def Run.pcFault (r : Run) : Bool :=
  match r.target with
  | none => r.pc == 16383
  | some t => decide (16384 ≤ t) || (decide (4096 ≤ r.pc) && decide (t < 4096))

/-! ### Faults, stage by stage (R160) -/

/-- A fault: slot, code, the address of a faulting access. -/
structure Flt where
  slot : Nat
  code : Nat
  addr : Option Nat
deriving DecidableEq, Repr

/-- HANDLE_INVALID of HQRY and HABORT. -/
def Run.handleFault (r : Run) (s : Slot) : Bool := r.slotOn s && (s.opc == 0x24 || s.opc == 0x49) && (r.tag s).isNone

/-- Stage X. -/
def Run.faultX (r : Run) : Option Flt :=
  let b := r.x.b
  let c := r.x.c
  if r.handleFault r.x.a then some ⟨0, 0x0206, none⟩
  else if r.handleFault b then some ⟨1, 0x0206, none⟩
  else if r.slotOn b ∧ b.opc = 0x43 ∧ r.mask b % 2 ^ 40 = 0 then some ⟨1, 0x0207, none⟩
  else if r.pcFault then some ⟨1, 0x0209, none⟩
  else if !r.slotOn c then none
  else if c.opc = 0x80 ∨ c.opc = 0x81 then (memFault (r.addr c) c.size).map fun e => ⟨2, e, some (r.addr c)⟩
  else if c.opc = 0x82 ∨ c.opc = 0x83 then (viewFault (r.addr c) c.size).map fun e => ⟨2, e, some (r.addr c)⟩
  else none

/-- The control words of a byte range that hold an uncorrectable error. -/
def Dev.eccIn (d : Dev) (mem a size : Nat) : Option Nat :=
  (List.range ((a % 4 + size + 3) / 4)).findSome? fun i => if d.ecc.contains (mem, a / 4 + i) then some (a / 4 + i) else none

/-- The core stops at an exception: nothing of the bundle commits (R159). ERR_INFO is not stated: a free value (notes/assumptions/56.md). -/
def Dev.hgFault (d : Dev) (f : Flt) (pc : Nat) : Dev :=
  let d := d.wr .HG_FAULT (f.slot * 2 ^ 30 + pc * 65536 + f.code)
  let d := match f.addr with
    | some a => d.wr64 .HG_FAULT_ADDR_LO a
    | none => d
  let lo := d.fresh
  let hi := lo.2.fresh
  let d := hi.2.err hgb 0 f.code (lo.1 % 2 ^ 32) (hi.1 % 2 ^ 32)
  ({ d with hg := { d.hg with stepping := false, haltReq := false, stall := none } }.setHg hgFAULTED).raise hgb 0
    (if f.code = 0x020A then 2 else 0)

/-- Is an enabled breakpoint at pc? -/
def Dev.breakAt (d : Dev) (pc : Nat) : Bool :=
  (List.range 2).any fun n => d.get (.HG_BP_EN n) == 1 && d.get (.HG_BP_PC n) == pc

/-- Stage D: IMEM_ECC_UE, BREAKPOINT, ILLEGAL_BUNDLE. -/
def Dev.faultD (d : Dev) (pc : Nat) (x : Bundle) : Option (Flt × Option Nat) :=
  match d.eccIn (if pc < 4096 then 1 else 2) (64 * pc) 64 with
  | some w => some (⟨0, 0x0201, none⟩, some w)
  | none =>
    if d.breakAt pc then some (⟨0, 0x020A, none⟩, none)
    else (x.illegal.map fun n => (⟨n, 0x0200, none⟩, none))

/-! ### Integer, predicate, mark and handle instructions (Table 8-3)

Each takes the bundle, the slot, and the state as the slots before it left it. -/

def Run.alu (r : Run) (s : Slot) (e : Dev) : Dev := e.setG s.d (aluOp s.f (r.ga s) (r.gb s))
def Run.alui (r : Run) (s : Slot) (e : Dev) : Dev := e.setG s.d (aluOp s.f (r.ga s) (r.imm s))
def Run.ext (r : Run) (s : Slot) (e : Dev) : Dev := e.setG s.d (BitVec.ofNat 64 (extOp s.f (r.ga s).toNat s.imm))
def Run.dep (r : Run) (s : Slot) (e : Dev) : Dev := e.setG s.d (BitVec.ofNat 64 (depOp (r.ga s).toNat (r.gb s).toNat s.imm))
def Run.cnt (r : Run) (s : Slot) (e : Dev) : Dev := e.setG s.d (BitVec.ofNat 64 (cntOp s.f (r.ga s).toNat))
def Run.cmp (r : Run) (s : Slot) (e : Dev) : Dev := e.setP (s.d % 8) (cmpOp s.f (r.ga s) (r.gb s))
def Run.cmpi (r : Run) (s : Slot) (e : Dev) : Dev := e.setP (s.d % 8) (cmpOp s.f (r.ga s) (r.imm s))
def Run.plog (r : Run) (s : Slot) (e : Dev) : Dev := e.setP (s.d % 8) (plogOp s.f (r.d.pReg (s.a % 8)) (r.d.pReg (s.b % 8)))
def Run.sel (r : Run) (s : Slot) (e : Dev) : Dev := e.setG s.d (if r.d.pReg (s.imm % 8) then r.ga s else r.gb s)
def Run.mfp (r : Run) (s : Slot) (e : Dev) : Dev :=
  e.setG s.d (BitVec.ofNat 64 ((List.range 8).foldl (fun a n => a + bit01 (r.d.pReg n) * 2 ^ n) 0))
def Run.mtp (r : Run) (s : Slot) (e : Dev) : Dev :=
  (List.range 7).foldl (fun e n => e.setP (n + 1) ((r.ga s).getLsbD (n + 1))) e
def Run.mpeek (r : Run) (s : Slot) (n : Nat) (e : Dev) : Dev :=
  e.setG s.d (BitVec.ofNat 64 (fieldOp (((r.smp.getD n none).map (·.2)).getD 0) s.imm))

/-- The sampled entry is removed: it is still at the head of its FIFO. -/
def Run.mpop (r : Run) (s : Slot) (n : Nat) (e : Dev) : Dev :=
  match r.smp.getD n none with
  | none => e.setG s.d 0
  | some (f, v) =>
    { e with hg := { e.hg with marks := e.hg.marks.set f ((e.hg.marks.getD f []).drop 1) } }.setG s.d (BitVec.ofNat 64 v)

def Run.mfev (r : Run) (s : Slot) (e : Dev) : Dev := e.setG s.d (BitVec.ofNat 64 r.d.evWord)
def Run.mfh (r : Run) (s : Slot) (e : Dev) : Dev := e.setG s.d ((r.d.hReg (s.imm % 16)).zeroExtend 64)

/-- HQRY (R183). -/
def Run.hqry (r : Run) (s : Slot) (e : Dev) : Dev :=
  let st := (((r.tag s).bind fun t => r.d.task? t).map fun t => t.st).getD 0
  e.setG s.d (BitVec.ofNat 64 st)

def Run.aot (r : Run) (s : Slot) (e : Dev) : Dev := e.setG s.d (BitVec.ofNat 64 r.d.gh.timer)

/-- An instruction of Table 8-3 in slot `n`; NOP does nothing. -/
def Run.int (r : Run) (s : Slot) (n : Nat) (e : Dev) : Dev :=
  let o := s.opc
  if o = 0x10 then r.alu s e
  else if o = 0x11 then r.alui s e
  else if o = 0x14 then r.ext s e
  else if o = 0x15 then r.dep s e
  else if o = 0x16 then r.cnt s e
  else if o = 0x18 then r.cmp s e
  else if o = 0x19 then r.cmpi s e
  else if o = 0x1A then r.plog s e
  else if o = 0x1B then r.sel s e
  else if o = 0x1C then r.mfp s e
  else if o = 0x1D then r.mtp s e
  else if o = 0x20 then r.mpeek s n e
  else if o = 0x21 then r.mpop s n e
  else if o = 0x22 then r.mfev s e
  else if o = 0x23 then r.mfh s e
  else if o = 0x24 then r.hqry s e
  else if o = 0x25 then r.aot s e
  else e

/-! ### Control instructions (Table 8-4). BR, BX and the ends of WAIT and HALT act when the bundle has committed. -/

def Run.bl (r : Run) (s : Slot) (e : Dev) : Dev := e.setG s.d (BitVec.ofNat 64 (r.pc + 1))

/-- EVCLR: latched bits alone. -/
def Run.evclr (r : Run) (s : Slot) (e : Dev) : Dev := e.clearEv (r.mask s % 2 ^ 40 / 65536 * 65536)

/-- Timer `n`'s event: TIMER_n clears, and its arming has fired no event. -/
def Dev.tmrClear (d : Dev) (n : Nat) : Dev :=
  { d with hg := { d.hg with fired := putBits d.hg.fired n 1 0 } }.clearEv (2 ^ (32 + n))

/-- TMR SET and CLR (R158, R182): a compare value already reached sets TIMER_n at once. -/
def Run.tmrSet (r : Run) (s : Slot) (e : Dev) : Dev :=
  let n := s.imm % 4
  let e := ((e.wr64 (.HG_TMR_LO n) (r.ga s).toNat).setBit .HG_TMR_ARMED n true).tmrClear n
  if (r.ga s).toNat ≤ e.gh.timer then e.tmrFire n else e
def Run.tmrClr (_ : Run) (s : Slot) (e : Dev) : Dev := (e.setBit .HG_TMR_ARMED (s.imm % 4) false).tmrClear (s.imm % 4)

def Run.signal (r : Run) (s : Slot) (e : Dev) : Dev := (e.wr .HG_SIGNAL ((r.ga s).toNat % 2 ^ 32)).raise hgb 0 3

/-- SLEEP asks; its answer writes gd (R181). -/
def Run.sleep (r : Run) (s : Slot) (e : Dev) : Dev :=
  { e with hg := { e.hg with sleep := some (s.d, (r.ga s).toNat % 4, (r.gb s).toNat) } }

def Run.habort (r : Run) (s : Slot) (e : Dev) : Dev :=
  match r.tag s with
  | some t => e.taskAbort t
  | none => e
def Run.hclr (_ : Run) (s : Slot) (e : Dev) : Dev := (e.setH (s.imm % 16) 0).clearEv (2 ^ (16 + s.imm % 16))

/-- An instruction of slot B. -/
def Run.ctl (r : Run) (s : Slot) (e : Dev) : Dev :=
  let o := s.opc
  if o = 0x41 then r.bl s e
  else if o = 0x44 then r.evclr s e
  else if o = 0x45 then (if s.f = 0 then r.tmrSet s e else r.tmrClr s e)
  else if o = 0x46 then r.signal s e
  else if o = 0x48 then r.sleep s e
  else if o = 0x49 then r.habort s e
  else if o = 0x4A then r.hclr s e
  else r.int s 1 e

/-! ### Slot C (Table 8-5) -/

/-- LD: zero- or sign-extended; 16 bytes fill a pair. -/
def Run.ld (r : Run) (s : Slot) (e : Dev) : Dev :=
  let a := r.addr s
  if s.size = 16 then (e.setG s.d (BitVec.ofNat 64 (e.ld spDmem a 8))).setG (s.d + 1) (BitVec.ofNat 64 (e.ld spDmem (a + 8) 8))
  else
    let v := e.ld spDmem a s.size
    e.setG s.d (if 8 ≤ s.f then BitVec.ofInt 64 (signed (8 * s.size) v) else BitVec.ofNat 64 v)

/-- The data SRAM words that a range covers whole are written: their errors end (R581). -/
def Dev.dmemWords (d : Dev) (a size : Nat) : Dev :=
  if size < 4 then d else (List.range (size / 4)).foldl (fun e i => e.eccWrite 3 (a / 4 + i)) d

def Run.st (r : Run) (s : Slot) (e : Dev) : Dev :=
  let a := r.addr s
  let v := if s.size = 16 then (r.gb s).toNat + (r.d.gReg (s.b + 1)).toNat * 2 ^ 64 else (r.gb s).toNat
  (e.st spDmem a s.size v).dmemWords a s.size

/-- A register-view access in DOZE to a page that is not served there starts the exit (R79; notes/assumptions/33.md). -/
def Dev.viewWake (d : Dev) (a : Nat) : Dev := if d.asleep && !(targetOf a).awake then d.wake 7 else d

/-- LDV: the access is made now, on the host path; gd is written by its response. -/
def Run.ldv (r : Run) (s : Slot) (e : Dev) : Dev :=
  let a := viewOff (r.addr s)
  let v := (e.viewWake a).busRead .host a s.size
  if s.d = 0 then v.2 else { v.2 with hg := { v.2.hg with ldv := v.2.hg.ldv ++ [(s.d, BitVec.ofNat 64 v.1)] } }

/-- STV: posted; it is outstanding until it is acknowledged. -/
def Run.stv (r : Run) (s : Slot) (e : Dev) : Dev :=
  let a := viewOff (r.addr s)
  let e := (e.viewWake a).busWrite .host a s.size ((r.gb s).toNat % 2 ^ (8 * s.size))
  { e with hg := { e.hg with stv := e.hg.stv + 1 } }

def Run.movw (_ : Run) (s : Slot) (e : Dev) : Dev := e.setG s.d (BitVec.ofNat 64 s.c1)
def Run.movp (r : Run) (s : Slot) (e : Dev) : Dev := (e.setG s.d (r.ga s)).setG (s.d + 1) (r.d.gReg (s.a + 1))

/-- An instruction of slot C; FENCE has nothing left to do at the commit. -/
def Run.mem (r : Run) (s : Slot) (e : Dev) : Dev :=
  let o := s.opc
  if o = 0x80 then r.ld s e
  else if o = 0x81 then r.st s e
  else if o = 0x82 then r.ldv s e
  else if o = 0x83 then r.stv s e
  else if o = 0x84 then r.movw s e
  else if o = 0x85 then r.movp s e
  else e

/-! ### Slot D and the commit -/

/-- A parameter word: inline, or the general register that SEL names (R187). -/
def Run.param (r : Run) (n : Nat) (w : Nat) : Nat := let g := r.x.sel.getD n 0; if g = 0 then w else (r.d.gReg g).toNat

/-- The issue takes the free slot `i` (R148). -/
def Run.issue (r : Run) (i : Nat) (e : Dev) : Dev := e.issueTask i r.x.hdr (r.param 0 r.x.w1) (r.param 1 r.x.w2) (r.param 2 r.x.w3)

/-- One slot's work, if it executes. -/
def Run.slot (r : Run) (s : Slot) (f : Slot → Dev → Dev) (e : Dev) : Dev := if r.slotOn s then f s e else e

/-- WAIT: the mask is kept in HG_WAIT_MASK; the core waits until it meets EV (R156, R180). A HALT_REQ halts it there (R164). -/
def Run.wait (r : Run) (e : Dev) : Dev :=
  let e := (e.wr64 .HG_WAIT_MASK_LO (r.mask r.x.b)).setHg hgWAITING
  if e.hg.haltReq then e.hgHaltReq else e

/-- Does slot C store into the register view, where a store can reset or halt the core itself (R164, R166)? -/
def Run.stores (r : Run) : Bool := r.slotOn r.x.c && r.x.c.opc == 0x83

/-- Every executing slot commits, in the order A, B, C, D (R142, R180); pc goes to the next bundle or the branch's target; then the core
waits, halts, sleeps or goes on. Where slot C's store resets the Headgate, the reset stands (R166; notes/assumptions/117.md). -/
def Run.commit (r : Run) : Dev :=
  let b := r.x.b
  let e := r.slot b r.ctl (r.slot r.x.a (fun s e => r.int s 0 e) r.d.noStall)
  let e := if r.stores then r.mem r.x.c (e.setD true) else r.slot r.x.c r.mem e
  if r.stores && !e.hg.inD then e
  else
  let e := if r.stores then e.setD false else e
  let e := match r.dOn, r.d.freeSlot with
    | true, some i => r.issue i e
    | _, _ => e
  let e := (e.add64 .HG_BUNDLES_LO 1).set .HG_PC_PC (r.target.getD (r.pc + 1))
  if r.slotOn b && b.opc == 0x43 then r.wait e
  else if r.slotOn b && b.opc == 0x47 then e.hgHalted
  else if e.hg.sleep.isSome then e
  else e.bundleEnd

/-- Stage M: the stalls, then the commit. A FENCE waits for every earlier STV (R185), an issue for a free slot (R188). -/
def Run.finish (r : Run) (words : List Nat) : Dev :=
  let stall (why : Nat) : Dev := { r.d with hg := { r.d.hg with stall := some { words := words, why := why, sample := r.smp } } }
  if r.slotOn r.x.c && r.x.c.opc == 0x86 && r.d.hg.stv != 0 then stall 1
  else if r.dOn && r.d.freeSlot.isNone then stall 0
  else r.commit

/-- Stage M's faults: a load of a word that holds an uncorrectable error, a register-view access outside every page (R64). -/
def Run.stageM (r : Run) (words : List Nat) (ue : Bool) : Dev :=
  let c := r.x.c
  let a := r.addr c
  if !r.slotOn c then r.finish words
  else if c.opc = 0x80 then
    let d := if ue then r.d.eccBad 3 (a / 4) else r.d
    match d.eccIn 3 a c.size with
    | some w => (d.controlUe hgb 0 3 w).hgFault ⟨2, 0x0202, some a⟩ r.pc
    | none => r.finish words
  else if c.opc = 0x82 ∧ targetOf (viewOff a) = .hole then (r.d.unmapped (viewOff a) 0).hgFault ⟨2, 0x0208, some a⟩ r.pc
  else if c.opc = 0x83 ∧ targetOf (viewOff a) = .hole then
    (r.d.unmapped (viewOff a) ((r.gb c).toNat % 2 ^ 32)).hgFault ⟨2, 0x0208, some a⟩ r.pc
  else r.finish words

/-- Does the core execute bundles: RUNNING, not asleep in HOLD, nothing stalled or awaited by a SLEEP? Under a freeze or in a HOLD entry only
the bundle that already stands in D goes on, to the boundary at which the core stops (R163, R168). -/
def Dev.canRun (d : Dev) : Bool :=
  d.hgState == hgRUNNING && d.get .PWR_STATE_STATE != 3 && d.hg.stall.isNone && d.hg.sleep.isNone && d.hg.sleepGd.isNone &&
    ((!d.frozen hgb && d.pwr.entry == 0) || d.hg.inD)

/-- The bundle at pc. `ue` bit 0: its fetch finds an uncorrectable error; bit 1: its data SRAM load does. A bundle waits in D for the
register-view loads of the registers it names (R144). -/
def Dev.bundle (d : Dev) (ue : Nat) (sel : Bundle → Bool) : Dev :=
  let pc := d.get .HG_PC_PC
  let words := d.bundleAt pc
  let x := Bundle.ofWords words
  if !d.canRun || !sel x then d
  else if d.hg.ldv.any fun e => x.names.contains e.1 then { d with hg := { d.hg with inD := true } }
  else
    let d := d.noStall
    let d := if bitsOf ue 0 1 = 1 then d.eccBad (if pc < 4096 then 1 else 2) (16 * pc) else d
    match d.faultD pc x with
    | some (f, some w) => (d.controlUe hgb 0 (if pc < 4096 then 1 else 2) w).hgFault f pc
    | some (f, none) => d.hgFault f pc
    | none =>
      let r : Run := { d := d, pc := pc, x := x, smp := [d.sample x.a, d.sample x.b] }
      match r.faultX with
      | some f => d.hgFault f pc
      | none => r.stageM words (bitsOf ue 1 1 == 1)

/-- A stalled bundle goes on from stage M, with the marks it sampled (R177). -/
def Dev.unstall (d : Dev) (why : Nat) : Dev :=
  match d.hg.stall with
  | none => d
  | some q =>
    if q.why ≠ why then d
    else
      let r : Run := { d := d.noStall, pc := d.get .HG_PC_PC, x := Bundle.ofWords q.words, smp := q.sample }
      r.finish q.words

/-! ### Commands -/

/-- Does slot A or B, slot B alone, or slot C of a bundle hold an opcode? -/
def Bundle.ab (x : Bundle) (opc : Nat) : Bool := x.a.opc == opc || x.b.opc == opc
def Bundle.inB (x : Bundle) (opc : Nat) : Bool := x.b.opc == opc
def Bundle.inC (x : Bundle) (opc : Nat) : Bool := x.c.opc == opc

/-- ISSUE (R148, R149). -/
def execIssue (ue : Nat) (s : State) : Out := s.run fun d => d.bundle ue Bundle.issues
/-- ISSUE_STALL_RELEASE (R148, R188). -/
def execIssueStallRelease (s : State) : Out := s.run fun d => if d.freeSlot.isNone then d else d.unstall 0
/-- HG_STEP (R164). -/
def execHgStep (p : Path) (ue : Nat) (s : State) : Out := s.run fun d =>
  d.viaReg p .HG_CTRL 0 4 fun e => (e.hgCtrlWrite p 4).bundle ue fun _ => e.hgState != hgRUNNING
/-- HG_NOP (R173). -/
def execHgNop (ue : Nat) (s : State) : Out := s.run fun d => d.bundle ue fun x => x.ab 0 || x.inC 0
/-- HG_ALU (R176). -/
def execHgAlu (ue : Nat) (s : State) : Out := s.run fun d => d.bundle ue fun x => x.ab 0x10
/-- HG_ALUI (R176). -/
def execHgAlui (ue : Nat) (s : State) : Out := s.run fun d => d.bundle ue fun x => x.ab 0x11
/-- EXT. -/
def execExt (ue : Nat) (s : State) : Out := s.run fun d => d.bundle ue fun x => x.ab 0x14
/-- DEP. -/
def execDep (ue : Nat) (s : State) : Out := s.run fun d => d.bundle ue fun x => x.ab 0x15
/-- CNT. -/
def execCnt (ue : Nat) (s : State) : Out := s.run fun d => d.bundle ue fun x => x.ab 0x16
/-- CMP. -/
def execCmp (ue : Nat) (s : State) : Out := s.run fun d => d.bundle ue fun x => x.ab 0x18
/-- CMPI. -/
def execCmpi (ue : Nat) (s : State) : Out := s.run fun d => d.bundle ue fun x => x.ab 0x19
/-- PLOG. -/
def execPlog (ue : Nat) (s : State) : Out := s.run fun d => d.bundle ue fun x => x.ab 0x1A
/-- SEL. -/
def execSel (ue : Nat) (s : State) : Out := s.run fun d => d.bundle ue fun x => x.ab 0x1B
/-- MFP. -/
def execMfp (ue : Nat) (s : State) : Out := s.run fun d => d.bundle ue fun x => x.ab 0x1C
/-- MTP. -/
def execMtp (ue : Nat) (s : State) : Out := s.run fun d => d.bundle ue fun x => x.ab 0x1D
/-- MPEEK (R177). -/
def execMpeek (ue : Nat) (s : State) : Out := s.run fun d => d.bundle ue fun x => x.ab 0x20
/-- MPOP (R177). -/
def execMpop (ue : Nat) (s : State) : Out := s.run fun d => d.bundle ue fun x => x.ab 0x21
/-- MFEV. -/
def execMfev (ue : Nat) (s : State) : Out := s.run fun d => d.bundle ue fun x => x.ab 0x22
/-- MFH. -/
def execMfh (ue : Nat) (s : State) : Out := s.run fun d => d.bundle ue fun x => x.ab 0x23
/-- HQRY (R183). -/
def execHqry (ue : Nat) (s : State) : Out := s.run fun d => d.bundle ue fun x => x.ab 0x24
/-- AOT. -/
def execAot (ue : Nat) (s : State) : Out := s.run fun d => d.bundle ue fun x => x.ab 0x25
/-- BR. -/
def execBr (ue : Nat) (s : State) : Out := s.run fun d => d.bundle ue fun x => x.inB 0x40
/-- BL. -/
def execBl (ue : Nat) (s : State) : Out := s.run fun d => d.bundle ue fun x => x.inB 0x41
/-- BX (R179). -/
def execBx (ue : Nat) (s : State) : Out := s.run fun d => d.bundle ue fun x => x.inB 0x42
/-- WAIT (R156). -/
def execHgWait (ue : Nat) (s : State) : Out := s.run fun d => d.bundle ue fun x => x.inB 0x43
/-- EVCLR. -/
def execEvclr (ue : Nat) (s : State) : Out := s.run fun d => d.bundle ue fun x => x.inB 0x44
/-- TMR SET (R182). -/
def execTmrSet (ue : Nat) (s : State) : Out := s.run fun d => d.bundle ue fun x => x.inB 0x45 && x.b.f == 0
/-- TMR CLR. -/
def execTmrClr (ue : Nat) (s : State) : Out := s.run fun d => d.bundle ue fun x => x.inB 0x45 && x.b.f == 1
/-- SIGNAL. -/
def execSignal (ue : Nat) (s : State) : Out := s.run fun d => d.bundle ue fun x => x.inB 0x46
/-- HALT. -/
def execHalt (ue : Nat) (s : State) : Out := s.run fun d => d.bundle ue fun x => x.inB 0x47
/-- SLEEP (R181). -/
def execSleep (ue : Nat) (s : State) : Out := s.run fun d => d.bundle ue fun x => x.inB 0x48
/-- HABORT. -/
def execHabort (ue : Nat) (s : State) : Out := s.run fun d => d.bundle ue fun x => x.inB 0x49
/-- HCLR. -/
def execHclr (ue : Nat) (s : State) : Out := s.run fun d => d.bundle ue fun x => x.inB 0x4A
/-- LD (R184). -/
def execLd (ue : Nat) (s : State) : Out := s.run fun d => d.bundle ue fun x => x.inC 0x80
/-- ST (R184). -/
def execSt (ue : Nat) (s : State) : Out := s.run fun d => d.bundle ue fun x => x.inC 0x81
/-- LDV (R184). -/
def execLdv (ue : Nat) (s : State) : Out := s.run fun d => d.bundle ue fun x => x.inC 0x82
/-- STV (R184). -/
def execStv (ue : Nat) (s : State) : Out := s.run fun d => d.bundle ue fun x => x.inC 0x83
/-- MOVW. -/
def execMovw (ue : Nat) (s : State) : Out := s.run fun d => d.bundle ue fun x => x.inC 0x84
/-- MOVP. -/
def execMovp (ue : Nat) (s : State) : Out := s.run fun d => d.bundle ue fun x => x.inC 0x85
/-- FENCE (R185). -/
def execFence (ue : Nat) (s : State) : Out := s.run fun d => d.bundle ue fun x => x.inC 0x86
/-- ILLEGAL_BUNDLE (R173, R175, R186, R187). -/
def execIllegalBundle (ue : Nat) (s : State) : Out := s.run fun d => d.bundle ue fun x => x.illegal.isSome

/-- FENCE_DONE (R185): every register-view store is acknowledged. -/
def execFenceDone (s : State) : Out := s.run fun d => { d with hg := { d.hg with stv := 0 } }.unstall 1

/-- LDV_RESPONSE: the oldest register-view load's register becomes available. An access that woke the device answers in RUN. -/
def execLdvResponse (s : State) : Out := s.run fun d =>
  match d.hg.ldv with
  | [] => d
  | (gd, v) :: rest => if d.pwr.exiting then d else { d with hg := { d.hg with ldv := rest } }.setG gd v

/-- The answer to a SLEEP (R181): a cancel, NOT_PERMITTED, or the request's result; one that begins a HOLD entry, or joins one, answers when
the core resumes (R167). -/
def Dev.sleepAnswer (d : Dev) (gd target wake : Nat) : Dev :=
  let d := { d with hg := { d.hg with sleep := none, sleepGd := some gd, sleepVal := none } }
  if target = 0 then d.pwrCancel.sleepDone
  else if target = 1 then (d.reqDone 5 0 (d.get .PWR_STATE_STATE)).sleepDone
  else
    let e := d.pwrRequest target wake
    let joins := d.permits target && decide (d.gh.timer < wake)
    if e.pwr.entry ≠ 0 ∧ (d.pwr.entry = 0 ∨ joins) then e else e.sleepDone

/-- SLEEP_ANSWER. -/
def execSleepAnswer (s : State) : Out := s.run fun d =>
  match d.hg.sleep with
  | none => d
  | some (gd, target, wake) => d.sleepAnswer gd target wake

end Sys2Proof.Machine
end

