-- ==== Sys2Proof/Machine/PlanImage.lean ====
section
/-! DEFINITION. A plan image: its sections, and the checks that admission makes of a variant (R193 to R200, R203, R374, R412, R416, R447 and the
combinations of Table 2-4). -/
namespace Sys2Proof.Machine

/-! ### The image (Tables 9-1 to 9-3) -/

/-- A little-endian word of a byte list. -/
def wAt (b : List Byte) (o : Nat) : Nat := leNat ((b.drop o).take 4)

/-- A section table entry. -/
structure PSec where
  idx : Nat
  w : List Nat
deriving DecidableEq, Repr

def PSec.word (s : PSec) (n : Nat) : Nat := s.w.getD n 0
def PSec.type (s : PSec) : Nat := bitsOf (s.word 0) 16 16
def PSec.mask (s : PSec) : Nat := bitsOf (s.word 0) 0 4
def PSec.off (s : PSec) : Nat := s.word 1
def PSec.len (s : PSec) : Nat := s.word 2
def PSec.count (s : PSec) : Nat := s.word 3
def PSec.size (s : PSec) : Nat := s.word 4
def PSec.crc (s : PSec) : Nat := s.word 5
def PSec.param (s : PSec) : Nat := s.word 6
def PSec.header (s : PSec) : Nat := if s.type = 7 then 64 else 0

/-- ENTRY_SIZE of a type. -/
def typeSize (t : Nat) : Option Nat :=
  [(1, 128), (2, 64), (3, 4), (4, 64), (5, 32), (6, 40), (7, 32), (8, 16), (9, 16), (10, 16), (11, 2), (12, 1)].lookup t

/-- Does a type have a PARAM? -/
def typeParam (t : Nat) : Bool := t == 2 || t == 7 || t == 11 || t == 12

def imgSections (b : List Byte) : List PSec :=
  (List.range (min 48 (wAt b 0x0C))).map fun i => { idx := i, w := (List.range 8).map fun j => wAt b (0x40 + 32 * i + 4 * j) }

/-- The number of variants. -/
def imgVariants (b : List Byte) : Nat := wAt b 0x10

/-- The words of entry `i` of a section. -/
def PSec.entry (s : PSec) (b : List Byte) (i : Nat) : List Nat :=
  (List.range (s.size / 4)).map fun j => wAt b (s.off + s.header + s.size * i + 4 * j)

def PSec.entries (s : PSec) (b : List Byte) : List (List Nat) := (List.range s.count).map (s.entry b)

def PSec.bytes (s : PSec) (b : List Byte) : List Byte := (b.drop s.off).take s.len

/-- Do two byte ranges overlap? -/
def overlap (a n c m : Nat) : Bool := decide (a < c + m) && decide (c < a + n) && n != 0 && m != 0

/-- The layout fault of a section: outside the image, misaligned, overlapping an earlier part of the image (R194). -/
def secLayout (len : Nat) (ss : List PSec) (s : PSec) : Bool :=
  decide (len < s.off + s.len) || s.off % 256 != 0 || overlap s.off s.len 0 (0x40 + 32 * ss.length) ||
    ss.any fun t => t.idx != s.idx && overlap s.off s.len t.off t.len

/-- The check of the whole image (R194, R215): IMAGE_CAUSE and SECTION. A fault of the header concerns no section and names 0xFFFF. -/
def imgFault (b : List Byte) (len : Nat) : Option (Nat × Nat) :=
  let n := min 48 (wAt b 0x0C)
  let ss := imgSections b
  if wAt b 0 ≠ 0x4E4C5056 then some (0x0238, 0xFFFF)
  else if wAt b 4 ≠ 0x00010000 then some (0x0239, 0xFFFF)
  else if wAt b 8 ≠ len then some (0x023D, 0xFFFF)
  else if crc32c (b.take 0x3C ++ (b.drop 0x40).take (32 * n)) ≠ wAt b 0x3C then some (0x023A, 0xFFFF)
  else if wAt b 0x0C < 2 ∨ 48 < wAt b 0x0C ∨ imgVariants b < 1 ∨ 4 < imgVariants b ∨ ((b.drop 0x20).take 0x1C).any (· != 0) then
    some (0x023C, 0xFFFF)
  else match ss.find? (secLayout len ss) with
    | some s => some (0x023C, s.idx)
    | none => match ss.find? fun s => typeSize s.type != some s.size with
      | some s => some (0x023C, s.idx)
      | none => (ss.find? fun s => crc32c (s.bytes b) != s.crc).map fun s => (0x023B, s.idx)

/-! ### A variant -/

/-- A variant of an image: its number and the sections whose mask names it. -/
structure PVar where
  v : Nat
  b : List Byte
  all : List PSec
deriving DecidableEq, Repr

def mkVar (b : List Byte) (v : Nat) : PVar := { v := v, b := b, all := (imgSections b).filter fun s => bitsOf s.mask v 1 == 1 }

def PVar.sec (p : PVar) (t : Nat) : Option PSec := p.all.find? fun s => s.type == t
def PVar.ents (p : PVar) (t : Nat) : List (List Nat) := ((p.sec t).map fun s => s.entries p.b).getD []

/-- A bit field of a word of an entry. -/
def ef (e : List Nat) (w lo n : Nat) : Nat := bitsOf (e.getD w 0) lo n

/-- The variant's entry (Table 9-4). -/
def PVar.ent (p : PVar) : List Nat := (p.ents 1).getD p.v []
def PVar.power (p : PVar) : Nat := ef p.ent 0 21 3
def PVar.range (p : PVar) : Nat := ef p.ent 0 19 2
def PVar.entryBundle (p : PVar) : Nat := ef p.ent 1 0 14
def PVar.flumes (p : PVar) : Nat := p.ent.getD 2 0
def PVar.partners (p : PVar) : Nat := ef p.ent 3 24 8
def PVar.laneMin (p : PVar) : Nat := ef p.ent 3 16 8
def PVar.tileMin (p : PVar) : Nat := ef p.ent 3 8 8
def PVar.leaseMs (p : PVar) : Nat := ef p.ent 4 16 16
def PVar.holdMs (p : PVar) : Nat := ef p.ent 4 0 16
def PVar.softWm (p : PVar) (t : Nat) : Nat := ef p.ent 5 (8 * (t - 1)) 8
def PVar.reserve (p : PVar) (t : Nat) : Nat := p.ent.getD (8 + 2 * t) 0 + p.ent.getD (9 + 2 * t) 0 * 2 ^ 32

/-- The manifest after the deltas (R197). -/
def PVar.manifest (p : PVar) : List (List Nat) := (p.ents 6).foldl (fun m e => m.set (e.getD 0 0) (e.drop 2)) (p.ents 5)

/-- Manifest fields (Table 9-5). -/
def mHandle (e : List Nat) : Nat := e.getD 0 0
def mPartner (e : List Nat) : Nat := ef e 1 29 3
def mBlocks (e : List Nat) : Nat := ef e 1 0 24
def mFate (e : List Nat) : Nat := ef e 2 28 4
def mCodec (e : List Nat) : Nat := ef e 2 25 3
def mFormat (e : List Nat) : Nat := ef e 2 22 2
def mEnc (e : List Nat) : Bool := ef e 2 21 1 == 1
def mKey (e : List Nat) : Nat := ef e 2 17 4
def mPolicy (e : List Nat) : Nat := ef e 2 15 1
def mKeepT0 (e : List Nat) : Bool := ef e 2 14 1 == 1
def mEsc (e : List Nat) : Nat := ef e 3 16 16
def mChain (e : List Nat) : Nat := ef e 3 0 16
def mWindow (e : List Nat) : Nat := ef e 4 22 10
def mWinBlock (e : List Nat) : Nat := ef e 4 0 22
def mNode (e : List Nat) : Nat := ef e 5 20 12
def mRegion (e : List Nat) : Nat := ef e 5 12 8
def mTensor (e : List Nat) : Nat := ef e 5 0 12

/-- Window fields (Table 9-8). -/
def wPartner (e : List Nat) : Nat := ef e 0 29 3
def wIndex (e : List Nat) : Nat := ef e 0 19 10
def wState (e : List Nat) : Bool := ef e 0 18 1 == 1
def wBlocks (e : List Nat) : Nat := e.getD 1 0
def wBase (e : List Nat) : Nat := e.getD 2 0 + e.getD 3 0 * 2 ^ 32

/-- Region fields (Table 19-1). -/
def rId (e : List Nat) : Nat := ef e 0 28 4
def rCkpt (e : List Nat) : Nat := ef e 0 26 2
def rPaired (e : List Nat) : Bool := ef e 0 25 1 == 1
def rAbort (e : List Nat) : Bool := ef e 0 24 1 == 1
def rTrain (e : List Nat) : Bool := ef e 0 23 1 == 1
def rPartner (e : List Nat) : Nat := ef e 0 20 3
def rMask (e : List Nat) : Nat := ef e 0 12 8
def rPrimary (e : List Nat) : Nat := ef e 0 0 12
def rSecondary (e : List Nat) : Nat := ef e 1 20 12

/-- The region entry of a number, and a window entry by partner and index. -/
def PVar.region (p : PVar) (r : Nat) : Option (List Nat) := (p.ents 9).find? fun e => rId e == r
def PVar.window (p : PVar) (q i : Nat) : Option (List Nat) := (p.ents 8).find? fun e => wPartner e == q && wIndex e == i

/-- The members of a region, in manifest order. -/
def PVar.members (p : PVar) (r : Nat) : List (List Nat) := p.manifest.filter fun e => mRegion e == r

/-- Schedule fields (Tables 9-6 and 9-7). -/
def PVar.schedHeader (p : PVar) : List Nat := ((p.sec 7).map fun s => (List.range 16).map fun j => wAt p.b (s.off + 4 * j)).getD []
def sKind (e : List Nat) : Nat := ef e 0 28 4
def sState (e : List Nat) : Nat := ef e 7 0 2
def sFirst (e : List Nat) : Nat := e.getD 2 0
def sCount (e : List Nat) : Nat := e.getD 3 0
def sLead (e : List Nat) : Nat := e.getD 5 0
def sDuration (e : List Nat) : Nat := e.getD 6 0
def PVar.horizon (p : PVar) : Nat := p.schedHeader.getD 3 0
def PVar.lifts (p : PVar) : List (List Nat) := (p.ents 7).filter fun e => sKind e == 2

/-- The longest HOLD interval that X6 checks. -/
def PVar.maxHold (p : PVar) : Nat := (p.ents 7).foldl (fun a e => if sKind e = 3 ∧ sState e = 3 then max a (sDuration e) else a) 0

/-! ### A refusal: CODE, WHERE, INDEX (Table 9-11) -/

abbrev Bad := Nat × Nat × Nat

def noIndex : Nat := 0xFFFFFFF

def badField (where_ index : Nat) : Bad := (0x0232, where_, index)

/-- The first entry of a list that a test finds at fault. -/
def firstBad (where_ : Nat) (l : List (List Nat)) (bad : Nat → List Nat → Bool) : Option Bad :=
  ((List.range l.length).find? fun i => bad i (l.getD i [])).map fun i => badField where_ i

/-! ### Sections (R196) -/

def PVar.needsChains (p : PVar) : Bool := p.manifest.any fun e => mFate e == 5 || mPolicy e == 0
def PVar.needsRegions (p : PVar) : Bool := p.manifest.any fun e => mRegion e != 0xFF

/-- Is a section one too many of its type: for the variant, and a VARIANTS section for the image? -/
def PVar.secTwice (p : PVar) (s : PSec) : Bool :=
  ((if s.type = 1 then imgSections p.b else p.all).any fun t => decide (t.idx < s.idx) && t.type == s.type)

/-- Does a VARIANTS section leave a variant out? -/
def PVar.secMisses (p : PVar) (s : PSec) : Bool := s.type == 1 && s.mask % 2 ^ imgVariants p.b != 2 ^ imgVariants p.b - 1

/-- The first section at fault (R196); a section that no entry holds has no index. -/
def PVar.secFault (p : PVar) : Option Bad :=
  match (imgSections p.b).find? fun s => (bitsOf s.mask p.v 1 == 1 || s.type == 1) && (p.secTwice s || p.secMisses s) with
  | some s => some (if p.secTwice s then 0x0231 else 0x0230, 1, s.idx)
  | none =>
    let need := [1, 2, 5, 7, 8] ++ (if p.needsChains then [4] else []) ++ (if p.needsRegions then [9] else [])
    if need.all fun t => (p.sec t).isSome then none else some (0x0230, 1, noIndex)

/-! ### Fields (R198) -/

/-- What admission knows of the device while it checks: the node grants, the modes of the ports, the own node, the pin bounds. -/
structure AdmCtx where
  grants : List (Nat × Nat)
  cxl : List Nat
  node : Nat
  ptsLow : Int
  ptsHigh : Int
deriving DecidableEq, Repr

def AdmCtx.grant (c : AdmCtx) (n : Nat) : Nat := c.grants.foldl (fun a g => if g.1 = n then a + g.2 else a) 0

/-- A section table entry: zero fields, LENGTH, PARAM. -/
def PVar.secField (p : PVar) (s : PSec) : Bool :=
  bitsOf (s.word 0) 4 12 != 0 || s.word 7 != 0 || s.len != s.count * s.size + s.header || (!typeParam s.type && s.param != 0) ||
    (s.type == 7 && s.param % 64 != 0) ||
    (s.type == 1 && s.count != imgVariants p.b)

/-- The variant's own entry. -/
def PVar.entBad (p : PVar) : Bool :=
  let e := p.ent
  ef e 0 24 8 != p.v || p.range == 3 || ef e 0 0 19 != 0 || ef e 1 14 18 != 0 || decide (p.entryBundle < 4096) || ef e 3 0 8 != 0 ||
    decide (8 < p.laneMin) || decide (16 < p.tileMin) || p.leaseMs == 0 || p.holdMs == 0 ||
    ([1, 2, 3, 4].any fun t => decide (p.softWm t < 50) || decide (100 < p.softWm t)) ||
    ((e.drop 6).take 2 ++ (e.drop 18)).any (· != 0)

/-- Fields of a manifest entry by itself. -/
def mFieldBad (e : List Nat) : Bool :=
  ef e 1 24 3 != 0 || ef e 2 0 14 != 0 || ef e 6 0 20 != 0 || e.getD 7 0 != 0 || mHandle e == 0 || mBlocks e == 0 || decide (5 < mFate e) ||
    decide (4 < mCodec e) || mFormat e == 3 || ((mFate e == 5 || mPolicy e == 0) && mChain e == 0xFFFF)

/-- A chain index names a head of the section. -/
def PVar.chainBad (p : PVar) (i : Nat) : Bool :=
  match (p.ents 4)[i]? with
  | some hd => ef hd 0 28 4 != 1
  | none => true

/-- The window of an entry and its member rules (R198, R416). -/
def PVar.mPlaceBad (p : PVar) (c : AdmCtx) (e : List Nat) : Bool :=
  (match p.window (mPartner e) (mWindow e) with
    | none => true
    | some w => decide (wBlocks w < mWinBlock e + mBlocks e)) ||
  (mChain e != 0xFFFF && p.chainBad (mChain e)) || (mFate e == 4 && c.grant (mNode e) == 0) ||
  (mRegion e != 0xFF && (match p.region (mRegion e), p.window (mPartner e) (mWindow e) with
    | some r, some w => !wState w || rPartner r != mPartner e
    | _, _ => true))

/-- Does an entry cover a window block of another? -/
def mCovers (e f : List Nat) : Bool :=
  mPartner e == mPartner f && mWindow e == mWindow f && overlap (mWinBlock e) (mBlocks e) (mWinBlock f) (mBlocks f)

/-- An effective manifest entry, at position `i`: two objects never cover a block; the later one is at fault. -/
def PVar.mBad (p : PVar) (c : AdmCtx) (i : Nat) (e : List Nat) : Bool :=
  mFieldBad e || p.mPlaceBad c e || (p.manifest.take i).any (mCovers e)

/-- MANIFEST: the entries that no delta replaces. -/
def PVar.manifestBad (p : PVar) (c : AdmCtx) : Option Bad :=
  let gone := (p.ents 6).map fun e => e.getD 0 0
  firstBad 2 (p.ents 5) fun i e => !gone.contains i && p.mBad c i e

/-- MANIFEST_DELTA (R197): a position outside, or named twice; then the replacement. -/
def PVar.deltaBad (p : PVar) (c : AdmCtx) : Option Bad :=
  let ds := p.ents 6
  firstBad 5 ds fun i e =>
    decide ((p.ents 5).length ≤ e.getD 0 0) || e.getD 1 0 != 0 || ((ds.take i).any fun f => f.getD 0 0 == e.getD 0 0) ||
      p.mBad c (e.getD 0 0) (e.drop 2)

/-- SCHEDULE header and entries. -/
def PVar.schedBad (p : PVar) : Option Bad :=
  let h := p.schedHeader
  let depth := ef h 0 20 12
  if depth = 0 ∨ depth ≤ ef h 0 8 12 ∨ ef h 0 0 8 ≠ 0 ∨ ef h 1 20 12 = 0 ∨ ef h 1 0 8 ≠ 0 ∨ ef h 2 20 12 = 0 ∨ ef h 2 0 20 ≠ 0 ∨
      (h.drop 5).any (· != 0) then some (badField 3 noIndex)
  else firstBad 3 (p.ents 7) fun _ e =>
    sKind e == 0 || decide (6 < sKind e) || ef e 0 24 4 == 0 || decide (7 < ef e 0 24 4) || ef e 0 12 4 != 0 || ef e 1 0 20 != 0 ||
      decide (p.manifest.length < sFirst e + sCount e) || ef e 7 2 30 != 0 ||
      (sKind e == 2 && (decide (sLead e < 25) || decide (5000 < sLead e))) ||
      (if sKind e = 3 then decide (sState e < 2) || bitsOf p.power (sState e - 1) 1 == 0 else sState e != 0)

/-- WINDOWS (R447). -/
def PVar.winBad (p : PVar) (c : AdmCtx) : Option Bad :=
  let ws := p.ents 8
  firstBad 4 ws fun i e =>
    ef e 0 0 18 != 0 || wBase e % 65536 != 0 || decide (c.cxl.getD (wPartner e) 0 < wBase e + 65536 * wBlocks e) ||
      (ws.take i).any fun f => wPartner f == wPartner e && wIndex f == wIndex e

/-- REGIONS (R416). -/
def PVar.regionsBad (p : PVar) (c : AdmCtx) : Option Bad :=
  let rs := p.ents 9
  let blocks (l : List (List Nat)) : Nat := (l.flatMap fun r => (p.members (rId r)).map mBlocks).sum
  let count (l : List (List Nat)) : Nat := (l.map fun r => (p.members (rId r)).length).sum
  firstBad 5 rs fun i e =>
    rCkpt e == 3 || ef e 1 0 20 != 0 || e.getD 2 0 != 0 || e.getD 3 0 != 0 || ((rs.take i).any fun f => rId f == rId e) ||
      rPrimary e == c.node || (if rPaired e then rSecondary e == c.node || rSecondary e == rPrimary e else rSecondary e != 0) ||
      (rTrain e && (rs.take i).any rTrain) || decide (96 * 2 ^ 30 < 65536 * blocks (rs.take (i + 1))) ||
      decide (16256 < count (rs.take (i + 1))) || ((rMask e == 0) == (p.members (rId e)).any mEnc)

/-- TENSORS (R412). -/
def PVar.tensorsBad (p : PVar) (c : AdmCtx) : Option Bad :=
  let ts := p.ents 10
  firstBad 5 ts fun i e =>
    let fmt := ef e 0 16 4
    let on := ef e 0 15 1 == 1
    let margin := signed 8 (ef e 1 16 8)
    let pin := ef e 0 0 8
    ((ts.take i).any fun f => ef f 0 20 12 == ef e 0 20 12) || (on && !(fmt == 2 || fmt == 3 || fmt == 5 || fmt == 6)) || decide (7 < fmt) ||
      ef e 1 0 11 == 0 || decide (1024 < ef e 1 0 11) || decide (margin < -8) || decide (8 < margin) ||
      (ef e 0 14 1 == 1 && (decide ((pin : Int) - 127 < c.ptsLow) || decide (c.ptsHigh < (pin : Int) - 127))) ||
      ef e 1 24 8 != 0 || ef e 1 11 5 != 0 || ef e 2 8 24 != 0 || e.getD 3 0 != 0

/-- The TURNOUT records, by the word each starts at; none where one is at fault, with its word. -/
def turnRecords (ws : List Nat) : Nat → Nat → Except Nat (List (Nat × Nat × List Nat))
  | 0, i => if i < ws.length then .error i else .ok []
  | f + 1, i =>
    if ws.length ≤ i then .ok []
    else
      let w := ws.getD i 0
      let n := ws.getD (i + 1) 0
      let start := bitsOf w 0 16
      if ws.length < i + 2 ∨ 31 < bitsOf w 24 8 ∨ bitsOf w 16 8 ≠ 0 ∨ 511 < start ∨ 512 < start + n ∨ ws.length < i + 2 + n then .error i
      else match turnRecords ws f (i + 2 + n) with
        | .error j => .error j
        | .ok l => .ok ((bitsOf w 24 8, start, (ws.drop (i + 2)).take n) :: l)

def PVar.turns (p : PVar) : Except Nat (List (Nat × Nat × List Nat)) :=
  let ws := (p.ents 3).map fun e => e.getD 0 0
  turnRecords ws ws.length 0

/-! ### Siphon chains (R374) -/

/-- The class of an operation (Table 17-3); none for an unlisted OPC or SUB. -/
def opClass (opc sub : Nat) : Option Nat :=
  if opc = 0x21 then (if sub ≤ 1 then some 1 else none)
  else if opc = 0x32 then (if sub ≤ 1 then some 2 else none)
  else if opc = 0x40 then (if sub ≤ 1 then some 0 else none)
  else if sub ≠ 0 then none
  else if [0x01, 0x02, 0x10, 0x11, 0x12, 0x20, 0x41, 0x50, 0x51, 0x60].contains opc then some 0
  else if opc = 0x22 ∨ opc = 0x23 then some 1
  else if opc = 0x30 ∨ opc = 0x31 then some 2
  else none

/-- What a chain's operation sees: scratch buffers (number, elements, format), bindings (number, the manifest entry). -/
structure OpCtx where
  scr : List (Nat × Nat × Nat)
  bind : List (Nat × List Nat)

/-- A reference that reads `n` elements of format `fmt` from byte `off`: its form, its existence, its extent (the output's extent is
checked when the chain is asked for, R375). -/
def OpCtx.refBad (c : OpCtx) (ref fmt off n : Nat) : Bool :=
  if 0x8000 ≤ ref then
    bitsOf ref 6 9 != 0 || (match c.scr.lookup (ref % 64) with
      | none => true
      | some (have_, f) => decide (have_ < off * 8 / fmtBits f + n))
  else if 8 ≤ ref then true
  else if ref = 0 then false
  else match c.bind.lookup ref with
    | none => true
    | some e => decide (65536 * mBlocks e < off + elemBytes fmt n)

/-- A scaled operand (R341, R342): format, block size, the dimension of `k` and `m` elements, the scale array. -/
def OpCtx.scaleBad (c : OpCtx) (on : Bool) (fmt dir bs k m ref : Nat) : Bool :=
  on && (!(fmt == 2 || fmt == 3 || fmt == 5 || fmt == 6) || decide (4 < bs) || (if dir = 0 then k else m) % (16 * 2 ^ bs) != 0 ||
    ref == 0xFFFF || c.refBad ref 2 0 (k * m / (16 * 2 ^ bs)))

/-- EXPAND reads an unencrypted COMPRESS object (R374). -/
def OpCtx.expandBad (c : OpCtx) (ref off n : Nat) : Bool :=
  match c.bind.lookup ref with
  | none => true
  | some e =>
    let size := if mFormat e = 0 then 2 else if mFormat e = 1 then 1 else 4
    mFate e != 1 || mEnc e || off % 65536 != 0 || decide (65536 * mBlocks e < off + size * n)

/-- Zero fields, codes and formats of an operation descriptor. -/
def opCodesBad (fid : Nat) (ws : List Nat) : Bool :=
  let opc := dOpc ws
  let gemm := isGemm opc
  let mode := dw ws 0 16 4
  let a := dw ws 3 24 4
  let b := dw ws 3 20 4
  let c := dw ws 3 16 4
  let int := (a == 5 || a == 6) && dw ws 3 15 1 == 0 && dw ws 3 10 1 == 0
  dw ws 0 28 4 != 2 || dw ws 0 4 11 != 0 || dw ws 3 0 6 != 0 || dw ws 7 0 15 != 0 ||
    (match opClass opc (dSub ws) with
      | none => true
      | some k => decide (fid < k)) ||
    mode == 2 || decide (8 < mode) || dw ws 15 24 8 == 255 || decide (7 < dDfmt ws) || decide (6 < a) || decide (6 < b) ||
    (if gemm then (if dC ws ≠ 0xFFFF then c != (if int then 7 else 4) else decide (7 < c)) else decide (6 < c)) ||
    (opc == 0x60 && decide (4 < a)) ||
    (gemm && a != b && !((a == 2 && b == 3) || (a == 3 && b == 2))) ||
    (!gemm && dK ws != 0) || (gemm && dK ws == 0) || dM ws == 0 || dN ws == 0 || dBatch ws == 0 ||
    (dBatch ws != 1 && opc != 0x02 && opc != 0x51) || (dw ws 7 15 1 == 1 && !gemm) ||
    ([dOff ws 0, dOff ws 1, dOff ws 2, dOff ws 3].any fun o => o % 256 != 0) ||
    (opc == 0x40 && dN ws % 2 != 0) ||
    (dDfmt ws == 6 && (resultShape ws).2 % 2 != 0) || (a == 6 && (if gemm then dK ws else dN ws) % 2 != 0) ||
    (gemm && b == 6 && (if dw ws 7 15 1 = 1 then dK ws else dN ws) % 2 != 0)

/-- The shapes and references of an operation. -/
def OpCtx.opRefsBad (c : OpCtx) (ws : List Nat) : Bool :=
  let opc := dOpc ws
  let bt := dBatch ws
  let m := dM ws
  let n := dN ws
  let k := dK ws
  let af := dw ws 3 24 4
  let bf := dw ws 3 20 4
  let cf := dw ws 3 16 4
  let a := dA ws
  let b := dB ws
  let cc := dC ws
  let refA (x : Nat) : Bool := a == 0xFFFF || c.refBad a af (dOff ws 0) x
  let refB (x : Nat) : Bool := b == 0xFFFF || c.refBad b bf (dOff ws 1) x
  let refC (x : Nat) : Bool := cc == 0xFFFF || c.refBad cc cf (dOff ws 2) x
  let optC (x : Nat) : Bool := cc != 0xFFFF && refC x
  let dst := dDst ws
  (if dst < 0x8000 then dst != 0 else dst == 0xFFFF || bitsOf dst 6 9 != 0) ||
  (if isGemm opc then
      refA (bt * m * k) || refB (bt * k * n) || optC (bt * m * n) ||
        c.scaleBad (dw ws 3 15 1 == 1) af (dw ws 3 14 1) (dw ws 3 11 3) k (bt * m) (dw ws 14 16 16) ||
        c.scaleBad (dw ws 3 10 1 == 1) bf (dw ws 3 9 1) (dw ws 3 6 3) k (bt * n) (dw ws 14 0 16)
    else if opc = 0x60 then c.expandBad a (dOff ws 0) (m * n)
    else if opc = 0x10 then refA (m * n) || refC n
    else if opc = 0x11 then refA (m * n) || refB (m * n)
    else if opc = 0x12 then refA (m * n) || (b != 0xFFFF && refB (m * n))
    else if opc = 0x30 then refA (m * n) || refB n || optC n
    else if opc = 0x31 then refA (m * n) || refB n
    else if opc = 0x40 then refA (m * n) || refB (m * (n / 2)) || refC (m * (n / 2))
    else refA (bt * m * n) ||
      (opc == 0x50 && decide (0x8000 ≤ a) && (c.scr.lookup (a % 64)).map (·.1) != some (m * n)))

/-- The scratch buffers after an operation. -/
def OpCtx.after (c : OpCtx) (ws : List Nat) : OpCtx :=
  let dst := dDst ws
  if dst < 0x8000 then c
  else
    let s := resultShape ws
    { c with scr := (dst % 64, s.1 * s.2, dDfmt ws) :: c.scr.filter fun x => x.1 != dst % 64 }

/-- The first operation of a chain at fault. -/
def OpCtx.opsBad (c : OpCtx) (fid i : Nat) : List (List Nat) → Option Nat
  | [] => none
  | ws :: t => if opCodesBad fid ws || c.opRefsBad ws then some i else (c.after ws).opsBad fid (i + 1) t

/-- The bindings of a head that name manifest handles. -/
def PVar.bindings (p : PVar) (hd : List Nat) : List (Nat × List Nat) :=
  (List.range 7).filterMap fun i =>
    let h := hd.getD (4 + i) 0
    if h = 0 then none else (p.manifest.find? fun e => mHandle e == h).map fun e => (i + 1, e)

/-- A head: zero fields, codes, OP_COUNT within the section, CHAIN_CRC, bindings. -/
def PVar.headBad (p : PVar) (s : PSec) (i : Nat) (hd : List Nat) : Bool :=
  let n := opCount hd
  dw hd 0 28 4 != 1 || n == 0 || dw hd 0 18 2 == 3 || dw hd 0 14 4 == 2 || decide (8 < dw hd 0 14 4) || dw hd 0 0 14 != 0 ||
    (hd.drop 11).any (· != 0) || decide (s.count < i + 1 + n) ||
    crc32c ((p.b.drop (s.off + 64 * (i + 1))).take (64 * n)) != hd.getD 1 0 ||
    ((List.range 7).any fun k => let h := hd.getD (4 + k) 0
      h != 0 && !(p.manifest.any fun e => mHandle e == h))

/-- The chains in the section's order; the scratch share of each with TILE_MIN tiles is at most 7 MiB. -/
def PVar.chainsFrom (p : PVar) (s : PSec) : Nat → Nat → Option Bad
  | 0, _ => none
  | f + 1, i =>
    if s.count ≤ i then none
    else
      let hd := s.entry p.b i
      if p.headBad s i hd then some (badField 5 i)
      else
        let ops := (List.range (opCount hd)).map fun j => s.entry p.b (i + 1 + j)
        let c : OpCtx := { scr := [], bind := p.bindings hd }
        match c.opsBad (dw hd 0 18 2) (i + 1) ops with
        | some j => some (badField 5 j)
        | none =>
          if 7 * 2 ^ 20 < opsShare ops (max 1 p.tileMin) then some (badField 5 i) else p.chainsFrom s f (i + 1 + opCount hd)

/-- The first field error of a section (R198). -/
def PVar.fieldsOf (p : PVar) (c : AdmCtx) (s : PSec) : Option Bad :=
  if p.secField s then some (badField 1 s.idx)
  else if s.type = 1 then (if p.entBad then some (badField 5 p.v) else none)
  else if s.type = 3 then (match p.turns with
    | .error i => some (badField 5 i)
    | .ok _ => none)
  else if s.type = 4 then p.chainsFrom s s.count 0
  else if s.type = 5 then p.manifestBad c
  else if s.type = 6 then p.deltaBad c
  else if s.type = 7 then p.schedBad
  else if s.type = 8 then p.winBad c
  else if s.type = 9 then p.regionsBad c
  else if s.type = 10 then p.tensorsBad c
  else none

def PVar.fieldFault (p : PVar) (c : AdmCtx) : Option Bad := p.all.findSome? (p.fieldsOf c)

/-! ### R199 and R200 -/

/-- An entry's index names a FREE Allotment entry, and no earlier object of the manifest takes it. -/
def PVar.handleFault (p : PVar) (free : Nat → Bool) : Option Bad :=
  let m := p.manifest
  ((List.range m.length).find? fun i =>
    let h := hIndex (mHandle (m.getD i []))
    !free h || (m.take i).any fun e => hIndex (mHandle e) == h).map fun i => (0x0233, 2, i)

/-- The load check of a wake program as admission would load it: the program memory, then GH_PROG_LEN. -/
def Dev.wakeSet (d : Dev) (prog : List Byte) (len : Nat) : Dev :=
  let d := (List.range 512).foldl (fun e m => e.wr (.GH_PROG m) (wAt prog (4 * m))) d
  { d.set .GH_PROG_LEN_LEN len with ecc := d.ecc.filter fun x => x.1 != 7 }

def PVar.rangeFault (p : PVar) (d : Dev) : Option Bad :=
  let step := match p.sec 2 with
    | none => none
    | some s =>
      if 16384 < 4096 + s.param + s.count ∨ p.entryBundle < 4096 + s.param ∨ 4096 + s.param + s.count ≤ p.entryBundle then some (0x0234, 1, s.idx)
      else none
  let data := match p.sec 7 with
    | none => none
    | some s =>
      if 0x1FC000 < s.param + s.len then some (0x0236, 1, s.idx)
      else match p.sec 12 with
        | none => none
        | some t => if 0x1FC000 < t.param + t.len ∨ overlap s.param s.len t.param t.len then some (0x0236, 1, t.idx) else none
  let wake := match p.sec 11 with
    | none => none
    | some s =>
      if s.param < 5 ∨ 1024 < s.param ∨ 1024 < s.count then some (0x0235, 1, s.idx)
      else ((d.wakeSet (s.bytes p.b) s.param).ghCheck).map fun a => (0x0235, 5, a % 2 ^ 28)
  match step, data, wake with
  | some x, _, _ => some x
  | _, some x, _ => some x
  | _, _, x => x

/-! ### Combinations (R32, R33): sections in table order, entries in order, codes ascending -/

def PVar.ckptOn (p : PVar) (e : List Nat) : Bool := match p.region (mRegion e) with
  | some r => mRegion e != 0xFF && rCkpt r != 0
  | none => false

def PVar.mCombo (p : PVar) (retain : Nat) (e : List Nat) : Option Nat :=
  let keepDrop := mFate e == 0 || mFate e == 5
  if (keepDrop && mCodec e != 0) || (mFate e == 1 && mCodec e == 0) then some 0x0021
  else if mCodec e != 0 && p.ckptOn e then some 0x0022
  else if keepDrop && mEnc e then some 0x0023
  else if bitsOf p.power 2 1 == 1 && mEnc e && bitsOf retain (mKey e) 1 == 0 then some 0x0024
  else none

def PVar.comboOf (p : PVar) (retain : Nat) (s : PSec) : Option Bad :=
  if s.type = 5 then
    (List.range p.manifest.length).findSome? fun i => (p.mCombo retain (p.manifest.getD i [])).map fun c => (c, 2, i)
  else if s.type = 7 then
    let es := p.ents 7
    let on := (p.ents 9).any fun r => rCkpt r != 0
    if bitsOf p.power 2 1 = 1 ∧ on ∧ p.leaseMs * 1000 ≤ p.maxHold + 180 then
      ((List.range es.length).find? fun i => let e := es.getD i []
        sKind e == 3 && sState e == 3 && sDuration e == p.maxHold).map fun i => (0x0025, 3, i)
    else none
  else if s.type = 9 then
    let rs := p.ents 9
    ((List.range rs.length).find? fun i => let r := rs.getD i []
      rAbort r && rCkpt r != 0).map fun i => (0x0020, 5, i)
  else none

def PVar.combo (p : PVar) (retain : Nat) : Option Bad := p.all.findSome? (p.comboOf retain)

/-! ### Demand (R203) -/

/-- An object's bytes in its fate's tier. -/
def mStored (e : List Nat) : Nat :=
  (if mCodec e = 0 then 65536 * mBlocks e else mBlocks e * slotBytes (rankOf (mCodec e)) (colsOf (mFormat e))) + 65536 * mEsc e

/-- Demand on a neighbour node. -/
def PVar.nodeDemand (p : PVar) (n : Nat) : Nat :=
  let parked := (p.manifest.map fun e => if mFate e = 4 ∧ mNode e = n then mStored e else 0).sum
  let ck := ((p.ents 9).map fun r =>
    let bytes := 2 * 65536 * ((p.members (rId r)).map mBlocks).sum
    if rCkpt r = 0 then 0
    else (if rPrimary r = n then bytes else 0) + (if rPaired r ∧ rSecondary r = n then bytes else 0)).sum
  parked + ck

/-- The neighbour nodes that a variant names. -/
def PVar.nodes (p : PVar) : List Nat :=
  ((p.manifest.filter fun e => mFate e == 4).map mNode ++ ((p.ents 9).filter fun r => rCkpt r != 0).flatMap fun r =>
    rPrimary r :: (if rPaired r then [rSecondary r] else [])).eraseDups

/-- Demand on a tier. -/
def PVar.demand (p : PVar) (t : Nat) : Nat :=
  let own := if t = 4 then (p.nodes.map p.nodeDemand).sum
    else (p.manifest.map fun e =>
      if mFate e = 0 then (if (if mKeepT0 e then 0 else 1) = t then 65536 * mBlocks e else 0)
      else if mFate e = 1 then (if t = 1 then mStored e else 0)
      else if mFate e = t ∧ 2 ≤ t then mStored e
      else 0).sum
  own + p.reserve t

end Sys2Proof.Machine
end

