-- ==== Sys2Proof/Machine/Admission.lean ====
section
/-! DEFINITION. The admission service: checks, capacity, the reply, installation, UNLOAD (chapter 09). -/
namespace Sys2Proof.Machine

/-! ### The command and the reply (Tables 9-9 to 9-11) -/

/-- The command block in data SRAM. -/
def admBase : Nat := 0x1FC000

/-- A field of the command block. -/
def Dev.adm (d : Dev) (o n : Nat) : Nat := d.ld spDmem (admBase + o) n
def Dev.admOpcode (d : Dev) : Nat := bitsOf (d.adm 0 4) 24 8
def Dev.admForced (d : Dev) : Option Nat := if bitsOf (d.adm 0 4) 18 1 = 1 then some (bitsOf (d.adm 0 4) 19 2) else none
def Dev.admDry (d : Dev) : Bool := bitsOf (d.adm 0 4) 17 1 == 1
def Dev.admAuto (d : Dev) : Bool := bitsOf (d.adm 0 4) 16 1 == 1
def Dev.admSeq (d : Dev) : Nat := bitsOf (d.adm 0 4) 0 16

/-- The node grants in use, by their place in the command. -/
def Dev.admGrants (d : Dev) : List (Nat × Nat) := (List.range 4).filterMap fun n =>
  let v := d.adm (0x20 + 8 * n) 8
  if bitsOf v 0 52 = 0 then none else some (bitsOf v 52 12, bitsOf v 0 52)

def VRec.notTried : VRec :=
  { result := 0, code := 0, place := 0, index := 0, flumes := 0, partners := 0, tiles := 0, lanes := 0,
    demand := [0, 0, 0, 0, 0], short := [0, 0, 0, 0, 0] }

/-- A refusal that names an entry. -/
def VRec.refused (result : Nat) (b : Bad) : VRec := { VRec.notTried with result := result, code := b.1, place := b.2.1, index := b.2.2 }

/-- Did it come to the capacity check? -/
def VRec.reached (r : VRec) : Bool := r.result == 1 || r.result == 5

/-- 64-bit values as words. -/
def words64 (l : List Nat) : List Nat := l.flatMap fun v => [v % 2 ^ 32, v / 2 ^ 32 % 2 ^ 32]

def VRec.words (r : VRec) : List Nat :=
  [r.result * 2 ^ 24 + r.code, r.place * 2 ^ 28 + r.index, r.flumes, r.partners * 2 ^ 24 + r.tiles * 2 ^ 16 + r.lanes * 2 ^ 8]
    ++ words64 r.demand ++ words64 r.short ++ List.replicate 8 0

/-- A reply that names no variant. -/
def Reply.bare (status : Nat) : Reply :=
  { status := status, admitted := 0xFF, mode := 0, closest := 0xFF, measures := 0, planId := 0, caps := [0, 0, 0, 0, 0],
    extras := [0, 0, 0, 0, 0], cause := 0, sect := 0, recs := List.replicate 4 VRec.notTried }

def Reply.words (r : Reply) (seq : Nat) : List Nat :=
  [r.status * 65536 + seq, r.admitted * 2 ^ 24 + r.mode * 2 ^ 16 + r.closest * 2 ^ 8 + r.measures]
    ++ words64 [r.planId] ++ words64 r.caps ++ words64 r.extras ++ [r.cause * 65536 + r.sect] ++ List.replicate 7 0
    ++ r.recs.flatMap VRec.words

/-- Bytes go into a control memory. -/
def Dev.ctlWrite (d : Dev) (sp mem a : Nat) (v : List Byte) : Dev := (d.wbs sp a v).eccClear mem (a / 4) ((v.length + 3) / 4)

/-- The reply is written. -/
def Dev.admReply (d : Dev) (r : Reply) : Dev := d.ctlWrite spDmem 3 (admBase + 0x100) ((r.words d.admSeq).flatMap (leBytes 4))

/-! ### The checks of a variant (R201 to R206) -/

/-- The capacities (R204). -/
def Dev.admCaps (d : Dev) : List Nat :=
  let sum (t : Nat) : Nat := ((List.range 4).map (d.unitCap t)).sum
  [d.unitCap 0 0, sum 1, sum 2, d.adm 0x18 8, (d.admGrants.map (·.2)).sum]

/-- What the field checks need of the device. -/
def Dev.admCtx (d : Dev) : AdmCtx :=
  { grants := d.admGrants
    cxl := (List.range 8).map fun p => if d.get .PORT_STATUS_MODE p = 2 then 2 ^ 40 else 2 ^ 41
    node := d.lr.node
    ptsLow := signed 8 (d.get .PTS_BOUNDS_LOW)
    ptsHigh := signed 8 (d.get .PTS_BOUNDS_HIGH) }

/-- The units lacking (R202): Flumes, partners, tiles, lanes. -/
def Dev.unitsLacking (d : Dev) (p : PVar) : Nat × Nat × Nat × Nat :=
  let miss (base n mask : Nat) : Nat :=
    (List.range n).foldl (fun a i => a + (if bitsOf mask i 1 = 1 ∧ !d.present (base + i) then 2 ^ i else 0)) 0
  let have_ (base n : Nat) : Nat := ((List.range n).filter fun i => d.present (base + i)).length
  (miss 6 32 p.flumes, miss 66 8 p.partners, p.tileMin - have_ 47 16, p.laneMin - have_ 38 8)

/-- The shortfalls (R205). -/
def PVar.shortfalls (p : PVar) (c : AdmCtx) (caps : List Nat) : List Nat :=
  ((List.range 4).map fun t => p.demand t - caps.getD t 0) ++ [(p.nodes.map fun n => p.nodeDemand n - c.grant n).sum]

/-- Does the variant fit (R205)? The T4 total counts beside the nodes. -/
def PVar.fits (p : PVar) (c : AdmCtx) (caps : List Nat) : Bool :=
  (List.range 5).all (fun t => decide (p.demand t ≤ caps.getD t 0)) && p.nodes.all fun n => decide (p.nodeDemand n ≤ c.grant n)

/-- The bytes of a tier's demand above its soft watermark (R206). -/
def PVar.overage (p : PVar) (caps : List Nat) (t : Nat) : Nat := if t = 0 then 0 else p.demand t - caps.getD t 0 * p.softWm t / 100

/-- The capacity check (R203, R205). -/
def Dev.capCheck (d : Dev) (p : PVar) : VRec :=
  let c := d.admCtx
  { VRec.notTried with
    result := if p.fits c d.admCaps then 1 else 5
    demand := (List.range 5).map p.demand
    short := p.shortfalls c d.admCaps }

/-- The four checks of a variant, in order (R201). -/
def Dev.tryVar (d : Dev) (p : PVar) : VRec :=
  let free (i : Nat) : Bool := match d.objAt i with
    | some o => o.state == oFREE
    | none => true
  match p.secFault <|> p.fieldFault d.admCtx <|> p.handleFault free <|> p.rangeFault d with
  | some b => VRec.refused 2 b
  | none => match p.combo (d.get .KEY_RETAIN_RETAIN) with
    | some b => VRec.refused 3 b
    | none =>
      let u := d.unitsLacking p
      if u ≠ (0, 0, 0, 0) then
        { VRec.notTried with result := 4, flumes := u.1, partners := u.2.1, tiles := u.2.2.1, lanes := u.2.2.2 }
      else d.capCheck p

/-- A variant at a measurement: where an earlier one has tried it, only its capacity check is repeated (R204). -/
def Dev.varAgain (d : Dev) (p : PVar) (old : VRec) : VRec :=
  if old.reached then d.capCheck p else if old.result = 0 then d.tryVar p else old

/-- The variants in order; none is tried after the first that passes (R201), nor beside a forced one (R208). `old`: the records of the
measurement before. -/
def Dev.tryVars (d : Dev) (b : List Byte) (old : List VRec) : List Nat → Bool → List VRec
  | [], _ => []
  | v :: t, done =>
    let out := (d.admForced.map fun f => f != v).getD false
    let r := if imgVariants b ≤ v then VRec.notTried
      else if out then { VRec.notTried with result := 6 }
      else if done then VRec.notTried
      else d.varAgain (mkVar b v) (old.getD v VRec.notTried)
    r :: d.tryVars b old t (done || r.result == 1)

/-- CLOSEST (R207). -/
def closest (rs : List VRec) : Nat :=
  let short (v : Nat) : Nat := ((rs[v]?.map VRec.short).getD []).sum
  (((List.range 4).filter fun v => (rs[v]?.map VRec.result) == some 5).foldl (fun (best : Option Nat) v => match best with
    | none => some v
    | some w => if short v < short w then some v else some w) none).getD 0xFF

/-- The reply after the `m`th measurement of an image that passed the checks of R194 (R204 to R208). Capacity is measured before the
variants are tried (notes/assumptions/118.md). -/
def Dev.admJudge (d : Dev) (b : List Byte) (old : List VRec) (m : Nat) : Reply :=
  let rs := d.tryVars b old [0, 1, 2, 3] false
  let base := { Reply.bare 0x10 with
    planId := wAt b 0x14 + wAt b 0x18 * 2 ^ 32
    measures := m
    caps := d.admCaps
    closest := closest rs
    recs := rs }
  match (List.range 4).find? fun v => (rs[v]?.map VRec.result) == some 1 with
  | none => base
  | some v =>
    let extra := (List.range 5).map fun t => 2 * (mkVar b v).overage d.admCaps t
    let tight := extra.any (· != 0)
    { base with
      status := if d.admDry then 3 else if tight then 2 else 1
      admitted := v
      mode := if tight then 2 else 1
      closest := 0xFF
      extras := extra }

/-- Is a variant to be installed? -/
def Reply.installs (r : Reply) : Bool := r.status == 1 || r.status == 2

/-- The reply when PUBLISH_SEQ has changed after the third repeat too: nothing is installed (R204). -/
def Reply.unstable (r : Reply) : Reply :=
  { r with status := 0x14, admitted := 0xFF, mode := 0, extras := [0, 0, 0, 0, 0], recs := r.recs.set r.admitted VRec.notTried }

/-! ### Installation (R209, R224, R225, R283, R373, R411, R417) -/

/-- The home stack: the PRESENT stack with the most free bytes. -/
def Dev.homeStack (d : Dev) : Option Nat :=
  let room (u : Nat) : Nat := d.unitCap 1 u - d.unitUsed 1 u
  ((List.range 4).filter fun u => d.present (104 + u)).foldl (fun (best : Option Nat) u => match best with
    | none => some u
    | some w => if room w < room u then some u else some w) none

/-- The first 64 KiB boundary above a unit's capacity and its allocations: where a place stands that the unit has no room for. -/
def Dev.aboveAddr (d : Dev) (tier unit : Nat) : Nat :=
  let top := d.pool.allocs.foldl (fun a p => if p.tier == tier && p.unit == unit then max a (p.addr + p.size) else a)
    (unitBase tier unit + d.unitCap tier unit)
  (top + 65535) / 65536 * 65536

/-- Take an area of the home stack. -/
def Dev.areaTake (d : Dev) (n : Nat) : Dev × Nat :=
  if n = 0 then (d, 0)
  else
    let u := d.plan.home.getD 0
    let a := (d.fit 1 u n).getD (d.aboveAddr 1 u)
    let q : Place := { tier := 1, node := 0, addr := a, size := n }
    let d := d.takeFree q 0
    ({ d with plan := { d.plan with areas := d.plan.areas ++ [q] } }, a)

/-- The object that covers a window block: its handle, 0 for none. -/
def PVar.covers (p : PVar) (w : List Nat) (j : Nat) : Nat :=
  ((p.manifest.find? fun e =>
    mPartner e == wPartner w && mWindow e == wIndex w && decide (mWinBlock e ≤ j) && decide (j < mWinBlock e + mBlocks e)).map mHandle).getD 0

/-- The windows and their block records. -/
def Dev.installWins (d : Dev) (p : PVar) : Dev :=
  let d := (p.ents 8).foldl (fun (e : Dev) w =>
    let r := e.areaTake (8 * wBlocks w)
    let e := r.1.wbs spT1 r.2 ((List.range (wBlocks w)).flatMap fun j => leBytes 4 (p.covers w j) ++ leBytes 4 0)
    { e with wins := e.wins ++ [{ partner := wPartner w, index := wIndex w, state := wState w, blocks := wBlocks w, base := wBase w,
                                  recs := r.2 }] }) d
  d.wr64 .ALLOT_MAP_BYTES_LO (8 * ((p.ents 8).map wBlocks).sum)

/-- The lead slot of a manifest position: the last LIFT entry that names it, if it is one of the first 4,096. -/
def PVar.leadSlot (p : PVar) (i : Nat) : Option Nat :=
  let ls := p.lifts
  ((List.range ls.length).foldl (fun (a : Option Nat) s =>
    let e := ls.getD s []
    if sFirst e ≤ i ∧ i < sFirst e + sCount e then some s else a) none).bind fun s => if s < 4096 then some s else none

/-- The contents of the lead map: 2 bytes per Allotment index, 0xFFFF where the index has no slot. -/
def PVar.leadMap (p : PVar) : List Byte :=
  let m := p.manifest
  let slots := (List.range m.length).filterMap fun i => (p.leadSlot i).map fun s => (hIndex (mHandle (m.getD i [])), s)
  (List.range (2 ^ 20)).flatMap fun i => leBytes 2 (((slots.find? fun e => e.1 == i).map Prod.snd).getD 0xFFFF)

/-- The lead table and the lead map (R283). -/
def Dev.installLead (d : Dev) (p : PVar) : Dev :=
  let ls := p.lifts
  if ls.isEmpty then d
  else
    let r := d.areaTake 2097152
    let tab := (List.range (min 4096 ls.length)).foldl (fun (a : List (Nat × (Nat × Nat))) s =>
      Sparse.put (fun _ => (0, 0)) a s (sLead (ls.getD s []), 0)) r.1.flm.lead.tab
    { r.1.wbs spT1 r.2 p.leadMap with flm := { r.1.flm with lead := { tab := tab, map := some r.2 } } }

/-- The chain section in T1. -/
def Dev.installChains (d : Dev) (p : PVar) : Dev :=
  match p.sec 4 with
  | none => (d.wr64 .SPH_CHAIN_BASE_LO 0).set .SPH_CHAIN_ENTRIES_COUNT 0
  | some s =>
    let r := d.areaTake s.len
    ((r.1.wbs spT1 r.2 (s.bytes p.b)).wr64 .SPH_CHAIN_BASE_LO r.2).set .SPH_CHAIN_ENTRIES_COUNT s.count

/-- A tensor's settings from its entry, with its history's offset. -/
def mkTensor (e : List Nat) (base : Nat) : Tensor :=
  { id := ef e 0 20 12, fmt := ef e 0 16 4, scaleEn := ef e 0 15 1 == 1, pinEn := ef e 0 14 1 == 1, pin := ef e 0 0 8, group := ef e 0 8 6,
    margin := signed 8 (ef e 1 16 8), histLen := ef e 1 0 11, base := base, ptr := 0, fill := 0, amaxLast := 0, amaxHist := 0,
    scale := ef e 2 0 8, shadow := 0x7F, step := 0, init := ef e 2 0 8 }

/-- Freeboard: range mode, loss scale, tensors, the T1 area (R403, R407, R411, R412). -/
def Dev.installFb (d : Dev) (p : PVar) : Dev :=
  let d := (d.set .FB_STATUS_RANGE_MODE p.range).set .LS_APPLIED_EXP (d.get .LS_START_EXP) |>.set .LS_CLEAN_CLEAN 0
  let ts := p.ents 10
  let hist := (ts.map fun e => 4 * ef e 1 0 11).sum
  let d := d.updFb fun f => { f with tensors := [], histBytes := hist }
  let d := (List.range ts.length).foldl (fun (e : Dev) i =>
    e.putTensor (mkTensor (ts.getD i []) (((ts.take i).map fun x => 4 * ef x 1 0 11).sum))) d
  let n := if (p.sec 10).isSome then hist + 8519680 else 0
  let r := d.areaTake n
  (r.1.wr64 .FB_T1_BASE_LO r.2).wr64 .FB_T1_BYTES_LO n

/-- The regions and their dirty maps (R416, R417, R425). -/
def Dev.installRegions (d : Dev) (p : PVar) : Dev :=
  let next := d.rd .CK_NEXT_STEP
  let mk (n : Nat) : Nbr := { node := n, st := 0, opened := none, offer := none, offerAt := 0, links := [], job := none, leased := false,
                              ans := 0, sent := 0, asked := false, fence := false }
  let size (r : List Nat) : Nat := 2 * (if rPaired r then 4 else 2) * ((p.members (rId r)).map mBlocks).sum
  let d := (p.ents 9).foldl (fun (e : Dev) r =>
    let q := e.areaTake (size r)
    let e := q.1.wbs spT1 q.2 (List.replicate (size r) 0)
    let g : Region :=
      { id := rId r, ckpt := rCkpt r, paired := rPaired r, abort := rAbort r, train := rTrain r, partner := rPartner r, mask := rMask r,
        objs := (p.members (rId r)).map mHandle, blocks := ((p.members (rId r)).map mBlocks).sum, map := q.2, off := rCkpt r == 0,
        epoch := 0, step := none, unprot := false, nextStep := next,
        nbrs := mk (rPrimary r) :: (if rPaired r then [mk (rSecondary r)] else []), commit := none, queued := 0, still := false,
        halted := false, point := false, record := [] }
    { e with ck := { e.ck with regions := e.ck.regions ++ [g] } }) d
  let d := { d with ck := { d.ck with open_ := true } }
  (d.wr64 .CK_MAP_BYTES_LO ((p.ents 9).map size).sum).set .LEASE_MS_MS p.leaseMs

/-- An object's raw home at installation: T1, or T0 for a KEEP entry that asks for it. -/
def Dev.homeFor (d : Dev) (e : List Nat) : Place :=
  let t := if mFate e = 0 ∧ mKeepT0 e then 0 else 1
  match d.findPlace t 0 (65536 * mBlocks e) with
  | some q => q
  | none =>
    let u := if t = 1 then d.plan.home.getD 0 else 0
    { tier := t, node := 0, addr := d.aboveAddr t u, size := 65536 * mBlocks e }

/-- The object of a manifest entry at a position (R224). -/
def PVar.mkObj (p : PVar) (i : Nat) (e : List Nat) (q : Place) (now : Nat) : Obj :=
  { handle := mHandle e, state := oDRY, partner := mPartner e, kind := ef e 1 27 2, fate := mFate e, codec := mCodec e, format := mFormat e,
    tier := q.tier, liftLock := false, drainLock := false, evictAfter := false, wetAll := false, poison := ef e 2 16 1 == 1,
    policy := mPolicy e, stateWin := ((p.window (mPartner e) (mWindow e)).map wState).getD false, enc := mEnc e, key := mKey e,
    blocks := mBlocks e, refs := 0, window := mWindow e, winBlock := mWinBlock e, loc := q.addr, node := mNode e, consumed := false, mb := 0,
    step := 0, escBlocks := mEsc e, chain := mChain e, region := mRegion e, tensor := mTensor e, touch := now, home := some q, leaving := [],
    rearm := none, rebuilt := false, evictedAt := none, relift := false, packed := false, slot := p.leadSlot i, accept := ef e 2 24 1 == 1,
    ue := false }

/-- The manifest's objects: DRY, their homes charged to their partners. -/
def Dev.installObjs (d : Dev) (p : PVar) : Dev :=
  let m := p.manifest
  (List.range m.length).foldl (fun (d : Dev) i =>
    let e := m.getD i []
    let q := d.homeFor e
    ((d.take q (mPartner e)).putObj (p.mkObj i e q d.gh.timer)).eccClear 4 (8 * hIndex (mHandle e)) 8) d

/-- The step program, DATA, SCHEDULE and the turnout programs. -/
def Dev.installCode (d : Dev) (p : PVar) : Dev :=
  let d := match p.sec 2 with
    | none => d
    | some s =>
      let code := List.replicate (64 * s.param) 0 ++ s.bytes p.b
      d.ctlWrite spImem 2 0x40000 (code ++ List.replicate (0xC0000 - code.length) 0)
  let put (t : Nat) (d : Dev) : Dev := match p.sec t with
    | none => d
    | some s => d.ctlWrite spDmem 3 s.param (s.bytes p.b)
  let d := put 12 (put 7 d)
  let turn (e : Dev) (r : Nat × Nat × List Nat) : Dev :=
    (List.range r.2.2.length).foldl (fun x i => (x.wr (.FLM_PROG (r.2.1 + i)) (r.2.2.getD i 0) r.1).eccWrite 6 (r.1 * 512 + r.2.1 + i)) e
  match p.turns with
  | .ok rs => rs.foldl turn d
  | .error _ => d

/-- Capacities, reservations, watermarks, node grants, HORIZON_US. -/
def Dev.installPool (d : Dev) (p : PVar) : Dev :=
  let caps := d.admCaps
  let gs := d.admGrants
  let d := (List.range 5).foldl (fun (e : Dev) t =>
    let e := (e.wr64 (.CAPACITY_T_LO t) (caps.getD t 0)).wr64 (.RESERVED_T_LO t) (p.demand t)
    if t = 0 then e else e.set (.SOFT_WM_T_PERCENT t) (p.softWm t)) d
  let d := (List.range 4).foldl (fun (e : Dev) n => match gs[n]? with
    | some g => (((e.set (.NODE_VALID n) 1).set (.NODE_NODE n) g.1).wr (.NODE_GRANT n) (g.2 / 65536)).wr (.NODE_USED n)
        (e.unitUsed 4 g.1 / 65536) |>.set (.NODE_STATUS_FAILED n) (bit01 (!e.reachable g.1))
    | none => ((((e.set (.NODE_VALID n) 0).set (.NODE_NODE n) 0).wr (.NODE_GRANT n) 0).wr (.NODE_USED n) 0).set (.NODE_STATUS_FAILED n) 0) d
  let d := d.t4Paths
  { d with pool := { d.pool with resv := [], horizon := p.horizon } }

/-- The wake program. -/
def Dev.installWake (d : Dev) (p : PVar) : Dev :=
  match p.sec 11 with
  | none => d
  | some s => (d.ghToRom.wakeSet (s.bytes p.b) s.param).ghLoad

/-- The plan counts as admitted from here on: what it fixes, and its home stack. -/
def Dev.installPlan (d : Dev) (p : PVar) : Dev :=
  let home := d.homeStack
  let d := { d with plan := { admitted := true, variant := p.v, power := p.power, leaseMs := p.leaseMs, home := home, homeLost := false,
                              maxHoldUs := p.maxHold, areas := [], job := d.plan.job } }
  match home with
  | some u => d.mapParam (104 + u) 20 1
  | none => d

/-- The parts of an installation (R209), between which a freeze can stop the service and a block reset abandon it (R211). -/
def Dev.installPart (d : Dev) (p : PVar) (k : Nat) : Dev :=
  if k = 0 then (d.installPool p).installPlan p
  else if k = 1 then d.installCode p
  else if k = 2 then d.installWins p
  else if k = 3 then d.installLead p
  else if k = 4 then d.installChains p
  else if k = 5 then d.installFb p
  else if k = 6 then d.installRegions p
  else if k = 7 then d.installObjs p
  else ((List.range 8).foldl (fun (e : Dev) q => e.set .PORT_HOLD_HOLD_MS p.holdMs q) (d.installWake p)).bump .GLOBAL_EPOCH_LO

/-! ### The service's end (R209, R667) -/

/-- What the firmware leaves in the core's registers: no rule says (free values). -/
def Dev.coreUsed (d : Dev) : Dev :=
  let f := d.free
  let v (i : Nat) : Nat := Config.freeNat (f + i)
  let d := { d with
    free := f + 33
    hg := { d.hg with
      g := 0 :: (List.range 31).map fun i => BitVec.ofNat 64 (v i)
      p := BitVec.ofNat 8 (2 * (v 31 % 128) + 1)
      kept := none } }
  d.add64 .HG_BUNDLES_LO (v 32)

/-- The service ends: HALT, or with AUTO_RUN after an admission SIGNAL and the step program. -/
def Dev.admEnd (d : Dev) (r : Reply) (entry : Nat) : Dev :=
  let d := (d.admReply r).coreUsed
  if d.admAuto ∧ (r.status = 1 ∨ r.status = 2) then
    ((d.set .HG_SIGNAL_VALUE (r.status * 65536 + d.admSeq)).raise hgb 0 3).set .HG_PC_PC entry
  else
    let x := d.fresh
    (x.2.set .HG_PC_PC (x.1 % 4096)).hgHalted

/-- Does the core run the service: started at bundle 0 (R211) or in its midst, with the firmware loaded? -/
def Dev.admRuns (d : Dev) : Bool := d.canRun && (d.plan.job.isSome || d.get .HG_PC_PC == 0) && !d.hg.stepping && d.bootPast 6

/-- Can the image be read: link up, bus mastering? -/
def Dev.admReads (d : Dev) : Bool := d.hostUp && d.get .HOST_LINK_BME == 1

/-- The checks before any image byte (R215). -/
def Dev.admBadCmd (d : Dev) : Bool :=
  d.adm 0x08 8 % 256 != 0 || d.adm 0x10 4 == 0 || d.adm 0x10 4 % 256 != 0 || decide (96 * 2 ^ 20 < d.adm 0x10 4)

/-- The PASID of the image's read, where the command gives one. -/
def Dev.admPasid (d : Dev) : Option Nat := if bitsOf (d.adm 0x14 4) 31 1 = 1 then some (bitsOf (d.adm 0x14 4) 0 20) else none

/-- The image is read once, through the Host Port (R214). -/
def Dev.admFetch (d : Dev) : Dev := d.emit (.hostRead (d.adm 0x08 8) (d.adm 0x10 4) d.admPasid)

/-- The service goes on with an image that it has judged; its pc lies inside the firmware region. -/
def Dev.admKeep (d : Dev) (b : List Byte) (r : Reply) : Dev :=
  let x := d.fresh
  x.2.set .HG_PC_PC (1 + x.1 % 4095) |> fun e => { e with plan := { e.plan with job := some { img := b, seq := d.map.seq, reply := r, part := 0 } } }

/-- A judged image: its installation is due, or the service ends. -/
def Dev.admJudged (d : Dev) (b : List Byte) (r : Reply) : Dev :=
  if r.installs then d.admKeep b r else { d with plan := { d.plan with job := none } }.admEnd r 0

/-- ADMIT from its start: the checks before the image, the image, the first measurement. `img`: the bytes that the host answers; none where
the read ends in a fault or a completion error. -/
def Dev.admStart (d : Dev) (img : Option (List Byte)) : Dev :=
  if d.admOpcode ≠ 1 then d.admEnd (Reply.bare 0x17) 0
  else if d.plan.admitted then d.admEnd (Reply.bare 0x13) 0
  else if d.admBadCmd then d.admEnd (Reply.bare 0x17) 0
  else if !d.admReads then d.admEnd (Reply.bare 0x12) 0
  else
    let d := d.admFetch
    match img with
    | none => d.admEnd (Reply.bare 0x12) 0
    | some b =>
      let b := b.take (d.adm 0x10 4)
      match imgFault b (d.adm 0x10 4) with
      | some (cause, sect) => d.admEnd { Reply.bare 0x11 with cause := cause, sect := sect } 0
      | none => d.admJudged b (d.admJudge b [] 1)

/-- The next part of a judged image's admission: another measurement where PUBLISH_SEQ has changed before installation (R204), a part of the
installation, or the end. -/
def Dev.admPart (d : Dev) (j : AdmJob) : Dev :=
  let p := mkVar j.img j.reply.admitted
  if j.part = 0 ∧ d.map.seq ≠ j.seq then
    if 4 ≤ j.reply.measures then { d with plan := { d.plan with job := none } }.admEnd j.reply.unstable 0
    else d.admJudged j.img (d.admJudge j.img j.reply.recs (j.reply.measures + 1))
  else if j.part ≤ 8 then
    let d := d.installPart p j.part
    { d with plan := { d.plan with job := some { j with part := j.part + 1 } } }
  else { d with plan := { d.plan with job := none } }.admEnd j.reply p.entryBundle

/-- So many parts of the service. -/
def Dev.admGo : Nat → Dev → Dev
  | 0, d => d
  | n + 1, d => match d.plan.job with
    | none => d
    | some j => Dev.admGo n (d.admPart j)

/-- ADMIT (R201 to R216, R667): the service, for every OPCODE but UNLOAD, from its start or from where it stands. `parts`: how far it comes
before a command of another kind is served (notes/assumptions/38.md). -/
def execAdmit (img : Option (List Byte)) (parts : Nat) (s : State) : Out := s.run fun d =>
  if !d.admRuns then d
  else match d.plan.job with
    | some _ => d.admGo parts
    | none => if d.admOpcode = 2 then d else (d.admStart img).admGo parts

/-! ### UNLOAD (R212, R213) -/

/-- Drains of the Pool Manager end. -/
def Dev.endDrains (d : Dev) : Dev := d.pool.drains.foldl (fun e x => e.drainDrop x) d

/-- Every plan object is RETIRED, and FREE where nothing uses it any more (R246); the others follow by RETIRED_RELEASE. -/
def Dev.freeAll (d : Dev) : Dev :=
  let hs := (d.objs.filter fun e => e.2.state != oFREE).map fun e => e.2.handle
  (hs.foldl Dev.retire d |> fun d => hs.foldl Dev.retiredRelease d)

/-- What an accepted UNLOAD does. -/
def Dev.unload (d : Dev) : Dev :=
  let d := { d.endChains.endDrains with auto := [] }
  let d := d.freeAll
  let d := (List.range 5).foldl (fun (e : Dev) t => e.wr64 (.RESERVED_T_LO t) 0) d
  let d := d.plan.areas.foldl (fun (e : Dev) p => e.release p 0) d
  let home := d.plan.home
  let d := { d with
    pool := { d.pool with resv := [] }
    wins := []
    ck := { d.ck with regions := [], open_ := false }
    flm := { d.flm with lead := { d.flm.lead with map := none } }
    host := { d.host with range := false }
    plan := Plan.reset }
  let d := match home with
    | some u => d.mapParam (104 + u) 20 0
    | none => d
  let d := if d.get .DEV_FATAL_LEVEL = 1 then ((d.set .DEV_FATAL_LEVEL 0).set .DEV_FATAL_CAUSE 0).sensorLevel 0x32 0 else d
  d.t3Update.ghToRom.wakeLoad.bump .GLOBAL_EPOCH_LO

/-- UNLOAD. -/
def execUnload (s : State) : Out := s.run fun d =>
  if !(d.admRuns && d.plan.job.isNone && d.admOpcode == 2) then d
  else if !d.plan.admitted then d.admEnd (Reply.bare 0x16) 0
  else if !d.hg.tasks.isEmpty then d.admEnd (Reply.bare 0x15) 0
  else d.unload.admEnd (Reply.bare 4) 0

end Sys2Proof.Machine
end

