-- ==== Sys2Proof/Machine/Mgmt.lean ====
section
/-! DEFINITION. The Management Block: SMBus and MCTP commands, PLDM, JTAG, GPIO, the alert wire (chapter 27). -/
namespace Sys2Proof.Machine

/-! ### What answers a command (Tables 27-1 and 27-2) -/

/-- A response goes to its source: the JTAG register takes it for the next Capture-DR; with no source left it is lost (R602, R616). -/
def Dev.mgmtAnswer (d : Dev) (src : Option MSrc) (status code : Nat) (data : List Byte) : Dev :=
  match src with
  | none => d
  | some .jtag =>
    { d with mgmt := { d.mgmt with access := some (status != 0, if status = 0 then leNat data else code) } }
  | some m => d.emit (.mgmt m status code data)

def Dev.mgmtOk (d : Dev) (src : Option MSrc) (data : List Byte) : Dev := d.mgmtAnswer src 0 0 data
def Dev.mgmtRefused (d : Dev) (src : Option MSrc) (code : Nat) : Dev := d.mgmtAnswer src 5 code []

/-- Register accesses end: OK with their data, or REFUSED with the error that the first of them met. -/
def Dev.regsDone (d : Dev) (src : Option MSrc) (data : List Byte) : Dev :=
  let code := d.errSeen
  let d := { d with errSeen := 0 }
  if code = 0 then d.mgmtOk src data else d.mgmtRefused src code

/-- A flash command of the management path fills its block and starts it (section "Flash"); program and erase are answered at the start, a
read when it is done. -/
def Dev.mgmtFlash (d : Dev) (src : Option MSrc) (cmd addr len : Nat) (data : List Byte) : Dev :=
  if d.mgmt.flash.isSome then (d.setResult .mgmt 0x1102).mgmtRefused src 0x1102
  else
    let d := ((d.setFlashAddr .mgmt addr).setFlashLen .mgmt len).setFlashBuf .mgmt 0 data
    let r := d.flashStart .mgmt (if cmd = 1 then src else none) cmd
    if r.2 ≠ 0 then r.1.mgmtRefused src r.2
    else if cmd = 1 then r.1
    else r.1.mgmtOk src []

/-- A command runs (R131, R138, R139, R597 to R599, R611). -/
def Dev.mgmtRun (d : Dev) (src : Option MSrc) (c : MCmd) : Dev :=
  let d := { d with errSeen := 0 }
  match c with
  | .regRead a =>
    let r := d.busRead .mgmt a 4
    r.2.regsDone src (leBytes 4 r.1)
  | .regWrite a v => (d.busWrite .mgmt a 4 v).regsDone src []
  | .regRead64 a =>
    let l := d.busRead .mgmt a 4
    let h := l.2.busRead .mgmt (a + 4) 4
    h.2.regsDone src (leBytes 4 l.1 ++ leBytes 4 h.1)
  | .regWrite64 a lo hi => ((d.busWrite .mgmt a 4 lo).busWrite .mgmt (a + 4) 4 hi).regsDone src []
  | .verdictClear i =>
    if d.bootBusy then d.mgmtRefused src 0x012B else (d.verdictClear (if i = 0xFF then none else some i)).mgmtOk src []
  | .imagePref v => (d.imagePrefSet v).mgmtOk src []
  | .reboot k =>
    if k ≠ 0xB007 then d.mgmtRefused src 0x012C
    else if !d.rebootOk then d.mgmtRefused src 0x012B
    else (d.rebootWith 6).mgmtOk src []
  | .flashRead a n => d.mgmtFlash src 1 a n []
  | .flashProgram a b => d.mgmtFlash src 2 a b.length b
  | .flashErase a sz => d.mgmtFlash src (3 + sz) a (d.flashLen .mgmt) []

/-! ### Which commands are taken, and when (R600, R601, R603 to R607) -/

/-- The endpoint ID of a source's binding; a source that is no MCTP binding needs none. -/
def Dev.eid (d : Dev) (src : MSrc) : Nat :=
  match src with
  | .mctpSmb => d.get .MCTP_EID_SMB
  | .mctpVdm => d.get .MCTP_EID_VDM
  | _ => 1

/-- Can a message of the source reach the block: VDM over the host's link, from the end of stage 7 (R130)? -/
def Dev.srcUp (d : Dev) (src : MSrc) : Bool :=
  match src with
  | .jtag => false
  | .mctpVdm => d.hostUp && d.bootPast 7 && !d.pwr.tripped
  | _ => true

/-- The packet error check of an SMBus command. `writes`: the command carries request bytes. -/
def Dev.pecBad (d : Dev) (src : MSrc) (pec : Pec) (writes : Bool) : Bool :=
  src == .smb && (pec == .bad || (writes && pec == .absent && d.get .SMB_CFG_PEC_REQ == 1))

/-- A command arrives: `f` goes on with it, unless it cannot reach the block, is NACKed or discarded. -/
def Dev.mgmtArrive (d : Dev) (src : MSrc) (pec : Pec) (writes : Bool) (f : Dev → Dev) : Dev :=
  if !d.srcUp src then d
  else if !d.bootPast 1 then d.emit (.nack src)
  else if d.pecBad src pec writes then ((d.bump .SMB_PEC_ERR_COUNT).raise 109 0 6).emit (.nack src)
  else if d.eid src = 0 then d
  else f d

/-- A command of R605: served in every state. -/
def Dev.mgmtServe (d : Dev) (src : MSrc) (pec : Pec) (writes ok : Bool) (data : Dev → List Byte) : Dev :=
  d.mgmtArrive src pec writes fun e => if ok then e.mgmtOk (some src) (data e) else e.mgmtAnswer (some src) 3 0 []

/-- Which commands are served before the end of stage 3. -/
inductive Early where | no | bootOp | flash
deriving DecidableEq, Repr

/-- Does the command get NOT_READY (R606)? -/
def Dev.notReady (d : Dev) (k : Early) : Bool :=
  d.pwr.tripped || (!d.bootPast 3 && (match k with
    | .no => true
    | .bootOp => false
    | .flash => d.get .BOOT_STATUS_RESULT != 2))

/-- Is a command's register access served without a wake (R79)? -/
def MCmd.awake : MCmd → Bool
  | .regRead a => (targetOf a).awake
  | .regWrite a _ => (targetOf a).awake
  | .regRead64 a => (targetOf a).awake
  | .regWrite64 a _ _ => (targetOf a).awake
  | _ => false

/-- An SMBus transaction begins (R602). -/
def Dev.mgmtBegin (d : Dev) (src : MSrc) : Dev := if src = .smb then { d with mgmt := { d.mgmt with smbAt := d.gh.timer } } else d

/-- A command that is taken runs at once, or wakes the device and waits for RUN (R605). -/
def Dev.mgmtTake (d : Dev) (src : MSrc) (c : MCmd) : Dev :=
  let d := d.mgmtBegin src
  if c.awake then d.idleExit.mgmtRun (some src) c
  else d.heldAccess 5 (.mgmt (some src) c) fun e => e.mgmtRun (some src) c

/-- A denial is counted and raised (R604). -/
def Dev.mgmtDenied (d : Dev) (src : MSrc) : Dev := ((d.bump .MGMT_DENIED_COUNT).raise 109 0 5).mgmtAnswer (some src) 2 0x1101 []

/-- Any other command: NOT_READY, BAD_ARG and DENIED in that order, else it is taken. -/
def Dev.mgmtCmd (d : Dev) (src : MSrc) (pec : Pec) (k : Early) (ok : Bool) (allowed : Dev → Bool) (c : MCmd) : Dev :=
  d.mgmtArrive src pec true fun e =>
    if e.notReady k then e.mgmtAnswer (some src) 4 0 []
    else if !ok then e.mgmtAnswer (some src) 3 0 []
    else if !allowed e then e.mgmtDenied src
    else e.mgmtTake src c

def Dev.mayWrite (d : Dev) : Bool := d.get .MGMT_CTRL_REG_WR_EN == 1
def Dev.mayFlash (d : Dev) : Bool := d.get .MGMT_CTRL_FLASH_WR_EN == 1

/-- A value that fits in `n` bytes. -/
def fits (n v : Nat) : Bool := decide (v < 256 ^ n)

/-! ### The commands of Table 27-1 -/

/-- MGMT_CTRL_WRITE (R603). -/
def execMgmtCtrlWrite (p : Path) (v : Word) (s : State) : Out := s.run fun d =>
  d.viaReg p .MGMT_CTRL 0 v.toNat fun e => e.mgmtCtrlWrite p v.toNat

/-- REG_READ. -/
def execRegRead (src : MSrc) (pec : Pec) (off : Nat) (s : State) : Out := s.runOn fun d =>
  d.mgmtCmd src pec .no (fits 4 off) (fun _ => true) (.regRead off)

/-- REG_WRITE. -/
def execRegWrite (src : MSrc) (pec : Pec) (off : Nat) (v : Word) (s : State) : Out := s.runOn fun d =>
  d.mgmtCmd src pec .no (fits 4 off) Dev.mayWrite (.regWrite off v.toNat)

/-- REG_READ64 (R599). -/
def execRegRead64 (src : MSrc) (pec : Pec) (off : Nat) (s : State) : Out := s.runOn fun d =>
  d.mgmtCmd src pec .no (fits 4 off) (fun _ => true) (.regRead64 off)

/-- REG_WRITE64 (R599). -/
def execRegWrite64 (src : MSrc) (pec : Pec) (off : Nat) (lo hi : Word) (s : State) : Out := s.runOn fun d =>
  d.mgmtCmd src pec .no (fits 4 off) Dev.mayWrite (.regWrite64 off lo.toNat hi.toNat)

/-- STATUS: PWR_STATE, BOOT_STATUS, DEV_FATAL, TJ_NOW. -/
def execStatus (src : MSrc) (pec : Pec) (s : State) : Out := s.runOn fun d =>
  d.mgmtServe src pec false true fun e =>
    leBytes 4 (e.rd .PWR_STATE) ++ leBytes 4 (e.rd .BOOT_STATUS) ++ leBytes 4 (e.rd .DEV_FATAL) ++ leBytes 4 (e.rd .TJ_NOW)

/-- TEMP: TJ_NOW bits 15:0, with no STATUS or CODE on the bus. -/
def execTemp (src : MSrc) (pec : Pec) (s : State) : Out := s.runOn fun d =>
  d.mgmtServe src pec false true fun e => leBytes 2 (e.rd .TJ_NOW)

/-- LEDGER_READ: the bytes of the slot from the offset on. -/
def execLedgerRead (src : MSrc) (pec : Pec) (slot off count : Nat) (s : State) : Out := s.runOn fun d =>
  d.mgmtServe src pec true (decide (slot < 8) && off % 4 == 0 && decide (off < 960) && count % 4 == 0 && decide (4 ≤ count)
      && decide (count ≤ 240)) fun e => e.rbs spLedger (slotBase slot + off) (min count (960 - off))

/-- VERDICT_READ. -/
def execVerdictRead (src : MSrc) (pec : Pec) (i : Nat) (s : State) : Out := s.runOn fun d =>
  d.mgmtServe src pec true (decide (i < 128)) fun e => leBytes 4 (e.verdict i)

/-- MGMT_VERDICT_CLEAR (R131). -/
def execMgmtVerdictClear (src : MSrc) (pec : Pec) (i : Nat) (s : State) : Out := s.runOn fun d =>
  d.mgmtCmd src pec .bootOp (decide (i ≤ 100) || i == 0xFF) (fun _ => true) (.verdictClear i)

/-- IMAGE_PREF_WRITE (R138). -/
def execImagePrefWrite (src : MSrc) (pec : Pec) (v : Nat) (s : State) : Out := s.runOn fun d =>
  d.mgmtCmd src pec .bootOp (decide (v < 2)) Dev.mayFlash (.imagePref v)

/-- REBOOT (R139). -/
def execReboot (src : MSrc) (pec : Pec) (key : Nat) (s : State) : Out := s.runOn fun d =>
  d.mgmtCmd src pec .bootOp (fits 4 key) (fun _ => true) (.reboot key)

/-- FLASH_READ. -/
def execFlashRead (src : MSrc) (pec : Pec) (addr len : Nat) (s : State) : Out := s.runOn fun d =>
  d.mgmtCmd src pec .flash (fits 4 addr && decide (1 ≤ len) && decide (len ≤ 240)) (fun _ => true) (.flashRead addr len)

/-- FLASH_PROGRAM. -/
def execFlashProgram (src : MSrc) (pec : Pec) (addr : Nat) (data : List Byte) (s : State) : Out := s.runOn fun d =>
  d.mgmtCmd src pec .flash (fits 4 addr && decide (1 ≤ data.length) && decide (data.length ≤ 240)) Dev.mayFlash (.flashProgram addr data)

/-- FLASH_ERASE: SIZE 0 for 4 KiB, 1 for 64 KiB. -/
def execFlashErase (src : MSrc) (pec : Pec) (addr size : Nat) (s : State) : Out := s.runOn fun d =>
  d.mgmtCmd src pec .flash (fits 4 addr && decide (size < 2)) Dev.mayFlash (.flashErase addr size)

/-- FLASH_STATUS: that of the management path. -/
def execFlashStatus (src : MSrc) (pec : Pec) (s : State) : Out := s.runOn fun d =>
  d.mgmtServe src pec false true fun e => leBytes 4 ((e.mgmtView .mgmt 0x10C).getD 0)

/-- A command byte that Table 27-1 lists. -/
def smbListed (c : Nat) : Bool :=
  [0x01, 0x02, 0x03, 0x04, 0x10, 0x11, 0x20, 0x21, 0x22, 0x23, 0x24, 0x30, 0x31, 0x32, 0x33].contains c

/-- UNLISTED_SMBUS_COMMAND (R600). -/
def execUnlistedSmbusCommand (code : Nat) (s : State) : Out := s.runOn fun d =>
  if smbListed code then d else d.emit (.nack .smb)

/-- The command of a source that waits loses its source. -/
def Dev.loseSource (d : Dev) (src : MSrc) : Dev :=
  let held := d.held.map fun h => match h with
    | .mgmt (some m) c => if m = src then .mgmt none c else h
    | _ => h
  let flash := d.mgmt.flash.map fun j => if j.src = some src then { j with src := none } else j
  { d with held := held, mgmt := { d.mgmt with flash := flash } }

/-- Does a command of the source wait? -/
def Dev.waits (d : Dev) (src : MSrc) : Bool :=
  (d.held.any fun h => match h with
    | .mgmt (some m) _ => m == src
    | _ => false) || (match d.mgmt.flash with
    | some j => j.src == some src
    | none => false)

/-- SMB_STRETCH_TIMEOUT (R602): 20 ms after the transaction began, a command that still waits is answered BUSY. -/
def execSmbStretchTimeout (s : State) : Out := s.runOn fun d =>
  if d.waits .smb && decide (d.mgmt.smbAt + msToTicks 20 ≤ d.gh.timer) then (d.loseSource .smb).emit (.mgmt .smb 1 0 []) else d

/-- SMB_CLOCK_LOW_TIMEOUT (R602). -/
def execSmbClockLowTimeout (s : State) : Out := s.runOn fun d => (d.loseSource .smb).bump .SMB_TIMEOUT_COUNT

/-! ### MCTP control (R605, R607) -/

/-- An MCTP control or PLDM request that is answered: control is taken while the endpoint ID is null. -/
def Dev.mctp (d : Dev) (src : MSrc) (control : Bool) (f : Dev → Dev) : Dev :=
  if !d.srcUp src ∨ src = .smb then d
  else if !d.bootPast 1 then d.emit (.nack src)
  else if !control ∧ d.eid src = 0 then d
  else f d

/-- SET_ENDPOINT_ID: 0 and 0xFF name no endpoint (DSP0236, PRESUMED, notes/assumptions/46.md). -/
def execSetEndpointId (src : MSrc) (eid : Nat) (s : State) : Out := s.runOn fun d =>
  d.mctp src true fun e =>
    if eid = 0 ∨ 0xFF ≤ eid then e.emit (.mctp src 0x01 [2])
    else (if src = .mctpVdm then e.set .MCTP_EID_VDM eid else e.set .MCTP_EID_SMB eid).emit (.mctp src 0x01 [0, eid])

/-- GET_ENDPOINT_ID. -/
def execGetEndpointId (src : MSrc) (s : State) : Out := s.runOn fun d =>
  d.mctp src true fun e => e.emit (.mctp src 0x02 [0, e.eid src])

/-- GET_ENDPOINT_UUID: the UUID is not stated. -/
def execGetEndpointUuid (src : MSrc) (s : State) : Out := s.runOn fun d =>
  d.mctp src true fun e => e.emit (.mctp src 0x03 [0, Config.endpointUuid ()])

/-- GET_MCTP_VERSION_SUPPORT of a message type: the versions are not stated. -/
def execGetMctpVersionSupport (src : MSrc) (type : Nat) (s : State) : Out := s.runOn fun d =>
  d.mctp src true fun e => e.emit (.mctp src 0x04 (0 :: Config.mctpVersions type))

/-- GET_MESSAGE_TYPE_SUPPORT: control, PLDM (DSP0239, PRESUMED, notes/assumptions/46.md), vendor-defined PCI. -/
def execGetMessageTypeSupport (src : MSrc) (s : State) : Out := s.runOn fun d =>
  d.mctp src true fun e => e.emit (.mctp src 0x05 [0, 0x00, 0x01, 0x7E])

/-- GET_VENDOR_DEFINED_MESSAGE_SUPPORT: Vothal's PCI Vendor ID. -/
def execGetVendorDefinedMessageSupport (src : MSrc) (s : State) : Out := s.runOn fun d =>
  d.mctp src true fun e => e.emit (.mctp src 0x06 [0, Config.vendorId ()])

/-! ### PLDM (R605, R608, R609; command codes of DSP0240 and DSP0248, PRESUMED, notes/assumptions/46.md) -/

/-- A PLDM request that changes a setting gets NOT_READY where R606 says so; it wakes nothing (R608). -/
def Dev.pldmSet (d : Dev) (src : MSrc) (f : Dev → Dev) : Dev :=
  d.mctp src false fun e => if e.notReady .no then e.mgmtAnswer (some src) 4 0 [] else f e

/-- GETTID. -/
def execGettid (src : MSrc) (s : State) : Out := s.runOn fun d =>
  d.mctp src false fun e => e.emit (.mctp src 0x0002 [0, e.mgmt.tid])

/-- SETTID. -/
def execSettid (src : MSrc) (tid : Nat) (s : State) : Out := s.runOn fun d =>
  d.pldmSet src fun e => ({ e with mgmt := { e.mgmt with tid := tid % 256 } }).emit (.mctp src 0x0001 [0])

/-- GETPLDMVERSION of a type: the versions are not stated. -/
def execGetpldmversion (src : MSrc) (type : Nat) (s : State) : Out := s.runOn fun d =>
  d.mctp src false fun e => e.emit (.mctp src 0x0003 (0 :: Config.pldmVersions type))

/-- GETPLDMTYPES: base and platform monitoring and control. -/
def execGetpldmtypes (src : MSrc) (s : State) : Out := s.runOn fun d =>
  d.mctp src false fun e => e.emit (.mctp src 0x0004 [0, 0, 2])

/-- The commands served of a PLDM type (Table 27-3). -/
def pldmCommands (type : Nat) : List Nat :=
  if type = 0 then [0x01, 0x02, 0x03, 0x04, 0x05] else if type = 2 then [0x04, 0x0A, 0x11, 0x21, 0x50, 0x51] else []

/-- GETPLDMCOMMANDS. -/
def execGetpldmcommands (src : MSrc) (type : Nat) (s : State) : Out := s.runOn fun d =>
  d.mctp src false fun e => e.emit (.mctp src 0x0005 (0 :: pldmCommands type))

/-- A numeric sensor's reading (Table 27-4), and whether it is served in HOLD and after a trip. -/
def Dev.sensor (d : Dev) (id : Nat) : Option (Nat × Bool) :=
  if id = 0x01 then some (d.get .TJ_NOW_TJ, true)
  else if id = 0x02 then some (d.get .TJ_PEAK_TJ, true)
  else if 0x10 ≤ id ∧ id < 0x14 then some (d.rd .HBM_TEMP (id - 0x10), false)
  else if id = 0x20 then some (d.get .POWER_NOW_POWER, true)
  else if id = 0x21 then some (d.get .GOV_APPLIED_MV, false)
  else if id = 0x22 then some (d.get .GOV_APPLIED_MHZ, false)
  else if id = 0x40 then some (((List.range 24).filter fun l => d.lstate l == 6).length, false)
  else if id = 0x41 then some (((List.range 8).filter fun p => d.get .PORT_STATUS_LINK p == 2).length, false)
  else none

/-- A state sensor's state. -/
def Dev.stateSensor (d : Dev) (id : Nat) : Option Nat :=
  if id = 0x30 then some (d.get .PWR_STATE_STATE)
  else if id = 0x31 then some (d.get .BOOT_STATUS_RESULT)
  else if id = 0x32 then some (d.get .DEV_FATAL_LEVEL)
  else none

/-- GETSENSORREADING: completion code, then 0 and the reading with its level, or 1 where the sensor is unavailable. -/
def execGetsensorreading (src : MSrc) (id : Nat) (s : State) : Out := s.runOn fun d =>
  d.mctp src false fun e => match e.sensor id with
    | none => e.emit (.mctp src 0x0211 [0x80])
    | some (v, always) =>
      if !always && (e.pwr.tripped || e.get .PWR_STATE_STATE == 3) then e.emit (.mctp src 0x0211 [0, 1])
      else e.emit (.mctp src 0x0211 [0, 0, v, Sparse.get (fun _ => 0) e.mgmt.levels id])

/-- GETSTATESENSORREADINGS. -/
def execGetstatesensorreadings (src : MSrc) (id : Nat) (s : State) : Out := s.runOn fun d =>
  d.mctp src false fun e => match e.stateSensor id with
    | none => e.emit (.mctp src 0x0221 [0x80])
    | some v => e.emit (.mctp src 0x0221 [0, 0, v])

/-- GETPDRREPOSITORYINFO: not stated. -/
def execGetpdrrepositoryinfo (src : MSrc) (s : State) : Out := s.runOn fun d =>
  d.mctp src false fun e => e.emit (.mctp src 0x0250 (0 :: Config.pdrInfo ()))

/-- The name of a sensor (R8, Table 27-4). -/
def sensorName (id : Nat) : String :=
  if id = 0x01 then "TJ_HOT" else if id = 0x02 then "TJ_PEAK"
  else if id = 0x10 then "HBM_TEMP_0" else if id = 0x11 then "HBM_TEMP_1" else if id = 0x12 then "HBM_TEMP_2"
  else if id = 0x13 then "HBM_TEMP_3" else if id = 0x20 then "POWER_NOW" else if id = 0x21 then "VDD_CORE_MV"
  else if id = 0x22 then "FABRIC_MHZ" else if id = 0x30 then "PWR_STATE" else if id = 0x31 then "BOOT_RESULT"
  else if id = 0x32 then "FATAL_LEVEL" else if id = 0x40 then "LATERAL_LINKS_UP" else if id = 0x41 then "PARTNERS_UP" else ""

/-- GETPDR of a record handle: the sensor's name (R8) and the rest of the record, which is not stated. A sensor's handle is its sensor ID
(DESIGN CHOICE, notes/assumptions/46.md). -/
def execGetpdr (src : MSrc) (handle : Nat) (s : State) : Out := s.runOn fun d =>
  d.mctp src false fun e =>
    e.emit (.mctp src 0x0251 (0 :: ((sensorName handle).toList.map Char.toNat ++ Config.pdrRecord handle)))

/-- SETEVENTRECEIVER: the receiver's endpoint on the binding that the command came over. -/
def execSeteventreceiver (src : MSrc) (eid : Nat) (s : State) : Out := s.runOn fun d =>
  d.pldmSet src fun e =>
    ({ e with mgmt := { e.mgmt with rcv := some (src == MSrc.mctpVdm, eid % 256) } }).emit (.mctp src 0x0204 [0])

/-! ### JTAG (R615, R616, R631, R656) -/

/-- IDCODE's register (Table 27-6). -/
def idcode : Nat := 2 * 2 ^ 28 + 0x4460 * 2 ^ 12 + Config.jedecMfr () % 2 ^ 11 * 2 + 1

/-- What the data register of an instruction captures: IDCODE's value, the boundary register's (a free value), a 0 of the bypass register
(IEEE 1149.1, PRESUMED, notes/assumptions/68.md). -/
def Dev.tapCapture (d : Dev) (ir : Nat) : Dev :=
  if ir = 0x01 then d.emit (.tdo ir idcode)
  else if ir = 0x00 ∨ ir = 0x02 ∨ ir = 0x05 ∨ ir = 0x06 then
    let x := d.fresh
    x.2.emit (.tdo ir x.1)
  else d.emit (.tdo ir 0)

def Dev.setIr (d : Dev) (ir : Nat) : Dev := { d with mgmt := { d.mgmt with ir := ir } }

/-- An Update-IR. With TEST_EN_N low at the reset's release the TAP knows IDCODE and BYPASS only. -/
def Dev.tapUpdate (d : Dev) (ir : Nat) : Dev :=
  let ir := if d.boot.held ∧ ir ≠ 0x01 then 0xFF else ir
  (d.setIr ir).tapCapture ir

/-- An Update-IR of an instruction that takes effect only under device reset or in a halted boot (R615). -/
def Dev.tapTest (d : Dev) (ir : Nat) : Dev :=
  if d.pins.devReset ∨ d.get .BOOT_STATUS_RESULT = 2 then d.tapUpdate ir
  else (d.bump .JTAG_REFUSED_COUNT).tapUpdate 0xFF

/-- EXTEST. -/
def execExtest (s : State) : Out := s.runOn fun d => d.tapTest 0x00

/-- IDCODE. -/
def execIdcode (s : State) : Out := s.runOn fun d => d.tapUpdate 0x01

/-- SAMPLE_PRELOAD. -/
def execSamplePreload (s : State) : Out := s.runOn fun d => d.tapUpdate 0x02

/-- HIGHZ. -/
def execHighz (s : State) : Out := s.runOn fun d => d.tapTest 0x03

/-- CLAMP. -/
def execClamp (s : State) : Out := s.runOn fun d => d.tapTest 0x04

/-- EXTEST_PULSE. -/
def execExtestPulse (s : State) : Out := s.runOn fun d => d.tapTest 0x05

/-- EXTEST_TRAIN. -/
def execExtestTrain (s : State) : Out := s.runOn fun d => d.tapTest 0x06

/-- BYPASS. -/
def execBypass (s : State) : Out := s.runOn fun d => d.tapUpdate 0xFF

/-- Capture-DR of MGMT_ACCESS: the last access's report; one that has not completed reads DONE 0 and its result is lost (R616). -/
def Dev.accessCapture (d : Dev) : Dev :=
  let bits := match d.mgmt.access with
    | none => 0
    | some (bad, v) => 2 ^ 32 + bit01 bad * 2 ^ 33 + v % 2 ^ 32
  let d := ({ d with mgmt := { d.mgmt with access := none } }).emit (.tdo 0x20 bits)
  d.loseSource .jtag

/-- MGMT_ACCESS: Capture-DR, then the access that Update-DR starts. -/
def execMgmtAccess (wr : Bool) (off : Nat) (v : Word) (s : State) : Out := s.runOn fun d =>
  if d.boot.held then d.tapUpdate 0xFF
  else
    let d := (d.setIr 0x20).accessCapture
    if d.get .MGMT_CTRL_JTAG_ACCESS_EN = 0 ∨ (wr ∧ !d.mayWrite) then d.mgmtDenied .jtag
    else if !d.pathUp .mgmt then d
    else d.mgmtTake .jtag (if wr then .regWrite (off % 2 ^ 26) v.toNat else .regRead (off % 2 ^ 26))

/-- TRST_N_RESET: Test-Logic-Reset, where IDCODE is in force. -/
def execTrstNReset (s : State) : Out := s.runOn fun d => d.setIr 0x01

/-! ### GPIO and the alert wire (R104, R618 to R621) -/

/-- GPIO_INPUT_EDGE: pin `n` has held a new level for two ticks. -/
def execGpioInputEdge (n : Nat) (high : Bool) (s : State) : Out := s.runOn fun d =>
  if 7 < n ∨ bitsOf d.gh.gpio n 1 = bit01 high then d
  else
    let d := { d with gh := { d.gh with gpio := putBits d.gh.gpio n 1 (bit01 high) } }
    if bitsOf (d.rd .GPIO_FUNC) (3 * n) 3 ≠ 0 then d
    else
      let bit := if high then n else 8 + n
      let d := if d.bit .GPIO_EDGE_EN bit then (d.setBit .GPIO_EDGE bit true).raise 109 0 7 else d
      if d.bit .GH_GPIO_WAKE n ∧ bitsOf (d.get .GH_GPIO_WAKE_LEVEL) n 1 = bit01 high ∧ !d.pwr.tripped then (d.evpSet 8).wake 6 else d

/-- FLEET_ALERT_WIRE: another device pulls the wire low, or lets it go. -/
def execFleetAlertWire (low : Bool) (s : State) : Out := s.runOn fun d =>
  ({ d with pins := { d.pins with alert := low } }).alertDrive

end Sys2Proof.Machine
end

