-- ==== Sys2Proof/Machine/Resume.lean ====
section
/-! DEFINITION. RUN is reached: the last steps of an exit and the accesses that waited for it (R76 to R78, R107, R114, R167, R569, Table 4-6);
and transfers that wait too long (R266). -/
namespace Sys2Proof.Machine

/-! ### The exit's end -/

/-- Trace after HOLD: the buffer is void, and HOLD_GAP and a SYNC bridge the gap (R569); what was dropped
is told by the next packet's LOST. -/
def Dev.trcResume (d : Dev) : Dev :=
  let n := d.rd64 .TRC_WRITTEN_LO
  let d := d.wr64 .TRC_VALID_FROM_LO n
  let d := if d.rd64 .TRC_RD_LO < n then d.wr64 .TRC_RD_LO n else d
  let exit := d.gh.exitAt.getD d.gh.timer
  let d := { d with trc := { d.trc with held := none, wrapped := false, gapOpen := false } }
  let lost := (d.trc.lostN, d.trc.lostMask)
  let d := { d with trc := { d.trc with lostN := 0, lostMask := 0 } }
  let d := d.trace { src := 0, type := 0x04, key := none, body := leBytes 8 d.trc.gapEntry ++ leBytes 8 exit }
  let d := Dev.trcEvents (d.trcSync 3)
  { d with trc := { d.trc with lostN := d.trc.lostN + lost.1, lostMask := d.trc.lostMask ||| lost.2 } }

/-- The messages that waited for RUN (R114, R609). -/
def Dev.sendDeferred (d : Dev) : Dev :=
  let mask := d.msix.defer
  let evs := d.mgmt.events
  let d := { d with msix := { d.msix with defer := 0 }, mgmt := { d.mgmt with events := [] } }
  let d := (List.range 256).foldl (fun (e : Dev) v => if bitsOf mask v 1 = 1 then e.sendVec v else e) d
  evs.foldl (fun (e : Dev) x => e.emit (.event true x.1 x.2)) d

/-- An access that waited is served. -/
def Dev.serveOne (d : Dev) (h : Held) : Dev :=
  match h with
  | .pWrite p a b poison => d.pWrite p a b poison
  | .pRead p a n t => d.pRead p a n t
  | .pMark p v => d.pMark p v
  | .pHint p h v => d.hintWrite p h v
  | .pReg p o n v t => d.portReg p o n v t
  | .bus p a n v => match v with
    | some v => d.busWrite p a n v
    | none => d.busAnswer p a n
  | .alias_ o v => d.aliasWrite o v
  | .apRead a n t => d.apRead a n t
  | .apWrite a b => d.apWrite a b
  | .msix v w x => d.msixWrite v w x
  | .mgmt src c => d.mgmtRun src c

/-- The accesses that waited, in arrival order (R78). -/
def Dev.serveHeld (d : Dev) : Dev :=
  let hs := d.held
  hs.foldl (fun (e : Dev) h => e.serveOne h) { d with held := [] }

/-- RUN holds. -/
def Dev.runReached (d : Dev) : Dev :=
  let d := (d.setPower 0 (d.get .PWR_STATE_LAST_WAKE_SRC)).set .PWR_STATE_IN_TRANSITION 0
  let d := { d with pwr := { d.pwr with exiting := false, cur := none }, gh := { d.gh with exitAt := none } }
  d.leaseRestart.sleepDone.sendDeferred.serveHeld

/-- DOZE_EXIT_COMPLETE (R666): refresh is the controllers' again. -/
def execDozeExitComplete (s : State) : Out := s.run fun d =>
  if !d.pwr.exiting ∨ d.get .PWR_STATE_STATE ≠ 2 then d else (d.hbmAll 3 2).runReached

/-- Does RESUME go on: self-refresh left, and every link back or 150 µs over? -/
def Dev.resumeReady (d : Dev) : Bool :=
  d.pwr.srx && (((List.range 24).all fun l => !(d.link l).exit) || (match d.gh.exitAt with
    | some t => decide (t + 2880 ≤ d.gh.timer)
    | none => true))

/-- RESUME: the keys back, the Headgate as it was, the trace, RUN. -/
def Dev.resume (d : Dev) (ue : Nat) : Dev :=
  let d := (d.keyCopyBack (ue ||| d.gh.keyBad)).set .HG_STATE_STATE d.pwr.hgWas
  let d := { d with pwr := { d.pwr with srx := false }, gh := { d.gh with keyBad := 0 } }
  d.trcResume.runReached

/-- SEQ_RESUME: `ue` marks the key slots that the store cannot give back (R108). -/
def execSeqResume (ue : Nat) (s : State) : Out := s.run fun d =>
  d.seqStepWhen 0x15 2 12 13 Dev.resumeReady fun e => e.resume ue

/-! ### ENGINE_STALL_EXPIRY (R266, R378, R439, R523) -/

/-- Has a time passed STALL_LIMIT.ENGINE? -/
def Dev.stalled (d : Dev) (since : Nat) : Bool := decide (since + d.stallTicks ≤ d.gh.timer)

/-- A stream's transfer has waited too long: an outstanding read or write unanswered, one that waits for its page, or its path failed. -/
def Dev.streamStalled (d : Dev) (s : Stream) : Bool :=
  s.entered && (s.st == 2 || s.st == 3) &&
    (s.rdq.map Prod.snd ++ s.wiq ++ s.pgW.map Prod.fst ++ s.blocked.toList).any d.stalled

/-- A drain likewise. -/
def Dev.drainStalled (d : Dev) (h : Nat) : Bool :=
  match d.pool.drains.find? fun x => x.handle == h with
  | none => false
  | some x => d.pathFailed x.dst.tier x.dst.unit && x.blocked.toList.any d.stalled

/-- Has a chain waited too long for a binding (R378)? -/
def Dev.chainStalled (d : Dev) (c : Chain) : Bool := c.st == 2 && c.waitAt.toList.any d.stalled

/-- A request of the router is not answered in time: its transfer fails. -/
def Dev.tagFail (d : Dev) (t : RTag) : Dev :=
  let d := d.killTags fun o => o == t.owner
  match t.owner with
  | .stream f c slot _ => (match d.stream? (f, c, slot) with
    | some s => d.streamTierFail s
    | none => d)
  | .drain h => d.drainFail h
  | .restore .. => d.restoreFail cTierFail
  | .ckFlush .. => d

/-- ENGINE_STALL_EXPIRY. -/
def execEngineStallExpiry (w : Waiter) (s : State) : Out := s.run fun d =>
  if d.asleep then d
  else match w with
    | .stream f c slot => (match d.stream? (f, c, slot) with
      | some x => if d.streamStalled x then d.streamTierFail x else d
      | none => d)
    | .drain h => if d.drainStalled h then d.drainFail h else d
    | .chain h => (match d.chains.find? fun c => c.handle == h with
      | some c => if d.chainStalled c then d.chainFail c cTierFail else d
      | none => d)
    | .tag dst tag => (match d.lr.tags.find? fun t => t.dst == dst && t.tag == tag && !t.dead with
      | some t => if t.status.isNone ∧ d.stalled t.since then d.tagFail t else d
      | none => d)

end Sys2Proof.Machine
end

