-- ==== Sys2Proof/Machine/Dispatch.lean ====
section
/-! DEFINITION. The dispatch: one arm per command, each a direct call of its meaning. -/
namespace Sys2Proof.Machine

/-- The effect of a command on everything but the queue. -/
def exec (i : Instr) (s : State) : Host.Outcome State Fault Refusal :=
  match i with
  | .registerWrite p addr size v => Sys2Proof.Machine.execRegisterWrite p addr size v s
  | .unmappedAccess p addr wr => Sys2Proof.Machine.execUnmappedAccess p addr wr s
  | .latchReadLow p b page off => Sys2Proof.Machine.execLatchReadLow p b page off s
  | .highWordWrite p b page off v => Sys2Proof.Machine.execHighWordWrite p b page off v s
  | .irqPendClear p b page v => Sys2Proof.Machine.execIrqPendClear p b page v s
  | .irqMaskWrite p b page v => Sys2Proof.Machine.execIrqMaskWrite p b page v s
  | .irqForce p b page v => Sys2Proof.Machine.execIrqForce p b page v s
  | .errCodeClear p b page => Sys2Proof.Machine.execErrCodeClear p b page s
  | .blockReset p b page => Sys2Proof.Machine.execBlockReset p b page s
  | .resetComplete b => Sys2Proof.Machine.execResetComplete b s
  | .blkFreeze p b page => Sys2Proof.Machine.execBlkFreeze p b page s
  | .thaw p b page => Sys2Proof.Machine.execThaw p b page s
  | .frozenReached b => Sys2Proof.Machine.execFrozenReached b s
  | .blkQuiesce p b page => Sys2Proof.Machine.execBlkQuiesce p b page s
  | .quiescedReached b => Sys2Proof.Machine.execQuiescedReached b s
  | .blkEnable p b page => Sys2Proof.Machine.execBlkEnable p b page s
  | .globalFreezeSet p => Sys2Proof.Machine.execGlobalFreezeSet p s
  | .globalFreezeClear p => Sys2Proof.Machine.execGlobalFreezeClear p s
  | .allFrozen => Sys2Proof.Machine.execAllFrozen s
  | .stateDataRead p b page => Sys2Proof.Machine.execStateDataRead p b page s
  | .loopBoundsWrite p b page off v same => Sys2Proof.Machine.execLoopBoundsWrite p b page off v same s
  | .loopPinWrite p b page off v same => Sys2Proof.Machine.execLoopPinWrite p b page off v same s
  | .aoPowerUp straps => Sys2Proof.Machine.execAoPowerUp straps s
  | .aoDomainReset straps => Sys2Proof.Machine.execAoDomainReset straps s
  | .devResetAssert => Sys2Proof.Machine.execDevResetAssert s
  | .vidStep => Sys2Proof.Machine.execVidStep s
  | .bootStart testHigh => Sys2Proof.Machine.execBootStart testHigh s
  | .stageAoStart => Sys2Proof.Machine.execStageAoStart s
  | .stageFuses bad absent => Sys2Proof.Machine.execStageFuses bad absent s
  | .stageImageVerify sfdp => Sys2Proof.Machine.execStageImageVerify sfdp s
  | .stagePllLock ok => Sys2Proof.Machine.execStagePllLock ok s
  | .stageHbmBringup trained pcs chs => Sys2Proof.Machine.execStageHbmBringup trained pcs chs s
  | .stageSramInit ok flumes => Sys2Proof.Machine.execStageSramInit ok flumes s
  | .stageFwLoad ok => Sys2Proof.Machine.execStageFwLoad ok s
  | .stageHostLink fail => Sys2Proof.Machine.execStageHostLink fail s
  | .stagePartnerPorts outs => Sys2Proof.Machine.execStagePartnerPorts outs s
  | .stageExpanderPorts outs mib => Sys2Proof.Machine.execStageExpanderPorts outs mib s
  | .stageLateralLinks => Sys2Proof.Machine.execStageLateralLinks s
  | .stageSelftest tiles lanes => Sys2Proof.Machine.execStageSelftest tiles lanes s
  | .stageMapPublish ok => Sys2Proof.Machine.execStageMapPublish ok s
  | .stageReady => Sys2Proof.Machine.execStageReady s
  | .stageTimeout => Sys2Proof.Machine.execStageTimeout s
  | .ledgerCopyDone ok => Sys2Proof.Machine.execLedgerCopyDone ok s
  | .verdictClear p v => Sys2Proof.Machine.execVerdictClear p v s
  | .bootReboot p v => Sys2Proof.Machine.execBootReboot p v s
  | .imagePref p v => Sys2Proof.Machine.execImagePref p v s
  | .pwrReqDoze p => Sys2Proof.Machine.execPwrReqDoze p s
  | .pwrReqHold p => Sys2Proof.Machine.execPwrReqHold p s
  | .pwrReqCancel p => Sys2Proof.Machine.execPwrReqCancel p s
  | .holdDrainDone bad => Sys2Proof.Machine.execHoldDrainDone bad s
  | .pendingRequestEnter => Sys2Proof.Machine.execPendingRequestEnter s
  | .pendingRequestDemote => Sys2Proof.Machine.execPendingRequestDemote s
  | .pendingRequestDrop => Sys2Proof.Machine.execPendingRequestDrop s
  | .idleEntry => Sys2Proof.Machine.execIdleEntry s
  | .tc0Fire => Sys2Proof.Machine.execTc0Fire s
  | .dozeExitComplete => Sys2Proof.Machine.execDozeExitComplete s
  | .governorUpdate p => Sys2Proof.Machine.execGovernorUpdate p s
  | .tjSample tj sensor => Sys2Proof.Machine.execTjSample tj sensor s
  | .powerGate b => Sys2Proof.Machine.execPowerGate b s
  | .ghProgRunSet p => Sys2Proof.Machine.execGhProgRunSet p s
  | .ghProgRunClear p => Sys2Proof.Machine.execGhProgRunClear p s
  | .ghDoorbell p v => Sys2Proof.Machine.execGhDoorbell p v s
  | .ghTimerFire n => Sys2Proof.Machine.execGhTimerFire n s
  | .ghWaitMatch => Sys2Proof.Machine.execGhWaitMatch s
  | .ghNop => Sys2Proof.Machine.execGhNop s
  | .ghStop => Sys2Proof.Machine.execGhStop s
  | .ghRet => Sys2Proof.Machine.execGhRet s
  | .ghWake => Sys2Proof.Machine.execGhWake s
  | .seqVret => Sys2Proof.Machine.execSeqVret s
  | .seqSre => Sys2Proof.Machine.execSeqSre s
  | .seqLinklp l1 => Sys2Proof.Machine.execSeqLinklp l1 s
  | .seqFastoff => Sys2Proof.Machine.execSeqFastoff s
  | .seqFaston => Sys2Proof.Machine.execSeqFaston s
  | .seqVopr => Sys2Proof.Machine.execSeqVopr s
  | .seqSrx bad => Sys2Proof.Machine.execSeqSrx bad s
  | .seqLinkup => Sys2Proof.Machine.execSeqLinkup s
  | .seqResume ue => Sys2Proof.Machine.execSeqResume ue s
  | .scrub ce ue => Sys2Proof.Machine.execScrub ce ue s
  | .scrubDone => Sys2Proof.Machine.execScrubDone s
  | .ghTemp => Sys2Proof.Machine.execGhTemp s
  | .gpin => Sys2Proof.Machine.execGpin s
  | .evt => Sys2Proof.Machine.execEvt s
  | .ghWait => Sys2Proof.Machine.execGhWait s
  | .ghSig => Sys2Proof.Machine.execGhSig s
  | .ldi => Sys2Proof.Machine.execLdi s
  | .ghAlu => Sys2Proof.Machine.execGhAlu s
  | .ghAddi => Sys2Proof.Machine.execGhAddi s
  | .ghCmpi => Sys2Proof.Machine.execGhCmpi s
  | .ghB => Sys2Proof.Machine.execGhB s
  | .ghCall => Sys2Proof.Machine.execGhCall s
  | .ldc => Sys2Proof.Machine.execLdc s
  | .tcset => Sys2Proof.Machine.execTcset s
  | .tcclr => Sys2Proof.Machine.execTcclr s
  | .tcrd => Sys2Proof.Machine.execTcrd s
  | .ghTnow => Sys2Proof.Machine.execGhTnow s
  | .tnowh => Sys2Proof.Machine.execTnowh s
  | .ghLd => Sys2Proof.Machine.execGhLd s
  | .ghSt => Sys2Proof.Machine.execGhSt s
  | .btst => Sys2Proof.Machine.execBtst s
  | .ghBudgetExceeded => Sys2Proof.Machine.execGhBudgetExceeded s
  | .issue ue => Sys2Proof.Machine.execIssue ue s
  | .issueStallRelease => Sys2Proof.Machine.execIssueStallRelease s
  | .taskDispatch tag ue => Sys2Proof.Machine.execTaskDispatch tag ue s
  | .ringConsWrite p n v => Sys2Proof.Machine.execRingConsWrite p n v s
  | .ringConfigWrite p n size v => Sys2Proof.Machine.execRingConfigWrite p n size v s
  | .imemWindowWrite p off v => Sys2Proof.Machine.execImemWindowWrite p off v s
  | .hgStart p => Sys2Proof.Machine.execHgStart p s
  | .hgHaltReq p => Sys2Proof.Machine.execHgHaltReq p s
  | .hgStep p ue => Sys2Proof.Machine.execHgStep p ue s
  | .hgDoorbell p v => Sys2Proof.Machine.execHgDoorbell p v s
  | .taskAbort p tag => Sys2Proof.Machine.execTaskAbort p tag s
  | .taskAbortAll p => Sys2Proof.Machine.execTaskAbortAll p s
  | .hgTimerFire n => Sys2Proof.Machine.execHgTimerFire n s
  | .hgWaitEnd => Sys2Proof.Machine.execHgWaitEnd s
  | .hgNop ue => Sys2Proof.Machine.execHgNop ue s
  | .hgAlu ue => Sys2Proof.Machine.execHgAlu ue s
  | .hgAlui ue => Sys2Proof.Machine.execHgAlui ue s
  | .ext ue => Sys2Proof.Machine.execExt ue s
  | .dep ue => Sys2Proof.Machine.execDep ue s
  | .cnt ue => Sys2Proof.Machine.execCnt ue s
  | .cmp ue => Sys2Proof.Machine.execCmp ue s
  | .cmpi ue => Sys2Proof.Machine.execCmpi ue s
  | .plog ue => Sys2Proof.Machine.execPlog ue s
  | .sel ue => Sys2Proof.Machine.execSel ue s
  | .mfp ue => Sys2Proof.Machine.execMfp ue s
  | .mtp ue => Sys2Proof.Machine.execMtp ue s
  | .mpeek ue => Sys2Proof.Machine.execMpeek ue s
  | .mpop ue => Sys2Proof.Machine.execMpop ue s
  | .mfev ue => Sys2Proof.Machine.execMfev ue s
  | .mfh ue => Sys2Proof.Machine.execMfh ue s
  | .hqry ue => Sys2Proof.Machine.execHqry ue s
  | .aot ue => Sys2Proof.Machine.execAot ue s
  | .br ue => Sys2Proof.Machine.execBr ue s
  | .bl ue => Sys2Proof.Machine.execBl ue s
  | .bx ue => Sys2Proof.Machine.execBx ue s
  | .hgWait ue => Sys2Proof.Machine.execHgWait ue s
  | .evclr ue => Sys2Proof.Machine.execEvclr ue s
  | .tmrSet ue => Sys2Proof.Machine.execTmrSet ue s
  | .tmrClr ue => Sys2Proof.Machine.execTmrClr ue s
  | .signal ue => Sys2Proof.Machine.execSignal ue s
  | .halt ue => Sys2Proof.Machine.execHalt ue s
  | .sleep ue => Sys2Proof.Machine.execSleep ue s
  | .sleepAnswer => Sys2Proof.Machine.execSleepAnswer s
  | .habort ue => Sys2Proof.Machine.execHabort ue s
  | .hclr ue => Sys2Proof.Machine.execHclr ue s
  | .ld ue => Sys2Proof.Machine.execLd ue s
  | .st ue => Sys2Proof.Machine.execSt ue s
  | .ldv ue => Sys2Proof.Machine.execLdv ue s
  | .ldvResponse => Sys2Proof.Machine.execLdvResponse s
  | .stv ue => Sys2Proof.Machine.execStv ue s
  | .movw ue => Sys2Proof.Machine.execMovw ue s
  | .movp ue => Sys2Proof.Machine.execMovp ue s
  | .fence ue => Sys2Proof.Machine.execFence ue s
  | .fenceDone => Sys2Proof.Machine.execFenceDone s
  | .admitPlan img parts => Sys2Proof.Machine.execAdmit img parts s
  | .unload => Sys2Proof.Machine.execUnload s
  | .seal tag => Sys2Proof.Machine.execSeal tag s
  | .openGate tag => Sys2Proof.Machine.execOpenGate tag s
  | .drop tag => Sys2Proof.Machine.execDrop tag s
  | .rearm tag => Sys2Proof.Machine.execRearm tag s
  | .rearmApply h => Sys2Proof.Machine.execRearmApply h s
  | .partnerWindowWrite p addr data poison => Sys2Proof.Machine.execPartnerWindowWrite p addr data poison s
  | .partnerWindowRead p addr len tid ue => Sys2Proof.Machine.execPartnerWindowRead p addr len tid ue s
  | .heldReadRelease p tid => Sys2Proof.Machine.execHeldReadRelease p tid s
  | .readExpired p tid => Sys2Proof.Machine.execReadExpired p tid s
  | .deferredEvictionStart h => Sys2Proof.Machine.execDeferredEvictionStart h s
  | .retiredRelease h => Sys2Proof.Machine.execRetiredRelease h s
  | .evict tag => Sys2Proof.Machine.execEvict tag s
  | .reserve tag => Sys2Proof.Machine.execReserve tag s
  | .allocationGrant => Sys2Proof.Machine.execAllocationGrant s
  | .arbitrationGrant pt dir => Sys2Proof.Machine.execArbitrationGrant pt dir s
  | .ageLoopUpdate => Sys2Proof.Machine.execAgeLoopUpdate s
  | .engineStallExpiry w => Sys2Proof.Machine.execEngineStallExpiry w s
  | .park tag => Sys2Proof.Machine.execPark tag s
  | .lift tag => Sys2Proof.Machine.execLift tag s
  | .compress tag => Sys2Proof.Machine.execCompress tag s
  | .observe tag => Sys2Proof.Machine.execObserve tag s
  | .turnout tag => Sys2Proof.Machine.execTurnout tag s
  | .liftStart f c => Sys2Proof.Machine.execLiftStart f c s
  | .transferComplete f c slot write fault => Sys2Proof.Machine.execTransferComplete f c slot write fault s
  | .priResponse f g pasid ok => Sys2Proof.Machine.execPriResponse f g pasid ok s
  | .streamHaltComplete f c slot => Sys2Proof.Machine.execStreamHaltComplete f c slot s
  | .streamAbortComplete f c slot => Sys2Proof.Machine.execStreamAbortComplete f c slot s
  | .flmCtxResume p f c tag => Sys2Proof.Machine.execFlmCtxResume p f c tag s
  | .flmCtxAbort p f c tag => Sys2Proof.Machine.execFlmCtxAbort p f c tag s
  | .flmCtxHalt p f c tag => Sys2Proof.Machine.execFlmCtxHalt p f c tag s
  | .turnoutProgramWrite p f ix v => Sys2Proof.Machine.execTurnoutProgramWrite p f ix v s
  | .turnNop f c => Sys2Proof.Machine.execTurnNop f c s
  | .turnEnd f c => Sys2Proof.Machine.execTurnEnd f c s
  | .endRecord f c => Sys2Proof.Machine.execEndRecord f c s
  | .turnB f c => Sys2Proof.Machine.execTurnB f c s
  | .djnz f c => Sys2Proof.Machine.execDjnz f c s
  | .turnAlu f c => Sys2Proof.Machine.execTurnAlu f c s
  | .turnAddi f c => Sys2Proof.Machine.execTurnAddi f c s
  | .movi f c => Sys2Proof.Machine.execMovi f c s
  | .movhi f c => Sys2Proof.Machine.execMovhi f c s
  | .bset f c => Sys2Proof.Machine.execBset f c s
  | .badd f c => Sys2Proof.Machine.execBadd f c s
  | .ldw f c => Sys2Proof.Machine.execLdw f c s
  | .ldobj f c => Sys2Proof.Machine.execLdobj f c s
  | .ldlead f c => Sys2Proof.Machine.execLdlead f c s
  | .turnTnow f c => Sys2Proof.Machine.execTurnTnow f c s
  | .waitt f c => Sys2Proof.Machine.execWaitt f c s
  | .waittEnd f c => Sys2Proof.Machine.execWaittEnd f c s
  | .waito f c => Sys2Proof.Machine.execWaito f c s
  | .waitoEnd f c => Sys2Proof.Machine.execWaitoEnd f c s
  | .waitoTimeout f c => Sys2Proof.Machine.execWaitoTimeout f c s
  | .burst f c => Sys2Proof.Machine.execBurst f c s
  | .burstSlotFree f c => Sys2Proof.Machine.execBurstSlotFree f c s
  | .waitb f c => Sys2Proof.Machine.execWaitb f c s
  | .waitbEnd f c => Sys2Proof.Machine.execWaitbEnd f c s
  | .lanes f c => Sys2Proof.Machine.execLanes f c s
  | .obsid f c => Sys2Proof.Machine.execObsid f c s
  | .dline f c => Sys2Proof.Machine.execDline f c s
  | .turnSig f c => Sys2Proof.Machine.execTurnSig f c s
  | .blockCompress n => Sys2Proof.Machine.execBlockCompress n s
  | .escapeDecision n => Sys2Proof.Machine.execEscapeDecision n s
  | .blockExpand n => Sys2Proof.Machine.execBlockExpand n s
  | .keyDataWrite p v => Sys2Proof.Machine.execKeyDataWrite p v s
  | .keySelWrite p v => Sys2Proof.Machine.execKeySelWrite p v s
  | .keyLoad p => Sys2Proof.Machine.execKeyLoad p s
  | .keyClear p => Sys2Proof.Machine.execKeyClear p s
  | .keyRetainWrite p v => Sys2Proof.Machine.execKeyRetainWrite p v s
  | .runChain tag => Sys2Proof.Machine.execRunChain tag s
  | .chainStart => Sys2Proof.Machine.execChainStart s
  | .bindingReady h => Sys2Proof.Machine.execBindingReady h s
  | .descriptorExecute n => Sys2Proof.Machine.execDescriptorExecute n s
  | .observeBlock => Sys2Proof.Machine.execObserveBlock s
  | .publish tag => Sys2Proof.Machine.execPublish tag s
  | .vote tag => Sys2Proof.Machine.execVote tag s
  | .voteMsg l => Sys2Proof.Machine.execVoteMsg l s
  | .voteResult l => Sys2Proof.Machine.execVoteResult l s
  | .voteWindowClose => Sys2Proof.Machine.execVoteWindowClose s
  | .resultTimeout => Sys2Proof.Machine.execResultTimeout s
  | .scaleCommit => Sys2Proof.Machine.execScaleCommit s
  | .commit tag => Sys2Proof.Machine.execCommit tag s
  | .trickle tag => Sys2Proof.Machine.execTrickle tag s
  | .restore tag => Sys2Proof.Machine.execRestore tag s
  | .leaseSendTimer node => Sys2Proof.Machine.execLeaseSendTimer node s
  | .leaseLost node => Sys2Proof.Machine.execLeaseLost node s
  | .hostLeaseExpiry n => Sys2Proof.Machine.execHostLeaseExpiry n s
  | .reofferTimer node => Sys2Proof.Machine.execReofferTimer node s
  | .hostSlotCtrlWrite p n v => Sys2Proof.Machine.execHostSlotCtrlWrite p n v s
  | .ckRegionResume p v => Sys2Proof.Machine.execCkRegionResume p v s
  | .partnerLinkDown p => Sys2Proof.Machine.execPartnerLinkDown p s
  | .partnerLinkUp p width rate cxl => Sys2Proof.Machine.execPartnerLinkUp p width rate cxl s
  | .partnerHoldExpiry p => Sys2Proof.Machine.execPartnerHoldExpiry p s
  | .ppPerstNFall p => Sys2Proof.Machine.execPpPerstNFall p s
  | .hdmDecoderCommit p k base size ways skip => Sys2Proof.Machine.execHdmDecoderCommit p k base size ways skip s
  | .markDoorbell p off size v => Sys2Proof.Machine.execMarkDoorbell p off size v s
  | .hintWrite p h v => Sys2Proof.Machine.execHintWrite p h v s
  | .gateMirrorRead p off size tid => Sys2Proof.Machine.execGateMirrorRead p off size tid s
  | .memspecrd p addr => Sys2Proof.Machine.execMemspecrd p addr s
  | .memUnsupported p addr tid rd => Sys2Proof.Machine.execMemUnsupported p addr tid rd s
  | .getEventRecords p log => Sys2Proof.Machine.execGetEventRecords p log s
  | .clearEventRecords p log n => Sys2Proof.Machine.execClearEventRecords p log n s
  | .getSupportedLogs p => Sys2Proof.Machine.execGetSupportedLogs p s
  | .getLog p => Sys2Proof.Machine.execGetLog p s
  | .identifyMemoryDevice p => Sys2Proof.Machine.execIdentifyMemoryDevice p s
  | .getHealthInfo p => Sys2Proof.Machine.execGetHealthInfo p s
  | .mailboxUnsupported p op => Sys2Proof.Machine.execMailboxUnsupported p op s
  | .hostReset k => Sys2Proof.Machine.execHostReset k s
  | .hostPerstRelease => Sys2Proof.Machine.execHostPerstRelease s
  | .bar4AliasWrite off v => Sys2Proof.Machine.execBar4AliasWrite off v s
  | .apertureRead addr len tid => Sys2Proof.Machine.execApertureRead addr len tid s
  | .apertureWrite addr data => Sys2Proof.Machine.execApertureWrite addr data s
  | .atsInvalidation itag addr len => Sys2Proof.Machine.execAtsInvalidation itag addr len s
  | .atsInvalidationComplete itag => Sys2Proof.Machine.execAtsInvalidationComplete itag s
  | .tierCompletionError f c slot e => Sys2Proof.Machine.execTierCompletionError f c slot e s
  | .expanderLinkDown e => Sys2Proof.Machine.execExpanderLinkDown e s
  | .expanderLinkUp e width rate flit256 => Sys2Proof.Machine.execExpanderLinkUp e width rate flit256 s
  | .expanderDownLimit e => Sys2Proof.Machine.execExpanderDownLimit e s
  | .expanderEventPoll e warn fail => Sys2Proof.Machine.execExpanderEventPoll e warn fail s
  | .fecGroupReceive l lanes => Sys2Proof.Machine.execFecGroupReceive l lanes s
  | .nak l => Sys2Proof.Machine.execNak l s
  | .credit l => Sys2Proof.Machine.execCredit l s
  | .param l => Sys2Proof.Machine.execParam l s
  | .paramAck l => Sys2Proof.Machine.execParamAck l s
  | .laneDrop l => Sys2Proof.Machine.execLaneDrop l s
  | .laneDropAck l => Sys2Proof.Machine.execLaneDropAck l s
  | .lpReq l => Sys2Proof.Machine.execLpReq l s
  | .lpAck l => Sys2Proof.Machine.execLpAck l s
  | .linkResume l => Sys2Proof.Machine.execLinkResume l s
  | .nakRepeatTimer l => Sys2Proof.Machine.execNakRepeatTimer l s
  | .ackTimeout l => Sys2Proof.Machine.execAckTimeout l s
  | .creditSend l => Sys2Proof.Machine.execCreditSend l s
  | .energyDetect l => Sys2Proof.Machine.execEnergyDetect l s
  | .tsFrame l bits peer eq => Sys2Proof.Machine.execTsFrame l bits peer eq s
  | .trainTimeout l => Sys2Proof.Machine.execTrainTimeout l s
  | .linkRetryTimer l => Sys2Proof.Machine.execLinkRetryTimer l s
  | .fecWindow l => Sys2Proof.Machine.execFecWindow l s
  | .promotePeriod l => Sys2Proof.Machine.execPromotePeriod l s
  | .retrain p l v => Sys2Proof.Machine.execRetrain p l v s
  | .linkWakeSignal l => Sys2Proof.Machine.execLinkWakeSignal l s
  | .write l => Sys2Proof.Machine.execWrite l s
  | .readReq l => Sys2Proof.Machine.execReadReq l s
  | .flushAnswer l => Sys2Proof.Machine.execFlushAnswer l s
  | .readRsp l => Sys2Proof.Machine.execReadRsp l s
  | .barrier tag => Sys2Proof.Machine.execBarrier tag s
  | .barrierArrive l => Sys2Proof.Machine.execBarrierArrive l s
  | .barrierRelease l => Sys2Proof.Machine.execBarrierRelease l s
  | .barrierRootTimeout g step => Sys2Proof.Machine.execBarrierRootTimeout g step s
  | .barrierTimeout g step => Sys2Proof.Machine.execBarrierTimeout g step s
  | .ckptOfferFirst l => Sys2Proof.Machine.execCkptOfferFirst l s
  | .ckptOfferEpoch l => Sys2Proof.Machine.execCkptOfferEpoch l s
  | .ckptOfferRejoin l => Sys2Proof.Machine.execCkptOfferRejoin l s
  | .ckptOfferQuery l => Sys2Proof.Machine.execCkptOfferQuery l s
  | .ckptOfferAccept l => Sys2Proof.Machine.execCkptOfferAccept l s
  | .ckptOfferRefuse l => Sys2Proof.Machine.execCkptOfferRefuse l s
  | .ckptData l => Sys2Proof.Machine.execCkptData l s
  | .ckptCommitCommit l => Sys2Proof.Machine.execCkptCommitCommit l s
  | .ckptCommitAck l => Sys2Proof.Machine.execCkptCommitAck l s
  | .ckptCommitRecord l => Sys2Proof.Machine.execCkptCommitRecord l s
  | .ckptCommitNoRecord l => Sys2Proof.Machine.execCkptCommitNoRecord l s
  | .leaseRenew l => Sys2Proof.Machine.execLeaseRenew l s
  | .leaseAnswer l => Sys2Proof.Machine.execLeaseAnswer l s
  | .fenceFence l => Sys2Proof.Machine.execFenceFence l s
  | .fenceAck l => Sys2Proof.Machine.execFenceAck l s
  | .lrApply p => Sys2Proof.Machine.execLrApply p s
  | .lrQuarantine l => Sys2Proof.Machine.execLrQuarantine l s
  | .lrRouteDataWrite p v => Sys2Proof.Machine.execLrRouteDataWrite p v s
  | .lrHostCtrlWrite p n v => Sys2Proof.Machine.execLrHostCtrlWrite p n v s
  | .refreshDue n pc waits => Sys2Proof.Machine.execRefreshDue n pc waits s
  | .hbmTempRead n t => Sys2Proof.Machine.execHbmTempRead n t s
  | .hbmCalibration n c ok => Sys2Proof.Machine.execHbmCalibration n c ok s
  | .caParityError n k => Sys2Proof.Machine.execCaParityError n k s
  | .hbmIlvWrite p n v => Sys2Proof.Machine.execHbmIlvWrite p n v s
  | .traceIdleFlush => Sys2Proof.Machine.execTraceIdleFlush s
  | .trcFlush p => Sys2Proof.Machine.execTrcFlush p s
  | .syncPeriodic => Sys2Proof.Machine.execSyncPeriodic s
  | .stopAfterDone => Sys2Proof.Machine.execStopAfterDone s
  | .trcRecordWrite p v hits => Sys2Proof.Machine.execTrcRecordWrite p v hits s
  | .trcRdWrite p v => Sys2Proof.Machine.execTrcRdWrite p v s
  | .trcSwHiWrite p v => Sys2Proof.Machine.execTrcSwHiWrite p v s
  | .ueFirstClear p => Sys2Proof.Machine.execUeFirstClear p s
  | .mgmtCtrlWrite p v => Sys2Proof.Machine.execMgmtCtrlWrite p v s
  | .regRead src pec off => Sys2Proof.Machine.execRegRead src pec off s
  | .regWrite src pec off v => Sys2Proof.Machine.execRegWrite src pec off v s
  | .regRead64 src pec off => Sys2Proof.Machine.execRegRead64 src pec off s
  | .regWrite64 src pec off lo hi => Sys2Proof.Machine.execRegWrite64 src pec off lo hi s
  | .status src pec => Sys2Proof.Machine.execStatus src pec s
  | .temp src pec => Sys2Proof.Machine.execTemp src pec s
  | .ledgerRead src pec slot off count => Sys2Proof.Machine.execLedgerRead src pec slot off count s
  | .verdictRead src pec ix => Sys2Proof.Machine.execVerdictRead src pec ix s
  | .mgmtVerdictClear src pec ix => Sys2Proof.Machine.execMgmtVerdictClear src pec ix s
  | .imagePrefWrite src pec v => Sys2Proof.Machine.execImagePrefWrite src pec v s
  | .reboot src pec key => Sys2Proof.Machine.execReboot src pec key s
  | .flashRead src pec addr len => Sys2Proof.Machine.execFlashRead src pec addr len s
  | .flashProgram src pec addr data => Sys2Proof.Machine.execFlashProgram src pec addr data s
  | .flashErase src pec addr size => Sys2Proof.Machine.execFlashErase src pec addr size s
  | .flashStatus src pec => Sys2Proof.Machine.execFlashStatus src pec s
  | .flashCmdRead p => Sys2Proof.Machine.execFlashCmdRead p s
  | .flashCmdProgram p => Sys2Proof.Machine.execFlashCmdProgram p s
  | .flashCmdErase4k p => Sys2Proof.Machine.execFlashCmdErase4k p s
  | .flashCmdErase64k p => Sys2Proof.Machine.execFlashCmdErase64k p s
  | .flashCommandDone bad => Sys2Proof.Machine.execFlashCommandDone bad s
  | .smbStretchTimeout => Sys2Proof.Machine.execSmbStretchTimeout s
  | .smbClockLowTimeout => Sys2Proof.Machine.execSmbClockLowTimeout s
  | .setEndpointId src eid => Sys2Proof.Machine.execSetEndpointId src eid s
  | .getEndpointId src => Sys2Proof.Machine.execGetEndpointId src s
  | .getEndpointUuid src => Sys2Proof.Machine.execGetEndpointUuid src s
  | .getMctpVersionSupport src type => Sys2Proof.Machine.execGetMctpVersionSupport src type s
  | .getMessageTypeSupport src => Sys2Proof.Machine.execGetMessageTypeSupport src s
  | .getVendorDefinedMessageSupport src => Sys2Proof.Machine.execGetVendorDefinedMessageSupport src s
  | .gettid src => Sys2Proof.Machine.execGettid src s
  | .settid src tid => Sys2Proof.Machine.execSettid src tid s
  | .getpldmversion src type => Sys2Proof.Machine.execGetpldmversion src type s
  | .getpldmtypes src => Sys2Proof.Machine.execGetpldmtypes src s
  | .getpldmcommands src type => Sys2Proof.Machine.execGetpldmcommands src type s
  | .getsensorreading src id => Sys2Proof.Machine.execGetsensorreading src id s
  | .getstatesensorreadings src id => Sys2Proof.Machine.execGetstatesensorreadings src id s
  | .getpdrrepositoryinfo src => Sys2Proof.Machine.execGetpdrrepositoryinfo src s
  | .getpdr src handle => Sys2Proof.Machine.execGetpdr src handle s
  | .seteventreceiver src eid => Sys2Proof.Machine.execSeteventreceiver src eid s
  | .extest => Sys2Proof.Machine.execExtest s
  | .idcode => Sys2Proof.Machine.execIdcode s
  | .samplePreload => Sys2Proof.Machine.execSamplePreload s
  | .highz => Sys2Proof.Machine.execHighz s
  | .clamp => Sys2Proof.Machine.execClamp s
  | .extestPulse => Sys2Proof.Machine.execExtestPulse s
  | .extestTrain => Sys2Proof.Machine.execExtestTrain s
  | .bypass => Sys2Proof.Machine.execBypass s
  | .mgmtAccess wr off v => Sys2Proof.Machine.execMgmtAccess wr off v s
  | .trstNReset => Sys2Proof.Machine.execTrstNReset s
  | .gpioInputEdge n high => Sys2Proof.Machine.execGpioInputEdge n high s
  | .fleetAlertWire low => Sys2Proof.Machine.execFleetAlertWire low s
  | .registerRead p addr size => Sys2Proof.Machine.execRegisterRead p addr size s
  | .hostConfigRequest c tid => Sys2Proof.Machine.execHostConfigRequest c tid s
  | .msiXTableWrite v w x => Sys2Proof.Machine.execMsiXTableWrite v w x s
  | .hostLinkUp width rate => Sys2Proof.Machine.execHostLinkUp width rate s
  | .portRegisterBlockAccess p off size v tid => Sys2Proof.Machine.execPortRegisterBlockAccess p off size v tid s
  | .illegalBundle ue => Sys2Proof.Machine.execIllegalBundle ue s
  | .turnIllegal f c ue => Sys2Proof.Machine.execTurnIllegal f c ue s
  | .unlistedSmbusCommand code => Sys2Proof.Machine.execUnlistedSmbusCommand code s
  | .referenceClockLoss => Sys2Proof.Machine.execReferenceClockLoss s
  | .mainRailExcursion core => Sys2Proof.Machine.execMainRailExcursion core s
  | .partnerConfigRequest p flr => Sys2Proof.Machine.execPartnerConfigRequest p flr s

end Sys2Proof.Machine
end

