-- ==== Sys2Proof/Machine/Tick.lean ====
section
/-! DEFINITION. One tick of the AO timer: time, residency, and in RUN and IDLE the waits of streams, drains and chains, the times of the age
loop, the governor, IDLE and power gating, and repeated PARAMs (R68, R82, R84, R92, R255, R262, R263, R266). -/
namespace Sys2Proof.Machine

/-- One tick of wait for a task. -/
def Dev.waitTick (d : Dev) (tag : Option Nat) (cause : Option Nat) : Dev :=
  match tag, cause with
  | some t, some c => d.updTask t fun x => x.waitTick c
  | _, _ => d

/-- The first drain of an EVICT task that waits gives the task's wait. -/
def Dev.evictWait (d : Dev) (tag : Nat) : Option Nat :=
  (d.pool.drains.filter fun x => x.tag == some tag).findSome? d.drainWait

/-- Every stream, EVICT task and chain that waits does so for a tick more; the bursts of a program each add their own (R309). -/
def Dev.waitTicks (d : Dev) : Dev :=
  let d := d.flm.streams.foldl (fun e s => e.waitTick (some s.tag) (d.streamWait s)) d
  let d := (d.pool.drains.filterMap Drain.tag).eraseDups.foldl (fun e t => e.waitTick (some t) (d.evictWait t)) d
  d.chains.foldl (fun e c => e.waitTick c.tag c.waitCause) d

/-- When a wait on a failed path began. -/
def blockedSince (old : Option Nat) (failed : Bool) (now : Nat) : Option Nat :=
  if failed then some (old.getD now) else none

/-- Streams and drains note when they began to wait on a failed path (R266). -/
def Dev.blockTick (d : Dev) : Dev :=
  let now := d.gh.timer
  { d with
    flm := { d.flm with streams := d.flm.streams.map fun s =>
      { s with blocked := blockedSince s.blocked ((s.st == 2 || s.st == 3) && s.entered && (d.streamPath s).isSome) now } }
    pool := { d.pool with
      drains := d.pool.drains.map fun x => { x with blocked := blockedSince x.blocked (d.pathFailed x.dst.tier x.dst.unit) now }
      ageRun := d.pool.ageRun + 1 } }

/-- PARAM goes again every 10 µs until PARAM_ACK has come (Table 22-7). -/
def Dev.paramTick (d : Dev) : Dev :=
  (List.range 24).foldl (fun e l =>
    let x := e.link l
    if e.lstate l == 5 && !x.gotAck && decide (x.stAt < e.gh.timer) && (e.gh.timer - x.stAt) % 192 == 0 then e.paramSend l else e) d

/-- The entries of held partner reads are read again (R581). -/
def Dev.heldTick (d : Dev) : Dev := d.reads.foldl (fun e r => e.touchEntry (hIndex r.handle)) d

/-- The alert pin is let go once it has been low for 10 µs (R619). -/
def Dev.alertTick (d : Dev) : Dev := if d.get .FA_STATUS_DRIVING = 1 then d.alertDrive else d

/-- One tick of the AO timer; a LOST packet that is due is recorded in it (R561). -/
def Dev.tick (d : Dev) : Dev :=
  let e := d.timeTick.alertTick
  let e := if e.trc.lostN = 0 then e else Dev.trcEvents e.trcLost
  if e.asleep then e else e.heldTick.waitTicks.blockTick.dueTick.paramTick

end Sys2Proof.Machine
end

