-- ==== Sys2Proof/Safety.lean ====
section
/-! DEFINITION. The conditions that statements are made under: a live device, a path that reaches the registers in RUN, a sequencer or a
core that is about to run an instruction. -/
namespace Sys2Proof.Machine

/-- The same queue behind another device. -/
abbrev State.on (s : State) (d : Dev) : State := { s with dev := d }

/-- Neither R649 nor R650 leaves the device undefined, and no trip has stopped the main domains (R91). -/
abbrev State.Live (s : State) : Prop := s.dev.undef = false ∧ s.dev.pwr.tripped = false

/-- RUN, with no entry and no exit in progress. -/
abbrev Dev.InRun (d : Dev) : Prop :=
  d.get .PWR_STATE_STATE = 0 ∧ d.pwr.entry = 0 ∧ d.pwr.exiting = false ∧ d.gh.wakeAt ≠ some d.gh.timer

/-- A path reaches the registers, and the device is in RUN. -/
abbrev Dev.Reach (d : Dev) (p : Path) : Prop := d.pathUp p = true ∧ d.InRun

/-- A path reaches the registers of a device that takes writes: one without a DEVICE_FATAL (R596). -/
abbrev Dev.Writes (d : Dev) (p : Path) : Prop := d.Reach p ∧ d.get .DEV_FATAL_LEVEL ≠ 2

/-- A page of a block other than the Ditch Map. -/
abbrev PageAt (b page : Nat) : Prop := b ≠ 0 ∧ b < blkCount ∧ page < pageCount b

/-- A path reaches a page whose register writes are made at once: a frozen Host Port delays its own (R491). -/
abbrev Dev.PageReach (d : Dev) (p : Path) (b page : Nat) : Prop := d.Reach p ∧ PageAt b page ∧ (b = 74 → d.frozen 74 = false)

/-- The same of a device that takes writes. -/
abbrev Dev.PageWrites (d : Dev) (p : Path) (b page : Nat) : Prop := d.PageReach p b page ∧ d.get .DEV_FATAL_LEVEL ≠ 2

/-- No word of control memory `mem` (Table 26-3) holds an uncorrectable error. -/
abbrev Dev.EccFree (d : Dev) (mem : Nat) : Prop := (d.ecc.any fun e => e.1 == mem) = false

/-- Boot stage `n` is in progress. -/
abbrev Dev.AtStage (d : Dev) (n : Nat) : Prop := d.boot.running = true ∧ d.boot.next = n

/-- Boot stage `n` is in progress and within its budget. -/
abbrev Dev.InStage (d : Dev) (n : Nat) : Prop := d.AtStage n ∧ d.overBudget = false

/-- Task `t` is next at the Allotment engine, its descriptor is good, and `o` is its object (R189, R222, R550). -/
abbrev Dev.AllotReady (d : Dev) (t : Task) (o : Obj) (op : Nat) : Prop :=
  d.sentTask t.tag 0x30 op = some t ∧ d.frozen 4 = false ∧ d.enabled 4 = true ∧ bitsOf t.w1 32 32 = 0 ∧
    (if op = 2 ∨ op = 4 then bitsOf t.w2 48 16 = 0 else t.w2 = 0) ∧ t.w3 = 0 ∧ d.plan.homeLost = false ∧ d.obj? t.object = some o

/-- Task `t` is next at the Pool Manager and its descriptor is good (R189, R268). -/
abbrev Dev.PoolReady (d : Dev) (t : Task) (op : Nat) : Prop :=
  d.sentTask t.tag 0x31 op = some t ∧ d.frozen 5 = false ∧ d.enabled 5 = true ∧ t.badPool = false

/-- Task `t` is next at its Flume, which takes it into context `c` (R189, R268, R271). -/
abbrev Dev.StreamReady (d : Dev) (t : Task) (c op : Nat) : Prop :=
  d.sentTask t.tag 0x40 op = some t ∧ d.freeCtx t.inst = some c ∧ d.enabled (6 + t.inst) = true ∧ d.frozen (6 + t.inst) = false ∧
    t.badStream = false

/-- The Gauge House sequencer is about to run the word `w` (R98, R99, R106). -/
abbrev Dev.GhAt (d : Dev) (w : Nat) : Prop :=
  d.ghRuns = true ∧ d.ghFetch d.ghPc = w ∧
    (d.ghRom = true ∨ (4 ≤ d.ghPc ∧ d.ghPc < d.ghLen ∧ d.ecc.contains (7, d.ghPc / 2) = false))

/-- Context `c` of Flume `f` holds the program `t`, is the one whose turn it is, and none of its words is bad (R297, R581). -/
abbrev Dev.TurnNext (d : Dev) (f c : Nat) (t : Turn) : Prop :=
  d.turn? f c = some t ∧ d.turnNext f = some c ∧ (d.eccGroups 5 1024).contains (16 * f + c) = false

/-- The program `t` in context `c` of Flume `f` is about to execute the legal word `w` of opcode `opc` (R297, R298). -/
abbrev Dev.TurnAt (d : Dev) (f c opc : Nat) (t : Turn) (w : Nat) : Prop :=
  d.TurnNext f c t ∧ d.turnBad t = false ∧ d.rd (.FLM_PROG t.pc) f = w ∧ tIllegal w = false ∧ tOpc w = opc

/-- The Flume's sequencer has taken an instruction of context `c`: it serves that context, and counts (R297). -/
def Dev.turnBegun (d : Dev) (f c : Nat) : Dev := (d.turnServe f c).turnCount f

/-- Context `c` of Flume `f` waits with `x`, neither halted nor frozen (R310, R311). -/
abbrev Dev.TurnWaits (d : Dev) (f c : Nat) (t : Turn) (x : TWait) : Prop :=
  d.turn? f c = some t ∧ t.wait = x ∧ d.waitLive t = true

/-- The context's program after an instruction: `u`, at `pc`. -/
def Dev.turnTo (d : Dev) (f c : Nat) (u : Turn) (pc : Nat) : Dev := d.updTurn f c fun _ => { u with pc := pc }

/-- The context's program with nothing changed but its pc. -/
def Dev.turnPc (d : Dev) (f c pc : Nat) : Dev := d.updTurn f c fun u => { u with pc := pc }

/-- Block `b` of stream `st` and object `o` is at the head of the queue of Sluice lane `n`, which is ready, in direction `dir` (0: to
compress, 1: to expand); the stream takes its blocks. -/
abbrev Dev.LaneAt (d : Dev) (n dir : Nat) (b : LaneBlk) (st : Stream) (o : Obj) : Prop :=
  d.laneHead n = some b ∧ b.dir = dir ∧ d.laneReady n = true ∧ d.stream? (b.flume, b.ctx, b.slot) = some st ∧ st.moving = true ∧
    d.obj? b.handle = some o

/-- Message `m` of a type, with an operation of Table 23-1, is the next one of its virtual channel on lateral link `l`, for this node, and neither the Lateral Router nor its
consumer `blk` is frozen or asleep (R515). -/
abbrev Dev.MsgAt (d : Dev) (l type blk : Nat) (m : Flit) : Prop :=
  d.rxHead l (vcOf type) = some m ∧ m.type = type ∧ m.opKnown = true ∧ d.asleep = false ∧ (isTree type = true ∨ m.dst = d.lr.node) ∧
    d.frozen rtr = false ∧ d.frozen blk = false

/-- Task `t` is next at the Cistern, which takes it, and its descriptor has nothing in word 3 (R189). -/
abbrev Dev.CkReady (d : Dev) (t : Task) (op : Nat) : Prop :=
  d.sentTask t.tag 0x80 op = some t ∧ d.frozen ckBlk = false ∧ d.enabled ckBlk = true ∧ d.asleep = false ∧ t.w3 = 0 ∧
    d.plan.homeLost = false ∧ d.EccFree 0x0A

/-- A checkpoint message of a type and an operation, for the Cistern, which consumes its messages under a freeze too (R442) and whose
control words are free of errors. -/
abbrev Dev.CkMsgAt (d : Dev) (l type op : Nat) (m : Flit) : Prop :=
  d.MsgAt l type 0 m ∧ bitsOf m.msgA 0 4 = op ∧ (d.rxPop l m).EccFree 0x0A

/-- The oldest link-local flit of lateral link `l` is `x`, of a type and, where it is a control flit, of a control code. -/
abbrev Dev.LocalAt (d : Dev) (l type ctl : Nat) (x : Flit) : Prop :=
  (d.link l).rxl.head? = some x ∧ x.type = type ∧ (type = tCTL → bitsOf x.msgA 16 8 = ctl)

/-- Link `l` without its oldest link-local flit. -/
def Dev.localPop (d : Dev) (l : Nat) : Dev := d.updLink l fun y => { y with rxl := (d.link l).rxl.tail }

/-- A management command of a source reaches the block, with a packet error check that is accepted, and its binding has an endpoint ID
(R600, R601, R607). -/
abbrev Dev.MgmtUp (d : Dev) (src : MSrc) (pec : Pec) (writes : Bool) : Prop :=
  d.srcUp src = true ∧ d.bootPast 1 = true ∧ d.pecBad src pec writes = false ∧ d.eid src ≠ 0

/-- An MCTP control or PLDM request of a source reaches the block (R605, R607). -/
abbrev Dev.MctpUp (d : Dev) (src : MSrc) : Prop :=
  d.srcUp src = true ∧ src ≠ .smb ∧ d.bootPast 1 = true

/-- The execution of bundle `x` at the Headgate's pc, with what slots A and B sample (R177). -/
def Dev.runOf (d : Dev) (x : Bundle) : Run := { d := d, pc := d.get .HG_PC_PC, x := x, smp := [d.sample x.a, d.sample x.b] }

/-- Does the predicate of a slot let it execute (R174)? -/
def Dev.predOn (d : Dev) (s : Slot) : Bool := d.pReg s.qp != (s.qn == 1)

/-- The Headgate is about to run bundle `x`, which has not yet begun, and nothing raises an exception at fetch, decode or execution. -/
abbrev Dev.HgAt (d : Dev) (x : Bundle) : Prop :=
  d.canRun = true ∧ d.hg.inD = false ∧ Bundle.ofWords (d.bundleAt (d.get .HG_PC_PC)) = x ∧ (d.hg.ldv.any fun e => x.names.contains e.1) = false ∧
    d.faultD (d.get .HG_PC_PC) x = none ∧ (d.runOf x).faultX = none

/-- Bundles with one instruction: the word in slot A, B or C, the other slots NOP. -/
def Bundle.onlyA (w : Nat) : Bundle := { a := ⟨w, 0⟩, b := ⟨0, 0⟩, c := ⟨0, 0⟩, hdr := 0, w1 := 0, w2 := 0, w3 := 0 }
def Bundle.onlyB (w : Nat) : Bundle := { a := ⟨0, 0⟩, b := ⟨w, 0⟩, c := ⟨0, 0⟩, hdr := 0, w1 := 0, w2 := 0, w3 := 0 }
def Bundle.onlyC (w c1 : Nat) : Bundle := { a := ⟨0, 0⟩, b := ⟨0, 0⟩, c := ⟨w, c1⟩, hdr := 0, w1 := 0, w2 := 0, w3 := 0 }

/-- A bundle whose only instruction is the task of slot D. -/
def Bundle.onlyD (hdr w1 w2 w3 : Nat) : Bundle :=
  { a := ⟨0, 0⟩, b := ⟨0, 0⟩, c := ⟨0, 0⟩, hdr := hdr, w1 := w1, w2 := w2, w3 := w3 }

/-- One bundle more, and the next pc (R179). -/
def Dev.hgCount (d : Dev) (pc : Nat) : Dev := (d.add64 .HG_BUNDLES_LO 1).set .HG_PC_PC pc

/-- The core after a bundle has committed: counted, at its next pc, and halted where a STEP or a HALT_REQ asked for it (R164). A SLEEP in
it still waits for its answer. -/
def Dev.hgDone (d : Dev) (pc : Nat) : Dev := if (d.hgCount pc).hg.sleep.isSome then d.hgCount pc else (d.hgCount pc).bundleEnd

end Sys2Proof.Machine
end

