-- ==== Sys2Proof/Certificates/Slice0/Obligations.lean ====
section
/-! DEFINITION. The statements for the provers.

A completion statement gives the whole next state. Where that state holds a value, an order or a condition that the spec leaves open, it is the
model's choice in the entry of notes/assumptions that NOTES.md names for it; all of them are `derived`, and none rests on a free value. -/
open Sys2Proof Sys2Proof.Machine

/-- A read and a write that reach the BAR in RUN are served at once: the read is answered with its value, an offset that no page or window covers is
counted and recorded in the Host Port page (R48, R64). A DEVICE_FATAL device turns writes away but for the boot operations' (R596; what it
takes is the model's choice, notes/assumptions/133.md). -/
def Obligations.BarAccessesComplete : Prop :=
  ∀ (s : State) (p : Path) (a size : Nat), s.Live → s.dev.Reach p → a < 0x4000000 →
    exec (.registerRead p a size) s =
      .next (s.on ((s.dev.busRead p a size).2.emit (.readData p a (s.dev.busRead p a size).1))) ∧
    (∀ v, exec (.registerWrite p a size v) s = .next (s.on (s.dev.busWrite p a size v))) ∧
    (∀ v, 0x10000 ≤ a → targetOf a ≠ .hole → s.dev.targetShut (targetOf a) = true → exec (.registerWrite p a size v) s = .next s) ∧
    (targetOf a = .hole → ∀ v : Word, exec (.unmappedAccess p a (some v)) s =
      .next (s.on (((s.dev.bump .UNMAPPED_COUNT).err 74 0 0x0005 a v.toNat).raise 74 0 5))) ∧
    (targetOf a = .hole → exec (.unmappedAccess p a none) s =
      .next (s.on ((((s.dev.bump .UNMAPPED_COUNT).err 74 0 0x0005 a 0).raise 74 0 5).emit (.readData p a 0))))

/-- The accesses of the common page header and of 64-bit pairs: masks, pending bits, the error capture, the mirror's data register, the latch and
the staged word (R51 to R58, R62). A write of a loop's bounds or pin with which an update coincides marks that update (R23). -/
def Obligations.HeaderAccessesComplete : Prop :=
  ∀ (s : State) (p : Path) (b page : Nat), s.Live → s.dev.PageReach p b page →
    (s.dev.get .DEV_FATAL_LEVEL ≠ 2 → ∀ v : Word, exec (.irqMaskWrite p b page v) s = .next (s.on ((s.dev.hwr b page offMask v.toNat).resend b page))) ∧
    (s.dev.get .DEV_FATAL_LEVEL ≠ 2 → ∀ v : Word, exec (.irqPendClear p b page v) s = .next (s.on ((s.dev.hwr b page offPend
      (s.dev.hrd b page offPend - (s.dev.hrd b page offPend &&& v.toNat))).resend b page))) ∧
    (s.dev.get .DEV_FATAL_LEVEL ≠ 2 → ∀ v : Word, exec (.irqForce p b page v) s = .next (s.on ((s.dev.hwr b page offPend
      (s.dev.hrd b page offPend ||| v.toNat % 2 ^ eventCount (blkClass b) page)).resend b page))) ∧
    (s.dev.get .DEV_FATAL_LEVEL ≠ 2 → exec (.errCodeClear p b page) s =
      .next (s.on (((s.dev.hwr b page offErr 0).hwr b page offInfoLo 0).hwr b page offInfoHi 0))) ∧
    exec (.stateDataRead p b page) s = .next (s.on ((s.dev.stateData p b page).2.emit
      (.readData p (regAddr b page 0x3C) (s.dev.stateData p b page).1))) ∧
    (∀ off, off < 4096 → off % 4 = 0 → wideOf b page off = 1 →
      let lo := s.dev.regVal p b page off
      let hi := lo.2.regVal p b page (off + 4)
      exec (.latchReadLow p b page off) s =
        .next (s.on ((hi.2.setLatch p b page hi.1).emit (.readData p (regAddr b page off) lo.1)))) ∧
    (s.dev.get .DEV_FATAL_LEVEL ≠ 2 → ∀ off (v : Word) r, off < 4096 → off % 4 = 0 → wideOf b page off = 2 → s.dev.specialWrite p b page off v.toNat = none →
      rowAt (blkClass b) page off = some r → r.readOnly = false →
      exec (.highWordWrite p b page off v) s = .next (s.on (((s.dev.hwr b page (off - 4)
        (s.dev.stagedLow p b page (off - 4))).hwr b page off v.toNat).unstage p b page (off - 4)))) ∧
    (s.dev.get .DEV_FATAL_LEVEL ≠ 2 → ∀ off (v : Word), off < 4096 → off % 4 = 0 →
      let e := ({ s.dev with errSeen := 0 } : Dev).regWriteCore p b page off v.toNat
      (boundsAt b page off = true →
        exec (.loopBoundsWrite p b page off v false) s = .next (s.on (s.dev.regWriteCore p b page off v.toNat))) ∧
      (pinAt b page off = true →
        exec (.loopPinWrite p b page off v false) s = .next (s.on (s.dev.regWriteCore p b page off v.toNat))) ∧
      (e.errSeen = 0 → blkClass b ≠ 0xb0 →
        (boundsAt b page off = true →
          exec (.loopBoundsWrite p b page off v true) s = .next (s.on { e with tied := e.tied ++ [s.dev.loopAt b page off] })) ∧
        (pinAt b page off = true →
          exec (.loopPinWrite p b page off v true) s = .next (s.on { e with tied := e.tied ++ [s.dev.loopAt b page off] }))))

/-- The capture of the first uncorrectable error is released, and the aliases of BAR-4 act as their registers do (R472, R580). -/
def Obligations.CaptureAndAliasesComplete : Prop :=
  ∀ (s : State) (p : Path), s.Live → s.dev.InRun → s.dev.get .DEV_FATAL_LEVEL ≠ 2 →
    (s.dev.pathUp p = true → exec (.ueFirstClear p) s =
      .next (s.on (s.dev.wr .UE_FIRST_ADDR (putBits (s.dev.rd .UE_FIRST_ADDR) 31 1 0)))) ∧
    (s.dev.hostUp = true → ∀ v : Word,
      exec (.bar4AliasWrite 0x10000 v) s = .next (s.on (s.dev.evSet 36)) ∧
      exec (.bar4AliasWrite 0x10004 v) s = .next (s.on (s.dev.evpSet 12)) ∧
      ∀ n, n < 8 → exec (.bar4AliasWrite (0x10100 + 4 * n) v) s = .next (s.on (s.dev.ringConsWrite .host n v.toNat)))

/-- BLK_CTRL and GLOBAL_CTRL: freeze, quiesce, enable and reset of a block, and what is reached later (R59 to R63, R663, R664). A
PRESENT_DISABLED block keeps its ENABLE (R44). -/
def Obligations.BlockControlCompletes : Prop :=
  ∀ (s : State) (p : Path) (b page : Nat), s.Live →
    (s.dev.Writes p → PageAt b page →
      exec (.blockReset p b page) s = .next (s.on (s.dev.blockReset b)) ∧
      (s.dev.ctrlBit b 2 = false →
        exec (.blkFreeze p b page) s =
          .next (s.on (((s.dev.blkFreeze b true).blkQuiesce b (s.dev.ctrlBit b 1)).blkEnable b (s.dev.ctrlBit b 0))) ∧
        exec (.thaw p b page) s =
          .next (s.on (((s.dev.blkFreeze b false).blkQuiesce b (s.dev.ctrlBit b 1)).blkEnable b (s.dev.ctrlBit b 0))) ∧
        exec (.blkQuiesce p b page) s =
          .next (s.on (((s.dev.blkFreeze b (s.dev.ctrlBit b 3)).blkQuiesce b true).blkEnable b (s.dev.ctrlBit b 0))) ∧
        exec (.blkEnable p b page) s =
          .next (s.on (((s.dev.blkFreeze b (s.dev.ctrlBit b 3)).blkQuiesce b (s.dev.ctrlBit b 1)).blkEnable b true)))) ∧
    (s.dev.Writes p → exec (.globalFreezeSet p) s = .next (s.on (s.dev.globalFreeze true)) ∧
      exec (.globalFreezeClear p) s = .next (s.on (s.dev.globalFreeze false))) ∧
    (PageAt b page → s.dev.frozen b = true → s.dev.statBit b 2 = false → s.dev.atBoundary b = true →
      exec (.frozenReached b) s = .next (s.on (s.dev.frozenReached b))) ∧
    (b < blkCount → s.dev.ctrlBit b 1 = true → s.dev.statBit b 1 = false → s.dev.blockWork b = false →
      exec (.quiescedReached b) s = .next (s.on (s.dev.setStat b 1 true))) ∧
    (b < blkCount → s.dev.statBit b 3 = true → (∀ x ∈ s.dev.flm.streams, x.flume + 6 ≠ b) → (∀ t ∈ s.dev.flm.turns, t.flume + 6 = b → t.done = true) →
      exec (.resetComplete b) s = .next (s.on (s.dev.setStat b 3 false))) ∧
    (s.dev.get .GLOBAL_CTRL_FREEZE = 1 → s.dev.get .GLOBAL_STATUS_ALL_FROZEN = 0 →
      ((List.range blkCount).all fun b => freezeExempt b || !s.dev.present b || s.dev.isFrozen b) = true →
      exec .allFrozen s = .next (s.on ((s.dev.set .GLOBAL_STATUS_ALL_FROZEN 1).raise 109 0 0)))

/-- Power-up and the resets: each answers the state it leaves, in every state (R93, R632, R646, R649). -/
def Obligations.ResetsComplete : Prop :=
  ∀ (s : State) (straps : Nat),
    exec (.aoPowerUp straps) s = .next (s.on (({ Dev.reset with
      free := s.dev.free, lostEpoch := { s.dev.lostEpoch with resets := s.dev.lostEpoch.resets + 1 }, out := s.dev.out
      mem := s.dev.mem.filter fun e => resetKeepsMem false e.1
      gh := { Gh.reset with gpio := s.dev.gh.gpio }
      pins := { s.dev.pins with expPerst := 0, devReset := true } }).strap straps)) ∧
    (s.dev.pwr.tripped = true → exec .devResetAssert s =
      .next (s.on { s.dev with pins := { s.dev.pins with devReset := true } })) ∧
    (s.dev.pwr.tripped = false → exec .devResetAssert s =
      .next (s.on { s.dev.bootAbort.restart true with
        pins := { (s.dev.bootAbort.restart true).pins with devReset := true }
        boot := { (s.dev.bootAbort.restart true).boot with bad := [], again := 0 } })) ∧
    (s.Live → s.dev.InRun → exec (.aoDomainReset straps) s =
      .next (s.on (({ s.dev with
        regs := s.dev.regs.filter fun e => !(blkClass (e.1 / 32768) == 0x10 || resetKeeps true e.1)
        mem := s.dev.mem.filter fun e => e.1 / 2 ^ 64 != spLedger
        gh := { Gh.reset with gpio := s.dev.gh.gpio }
        boot := { s.dev.boot with why := 1, region := 1, copied := 0 } }).strap straps).alertDrive)) ∧
    (∀ core, exec (.mainRailExcursion core) s = .next (s.on { s.dev with
      undef := s.dev.undef || !(s.dev.pins.devReset || s.dev.pwr.tripped)
      boot := { s.dev.boot with why := if core && s.dev.boot.why != 1 then 2 else s.dev.boot.why } })) ∧
    exec .referenceClockLoss s = .next (s.on { s.dev with undef := s.dev.undef || !s.dev.pins.devReset })

/-- The boot begins at the release of DEV_RESET_N or with a due reboot, and stages 0 to 6 pass when their tests do (R117 to R123). -/
def Obligations.EarlyStagesComplete : Prop :=
  ∀ (s : State), s.Live →
    (s.dev.boot.again = 0 → s.dev.pins.devReset = true → exec (.bootStart true) s =
      .next (s.on (({ s.dev with pins := { s.dev.pins with devReset := false, testEn := true } }).bootBegin s.dev.boot.why 1))) ∧
    (s.dev.boot.again = 0 → s.dev.pins.devReset = true → exec (.bootStart false) s =
      .next (s.on { s.dev with pins := { s.dev.pins with devReset := false, testEn := false }, boot := { s.dev.boot with held := true } })) ∧
    (s.dev.boot.again = 4 → ∀ hi, exec (.bootStart hi) s = .next (s.on ((s.dev.restart false).bootBegin 4 1))) ∧
    (s.dev.InStage 0 → exec .stageAoStart s = .next (s.on (s.dev.devicePass 0))) ∧
    (s.dev.InStage 1 → ∀ absent, exec (.stageFuses 0 absent) s = .next (s.on ((({ s.dev with map := { s.dev.map with
      ents := absent.foldl (fun m b => Sparse.put (fun _ => Ent.present) m b { status := 0, cause := 0, origin := 0, stage := 0xFF })
        s.dev.map.ents } }).set .SVN_STATUS_FUSE_SVN_MIN (Config.fusedSvn ())).devicePass 1))) ∧
    (s.dev.InStage 1 → ∀ absent, exec (.stageFuses 0x0111 absent) s = .next (s.on (s.dev.fuseFail 0x0111))) ∧
    (s.dev.InStage 2 →
      let d := s.dev.imageChoose
      let e := d.slotOpen.stageImage (d.get .BOOT_STATUS_IMAGE)
      (e.imageCheck = none → exec (.stageImageVerify true) s = .next (s.on (e.imageUse.devicePass 2))) ∧
      (∀ c, e.imageCheck = some c → exec (.stageImageVerify true) s = .next (s.on (e.imageFail c))) ∧
      exec (.stageImageVerify false) s = .next (s.on ((d.slotOpen.stageRec 2 0 1 0x0118 0).bootHalt 0x0118))) ∧
    (s.dev.InStage 3 → s.dev.pins.hostPerst = true → exec (.stagePllLock true) s =
      .next (s.on ((({ (s.dev.set .GOV_APPLIED_MHZ (s.dev.bootParam 3 0 0)).set .GOV_APPLIED_MV 750 with
        trc := { s.dev.trc with loaded := true } }).hostLink 1).devicePass 3))) ∧
    (s.dev.InStage 3 → exec (.stagePllLock false) s = .next (s.on (s.dev.deviceFail 3 0x011A))) ∧
    (s.dev.InStage 4 → ∀ trained pcs chs,
      let out := fun n => if bitsOf trained n 1 = 0 then BootOut.fail 0x011B
        else if popc (stackMask (pcs.getD n 0) (chs.getD n 0)) < 16 then .fail 0x011C else .pass
      let d := (List.range 4).foldl (fun e n => e.stackMasked n) s.dev
      let d := (List.range 4).foldl (fun e n =>
        if e.attempted (n, (1 + n, hbmb n)) then e.stackEnd n (pcs.getD n 0) (chs.getD n 0) (out n) else e) d
      exec (.stageHbmBringup trained pcs chs) s = .next (s.on ((d.setCapacity 1).unitsEnd 4 out fun n =>
        if out n == .pass then 2 ^ 32 - 1 - stackMask (pcs.getD n 0) (chs.getD n 0) else 0))) ∧
    (s.dev.InStage 5 → ∀ flumes,
      let d : Dev := { s.dev with
        mem := s.dev.mem.filter fun e => !(e.1 / 2 ^ 64 == spImem || e.1 / 2 ^ 64 == spDmem), ecc := [], keys := [], objs := [] }
      exec (.stageSramInit true flumes) s =
        .next (s.on (((d.setVerdict 5 (d.verdict 5 - vFails (d.verdict 5))).wr64 (.CAPACITY_T_LO 0) 100663296).unitsEnd 5
          (fun i => if bitsOf flumes i 1 = 1 then .pass else .fail 0x011D) (fun _ => 0) (d.verdict 5))) ∧
      exec (.stageSramInit false flumes) s = .next (s.on (d.deviceFail 5 0x011D))) ∧
    (s.dev.InStage 6 → ∀ o len w, s.dev.section_ 2 = some (o, len) → s.dev.section_ 3 = some w → len ≤ 0x40000 →
      (((s.dev.fwStore o len).wr .HG_IMEM_LOCK 1).wakeLoad).get .GH_CTRL_PROG_RUN ≠ 0 →
      exec (.stageFwLoad true) s = .next (s.on ((((s.dev.fwStore o len).wr .HG_IMEM_LOCK 1).wakeLoad).devicePass 6)))

/-- Stages 7 to 13 and the overrun of a stage's budget (R117, R123, R484, R504, R633, R40, R138). -/
def Obligations.LateStagesComplete : Prop :=
  ∀ (s : State), s.Live →
    (s.dev.InStage 7 → s.dev.hostUp = true → s.dev.get .HOST_LINK_RATE ≤ s.dev.bootParam 7 39 0 →
      s.dev.get .HOST_LINK_WIDTH ≤ s.dev.bootParam 7 39 1 →
      ∀ fail, exec (.stageHostLink fail) s = .next (s.on ((s.dev.setPath 3 0 s.dev.t3Bad).devicePass 7))) ∧
    (s.dev.AtStage 7 → s.dev.hostUp = false → s.dev.pins.hostPerst = false → s.dev.overBudget = true →
      ∀ fail, exec (.stageHostLink fail) s = .next (s.on ((s.dev.setPath 3 0 s.dev.t3Bad).devicePass 7 4))) ∧
    (s.dev.InStage 8 → ∀ outs,
      let up := fun p => s.dev.portUp p
      let d := (List.range 8).foldl (fun e p => if up p || !e.present (66 + p) then e
        else e.portTrained p (if outs.getD p .noPeer == .noPeer then 2 else 1) 0 0 0) s.dev
      let d := (List.range 8).foldl (fun e p =>
        if up p || e.get .PORT_STATUS_LINK p != 1 then e else e.set .PORT_STATUS_LINK 0 p) d
      exec (.stagePartnerPorts outs) s = .next (s.on (d.unitsEnd 8
        (fun p => match trainOut (up p) (outs.getD p .noPeer) with
          | .fail _ => BootOut.fail 0x0120
          | o => o) fun _ => 0))) ∧
    (s.dev.InStage 9 → ∀ outs mib,
      let out := fun e => if s.dev.get .EXP_STATUS_STATE e == 2 then (match outs.getD e .pass with
            | .fail _ => BootOut.fail 0x0121
            | _ => if mib.getD e 0 = 0 then .fail 0x0121 else .pass)
          else match trainOut false (outs.getD e .noPeer) with
            | .fail c => .fail (if c = 0x0121 then 0x0121 else 0x0120)
            | o => o
      let d := (List.range 4).foldl (fun a e =>
        if a.attempted (e, (48 + e, 75 + e)) then a.expEnd e (mib.getD e 0) (out e)
        else if a.present (75 + e) then a.expLink e 5 else a) s.dev
      exec (.stageExpanderPorts outs mib) s = .next (s.on ((d.unitsEnd 9 out fun _ => 0).setCapacity 2))) ∧
    (s.dev.AtStage 10 → (∀ u ∈ (stageUnits 10).filter s.dev.attempted, s.dev.lstate u.1 = 6 ∨ s.dev.lstate u.1 = 8) →
      exec .stageLateralLinks s = .next (s.on (s.dev.unitsEnd 10 s.dev.linkOut fun _ => 0))) ∧
    (s.dev.InStage 11 → ∀ tiles lanes, exec (.stageSelftest tiles lanes) s = .next (s.on (s.dev.unitsEnd 11
      (fun i => if bitsOf (tiles % 65536 + lanes * 65536) i 1 = 1 then .pass else .fail 0x0122) fun _ => 0))) ∧
    (s.dev.InStage 12 → exec (.stageMapPublish true) s = .next (s.on (s.dev.mapPublish.devicePass 12)) ∧
      exec (.stageMapPublish false) s = .next (s.on (s.dev.deviceFail 12 0x0123))) ∧
    (s.dev.InStage 13 →
      let d := s.dev.stageRec 13 0 0 0 1
      let t := d.bootTime
      let d := (d.wr .BOOT_READY_TIME t).set .BOOT_STATUS_RESULT 1
      let d := d.slotWr d.curSlot 0x18 t
      let d := (d.slotSet 16 8 13).slotSet 12 4 1
      exec .stageReady s = .next (s.on ((({ d with boot := { d.boot with running := false, next := 14 } }.raise 2 0 0).sensorLevel
        0x31 1).ledgerCopy))) ∧
    (s.dev.AtStage 3 → s.dev.overBudget = true → exec .stageTimeout s = .next (s.on (s.dev.deviceFail 3 0x0110))) ∧
    (s.dev.AtStage 1 → s.dev.overBudget = true → exec .stageTimeout s = .next (s.on (s.dev.fuseFail 0x0110))) ∧
    (s.dev.AtStage 11 → s.dev.overBudget = true → exec .stageTimeout s =
      .next (s.on (s.dev.unitsEnd 11 (fun i => s.dev.lateOut 11 i) (fun _ => 0) 0 0x0110)))

/-- The ledger's copies, the verdict clear, the reboot and the image preference (R131, R138, R139). -/
def Obligations.BootOperationsComplete : Prop :=
  ∀ (s : State) (p : Path) (v : Word), s.Live →
    (s.dev.get .LEDGER_FLASH_COPY_PENDING ≠ 0 →
      let r := 1 - s.dev.boot.region
      let seq := (s.dev.boot.copied + 1) % 2 ^ 32
      let d := (s.dev.set .LEDGER_FLASH_COPY_PENDING 0).wbs spFlash (0x10000 * (r + 1)) (List.replicate 0x1F54 0xFF)
      let e := (d.wbs spFlash (0x10000 * (r + 1)) (d.copyBytes seq)).set .LEDGER_FLASH_COPY_FAIL 0
      exec (.ledgerCopyDone true) s =
        .next (s.on ({ e with boot := { e.boot with region := r, copied := seq } }.set .LEDGER_FLASH_COPY_SEQ seq)) ∧
      exec (.ledgerCopyDone false) s = .next (s.on ((d.set .LEDGER_FLASH_COPY_FAIL 1).raise 2 0 4))) ∧
    (s.dev.Reach p →
      (s.dev.bootBusy = true → exec (.verdictClear p v) s = .next (s.on (s.dev.errWr p 2 0 0x98 0x012B v.toNat))) ∧
      (s.dev.bootBusy = false → bitsOf v.toNat 31 1 = 1 →
        exec (.verdictClear p v) s = .next (s.on (s.dev.verdictClear none))) ∧
      (s.dev.bootBusy = false → bitsOf v.toNat 31 1 ≠ 1 → 101 ≤ bitsOf v.toNat 0 7 →
        exec (.verdictClear p v) s = .next (s.on (s.dev.errWr p 2 0 0x98 0x012A v.toNat))) ∧
      (s.dev.bootBusy = false → bitsOf v.toNat 31 1 ≠ 1 → bitsOf v.toNat 0 7 < 101 →
        exec (.verdictClear p v) s =
          .next (s.on (((s.dev.setVerdict (bitsOf v.toNat 0 7) 0).ledgerEvent 5 (bitsOf v.toNat 0 7)).ledgerCopy))) ∧
      (v.toNat ≠ 0xB007 → exec (.bootReboot p v) s = .next (s.on (s.dev.errWr p 2 0 0x9C 0x012C v.toNat))) ∧
      (v.toNat = 0xB007 → s.dev.bootBusy = true →
        exec (.bootReboot p v) s = .next (s.on (s.dev.errWr p 2 0 0x9C 0x012B v.toNat))) ∧
      (v.toNat = 0xB007 → s.dev.bootBusy = false →
        exec (.bootReboot p v) s = .next (s.on { s.dev.bootAbort with boot := { s.dev.bootAbort.boot with again := 4 } })) ∧
      exec (.imagePref p v) s = .next (s.on ((s.dev.set .IMAGE_PREF_PREF (v.toNat % 2)).ledgerCopy)))

/-- Requests for DOZE and HOLD and their cancel: turned into the entry, the pending request or the result that R69 to R73 give. -/
def Obligations.PowerRequestsComplete : Prop :=
  ∀ (s : State) (p : Path), s.Live → s.dev.Writes p →
    (∀ t c, t = 2 ∧ c = Instr.pwrReqDoze p ∨ t = 3 ∧ c = Instr.pwrReqHold p →
      let w := s.dev.rd64 .PWR_WAKE_AT_LO
      let r : PwrReq := { target := t, wake := w, demoted := false }
      (s.dev.permits t = false → exec c s = .next (s.on (s.dev.reqDone 5 0 0))) ∧
      (s.dev.permits t = true → w ≤ s.dev.gh.timer → exec c s = .next (s.on (s.dev.reqDone 6 0 0))) ∧
      (s.dev.permits t = true → s.dev.gh.timer < w → s.dev.pwr.pend = none → s.dev.pwr.cur = none → s.dev.tooShort t w = false →
        s.dev.blockers ≠ 0 → exec c s = .next (s.on (s.dev.pwrPend r t))) ∧
      (s.dev.permits t = true → s.dev.gh.timer < w → s.dev.pwr.pend = none → s.dev.pwr.cur = none → s.dev.tooShort t w = false →
        s.dev.blockers = 0 → exec c s = .next (s.on (s.dev.pwrEnter r))) ∧
      (s.dev.permits t = true → s.dev.gh.timer < w → ∀ q, s.dev.pwr.pend = some q → s.dev.pwr.exiting = false → exec c s =
        .next (s.on (s.dev.pwrPend { target := min q.target t, wake := min q.wake w, demoted := q.demoted } t)))) ∧
    exec (.pwrReqCancel p) s =
      .next (s.on (({ s.dev with pwr := { s.dev.pwr with pend := none } }).reqDone 8 0 0))

/-- A pending request is entered when its last blocker clears, demoted or dropped when its wake time has come too close, and HOLD entry goes on
when the drain is done (R70, R71, R74). -/
def Obligations.PendingRequestsComplete : Prop :=
  ∀ (s : State), s.Live →
    (∀ r, s.dev.pwr.pend = some r →
      (s.dev.canDemote r = true → exec .pendingRequestDemote s =
        .next (s.on { s.dev with pwr := { s.dev.pwr with pend := some { r with target := 2, demoted := true } } })) ∧
      (s.dev.mustDrop r = true → exec .pendingRequestDrop s =
        .next (s.on (({ s.dev with pwr := { s.dev.pwr with pend := none } }).reqDone 4
          (lowestCause ({ s.dev with pwr := { s.dev.pwr with pend := none } } : Dev).blockers) (s.dev.get .PWR_STATE_STATE)))) ∧
      (s.dev.blockers = 0 → s.dev.permits r.target = true → s.dev.tooShort r.target r.wake = false →
        exec .pendingRequestEnter s = .next (s.on (s.dev.pwrEnter r))) ∧
      (s.dev.blockers = 0 → s.dev.permits r.target = true → s.dev.canDemote r = true →
        exec .pendingRequestEnter s = .next (s.on (s.dev.dozeEnter { r with target := 2, demoted := true })))) ∧
    (s.dev.pwr.entry = 1 → s.dev.hg.stall = none → s.dev.hg.inD = false → s.dev.hg.ldv = [] → s.dev.ckptInFlight = false →
      (s.dev.pool.drains.any Drain.keep) = false →
      (s.dev.t0Waits = true → ∀ bad, exec (.holdDrainDone bad) s = .next (s.on s.dev.t0Drain)) ∧
      (s.dev.t0Waits = false → ∀ bad,
        let d := s.dev.trcHold.keyHold.hgSave
        exec (.holdDrainDone bad) s = .next (s.on (({ d.set .HG_STATE_STATE 6 with
          pwr := { d.pwr with entry := 5, hgWas := d.get .HG_STATE_STATE }
          gh := { d.gh with keyBad := bad, enterAt := some d.gh.timer } }.ghJump 1).set .GH_STATUS_SEQ_POS 0))))

/-- IDLE, the first timer channel, the end of a DOZE exit, power gating, the VID code and the junction below the trip (R68, R82, R90, R103,
R636, R666). -/
def Obligations.PowerEventsComplete : Prop :=
  ∀ (s : State),
    (s.Live → s.dev.InRun → s.dev.permits 1 = true → s.dev.get .HG_STATE_STATE ≠ 2 → s.dev.activeWork = false →
      3 * s.dev.get .IDLE_ENTRY_DELAY_CYCLES ≤ 250 * s.dev.due.quiet →
      exec .idleEntry s = .next (s.on ((s.dev.setState3 1).tracePower 0 1 0))) ∧
    (s.Live → s.dev.bit .TC_ARMED 0 = true → s.dev.rd64 (.TC_CMP_LO 0) ≤ s.dev.gh.timer →
      exec .tc0Fire s = .next (s.on (((s.dev.evpSet 0).setBit .TC_ARMED 0 false).wake 1))) ∧
    (s.Live → s.dev.pwr.exiting = true → s.dev.get .PWR_STATE_STATE = 2 →
      exec .dozeExitComplete s = .next (s.on ((s.dev.hbmAll 3 2).runReached))) ∧
    (s.Live → ∀ b, (38 ≤ b ∧ b < 46 ∧ s.dev.get .GATE_CTL_SLUICE_PG ≠ 0) ∨ (47 ≤ b ∧ b < 63 ∧ s.dev.get .GATE_CTL_SIPHON_PG ≠ 0) →
      s.dev.asleep = false → s.dev.unitIdle b = true → b ∉ s.dev.pwr.gated →
      Sparse.get (fun _ => 0) s.dev.due.busy b + 1920 ≤ s.dev.gh.timer →
      exec (.powerGate b) s = .next (s.on { s.dev with pwr := { s.dev.pwr with gated := s.dev.pwr.gated ++ [b] } })) ∧
    (s.Live → s.dev.pwr.vid ≠ s.dev.pwr.vidTarget → s.dev.pwr.stepped + 10 ≤ s.dev.gh.timer →
      exec .vidStep s = .next (s.on { s.dev with pwr := { s.dev.pwr with
        vid := if s.dev.pwr.vid < s.dev.pwr.vidTarget then s.dev.pwr.vid + 1 else s.dev.pwr.vid - 1
        stepped := s.dev.gh.timer } })) ∧
    (s.Live → s.dev.pwr.vid = s.dev.pwr.vidTarget → ∀ mhz mv, s.dev.pwr.ask = some (mhz, mv) → s.dev.pwr.stepped + 96 ≤ s.dev.gh.timer →
      exec .vidStep s = .next (s.on (s.dev.govSet mhz mv))) ∧
    (s.Live → ∀ (tj : Int) sensor, 0 ≤ s.dev.pwr.tj → 0 ≤ tj → s.dev.pwr.tj < signed 16 (s.dev.get .THROTTLE_THRESH_OFF) →
      tj < signed 16 (s.dev.get .THROTTLE_THRESH_ON) → tj ≤ 420 → tj < signed 16 (s.dev.get .GH_TJ_ALARM_TJ) →
      tj ≤ signed 16 (s.dev.get .TJ_PEAK_TJ) → exec (.tjSample tj sensor) s =
        .next (s.on (((({ s.dev with pwr := { s.dev.pwr with tj := tj } }).set .TJ_NOW_TJ (unsigned 16 tj)).set .TJ_NOW_SENSOR
          sensor).sensorLevel 1 0)))

/-- The Gauge House's register, flag and immediate instructions: what each writes, and the pc one further (Table 5-2, R97). -/
def Obligations.GaugeHouseDataInstructions : Prop :=
  ∀ (s : State) (w : Nat), s.dev.undef = false → s.dev.GhAt w →
    (w = 0 → exec .ghNop s = .next (s.on s.dev.ghNext)) ∧
    (w / 8 = 0xE0 → exec .ghTemp s = .next (s.on (s.dev.setK (w % 8) (unsigned 32 s.dev.pwr.tj)).ghNext)) ∧
    (w / 8 = 0x100 → exec .gpin s = .next (s.on (s.dev.setK (w % 8) (s.dev.gh.gpio % 256)).ghNext)) ∧
    (w / 4096 = 1 → exec .ldi s = .next (s.on (s.dev.setK (bitsOf w 9 3) (w % 512)).ghNext)) ∧
    (w / 4096 = 2 → w % 8 ≠ 7 →
      let r := ghAlu (w % 8) (s.dev.kk (bitsOf w 6 3)) (s.dev.kk (bitsOf w 3 3))
      exec .ghAlu s = .next (s.on ((s.dev.setK (bitsOf w 9 3) r.1).ghFlags r).ghNext)) ∧
    (w / 4096 = 2 → w % 8 = 7 →
      exec .ghAlu s = .next (s.on (s.dev.ghFlags (ghAlu 7 (s.dev.kk (bitsOf w 6 3)) (s.dev.kk (bitsOf w 3 3)))).ghNext)) ∧
    (w / 4096 = 3 →
      let r := ghAlu 0 (s.dev.kk (bitsOf w 9 3)) (unsigned 32 (signed 9 (w % 512)))
      exec .ghAddi s = .next (s.on ((s.dev.setK (bitsOf w 9 3) r.1).ghFlags r).ghNext)) ∧
    (w / 4096 = 4 → exec .ghCmpi s = .next (s.on (s.dev.ghFlags (ghAlu 7 (s.dev.kk (bitsOf w 9 3)) (w % 512))).ghNext)) ∧
    (w / 4096 = 7 → s.dev.ghRom = true ∨ s.dev.ecc.contains (7, w % 512) = false →
      exec .ldc s = .next (s.on (s.dev.setK (bitsOf w 9 3)
        (s.dev.ghFetch (2 * (w % 512)) + 65536 * s.dev.ghFetch (2 * (w % 512) + 1))).ghNext)) ∧
    (ghScr 0 w = true → exec .ghLd s = .next (s.on (s.dev.setK (bitsOf w 9 3) (s.dev.rd (.SCRATCH (w % 32)))).ghNext)) ∧
    (ghScr 1 w = true → exec .ghSt s = .next (s.on (s.dev.wr (.SCRATCH (w % 32)) (s.dev.kk (bitsOf w 9 3))).ghNext)) ∧
    (w / 4096 = 0xA → exec .btst s =
      .next (s.on (s.dev.setZ (bitsOf (s.dev.kk (bitsOf w 9 3)) (w % 32) 1 == 0)).ghNext))

/-- Its control instructions, events and timers: where the pc goes, what waits, which channel is armed (Table 5-2, R97 to R99, R103, R104). -/
def Obligations.GaugeHouseControlInstructions : Prop :=
  ∀ (s : State) (w : Nat), s.dev.undef = false → s.dev.GhAt w →
    (w = 0x100 → exec .ghStop s = .next (s.on (({ s.dev with gh := { s.dev.gh with stack := [] } }).ghJump 0))) ∧
    (w = 0x200 → ∀ a t, s.dev.gh.stack = a :: t →
      exec .ghRet s = .next (s.on (({ s.dev with gh := { s.dev.gh with stack := t } }).ghGoto a))) ∧
    (w = 0x200 → s.dev.gh.stack = [] → exec .ghRet s = .next (s.on (s.dev.ghFault 0x0102))) ∧
    (w / 4096 = 6 → s.dev.gh.stack.length < 4 → exec .ghCall s = .next (s.on (({ s.dev with
      gh := { s.dev.gh with stack := (s.dev.ghPc + 1) % 1024 :: s.dev.gh.stack } }).ghGoto w))) ∧
    (w / 4096 = 6 → 4 ≤ s.dev.gh.stack.length → exec .ghCall s = .next (s.on (s.dev.ghFault 0x0102))) ∧
    (w / 4096 = 5 →
      let c := bitsOf w 9 3
      let taken := c == 0 || (c == 1 && s.dev.gh.z) || (c == 2 && !s.dev.gh.z) || (c == 3 && s.dev.gh.c) || (c == 4 && !s.dev.gh.c)
      exec .ghB s = .next (s.on (if taken then s.dev.ghGoto (ghTarget s.dev.ghPc w).toNat else s.dev.ghNext))) ∧
    (w / 8 = 0x140 → (s.dev.rd .GH_EVP &&& (s.dev.kk (w % 8) % 65536)) ≠ 0 → exec .ghWait s = .next (s.on s.dev.ghNext)) ∧
    (w / 8 = 0x140 → (s.dev.rd .GH_EVP &&& (s.dev.kk (w % 8) % 65536)) = 0 → exec .ghWait s =
      .next (s.on { s.dev with gh := { s.dev.gh with wait := some (s.dev.kk (w % 8) % 65536) } })) ∧
    (w = 0x300 → s.dev.ghNext.asleep = true ∨ s.dev.ghNext.pwr.entry ≠ 0 → exec .ghWake s = .next (s.on (s.dev.ghNext.wake 8))) ∧
    (w / 64 = 0x24 →
      let v := s.dev.rd .GH_EVP &&& (s.dev.kk (w % 8) % 65536)
      exec .evt s = .next (s.on (((s.dev.wr .GH_EVP (s.dev.rd .GH_EVP - v)).setK (bitsOf w 3 3) v).setZ (v == 0)).ghNext)) ∧
    (w / 256 = 0x0B → exec .ghSig s = .next (s.on ((s.dev.set .GH_SIGNAL_VALUE (w % 256)).raise 1 0 7).ghNext)) ∧
    (ghTimer 0 w = true → bitsOf w 3 3 ≠ 0 → exec .tcset s = .next (s.on ((s.dev.wr64 (.TC_CMP_LO (bitsOf w 3 3))
      (s.dev.gh.timer + s.dev.kk (bitsOf w 6 3))).setBit .TC_ARMED (bitsOf w 3 3) true).ghNext)) ∧
    (ghTimer 0 w = true → bitsOf w 3 3 = 0 → exec .tcset s = .next (s.on (s.dev.ghFault 0x0105))) ∧
    (ghTimer 1 w = true → bitsOf w 3 3 ≠ 0 →
      exec .tcclr s = .next (s.on (s.dev.setBit .TC_ARMED (bitsOf w 3 3) false).ghNext)) ∧
    (ghTimer 2 w = true → exec .tcrd s = .next (s.on (s.dev.setK (bitsOf w 6 3)
      (if s.dev.bit .TC_ARMED (bitsOf w 3 3) then min 0xFFFFFFFF (s.dev.rd64 (.TC_CMP_LO (bitsOf w 3 3)) - s.dev.gh.timer) else 0)).ghNext)) ∧
    (ghTimer 3 w = true → exec .ghTnow s = .next (s.on (s.dev.setK (bitsOf w 6 3) s.dev.gh.timer).ghNext)) ∧
    (ghTimer 4 w = true → exec .tnowh s = .next (s.on (s.dev.setK (bitsOf w 6 3) (s.dev.gh.timer / 2 ^ 32)).ghNext)) ∧
    (w / 8 = 0xA0 → s.dev.get .PWR_STATE_STATE = 3 → s.dev.pwr.exiting = false → s.dev.gh.scrub = none →
      s.dev.kk (w % 8) < s.dev.param 1 8 → ∀ ce ue, exec (.scrub ce ue) s = .next (s.on (({ s.dev with
        gh := { s.dev.gh with scrub := some ⟨s.dev.kk (w % 8), s.dev.gh.timer, ce, ue⟩, z := false } }).set
          .GH_STATUS_SCRUB_BUSY 1).ghNext)) ∧
    (w / 8 = 0xA0 → s.dev.get .PWR_STATE_STATE = 3 → s.dev.pwr.exiting = false → s.dev.gh.scrub ≠ none →
      ∀ ce ue, exec (.scrub ce ue) s = .next (s.on (s.dev.ghFault 0x0104))) ∧
    (w / 8 = 0xA0 → s.dev.get .PWR_STATE_STATE ≠ 3 →
      ∀ ce ue, exec (.scrub ce ue) s = .next (s.on (s.dev.setZ true).ghNext))

/-- The SEQ steps, each in its handler after the step before it (R99, R112, R489, R552, R74). -/
def Obligations.PowerSequenceSteps : Prop :=
  ∀ (s : State) (a h prev pos : Nat), s.Live → s.dev.GhAt (0x400 + a) → s.dev.gh.handler = h →
    s.dev.get .GH_STATUS_SEQ_POS = prev →
    let e := (s.dev.set .GH_STATUS_SEQ_POS pos).ghNext
    ((a, h, prev, pos) = (0x01, 1, 0, 1) → exec .seqVret s = .next (s.on { e with
      gh := { e.gh with retMv := max (e.get .GH_RET_MV_MV) (Config.fusedRetMv ()), atRet := true, segUp := none } })) ∧
    ((a, h, prev, pos) = (0x02, 1, 1, 2) → exec .seqSre s = .next (s.on { (e.hbmAll 2 4).hbmAll 3 4 with pwr := { e.pwr with entry := 6 } })) ∧
    ((a, h, prev, pos) = (0x03, 1, 2, 3) → ∀ l1, exec (.seqLinklp l1) s =
      .next (s.on { e.linksDown l1 with pwr := { (e.linksDown l1).pwr with entry := 7 } })) ∧
    ((a, h, prev, pos) = (0x04, 1, 3, 4) → s.dev.linksAsleep = true → exec .seqFastoff s = .next (s.on e.holdReached)) ∧
    ((a, h, prev, pos) = (0x11, 2, 0, 9) → exec .seqFaston s = .next (s.on e)) ∧
    ((a, h, prev, pos) = (0x12, 2, 9, 10) → exec .seqVopr s =
      .next (s.on { e with gh := { e.gh with atRet := false, segUp := none } })) ∧
    ((a, h, prev, pos) = (0x13, 2, 10, 11) → ∀ bad, exec (.seqSrx bad) s = .next (s.on ((List.range 4).foldl
      (fun x n => if bitsOf bad n 1 = 1 then x.stackLost n else x) { e.hbmAll 4 2 with pwr := { e.pwr with srx := true } }))) ∧
    ((a, h, prev, pos) = (0x14, 2, 11, 12) → exec .seqLinkup s = .next (s.on e.linksUp)) ∧
    ((a, h, prev, pos) = (0x15, 2, 12, 13) → s.dev.resumeReady = true → ∀ ue, exec (.seqResume ue) s = .next (s.on (e.resume ue)))

/-- The Gauge House's events and controls: doorbell, timers, the end of a WAIT, a scrub's end, a late sequence, PROG_RUN (R94 to R101, R109). -/
def Obligations.GaugeHouseEventsComplete : Prop :=
  ∀ (s : State), s.Live →
    (∀ p, s.dev.Writes p →
      (∀ v, exec (.ghDoorbell p v) s = .next (s.on (s.dev.evpSet 12))) ∧
      (s.dev.get .GH_CTRL_PROG_RUN = 0 → s.dev.pwr.pend = none → exec (.ghProgRunSet p) s = .next (s.on s.dev.ghLoad)) ∧
      (s.dev.get .GH_CTRL_PROG_RUN ≠ 0 → s.dev.pwr.pend = none → exec (.ghProgRunClear p) s = .next (s.on s.dev.ghToRom))) ∧
    (∀ n, 1 ≤ n → n ≤ 7 → s.dev.bit .TC_ARMED n = true → s.dev.rd64 (.TC_CMP_LO n) ≤ s.dev.gh.timer →
      exec (.ghTimerFire n) s = .next (s.on ((s.dev.evpSet n).setBit .TC_ARMED n false))) ∧
    (∀ m, s.dev.gh.wait = some m → (s.dev.rd .GH_EVP &&& m) ≠ 0 → s.dev.ctrlBit 1 3 = false →
      exec .ghWaitMatch s = .next (s.on (({ s.dev with gh := { s.dev.gh with wait := none } }).ghNext))) ∧
    (∀ j, s.dev.gh.scrub = some j → j.since + 2144 ≤ s.dev.gh.timer →
      exec .scrubDone s = .next (s.on ((((({ s.dev with gh := { s.dev.gh with scrub := none } }).set .GH_STATUS_SCRUB_BUSY 0).bump
        .SCRUB_COUNT).scrubFound j.seg j.ce j.ue).evpSet 11))) ∧
    (∀ t, 5 ≤ s.dev.pwr.entry → s.dev.gh.enterAt = some t → t + s.dev.get .GH_BUDGET_ENTER < s.dev.gh.timer →
      exec .ghBudgetExceeded s = .next (s.on (({ s.dev with gh := { s.dev.gh with enterAt := none } }).ghFault 0x0106))) ∧
    (∀ t, s.dev.pwr.entry = 0 → s.dev.pwr.exiting = true → s.dev.get .PWR_STATE_STATE = 3 → s.dev.gh.exitAt = some t →
      t + s.dev.get .GH_BUDGET_EXIT < s.dev.gh.timer → exec .ghBudgetExceeded s =
        .next (s.on (((({ s.dev with gh := { s.dev.gh with exitAt := none } }).ghFault 0x0106).bump .EXIT_LATE_COUNT).raise 1 0 5)))

/-- The Headgate's integer, predicate, mark and handle instructions, alone in slot A: the one register that each writes, and the commit (Table 8-3,
R142, R176, R177, R183). -/
def Obligations.HeadgateIntegerInstructions : Prop :=
  ∀ (s : State) (w : Nat), s.Live → s.dev.HgAt (Bundle.onlyA w) → s.dev.predOn ⟨w, 0⟩ = true →
    let a : Slot := ⟨w, 0⟩
    let d := s.dev
    let g := d.gReg
    let done := fun (e : Dev) => (Host.Outcome.next (s.on (e.hgDone (d.get .HG_PC_PC + 1))) : Out)
    (w = 0 → exec (.hgNop 0) s = done d) ∧
    (a.opc = 0x10 → exec (.hgAlu 0) s = done (d.setG a.d (aluOp a.f (g a.a) (g a.b)))) ∧
    (a.opc = 0x11 → exec (.hgAlui 0) s = done (d.setG a.d (aluOp a.f (g a.a) (sextImm a.imm)))) ∧
    (a.opc = 0x14 → exec (.ext 0) s = done (d.setG a.d (BitVec.ofNat 64 (extOp a.f (g a.a).toNat a.imm)))) ∧
    (a.opc = 0x15 → exec (.dep 0) s = done (d.setG a.d (BitVec.ofNat 64 (depOp (g a.a).toNat (g a.b).toNat a.imm)))) ∧
    (a.opc = 0x16 → exec (.cnt 0) s = done (d.setG a.d (BitVec.ofNat 64 (cntOp a.f (g a.a).toNat)))) ∧
    (a.opc = 0x18 → exec (.cmp 0) s = done (d.setP (a.d % 8) (cmpOp a.f (g a.a) (g a.b)))) ∧
    (a.opc = 0x19 → exec (.cmpi 0) s = done (d.setP (a.d % 8) (cmpOp a.f (g a.a) (sextImm a.imm)))) ∧
    (a.opc = 0x1A → exec (.plog 0) s = done (d.setP (a.d % 8) (plogOp a.f (d.pReg (a.a % 8)) (d.pReg (a.b % 8))))) ∧
    (a.opc = 0x1B → exec (.sel 0) s = done (d.setG a.d (if d.pReg (a.imm % 8) then g a.a else g a.b))) ∧
    (a.opc = 0x1C → exec (.mfp 0) s =
      done (d.setG a.d (BitVec.ofNat 64 ((List.range 8).foldl (fun x n => x + bit01 (d.pReg n) * 2 ^ n) 0)))) ∧
    (a.opc = 0x1D → exec (.mtp 0) s = done ((List.range 7).foldl (fun e n => e.setP (n + 1) ((g a.a).getLsbD (n + 1))) d)) ∧
    (a.opc = 0x20 → exec (.mpeek 0) s =
      done (d.setG a.d (BitVec.ofNat 64 (fieldOp (((d.sample a).map (·.2)).getD 0) a.imm)))) ∧
    (a.opc = 0x21 → d.sample a = none → exec (.mpop 0) s = done (d.setG a.d 0)) ∧
    (a.opc = 0x21 → ∀ f v, d.sample a = some (f, v) → exec (.mpop 0) s =
      done ({ d with hg := { d.hg with marks := d.hg.marks.set f ((d.hg.marks.getD f []).drop 1) } }.setG a.d (BitVec.ofNat 64 v))) ∧
    (a.opc = 0x22 → exec (.mfev 0) s = done (d.setG a.d (BitVec.ofNat 64 d.evWord))) ∧
    (a.opc = 0x23 → exec (.mfh 0) s = done (d.setG a.d ((d.hReg (a.imm % 16)).zeroExtend 64))) ∧
    (a.opc = 0x24 → ∀ t, (d.runOf (Bundle.onlyA w)).tag a = some t →
      exec (.hqry 0) s = done (d.setG a.d (BitVec.ofNat 64 (((d.task? t).map fun x => x.st).getD 0)))) ∧
    (a.opc = 0x25 → exec (.aot 0) s = done (d.setG a.d (BitVec.ofNat 64 d.gh.timer)))

/-- Its control instructions, alone in slot B (Table 8-4, R156, R158, R169, R179 to R182). -/
def Obligations.HeadgateControlInstructions : Prop :=
  ∀ (s : State) (w : Nat), s.Live → s.dev.HgAt (Bundle.onlyB w) → s.dev.predOn ⟨w, 0⟩ = true →
    let b : Slot := ⟨w, 0⟩
    let d := s.dev
    let g := d.gReg
    let pc := d.get .HG_PC_PC
    let n := b.imm % 4
    let done := fun (e : Dev) => (Host.Outcome.next (s.on (e.hgDone (pc + 1))) : Out)
    (b.opc = 0x40 → exec (.br 0) s = .next (s.on (d.hgDone (b.imm % 16384)))) ∧
    (b.opc = 0x41 → exec (.bl 0) s = .next (s.on ((d.setG b.d (BitVec.ofNat 64 (pc + 1))).hgDone (b.imm % 16384)))) ∧
    (b.opc = 0x42 → exec (.bx 0) s = .next (s.on (d.hgDone (g b.a).toNat))) ∧
    (b.opc = 0x43 → d.hg.haltReq = false → exec (.hgWait 0) s =
      .next (s.on (((d.hgCount (pc + 1)).wr64 .HG_WAIT_MASK_LO ((g b.a).toNat ||| b.imm)).setHg hgWAITING))) ∧
    (b.opc = 0x44 → exec (.evclr 0) s = done (d.clearEv (((g b.a).toNat ||| b.imm) % 2 ^ 40 / 65536 * 65536))) ∧
    (b.opc = 0x45 → b.f = 0 → exec (.tmrSet 0) s =
      done (let e := ((d.wr64 (.HG_TMR_LO n) (g b.a).toNat).setBit .HG_TMR_ARMED n true).tmrClear n
        if (g b.a).toNat ≤ d.gh.timer then e.tmrFire n else e)) ∧
    (b.opc = 0x45 → b.f = 1 → exec (.tmrClr 0) s = done ((d.setBit .HG_TMR_ARMED n false).tmrClear n)) ∧
    (b.opc = 0x46 → exec (.signal 0) s = done ((d.wr .HG_SIGNAL ((g b.a).toNat % 2 ^ 32)).raise hgb 0 3)) ∧
    (b.opc = 0x47 → exec (.halt 0) s = .next (s.on (d.hgCount (pc + 1)).hgHalted)) ∧
    (b.opc = 0x48 → exec (.sleep 0) s =
      .next (s.on (({ d with hg := { d.hg with sleep := some (b.d, (g b.a).toNat % 4, (g b.b).toNat) } }).hgCount (pc + 1)))) ∧
    (b.opc = 0x49 → ∀ t, (d.runOf (Bundle.onlyB w)).tag b = some t → exec (.habort 0) s = done (d.taskAbort t)) ∧
    (b.opc = 0x4A → exec (.hclr 0) s = done ((d.setH (b.imm % 16) 0).clearEv (2 ^ (16 + b.imm % 16))))

/-- Its memory and move instructions, alone in slot C, and the answers of the register view (Table 8-5, R184, R185). -/
def Obligations.HeadgateMemoryInstructions : Prop :=
  ∀ (s : State), s.Live →
    (∀ w c1, s.dev.HgAt (Bundle.onlyC w c1) → s.dev.predOn ⟨w, c1⟩ = true →
      let c : Slot := ⟨w, c1⟩
      let d := s.dev
      let g := d.gReg
      let a := ((g c.a).toNat + c1) % 2 ^ 64
      let v := (g c.b).toNat
      let done := fun (e : Dev) => (Host.Outcome.next (s.on (e.hgDone (d.get .HG_PC_PC + 1))) : Out)
      (c.opc = 0x80 → d.eccIn 3 a c.size = none → c.size ≠ 16 → c.f < 8 →
        exec (.ld 0) s = done (d.setG c.d (BitVec.ofNat 64 (d.ld spDmem a c.size)))) ∧
      (c.opc = 0x80 → d.eccIn 3 a c.size = none → c.size ≠ 16 → 8 ≤ c.f →
        exec (.ld 0) s = done (d.setG c.d (BitVec.ofInt 64 (signed (8 * c.size) (d.ld spDmem a c.size))))) ∧
      (c.opc = 0x80 → d.eccIn 3 a c.size = none → c.size = 16 → exec (.ld 0) s =
        done ((d.setG c.d (BitVec.ofNat 64 (d.ld spDmem a 8))).setG (c.d + 1) (BitVec.ofNat 64 (d.ld spDmem (a + 8) 8)))) ∧
      (c.opc = 0x81 → c.size ≠ 16 → exec (.st 0) s = done ((d.st spDmem a c.size v).dmemWords a c.size)) ∧
      (c.opc = 0x81 → c.size = 16 → exec (.st 0) s =
        done ((d.st spDmem a 16 (v + (g (c.b + 1)).toNat * 2 ^ 64)).dmemWords a 16)) ∧
      (c.opc = 0x82 → targetOf (viewOff a) ≠ .hole → c.d ≠ 0 →
        let r := (d.viewWake (viewOff a)).busRead .host (viewOff a) c.size
        exec (.ldv 0) s = done { r.2 with hg := { r.2.hg with ldv := r.2.hg.ldv ++ [(c.d, BitVec.ofNat 64 r.1)] } }) ∧
      (c.opc = 0x83 → targetOf (viewOff a) ≠ .hole →
        let e := ((d.setD true).viewWake (viewOff a)).busWrite .host (viewOff a) c.size (v % 2 ^ (8 * c.size))
        let m := { e with hg := { e.hg with stv := e.hg.stv + 1 } }
        exec (.stv 0) s = if m.hg.inD = false then .next (s.on m) else done (m.setD false)) ∧
      (c.opc = 0x84 → exec (.movw 0) s = done (d.setG c.d (BitVec.ofNat 64 c1))) ∧
      (c.opc = 0x85 → exec (.movp 0) s = done ((d.setG c.d (g c.a)).setG (c.d + 1) (g (c.a + 1)))) ∧
      (c.opc = 0x86 → d.hg.stv = 0 → exec (.fence 0) s = done d)) ∧
    (s.dev.hg.stall = none → exec .fenceDone s = .next (s.on { s.dev with hg := { s.dev.hg with stv := 0 } })) ∧
    (∀ gd v rest, s.dev.hg.ldv = (gd, v) :: rest → s.dev.pwr.exiting = false →
      exec .ldvResponse s = .next (s.on ({ s.dev with hg := { s.dev.hg with ldv := rest } }.setG gd v))) ∧
    (∀ gd t wake, s.dev.hg.sleep = some (gd, t, wake) → exec .sleepAnswer s = .next (s.on (s.dev.sleepAnswer gd t wake)))

/-- The task of slot D enters the table, the issue that waits for room, the illegal bundle, and STEP (R148, R149, R160, R164, R173, R188). -/
def Obligations.HeadgateIssueAndExceptions : Prop :=
  ∀ (s : State), s.Live →
    let d := s.dev
    let pc := d.get .HG_PC_PC
    (∀ hdr w1 w2 w3 i, d.HgAt (Bundle.onlyD hdr w1 w2 w3) → (d.runOf (Bundle.onlyD hdr w1 w2 w3)).dOn = true →
      d.freeSlot = some i →
      let p := fun n (w : Nat) => let x := (Bundle.onlyD hdr w1 w2 w3).sel.getD n 0; if x = 0 then w else (d.gReg x).toNat
      exec (.issue 0) s = .next (s.on ((d.issueTask i hdr (p 0 w1) (p 1 w2) (p 2 w3)).hgDone (pc + 1)))) ∧
    (∀ x, d.HgAt x → (d.runOf x).dOn = true → d.freeSlot = none → d.predOn x.c = false →
      exec (.issue 0) s = .next (s.on { d with
        hg := { d.hg with stall := some { words := d.bundleAt pc, why := 0, sample := (d.runOf x).smp } } })) ∧
    (∀ q i, d.hg.stall = some q → q.why = 0 → d.freeSlot = some i →
      exec .issueStallRelease s = .next (s.on ((Run.mk d.noStall pc (Bundle.ofWords q.words) q.sample).finish q.words))) ∧
    (∀ x n, d.canRun = true → Bundle.ofWords (d.bundleAt pc) = x → (d.hg.ldv.any fun e => x.names.contains e.1) = false →
      d.eccIn (if pc < 4096 then 1 else 2) (64 * pc) 64 = none → d.breakAt pc = false → x.illegal = some n →
      exec (.illegalBundle 0) s = .next (s.on (d.noStall.hgFault ⟨n, 0x0200, none⟩ pc))) ∧
    (∀ p ue, d.Writes p → d.hgState = hgHALTED → exec (.hgStep p ue) s = .next (s.on ((d.hgGo pc true).bundle ue fun _ => true))) ∧
    (∀ p ue, d.Writes p → d.hgState = hgRUNNING → exec (.hgStep p ue) s = .next (s.on (d.errWr p hgb 0 0x80 0x0211 4)))

/-- The registers that run the core, its rings and events, and the tasks' dispatch and aborts (R152 to R158, R161 to R165, R169, R186). -/
def Obligations.HeadgateControlsComplete : Prop :=
  ∀ (s : State), s.Live →
    let d := s.dev
    (∀ p, d.Writes p →
      (d.hgState = hgRESET ∨ d.hgState = hgHALTED ∨ d.hgState = hgFAULTED →
        exec (.hgStart p) s = .next (s.on (d.hgGo (d.get .HG_START_PC_PC) false))) ∧
      (d.hgState = hgRUNNING ∨ d.hgState = hgWAITING → exec (.hgStart p) s = .next (s.on (d.errWr p hgb 0 0x80 0x0211 1))) ∧
      (d.hgState = hgWAITING → exec (.hgHaltReq p) s =
        .next (s.on { d.hgHalted with hg := { d.hgHalted.hg with kept := some (d.rd64 .HG_WAIT_MASK_LO) } })) ∧
      (d.hgState = hgRUNNING → d.hg.stall = none → d.hg.sleep = none → d.hg.sleepGd = none → d.hg.inD = false →
        exec (.hgHaltReq p) s = .next (s.on d.hgHalted)) ∧
      (∀ v, exec (.hgDoorbell p v) s = .next (s.on (d.evSet 36))) ∧
      (∀ n (v : Word), n < 8 → (d.rd (.RING_PROD n) + 65536 - v.toNat % 65536) % 65536 ≤ d.ringEntries n →
        exec (.ringConsWrite p n v) s = .next (s.on ((d.wr (.RING_CONS n) (v.toNat % 65536)).flushRecords))) ∧
      (∀ n (v : Word), n < 8 → d.ringEntries n < (d.rd (.RING_PROD n) + 65536 - v.toNat % 65536) % 65536 →
        exec (.ringConsWrite p n v) s = .next (s.on (d.errWr p hgb 1 (0x8C + 0x10 * n) 0x0213 v.toNat))) ∧
      (∀ n size (v : Word), n < 8 → exec (.ringConfigWrite p n size v) s = .next (s.on (d.ringConfigWrite p n size v.toNat))) ∧
      (∀ off (v : Word), d.hgState = hgHALTED → (0x40000 ≤ off ∨ d.get .HG_IMEM_LOCK_LOCK ≠ 1) → off < 0x100000 → off % 4 = 0 →
        exec (.imemWindowWrite p off v) s =
          .next (s.on ((d.st spImem off 4 v.toNat).eccWrite (if off < 0x40000 then 1 else 2) (off / 4)))) ∧
      (∀ tag, tag < 65536 → exec (.taskAbort p tag) s = .next (s.on (d.taskAbort tag))) ∧
      exec (.taskAbortAll p) s = .next (s.on d.taskAbortAll)) ∧
    (∀ n, n ≤ 3 → d.bit .HG_TMR_ARMED n = true → bitsOf d.hg.fired n 1 = 0 → d.rd64 (.HG_TMR_LO n) ≤ d.gh.timer →
      exec (.hgTimerFire n) s = .next (s.on ({ d with hg := { d.hg with fired := d.hg.fired ||| 2 ^ n } }.evSet (32 + n)))) ∧
    (d.hgState = hgWAITING → d.frozen hgb = false → d.get .PWR_STATE_STATE ≠ 3 → d.pwr.entry = 0 →
      d.evWord &&& d.rd64 .HG_WAIT_MASK_LO ≠ 0 → d.hg.stepping = false →
      exec .hgWaitEnd s = .next (s.on (({ d with hg := { d.hg with kept := none } }.setHg hgRUNNING).stir.idleExit))) ∧
    (∀ t, d.task? t.tag = some t → t.st = 1 → t.sent = false → d.frozen hgb = false → d.asleep = false →
      (d.hg.tasks.find? fun u => u.st == 1 && !u.sent && u.cls == t.cls && u.inst == t.inst) = some t →
      (d.present (engineBlk t.cls t.inst) = true → t.object = 0 →
        exec (.taskDispatch t.tag false) s = .next (s.on (d.updTask t.tag fun u => { u with sent := true }))) ∧
      (d.present (engineBlk t.cls t.inst) = false →
        ∀ ue, exec (.taskDispatch t.tag ue) s = .next (s.on (d.refuse t.tag cEngineAbsent))))

/-- The Allotment tasks move an object through the states of Table 10-3, or are refused where its state is another (R226, R227, R235, R238,
R241, R246). -/
def Obligations.AllotmentTasksComplete : Prop :=
  ∀ (s : State), s.Live →
    let d := s.dev
    (∀ t o, d.AllotReady t o 1 → (o.state = oDRY ∨ o.state = oFILLING ∨ o.state = oWET) →
      exec (.seal t.tag) s = .next (s.on (((d.acceptTask t.tag).setState o.handle oSEALED).served t.tag 0))) ∧
    (∀ t o, d.AllotReady t o 1 → ¬ (o.state = oDRY ∨ o.state = oFILLING ∨ o.state = oWET) →
      exec (.seal t.tag) s = .next (s.on ((d.acceptTask t.tag).refuse t.tag cObjectState))) ∧
    (∀ t o, d.AllotReady t o 2 → o.state = oSEALED → exec (.openGate t.tag) s =
      .next (s.on ((((d.acceptTask t.tag).setGate o.handle t.mb t.step).setState o.handle oREADY).served t.tag 0))) ∧
    (∀ t o, d.AllotReady t o 2 → o.state ≠ oSEALED →
      exec (.openGate t.tag) s = .next (s.on ((d.acceptTask t.tag).refuse t.tag cObjectState))) ∧
    (∀ t o, d.AllotReady t o 3 → o.state = oSEALED → exec (.drop t.tag) s =
      .next (s.on (((((d.acceptTask t.tag).clearWet o).setState o.handle oPENDING).dropHome o.handle).served t.tag 0))) ∧
    (∀ t o, d.AllotReady t o 4 → o.state = oCOMPRESSING ∨ o.state = oLIFTING ∨ o.state = oDRAINING ∨ o.state = oRECOMPUTING →
      exec (.rearm t.tag) s = .next (s.on ((d.acceptTask t.tag).refuse t.tag cObjectBusy))) ∧
    (∀ t o, d.AllotReady t o 4 → o.state ≠ oCOMPRESSING → o.state ≠ oLIFTING → o.state ≠ oDRAINING → o.state ≠ oRECOMPUTING →
      let e := (d.acceptTask t.tag).updObj o.handle fun x => { x with rearm := some (t.tag, t.mb, t.step), evictAfter := false }
      (e.rearmHome o).isSome = true → exec (.rearm t.tag) s = .next (s.on (e.rearmApply o.handle))) ∧
    (∀ h o tag mb step, d.frozen 4 = false → d.obj? h = some o → o.rearm = some (tag, mb, step) → o.busy = true →
      exec (.rearmApply h) s = .next (s.on ((d.updObj h fun x => { x with rearm := none }).refuse tag cObjectBusy))) ∧
    (∀ h o tag mb step e, d.frozen 4 = false → d.obj? h = some o → o.rearm = some (tag, mb, step) → o.busy = false → o.refs = 0 →
      d.rearmHome o = some e → exec (.rearmApply h) s =
        let f := (e.clearWet o).updObj h fun x =>
          { x with mb := mb, step := step, rearm := none, evictAfter := false, rebuilt := false, packed := false, escBlocks := o.escBlocks }
        .next (s.on ((f.setState h oDRY).served tag 0))) ∧
    (∀ h o, d.obj? h = some o → o.evictAfter = true → o.state = oREADY → o.consumed = true → o.refs = 0 →
      d.pendingPromote h = false → d.frozen 4 = false → d.frozen 5 = false → exec (.deferredEvictionStart h) s =
        .next (s.on ((d.updObj h fun x => { x with evictAfter := false }).evictOne o 4 none).1)) ∧
    (∀ h o, d.objAt (hIndex h) = some o → o.handle = h → o.state = oRETIRED → o.refs = 0 → o.liftLock = false → o.drainLock = false →
      d.named h = false → exec (.retiredRelease h) s = .next (s.on (d.freeObj h)))

/-- The admission service answers before and after it has read an image, measures again where PUBLISH_SEQ has changed, installs part by part,
and ends; UNLOAD releases the plan (R201, R204, R209, R211, R213 to R215). -/
def Obligations.AdmissionCompletes : Prop :=
  ∀ (s : State), s.Live → s.dev.admRuns = true →
    let d := s.dev
    let idle := fun (e : Dev) => { e with plan := { e.plan with job := none } }
    (d.plan.job = none → ∀ parts,
      (∀ img, d.admOpcode ≠ 1 → d.admOpcode ≠ 2 → exec (.admitPlan img parts) s = .next (s.on (d.admEnd (Reply.bare 0x17) 0))) ∧
      (∀ img, d.admOpcode = 1 → d.plan.admitted = true → exec (.admitPlan img parts) s = .next (s.on (d.admEnd (Reply.bare 0x13) 0))) ∧
      (∀ img, d.admOpcode = 1 → d.plan.admitted = false → d.admBadCmd = true →
        exec (.admitPlan img parts) s = .next (s.on (d.admEnd (Reply.bare 0x17) 0))) ∧
      (∀ img, d.admOpcode = 1 → d.plan.admitted = false → d.admBadCmd = false → d.admReads = false →
        exec (.admitPlan img parts) s = .next (s.on (d.admEnd (Reply.bare 0x12) 0))) ∧
      (d.admOpcode = 1 → d.plan.admitted = false → d.admBadCmd = false → d.admReads = true →
        exec (.admitPlan none parts) s = .next (s.on (d.admFetch.admEnd (Reply.bare 0x12) 0))) ∧
      (∀ b cause sect, d.admOpcode = 1 → d.plan.admitted = false → d.admBadCmd = false → d.admReads = true →
        imgFault (b.take (d.adm 0x10 4)) (d.adm 0x10 4) = some (cause, sect) → exec (.admitPlan (some b) parts) s =
          .next (s.on (d.admFetch.admEnd { Reply.bare 0x11 with cause := cause, sect := sect } 0))) ∧
      (∀ b, d.admOpcode = 1 → d.plan.admitted = false → d.admBadCmd = false → d.admReads = true →
        imgFault (b.take (d.adm 0x10 4)) (d.adm 0x10 4) = none →
        let e := d.admFetch
        let b' := b.take (d.adm 0x10 4)
        exec (.admitPlan (some b) 0) s = .next (s.on (e.admJudged b' (e.admJudge b' [] 1)))) ∧
      (d.admOpcode = 2 → d.plan.admitted = false → exec .unload s = .next (s.on (d.admEnd (Reply.bare 0x16) 0))) ∧
      (d.admOpcode = 2 → d.plan.admitted = true → d.hg.tasks ≠ [] → exec .unload s = .next (s.on (d.admEnd (Reply.bare 0x15) 0))) ∧
      (d.admOpcode = 2 → d.plan.admitted = true → d.hg.tasks = [] → exec .unload s = .next (s.on (d.unload.admEnd (Reply.bare 4) 0)))) ∧
    (∀ img j, d.plan.job = some j →
      (j.part = 0 → d.map.seq ≠ j.seq → j.reply.measures < 4 → exec (.admitPlan img 1) s =
        .next (s.on (d.admJudged j.img (d.admJudge j.img j.reply.recs (j.reply.measures + 1))))) ∧
      (j.part = 0 → d.map.seq ≠ j.seq → 4 ≤ j.reply.measures →
        exec (.admitPlan img 1) s = .next (s.on ((idle d).admEnd j.reply.unstable 0))) ∧
      (j.part ≤ 8 → (j.part = 0 → d.map.seq = j.seq) →
        let e := d.installPart (mkVar j.img j.reply.admitted) j.part
        exec (.admitPlan img 1) s = .next (s.on { e with plan := { e.plan with job := some { j with part := j.part + 1 } } })) ∧
      (8 < j.part → exec (.admitPlan img 1) s =
        .next (s.on ((idle d).admEnd j.reply (mkVar j.img j.reply.admitted).entryBundle))))

/-- The Pool Manager's tasks, grants and threshold loop, and the stalls that end waits (R250, R251, R255, R258, R259, R266). -/
def Obligations.PoolCompletes : Prop :=
  ∀ (s : State), s.Live →
    let d := s.dev
    (∀ t, d.PoolReady t 1 → t.poolTier ≠ 1 → exec (.evict t.tag) s =
      .next (s.on (((d.acceptTask t.tag).addResv t.poolPartner t.poolTier
        (-((min t.poolBytes ((d.acceptTask t.tag).resv t.poolPartner t.poolTier) : Nat) : Int))).served t.tag 0))) ∧
    (∀ t, d.PoolReady t 1 → t.poolTier = 1 →
      let r := (d.acceptTask t.tag).evict t.svc (some t.tag) t.poolBytes
      exec (.evict t.tag) s = .next (s.on ((if r.2.2 then r.1.updTask t.tag fun x => { x with cause := cPromote } else r.1).evictTaskCheck
        t.tag 0))) ∧
    (∀ t, d.PoolReady t 2 →
      let e := d.acceptTask t.tag
      let room := e.rd64 (.RESERVED_T_LO t.poolTier) + t.poolBytes ≤ e.rd64 (.CAPACITY_T_LO t.poolTier)
      (room → (3 ≤ t.svc → e.overQuota t.poolPartner t.poolTier t.poolBytes = false) →
        exec (.reserve t.tag) s = .next (s.on ((((({ e with pool := { e.pool with
          waiting := e.pool.waiting.filter fun x => x != t.tag * 4 } }).waitEnd t.tag).quotaOver t.poolPartner t.poolTier t.poolBytes).addResv
            t.poolPartner t.poolTier t.poolBytes).served t.tag 0))) ∧
      (3 ≤ t.svc → e.overQuota t.poolPartner t.poolTier t.poolBytes = true →
        exec (.reserve t.tag) s = .next (s.on (e.quotaRefused.refuse t.tag cQuota))) ∧
      (¬ room → 3 ≤ t.svc → e.overQuota t.poolPartner t.poolTier t.poolBytes = false →
        exec (.reserve t.tag) s = .next (s.on ((e.bump .SPACE_REFUSE_COUNT).refuse t.tag cNoSpace))) ∧
      (¬ room → t.svc < 3 → exec (.reserve t.tag) s =
        .next (s.on (({ e with pool := { e.pool with waiting := e.pool.waiting ++ [t.tag * 4] } }).waitBegin t.tag cPoolFull)))) ∧
    (d.frozen 5 = false → exec .allocationGrant s = .next (s.on (d.pool.waiting.foldl (fun e x => e.tryWaiting x) d).drainRetry)) ∧
    (∀ pt dir, exec (.arbitrationGrant pt dir) s =
      .next (s.on ((List.range 32).foldl (fun e f => e.issueAll f) (d.grant pt dir).drainRetry.stuckRelease))) ∧
    (d.asleep = false → 19200 ≤ d.pool.ageRun → d.isTied 0x31 0 = false → d.get .AGE_PIN_PIN_EN = 0 →
      let a := d.rd .AGE_APPLIED
      let lo := d.get .AGE_LOW_US
      let hi := d.get .AGE_HIGH_US
      let sh := min 0xFFFFFFFF (if 0 < d.pool.fullWaits then a / 2 else if 0 < d.pool.regrets then a * 2 else a)
      let u := ((d.untie 0x31 0).wr .AGE_SHADOW sh).wr .AGE_APPLIED (max lo (min hi sh))
      let e := { u with pool := { u.pool with fullWaits := 0, regrets := 0, ageRun := 0 } }
      let g := if clamped lo hi sh a false then (e.bump .AGE_CLAMP_COUNT).raise 5 0 5 else e
      exec .ageLoopUpdate s = .next (s.on (if g.frozen 5 then g else (g.pool.waiting.foldl (fun e x => e.tryWaiting x) g).background))) ∧
    (d.asleep = false → ∀ f c slot x, d.stream? (f, c, slot) = some x → d.streamStalled x = true →
      exec (.engineStallExpiry (.stream f c slot)) s = .next (s.on (d.streamTierFail x))) ∧
    (d.asleep = false → ∀ h, d.drainStalled h = true → exec (.engineStallExpiry (.drain h)) s = .next (s.on (d.drainFail h))) ∧
    (d.asleep = false → ∀ h c, (d.chains.find? fun c => c.handle == h) = some c → d.chainStalled c = true →
      exec (.engineStallExpiry (.chain h)) s = .next (s.on (d.chainFail c cTierFail)))

/-- The Flume's streams: accepted and started, or refused with the check's cause; a LIFT at its start time; what a response, a halt or an
abort brings (R272 to R291). -/
def Obligations.StreamsComplete : Prop :=
  ∀ (s : State), s.Live →
    let d := s.dev
    (∀ op cmd, (op = 1 ∧ cmd = Instr.park) ∨ (op = 2 ∧ cmd = Instr.lift) ∨ (op = 3 ∧ cmd = Instr.compress) ∨
        (op = 4 ∧ cmd = Instr.observe) → ∀ t c, d.StreamReady t c op →
      (∀ cause, d.checkSpec (t.spec c) = some cause → cause ≠ cHandleStale →
        exec (cmd t.tag) s = .next (s.on (d.refuse t.tag cause))) ∧
      (d.checkSpec (t.spec c) = some cHandleStale →
        exec (cmd t.tag) s = .next (s.on ((d.staleHandle (t.spec c).obj).refuse t.tag cHandleStale))) ∧
      (d.checkSpec (t.spec c) = none → ((d.acceptTask t.tag).startStream (t.spec c)).2 = none →
        exec (cmd t.tag) s = .next (s.on (((d.acceptTask t.tag).startStream (t.spec c)).1.issueAll t.inst))) ∧
      (∀ cause, d.checkSpec (t.spec c) = none → ((d.acceptTask t.tag).startStream (t.spec c)).2 = some cause →
        exec (cmd t.tag) s = .next (s.on (((d.acceptTask t.tag).startStream (t.spec c)).1.refuse t.tag cause)))) ∧
    (∀ f c x, ((d.ctxUse f c).ctxStreams f c).filter (fun y => (d.ctxUse f c).startDue y) = [x] → exec (.liftStart f c) s =
      .next (s.on (((d.ctxUse f c).updStream x.key fun y => { y with st := 2, startAt := none }).issueAll f))) ∧
    (∀ f c slot x o, (d.ctxUse f c).stream? (f, c, slot) = some x → (d.ctxUse f c).obj? x.handle = some o →
      let e := d.ctxUse f c
      (x.nextRead.isSome = true → x.src.tier ≠ 3 → x.src.tier ≠ 4 → ∀ fault,
        exec (.transferComplete f c slot false fault) s = .next (s.on (((e.readDone x o).turnSettle f c).issueAll f))) ∧
      (∀ q, x.dst = some q → 0 < x.wi → q.tier ≠ 3 → q.tier ≠ 4 → ∀ fault,
        exec (.transferComplete f c slot true fault) s = .next (s.on (((e.writeDone x).turnSettle f c).issueAll f))) ∧
      (x.nextRead.isSome = true → x.src.tier = 3 →
        exec (.transferComplete f c slot false true) s = .next (s.on ((e.pageFault x false o).issueAll f))) ∧
      (∀ q, x.dst = some q → 0 < x.wi → q.tier = 3 →
        exec (.transferComplete f c slot true true) s = .next (s.on ((e.pageFault x true o).issueAll f)))) ∧
    (∀ f g pasid ok e, pasid = d.get .HOST_T3_PASID_PASID → (d.flm.pri.find? fun e => e.flume == f && e.group == some g) = some e →
      exec (.priResponse f g pasid ok) s = .next (s.on ((d.priResponse f g pasid ok).issueAll f))) ∧
    (∀ f g pasid ok, (pasid ≠ d.get .HOST_T3_PASID_PASID ∨ (d.flm.pri.find? fun e => e.flume == f && e.group == some g) = none) →
      exec (.priResponse f g pasid ok) s = .next (s.on ((d.bump .PRI_STRAY_COUNT).issueAll f))) ∧
    (∀ f c slot x, d.stream? (f, c, slot) = some x → x.st = 4 → d.tagOpen (x.owner true) = false → d.tagOpen (x.owner false) = false →
      exec (.streamHaltComplete f c slot) s = .next (s.on (d.haltStream (f, c, slot)))) ∧
    (∀ f c slot x, d.stream? (f, c, slot) = some x → x.st = 6 → d.tagOpen (x.owner true) = false → d.tagOpen (x.owner false) = false →
      exec (.streamAbortComplete f c slot) s = .next (s.on ((d.abortStream (f, c, slot)).turnSettle f c)))

/-- FLM_CTX_CMD: RESUME, ABORT and HALT of a context, refused with the code of its check where the tag or the state is another (R286 to R289). -/
def Obligations.FlumeContextCommandsComplete : Prop :=
  ∀ (s : State) (p : Path) (f c tag : Nat), s.Live → s.dev.Writes p → f < 32 → c < 16 → tag < 65536 →
    let d := s.dev.ctxUse f c
    let stale := if d.justEnded f c tag then 0x0511 else 0x0510
    (d.ctxTag f c = some tag → d.ctxState f c = 5 → d.badResumeMask (d.ctxStreams f c) (d.rd .FLM_RESUME_LANES f) = false →
      exec (.flmCtxResume p f c tag) s = .next (s.on ((((((d.ctxStreams f c).filter fun x => x.st == 5).foldl
        (fun e x => e.resumeStream x (d.rd .FLM_RESUME_LANES f)) (d.wr .FLM_RESUME_LANES 0 f)).updTurn f c
          fun t => { t with halted := false }).issueAll f)))) ∧
    (d.ctxTag f c = some tag → d.ctxState f c = 5 → exec (.flmCtxAbort p f c tag) s =
      .next (s.on (((d.endBursts f c cTaskAborted).updTurn f c fun t => { t with ending := some cTaskAborted, wait := .none }).turnSettle
        f c))) ∧
    (d.ctxTag f c = some tag → d.ctxState f c = 1 ∨ d.ctxState f c = 2 ∨ d.ctxState f c = 3 → d.turn? f c = none →
      exec (.flmCtxHalt p f c tag) s = .next (s.on ((d.ctxStreams f c).foldl (fun e x => e.streamFault x.key 0x0504) d))) ∧
    (d.ctxTag f c ≠ some tag →
      exec (.flmCtxResume p f c tag) s = .next (s.on (d.errWr p (6 + f) 0 0x8C 0x0510 (tag * 65536 + 0x100 + c))) ∧
      exec (.flmCtxAbort p f c tag) s = .next (s.on (d.errWr p (6 + f) 0 0x8C stale (tag * 65536 + 0x200 + c))) ∧
      exec (.flmCtxHalt p f c tag) s = .next (s.on (d.errWr p (6 + f) 0 0x8C stale (tag * 65536 + 0x300 + c)))) ∧
    (d.ctxTag f c = some tag → d.ctxState f c ≠ 5 →
      exec (.flmCtxResume p f c tag) s = .next (s.on (d.errWr p (6 + f) 0 0x8C 0x0511 (tag * 65536 + 0x100 + c))))

/-- A TURNOUT task, a program's words, an illegal word, and the turnout instructions that compute: the context is rewritten, the instruction
counted, and the pc moves on (R295 to R298, R304, R306, R308, Table 13-2). -/
def Obligations.TurnoutComputeInstructions : Prop :=
  (∀ (s : State), s.Live →
    let d := s.dev
    (∀ k x, d.sentTask k.tag 0x40 5 = some k → d.freeCtx k.inst = some x → d.enabled (6 + k.inst) = true →
      d.frozen (6 + k.inst) = false → k.badSvc = false → bitsOf k.w3 60 1 = 0 → bitsOf k.w3 9 27 = 0 →
      let e := (d.acceptTask k.tag).freshCtx k.inst x
      exec (.turnout k.tag) s = .next (s.on { e with flm := { e.flm with turns := e.flm.turns ++ [turnInit k.inst x k] } })) ∧
    (∀ p f i v, d.Writes p → f < 32 → i < 512 → (d.flm.turns.any fun t => t.flume == f) = false →
      (d.hg.tasks.any fun t => t.st == 1 && t.cls == 0x40 && t.op == 5 && t.inst == f) = false →
      exec (.turnoutProgramWrite p f i v) s = .next (s.on ((d.wr (.FLM_PROG i) v.toNat f).eccWrite 6 (f * 512 + i)))) ∧
    (∀ f c t, d.TurnNext f c t → d.turnBad t = false → tIllegal (d.rd (.FLM_PROG t.pc) f) = true →
      exec (.turnIllegal f c false) s = .next (s.on ((d.turnBegun f c).turnFault t 0x0520 (d.rd (.FLM_PROG t.pc) f))))) ∧
  ∀ (s : State) (f c opc : Nat) (t : Turn) (w : Nat), s.Live → s.dev.TurnAt f c opc t w → t.pc < 511 →
    let d := s.dev
    let e := d.turnBegun f c
    let r := t.pc + 1
    (opc = 0x00 → exec (.turnNop f c) s = .next (s.on (e.turnTo f c t r))) ∧
    (opc = 0x04 → bitsOf w 0 4 = 8 → exec (.turnAlu f c) s = .next (s.on (e.turnTo f c
      { t with z := t.ra (tS w) == t.ra (tT w), n := decide (t.ra (tS w) < t.ra (tT w)) } r))) ∧
    (opc = 0x04 → bitsOf w 0 4 ≠ 8 →
      let v := tAlu (bitsOf w 0 4) (t.ra (tS w)) (t.ra (tT w))
      exec (.turnAlu f c) s = .next (s.on (e.turnTo f c ((t.setA (tD w) v).flags v) r))) ∧
    (opc = 0x05 →
      let v := unsigned 32 ((t.ra (tS w) : Int) + signed 16 (bitsOf w 0 16))
      exec (.turnAddi f c) s = .next (s.on (e.turnTo f c ((t.setA (tD w) v).flags v) r))) ∧
    (opc = 0x06 → exec (.movi f c) s = .next (s.on (e.turnTo f c (t.setA (tD w) (bitsOf w 0 16)) r))) ∧
    (opc = 0x07 → exec (.movhi f c) s =
      .next (s.on (e.turnTo f c (t.setA (tD w) (bitsOf w 0 16 * 65536 + t.ra (tD w) % 65536)) r))) ∧
    (opc = 0x08 → exec (.bset f c) s =
      .next (s.on (e.turnTo f c (t.setB (bitsOf w 24 2) (t.ra (tT w) * 2 ^ 32 + t.ra (tS w))) r))) ∧
    (opc = 0x09 → exec (.badd f c) s = .next (s.on (e.turnTo f c
      (t.setB (bitsOf w 24 2) (t.rb (bitsOf w 24 2) + t.ra (tS w) * 2 ^ bitsOf w 0 3)) r))) ∧
    (opc = 0x0A → ∀ a, a = (t.rb (bitsOf w 21 2) + 4 * (t.ra (bitsOf w 18 3) + bitsOf w 0 8)) % 2 ^ 64 → a % 4 = 0 → a ≤ 0x1FEFFC →
      exec (.ldw f c) s = .next (s.on (e.turnTo f c (t.setA (tD w) (d.ld spDmem a 4)) r))) ∧
    (opc = 0x0B → exec (.ldobj f c) s =
      .next (s.on (e.turnTo f c (t.setA (tD w) (e.entryWord (t.ra (tS w) % 2 ^ 20) (bitsOf w 0 3))) r))) ∧
    (opc = 0x0C → exec (.ldlead f c) s = .next (s.on (e.turnTo f c (t.setA (tD w)
      (((e.obj? (t.ra (tS w))).bind Obj.slot).elim 0xFFFFFFFF fun n => (e.leadOf n).1)) r))) ∧
    (opc = 0x0D → exec (.turnTnow f c) s = .next (s.on (e.turnTo f c (t.setA (tD w) (e.tnow t)) r))) ∧
    (opc = 0x12 → exec (.lanes f c) s = .next (s.on (e.turnTo f c { t with lanes := bitsOf w 0 8 } r))) ∧
    (opc = 0x13 → exec (.obsid f c) s = .next (s.on (e.turnTo f c { t with tid := bitsOf w 0 12 } r))) ∧
    (opc = 0x14 → exec (.dline f c) s = .next (s.on (e.turnTo f c { t with dl := t.ra (tS w) } r))) ∧
    (opc = 0x15 → exec (.turnSig f c) s = .next (s.on (((((e.wr .TSIG_VALUE (t.ra (tS w)) f).bump .SIG_COUNT f).raise (6 + f) 1 0).evSet
      38).turnPc f c r)))

/-- The turnout instructions that branch, end or wait, the ends of those waits, and the program faults (R297 to R299, R302, R303, R305, R307,
R309). -/
def Obligations.TurnoutControlInstructions : Prop :=
  (∀ (s : State) (f c : Nat) (t : Turn), s.Live →
    let d := s.dev
    (∀ v, d.TurnWaits f c t (.waitt v) → v ≤ d.tnow t → t.pc < 511 →
      exec (.waittEnd f c) s = .next (s.on (d.turnTo f c { t with wait := .none } (t.pc + 1)))) ∧
    (∀ o h m b l, d.TurnWaits f c t (.waito o h m b l true) → t.pc < 511 →
      exec (.waitoEnd f c) s = .next (s.on (d.turnTo f c { t with wait := .none, t := false, z := false } (t.pc + 1)))) ∧
    (∀ o h m b l, d.TurnWaits f c t (.waito o h m b l false) → d.obj? h = none → t.pc < 511 →
      exec (.waitoEnd f c) s =
        .next (s.on ((d.bump .WAITO_TIMEOUT_COUNT f).turnTo f c { t with wait := .none, t := true, z := true } (t.pc + 1)))) ∧
    (∀ o h m b l, d.TurnWaits f c t (.waito o h m b (some l) false) → l ≤ d.gh.timer → t.pc < 511 →
      exec (.waitoTimeout f c) s = .next (s.on (((d.bump .WAITO_TIMEOUT_COUNT f).turnTo f c
        { t with wait := .none, t := true, z := false } (t.pc + 1)).raise (6 + f) 1 3))) ∧
    (∀ w, d.TurnWaits f c t (.burst w) → d.slotBusy f c (bitsOf w 24 2) = false →
      exec (.burstSlotFree f c) s = .next (s.on (d.startBurst t w))) ∧
    (∀ dd m, d.TurnWaits f c t (.waitb dd m) → d.waitbDone t m = true → t.pc < 511 →
      exec (.waitbEnd f c) s = .next (s.on (d.turnTo f c (tWaitbStep { t with wait := .none } dd m) (t.pc + 1)))) ∧
    (∀ fail, d.TurnWaits f c t (.ending fail) → d.anyBusy f c = false →
      exec (.endRecord f c) s = .next (s.on (d.turnRecord t fail)))) ∧
  ∀ (s : State) (f c opc : Nat) (t : Turn) (w : Nat), s.Live → s.dev.TurnAt f c opc t w →
    let d := s.dev
    let e := d.turnBegun f c
    (opc = 0x02 → tCond t (tD w) = true → ∀ p : Nat, (t.pc : Int) + signed 9 (bitsOf w 0 9) = p → p < 512 →
      exec (.turnB f c) s = .next (s.on (e.turnPc f c p))) ∧
    (opc = 0x02 → tCond t (tD w) = false → t.pc < 511 → exec (.turnB f c) s = .next (s.on (e.turnPc f c (t.pc + 1)))) ∧
    (opc = 0x02 → tCond t (tD w) = true → ((t.pc : Int) + signed 9 (bitsOf w 0 9) < 0 ∨ 511 < (t.pc : Int) + signed 9 (bitsOf w 0 9)) →
      exec (.turnB f c) s = .next (s.on (e.turnFault t 0x0521 w))) ∧
    (opc = 0x03 → ∀ v, v = (t.ra (tD w) + (2 ^ 32 - 1)) % 2 ^ 32 → v ≠ 0 → ∀ p : Nat, (t.pc : Int) + signed 9 (bitsOf w 0 9) = p →
      p < 512 → exec (.djnz f c) s = .next (s.on (e.turnTo f c (t.setA (tD w) v) p))) ∧
    (opc = 0x03 → t.ra (tD w) = 1 → t.pc < 511 → exec (.djnz f c) s = .next (s.on (e.turnTo f c (t.setA (tD w) 0) (t.pc + 1)))) ∧
    (opc = 0x01 → d.anyBusy f c = false →
      exec (.turnEnd f c) s = .next (s.on ((e.turnWait t (.ending (bitsOf w 0 1 == 1))).turnRecord t (bitsOf w 0 1 == 1)))) ∧
    (opc = 0x01 → d.anyBusy f c = true →
      exec (.turnEnd f c) s = .next (s.on (e.turnWait t (.ending (bitsOf w 0 1 == 1))))) ∧
    (opc = 0x0E → t.ra (tS w) ≤ e.tnow t → t.pc < 511 →
      exec (.waitt f c) s = .next (s.on (e.turnTo f c { t with wait := .none } (t.pc + 1)))) ∧
    (opc = 0x0E → e.tnow t < t.ra (tS w) → exec (.waitt f c) s = .next (s.on (e.turnWait t (.waitt (t.ra (tS w)))))) ∧
    (opc = 0x0F → ∀ o, e.obj? (t.ra (tS w)) = some o → waitoHits o (t.rb 3) (bitsOf w 0 8) (bitsOf w 16 1 == 1) = true → t.pc < 511 →
      exec (.waito f c) s = .next (s.on (e.turnTo f c { t with wait := .none, t := false, z := false } (t.pc + 1)))) ∧
    (opc = 0x0F → ∀ o, e.obj? (t.ra (tS w)) = some o → waitoHits o (t.rb 3) (bitsOf w 0 8) (bitsOf w 16 1 == 1) = false →
      exec (.waito f c) s = .next (s.on (e.turnWait t (.waito 0 (t.ra (tS w)) (bitsOf w 0 8) (bitsOf w 16 1 == 1)
        (if t.ra (tT w) = 0 then none else some (e.gh.timer + usToTicks (t.ra (tT w)))) false)))) ∧
    (opc = 0x10 → e.slotBusy f c (bitsOf w 24 2) = false → exec (.burst f c) s = .next (s.on (e.startBurst t w))) ∧
    (opc = 0x10 → e.slotBusy f c (bitsOf w 24 2) = true → exec (.burst f c) s = .next (s.on (e.turnWait t (.burst w)))) ∧
    (opc = 0x11 → e.waitbDone t (bitsOf w 0 4) = true → t.pc < 511 → exec (.waitb f c) s =
      .next (s.on (e.turnTo f c (tWaitbStep { t with wait := .none } (tD w) (bitsOf w 0 4)) (t.pc + 1)))) ∧
    (opc = 0x11 → e.waitbDone t (bitsOf w 0 4) = false →
      exec (.waitb f c) s = .next (s.on (e.turnWait t (.waitb (tD w) (bitsOf w 0 4)))))

/-- The ends of a turnout context's waits, an illegal word, the acceptance of a TURNOUT task with the initial state of Table 13-1, and the
program window (R295, R296, R298, R303, R305, R307, R309). -/
def Obligations.TurnoutEventsComplete : Prop :=
  ∀ (s : State) (f c : Nat) (t : Turn), s.Live →
    let d := s.dev
    (∀ v, d.TurnWaits f c t (.waitt v) → v ≤ d.tnow t → t.pc < 511 →
      exec (.waittEnd f c) s = .next (s.on (d.turnTo f c { t with wait := .none } (t.pc + 1)))) ∧
    (∀ o h m b l, d.TurnWaits f c t (.waito o h m b l true) → t.pc < 511 →
      exec (.waitoEnd f c) s = .next (s.on (d.turnTo f c { t with wait := .none, t := false, z := false } (t.pc + 1)))) ∧
    (∀ o h m b l, d.TurnWaits f c t (.waito o h m b l false) → d.obj? h = none → t.pc < 511 →
      exec (.waitoEnd f c) s =
        .next (s.on ((d.bump .WAITO_TIMEOUT_COUNT f).turnTo f c { t with wait := .none, t := true, z := true } (t.pc + 1)))) ∧
    (∀ o h m b l, d.TurnWaits f c t (.waito o h m b (some l) false) → l ≤ d.gh.timer → t.pc < 511 →
      exec (.waitoTimeout f c) s = .next (s.on (((d.bump .WAITO_TIMEOUT_COUNT f).turnTo f c
        { t with wait := .none, t := true, z := false } (t.pc + 1)).raise (6 + f) 1 3))) ∧
    (∀ w, d.TurnWaits f c t (.burst w) → d.slotBusy f c (bitsOf w 24 2) = false →
      exec (.burstSlotFree f c) s = .next (s.on (d.startBurst t w))) ∧
    (∀ dd m, d.TurnWaits f c t (.waitb dd m) → d.waitbDone t m = true → t.pc < 511 →
      exec (.waitbEnd f c) s = .next (s.on (d.turnTo f c (tWaitbStep { t with wait := .none } dd m) (t.pc + 1)))) ∧
    (∀ fail, d.TurnWaits f c t (.ending fail) → d.anyBusy f c = false →
      exec (.endRecord f c) s = .next (s.on (d.turnRecord t fail))) ∧
    (d.TurnNext f c t →
      exec (.turnIllegal f c true) s = .next (s.on (((d.turnServe f c).eccBad 6 (f * 512 + t.pc)).turnEcc t)) ∧
      (d.turnBad t = true →
        exec (.turnIllegal f c false) s = .next (s.on (((d.turnServe f c).eccBad 6 (f * 512 + t.pc)).turnEcc t))) ∧
      (d.turnBad t = false → tIllegal (d.rd (.FLM_PROG t.pc) f) = true →
        exec (.turnIllegal f c false) s = .next (s.on ((d.turnBegun f c).turnFault t 0x0520 (d.rd (.FLM_PROG t.pc) f))))) ∧
    (∀ k x, d.sentTask k.tag 0x40 5 = some k → d.freeCtx k.inst = some x → d.enabled (6 + k.inst) = true →
      d.frozen (6 + k.inst) = false → k.badSvc = false → bitsOf k.w3 60 1 = 0 → bitsOf k.w3 9 27 = 0 →
      let e := (d.acceptTask k.tag).freshCtx k.inst x
      exec (.turnout k.tag) s = .next (s.on { e with flm := { e.flm with turns := e.flm.turns ++ [turnInit k.inst x k] } })) ∧
    (∀ p i v, d.Writes p → f < 32 → i < 512 → (d.flm.turns.any fun t => t.flume == f) = false →
      (d.hg.tasks.any fun t => t.st == 1 && t.cls == 0x40 && t.op == 5 && t.inst == f) = false →
      exec (.turnoutProgramWrite p f i v) s = .next (s.on ((d.wr (.FLM_PROG i) v.toNat f).eccWrite 6 (f * 512 + i)))) ∧
    (∀ p i v, d.Writes p → f < 32 → i < 512 → (d.flm.turns.any fun t => t.flume == f) = true →
      exec (.turnoutProgramWrite p f i v) s = .next (s.on (d.errWr p (6 + f) 1 (0x800 + 4 * i) 0x0513 v.toNat)))

/-- The Sluice lanes compress, escape and expand blocks (R312 to R316, R318 to R320, R324, R326 to R328). -/
def Obligations.SluiceBlocksComplete : Prop :=
  ∀ (s : State) (n : Nat) (b : LaneBlk) (st : Stream) (o : Obj), s.Live →
    let d := s.dev
    let k := st.blk b.rel
    (d.LaneAt n 0 b st o → b.escape = false → ∀ key, d.latchKey o = some key → o.codec = 0 →
      exec (.blockCompress n) s = .next (s.on (((d.bump .BLK_COMP_COUNT n).laneOut b (cutPieces b.rel 16 (k * 65536)
        (key.elim b.data fun x => xtsEncrypt x (tweak o.handle k) b.data))).retryFull))) ∧
    (d.LaneAt n 0 b st o → b.escape = false → ∀ key, d.latchKey o = some key → o.codec ≠ 0 → (b.work o k).2.ovr = false →
      ((b.work o k).1 = false ∨ o.accept = true) →
      exec (.blockCompress n) s = .next (s.on ((d.storeComp b o k (b.work o k).2 (b.work o k).1 key).retryFull))) ∧
    (d.LaneAt n 0 b st o → b.escape = false → ∀ key, d.latchKey o = some key → o.codec ≠ 0 → (b.work o k).2.ovr = true → o.accept = true →
      exec (.blockCompress n) s = .next (s.on ((((d.bump .OVER_COUNT n).raise (38 + n) 0 1).storeComp b o k (b.work o k).2 (b.work o k).1
        key).retryFull))) ∧
    (d.LaneAt n 0 b st o → b.escape = true → ∀ key, d.latchKey o = some key → st.esc < o.escBlocks →
      (d.slc.q.any fun x => x.flume == b.flume && x.ctx == b.ctx && x.slot == b.slot && decide (x.rel < b.rel)) = false →
      (st.full.any fun e => decide (e.1 < b.rel)) = false →
      exec (.escapeDecision n) s = .next (s.on ((d.storeEscape b o k st.esc (b.work o k).2 key).retryFull))) ∧
    (d.LaneAt n 0 b st o → (b.escape = false ∨ o.codec = 0) → d.latchKey o = none →
      (b.escape = false → exec (.blockCompress n) s = .next (s.on ((d.keyFail b).retryFull)))) ∧
    (d.LaneAt n 1 b st o → o.codec = 0 → ∀ key, d.latchKey o = some key → b.data ≠ [] →
      exec (.blockExpand n) s = .next (s.on ((d.laneExpanded b st o
        (key.elim b.data fun x => xtsDecrypt x (tweak o.handle k) b.data)).retryFull))) ∧
    (d.LaneAt n 1 b st o → o.codec ≠ 0 → headerCheck b.data o k = none → ∀ key, d.latchKey o = some key →
      let dec := fun x => key.elim x fun y => if x.isEmpty then x else xtsDecrypt y (tweak o.handle k) x
      (bitsOf (hdrWord b.data 4) 24 1 = 0 →
        let r := expandPayload (bitsOf (hdrWord b.data 4) 25 3) (bitsOf (hdrWord b.data 4) 0 8) (signed 16 (hdrWord b.data 8 / 65536))
          (dec ((b.data.drop 64).take (2 * bitsOf (hdrWord b.data 4) 0 8 * (128 + colsOf o.format))))
        exec (.blockExpand n) s = .next (s.on (((d.countConv o.partner r.2.1 r.2.2).laneExpanded b st o r.1).retryFull))) ∧
      (bitsOf (hdrWord b.data 4) 24 1 = 1 → exec (.blockExpand n) s = .next (s.on ((d.laneExpanded b st o
        (dec (d.placeRd st.src (o.blocks * o.slotSize + 65536 * hdrWord b.data 24) 65536))).retryFull)))) ∧
    (d.LaneAt n 1 b st o → (o.codec = 0 ∨ headerCheck b.data o k = none) → d.latchKey o = none →
      exec (.blockExpand n) s = .next (s.on ((d.keyFail b).retryFull))) ∧
    (d.LaneAt n 1 b st o → o.codec ≠ 0 → ∀ code, headerCheck b.data o k = some code →
      exec (.blockExpand n) s = .next (s.on ((d.checkFail b st k code).retryFull)))

/-- The Sluice's key registers: a slot is selected, sixteen words are staged, a complete key is loaded into an empty slot and cleared, and
LOAD is refused where words are missing, the slot holds a key or its halves are equal (R38, R326 to R329). -/
def Obligations.KeySlotsComplete : Prop :=
  ∀ (s : State) (p : Path), s.Live → s.dev.Writes p →
    let d := s.dev
    let k := keyBytes (d.keyStage p)
    (∀ v : Word, exec (.keySelWrite p v) s = .next (s.on ((d.set .KEY_SEL_SLOT v.toNat).setKeyStage p []))) ∧
    (∀ v, (d.keyStage p).length < 16 → exec (.keyDataWrite p v) s = .next (s.on (d.setKeyStage p (d.keyStage p ++ [v])))) ∧
    (∀ v, 16 ≤ (d.keyStage p).length → exec (.keyDataWrite p v) s = .next (s.on d)) ∧
    (16 ≤ (d.keyStage p).length → d.keyOf (d.get .KEY_SEL_SLOT) = none → k.take 32 ≠ k.drop 32 →
      exec (.keyLoad p) s = .next (s.on ((d.setKeyStage p []).putKey (d.get .KEY_SEL_SLOT) k))) ∧
    ((d.keyStage p).length < 16 → exec (.keyLoad p) s = .next (s.on ((d.setKeyStage p []).errWr p 46 0 0xA8 0x0621 1))) ∧
    (16 ≤ (d.keyStage p).length → (d.keyOf (d.get .KEY_SEL_SLOT)).isSome = true →
      exec (.keyLoad p) s = .next (s.on ((d.setKeyStage p []).errWr p 46 0 0xA8 0x0620 1))) ∧
    (16 ≤ (d.keyStage p).length → d.keyOf (d.get .KEY_SEL_SLOT) = none → k.take 32 = k.drop 32 →
      exec (.keyLoad p) s = .next (s.on ((d.setKeyStage p []).errWr p 46 0 0xA8 0x0622 1))) ∧
    (exec (.keyClear p) s = .next (s.on { d with keys := d.keys.filter fun e => e.1 != d.get .KEY_SEL_SLOT })) ∧
    (∀ v : Word, d.x5 v.toNat d.holdPermitted = false →
      exec (.keyRetainWrite p v) s = .next (s.on (d.wr .KEY_RETAIN (v.toNat % 65536)))) ∧
    (∀ v : Word, d.x5 v.toNat d.holdPermitted = true →
      exec (.keyRetainWrite p v) s = .next (s.on (d.errWr p 46 0 0xB0 0x0024 v.toNat)))

/-- The Siphon: a chain is accepted behind the others, a ready chain starts, a binding that became ready opens the operation, and a tile
executes its descriptor (R353 to R359, R375, R376). -/
def Obligations.SiphonCompletes : Prop :=
  ∀ (s : State), s.Live →
    let d := s.dev
    (∀ t o, d.sentTask t.tag 0x61 1 = some t → d.frozen 63 = false → d.enabled 63 = true → d.chains.length < 16 → t.badChain = false →
      bitsOf t.w1 32 16 < d.rd .SPH_CHAIN_ENTRIES → d.plan.homeLost = false → d.obj? t.object = some o → o.state = oPENDING →
      (d.chains.any fun c => c.handle == o.handle) = false → (d.tilesOf (bitsOf t.w2 48 16)).isEmpty = false →
      d.chainBytes (bitsOf t.w1 32 16) ≤ o.blocks * 65536 →
      let e := (d.acceptTask t.tag).updObj o.handle fun x => { x with liftLock := true }
      exec (.runChain t.tag) s = .next (s.on { e with chains := e.chains ++ [t.chainOf o.handle] })) ∧
    (∀ t, d.sentTask t.tag 0x61 1 = some t → d.frozen 63 = false → d.enabled 63 = true → d.chains.length < 16 →
      (t.badChain = true ∨ d.rd .SPH_CHAIN_ENTRIES ≤ bitsOf t.w1 32 16) →
      exec (.runChain t.tag) s = .next (s.on (d.refuse t.tag cDescParam))) ∧
    (∀ c, d.frozen 63 = false → d.enabled 63 = true → d.auto = [] → d.chains = [c] → c.st = 0 → (d.tilesOf c.mask).isEmpty = false →
      ((d.tilesOf c.mask).all fun t => !d.busyTiles.contains t) = true → c.svc = 0 →
      let e : Dev := { d with pool := { d.pool with
        arb := Sparse.put (fun _ => (1, 0)) d.pool.arb 28 (Sparse.get (fun _ => (1, 0)) d.pool.arb 28) } }
      exec .chainStart s = .next (s.on ((e.updChain c.handle fun x => { x with lost := false }).chainStart { c with lost := false }))) ∧
    (∀ c, d.frozen 63 = false → (d.chains.find? fun x => x.handle == c.handle) = some c → c.st = 2 →
      exec (.bindingReady c.handle) s = .next (s.on ((c.tag.elim d fun t => d.waitEnd t).openOp c).1)) ∧
    (∀ c n, (d.chains.find? fun x => x.st == 1 && x.left.contains n) = some c → d.frozen 63 = false → d.frozen (47 + n) = false →
      d.enabled (47 + n) = true → c.opened = true → c.need = [] → exec (.descriptorExecute n) s = .next (s.on (d.tileFinish n c))) ∧
    (∀ c n, (d.chains.find? fun x => x.st == 1 && x.left.contains n) = some c → d.frozen 63 = false → d.frozen (47 + n) = false →
      d.enabled (47 + n) = true → c.opened = false → (d.openOp c).2 = false →
      exec (.descriptorExecute n) s = .next (s.on (d.openOp c).1)) ∧
    (∀ c n x, (d.chains.find? fun x => x.st == 1 && x.left.contains n) = some c → d.frozen 63 = false → d.frozen (47 + n) = false →
      d.enabled (47 + n) = true → c.opened = false → (d.openOp c).2 = true →
      ((d.openOp c).1.chains.find? fun y => y.handle == c.handle) = some x → x.need = [] →
      exec (.descriptorExecute n) s = .next (s.on ((d.openOp c).1.tileFinish n x)))

/-- The Freeboard observes, publishes and commits its scales (R390 to R396, R402, R405). -/
def Obligations.FreeboardScalesComplete : Prop :=
  ∀ (s : State), s.Live → s.dev.fbFree = true →
    let d := s.dev
    (∀ b rest, d.obsQ = b :: rest → exec .observeBlock s = .next (s.on (({ d with obsQ := rest } : Dev).observeBlock b))) ∧
    (∀ t count, d.sentTask t.tag 0x70 2 = some t → d.enabled fbBlk = true →
      count = (if bitsOf t.w1 44 12 = 0 then 4096 else bitsOf t.w1 44 12) → bitsOf t.w1 32 12 + count ≤ 4096 → bitsOf t.w1 56 8 = 0 →
      t.w2 = 0 → t.w3 = 0 → d.fb.step = some (bitsOf t.w1 0 32) → (d.obsQ.any fun b => b.step == bitsOf t.w1 0 32 &&
        (decide (bitsOf t.w1 32 12 ≤ b.tensor) && decide (b.tensor < bitsOf t.w1 32 12 + count))) = false →
      exec (.publish t.tag) s = .next (s.on ((((List.range count).foldl
        (fun e i => e.publishOne (bitsOf t.w1 0 32) (bitsOf t.w1 32 12 + i)) (d.acceptTask t.tag)).set .HIST_BANK_BANK
          (bitsOf t.w1 0 32 % 2)).served t.tag count))) ∧
    (∀ t count, d.sentTask t.tag 0x70 2 = some t → d.enabled fbBlk = true →
      count = (if bitsOf t.w1 44 12 = 0 then 4096 else bitsOf t.w1 44 12) →
      (4096 < bitsOf t.w1 32 12 + count ∨ bitsOf t.w1 56 8 ≠ 0 ∨ t.w2 ≠ 0 ∨ t.w3 ≠ 0) →
      exec (.publish t.tag) s = .next (s.on (d.refuse t.tag cDescParam))) ∧
    (∀ t count, d.sentTask t.tag 0x70 2 = some t → d.enabled fbBlk = true →
      count = (if bitsOf t.w1 44 12 = 0 then 4096 else bitsOf t.w1 44 12) → bitsOf t.w1 32 12 + count ≤ 4096 → bitsOf t.w1 56 8 = 0 →
      t.w2 = 0 → t.w3 = 0 → d.fb.step ≠ some (bitsOf t.w1 0 32) → (d.obsQ.any fun b => b.step == bitsOf t.w1 0 32) = false →
      exec (.publish t.tag) s = .next (s.on (d.refuse t.tag 0x0803))) ∧
    (∀ t amax u rest, d.fb.commits = (t, amax) :: u :: rest → exec .scaleCommit s =
      .next (s.on ((d.commitOne t amax d.fb.commitStep).updFb fun f => { f with commits := u :: rest }))) ∧
    (∀ t amax, d.fb.commits = [(t, amax)] →
      let e := (((d.commitOne t amax d.fb.commitStep).updFb fun f => { f with commits := [] }).set .FB_STATUS_COMMIT_BUSY 0).raise fbBlk 0 7
      (e.fb.waiting = [] → exec .scaleCommit s = .next (s.on e)) ∧
      (∀ x w, e.fb.waiting = x :: w → exec .scaleCommit s = .next (s.on ((e.updFb fun f => { f with waiting := w }).publish x))))

/-- The Freeboard's votes, verdicts and their windows (R396 to R401). -/
def Obligations.VotesComplete : Prop :=
  ∀ (s : State), s.Live → s.dev.fbFree = true →
    let d := s.dev
    (∀ t, d.sentTask t.tag 0x70 1 = some t → d.enabled fbBlk = true → bitsOf t.w1 33 31 = 0 → t.w2 = 0 → t.w3 = 0 →
      d.fb.missedStep ≠ some (bitsOf t.w1 0 32) → d.EccFree 9 → d.votedStep (bitsOf t.w1 0 32) = false →
      (d.fb.waiting.any fun x => x.step == bitsOf t.w1 0 32) = false → d.fb.step = some (bitsOf t.w1 0 32) →
      (∀ v, d.fb.vote = some v → v.step = bitsOf t.w1 0 32) →
      let e := (d.acceptTask t.tag).computeNorms
      let v := e.fb.vote.getD (Vote.new (bitsOf t.w1 0 32) e.gh.timer)
      let f := bitsOf t.w1 32 1 == 1
      exec (.vote t.tag) s = .next (s.on ((e.updFb fun x => { x with
        vote := some { v with tag := some t.tag, own := some (bit01 (e.fb.voteBit || f)), force := f },
        voted := some (bitsOf t.w1 0 32) }).voteProgress))) ∧
    (∀ t, d.sentTask t.tag 0x70 1 = some t → d.enabled fbBlk = true → bitsOf t.w1 33 31 = 0 → t.w2 = 0 → t.w3 = 0 →
      d.fb.missedStep ≠ some (bitsOf t.w1 0 32) → d.EccFree 9 → d.votedStep (bitsOf t.w1 0 32) = true →
      exec (.vote t.tag) s = .next (s.on (d.refuse t.tag 0x0804))) ∧
    (∀ l m c, d.voteBusy l = false → d.MsgAt l 4 fbBlk m → m.body.length = 12 → m.fld 8 1 < 2 → m.fld 9 3 = 0 → m.msgA = 0 → m.msgB = 0 →
      (d.rxPop l m).get .VOTE_CFG_ENABLE = 1 → (d.rxPop l m).childOf l = some c → (d.rxPop l m).EccFree 9 →
      (d.rxPop l m).decidedStep (m.fld 0 4) = false →
      let e := d.rxPop l m
      let v := e.fb.vote.getD (Vote.new (m.fld 0 4) e.gh.timer)
      exec (.voteMsg l) s = .next (s.on ((e.updFb fun f => { f with
        vote := some { v with kids := Sparse.ins (Sparse.del v.kids c) c (m.fld 4 2, m.fld 6 2, m.fld 8 1) } }).voteProgress))) ∧
    (∀ l m, d.MsgAt l 5 fbBlk m → m.body.length = 16 → m.fld 5 1 = 0 → m.fld 14 2 = 0 → m.fld 4 1 < 4 → m.fld 4 1 ≠ 0 → m.msgA = 0 →
      m.msgB = 0 → (d.rxPop l m).get .VOTE_CFG_ENABLE = 1 → (d.rxPop l m).fromParent l = true →
      let e := (d.rxPop l m).childSets.foldl (fun e x => e.treeSend x 5 0 m.body) (d.rxPop l m)
      ∀ v, e.EccFree 9 → e.fb.vote = some v → v.step = m.fld 0 4 → v.sentAt.isSome = true → e.localStep (m.fld 0 4) = false →
        e.decidedStep (m.fld 0 4) = false →
        exec (.voteResult l) s = .next (s.on (e.publish (v.verdict (m.fld 4 1) (m.fld 6 2) (m.fld 8 2) (m.fld 10 2) false)))) ∧
    (∀ v, d.fb.vote = some v → d.isRoot = true → v.first + usToTicks (d.get .VOTE_WINDOW_WINDOW_US) ≤ d.gh.timer →
      exec .voteWindowClose s = .next (s.on (d.rootDecide v true))) ∧
    (∀ v t, d.fb.vote = some v → v.sentAt = some t → d.isRoot = false → d.decidedStep v.step = false →
      t + usToTicks (d.get .VOTE_WINDOW_RESULT_TIMEOUT_US) ≤ d.gh.timer →
      exec .resultTimeout s = .next (s.on ((((d.bump .RESULT_TIMEOUT_COUNT).raise fbBlk 0 4).updFb fun f =>
        { f with local_ := some v.step }).publish (v.verdict 3 0x0802 v.totals.1 v.totals.2.1 false))))

/-- The Cistern's tasks and timers (R426 to R428, R430, R434 to R436, R438, R441, R443). -/
def Obligations.CisternTasksComplete : Prop :=
  ∀ (s : State), s.Live →
    let d := s.dev
    (∀ t, d.CkReady t 1 → bitsOf t.w1 40 24 = 0 → t.w2 = 0 → d.regionOff t = false →
      ((d.namedRegions t).any fun g => (g.step.map fun x => decide (bitsOf t.w1 0 32 < x)).getD false) = false →
      ((d.namedRegions t).any fun g => g.step == some (bitsOf t.w1 0 32) && g.unprot) = false →
      let e := d.acceptTask t.tag
      exec (.commit t.tag) s = .next (s.on (if e.stepDone t then e.served t.tag 0 else e))) ∧
    (∀ t, d.CkReady t 1 → bitsOf t.w1 40 24 = 0 → t.w2 = 0 → d.regionOff t = true →
      exec (.commit t.tag) s = .next (s.on (d.refuse t.tag cRegionOff))) ∧
    (∀ t, d.CkReady t 2 → bitsOf t.w1 0 32 = 0 → bitsOf t.w1 41 23 = 0 → t.w2 = 0 → d.regionOff t = false →
      exec (.trickle t.tag) s = .next (s.on ((((d.namedRegions t).foldl (fun e g => e.updRegion g.id fun y =>
        { y with still := !(bitsOf t.w1 40 1 == 1) }) d).acceptTask t.tag).served t.tag 0))) ∧
    (∀ t, d.CkReady t 3 → bitsOf t.w1 12 20 = 0 → bitsOf t.w1 41 23 = 0 → d.ck.restore = none → d.regionOff t = true →
      exec (.restore t.tag) s = .next (s.on ((d.set .RESTORE_STATUS_LAST_CAUSE cRegionBusy).refuse t.tag cRegionBusy))) ∧
    (∀ t, d.CkReady t 3 → bitsOf t.w1 12 20 = 0 → bitsOf t.w1 41 23 = 0 → d.ck.restore = none → d.regionOff t = false →
      d.namedRegions t = [] →
      let e := d.acceptTask t.tag
      let rs : Restore :=
        { tag := t.tag, node := bitsOf t.w1 0 12, epoch := t.w2, force := bitsOf t.w1 40 1 == 1, stage := 0, parts := [] }
      exec (.restore t.tag) s = .next (s.on (((({ e with ck := { e.ck with restore := some rs } } : Dev).set .CK_STATUS_RESTORING 1).set
          .RESTORE_STATUS_BUSY 1).wr64 .RESTORE_BYTES_LO 0))) ∧
    (∀ t g, d.CkReady t 3 → bitsOf t.w1 12 20 = 0 → bitsOf t.w1 41 23 = 0 → d.ck.restore = none → d.regionOff t = false →
      d.namedRegions t = [g] → g.point = false →
      (g.objs.any fun h => ((d.objAt (hIndex h)).map Obj.state).getD oFREE != oDRY) = false →
      let e := d.acceptTask t.tag
      let part : RPart := { region := g.id, st := 0, record := [], wet := [], train := [], left := 0, todo := [] }
      let rs : Restore :=
        { tag := t.tag, node := bitsOf t.w1 0 12, epoch := t.w2, force := bitsOf t.w1 40 1 == 1, stage := 0, parts := [part] }
      let r := ((({ e with ck := { e.ck with restore := some rs } } : Dev).set .CK_STATUS_RESTORING 1).set
        .RESTORE_STATUS_BUSY 1).wr64 .RESTORE_BYTES_LO 0
      exec (.restore t.tag) s = .next (s.on (r.lrMsg 7 (bitsOf t.w1 0 12) (g.id * 16 + 4) 0 (leBytes 8 t.w2 ++
        leBytes 2 (r.get .CK_GEN_GEN) ++ leBytes 2 r.plan.leaseMs ++ leBytes 4 (r.manifestCrc g) ++ leBytes 8 (g.blocks * 65536) ++
        leBytes 8 0)))) ∧
    (∀ node, d.asleep = false → (d.ck.regions.any fun g => g.nbrs.any fun y => y.node == node && y.leased &&
        decide (y.sent + msToTicks d.plan.leaseMs / 4 ≤ d.gh.timer)) = true →
      exec (.leaseSendTimer node) s = .next (s.on (d.leaseSend node))) ∧
    (∀ node g x y, d.asleep = false → d.ck.regions = [g] → g.nbrIx = [x] → g.nbrs[x]? = some y → y.node = node → d.silent y = true →
      d.ck.restore = none →
      exec (.leaseLost node) s = .next (s.on ((((d.bump .LEASE_LOST_COUNT).raise ckBlk 0 1).nbrLost g.id x).restoreDone.stuckRelease))) ∧
    (∀ node g x y, d.asleep = false → d.ck.regions = [g] → g.nbrIx = [x] → d.nbr? g.id x = some y → y.node = node → y.st = 3 →
      g.off = false → y.offerAt + msToTicks d.plan.leaseMs ≤ d.gh.timer →
      exec (.reofferTimer node) s = .next (s.on (d.offer g.id x 3 g.openEpoch))) ∧
    (∀ n b0 b1 t ms, d.asleep = false → (d.slot n).lease = some (t, ms) → t + msToTicks ms ≤ d.gh.timer → (d.slot n).bufs = [b0, b1] →
      b0.st = 2 → b1.st = 1 → n < d.ck.slots.length →
      exec (.hostLeaseExpiry n) s = .next (s.on ((d.updSlot n fun y =>
        { y with lease := none, bufs := [{ b0 with st := 3 }, HBuf.reset] }).raise ckBlk 1 0))) ∧
    (∀ p n (v : Word), d.Writes p → n < 8 → d.leaseLive (d.slot n) = false →
      exec (.hostSlotCtrlWrite p n v) s = .next (s.on (((d.updSlot n fun y => { HSlot.reset with place := y.place }).wr
        (.HOST_SLOT_CTRL n) (v.toNat &&& 0x80FF0FFF)).slotPlace n))) ∧
    (∀ p n (v : Word), d.Writes p → n < 8 → d.leaseLive (d.slot n) = true →
      exec (.hostSlotCtrlWrite p n v) s = .next (s.on (d.errWr p ckBlk 1 (0x90 + 16 * n) 0x0910 v.toNat))) ∧
    (∀ p (v : Word) g, d.Writes p → bitsOf v.toNat 8 2 = 1 → d.region? (bitsOf v.toNat 0 4) = some g → g.halted = true →
      exec (.ckRegionResume p v) s = .next (s.on ((d.updRegion g.id fun y => { y with halted := false }).ckProgress g.id)))

/-- What a writer's Cistern does with its neighbours' messages (R420, R431, R432, R435 to R437, R439, R441, R443, R520). -/
def Obligations.CheckpointAnswersComplete : Prop :=
  ∀ (s : State) (l : Nat) (m : Flit), s.Live →
    let d := s.dev
    let e := d.rxPop l m
    let r := bitsOf m.msgA 4 4
    (d.CkMsgAt l 7 8 m → offerOk m = true → m.msgB = 0 → ∀ g x n, e.region? r = some g → e.nbrOf r m.src = some (x, n) →
      n.offer = some (1, m.fld 0 8) →
      let f := e.updNbr r x fun y => { y with offer := none, opened := some (m.fld 0 8), links := [], st := 1 }
      let h := f.ckptData r x manifestBase (f.manifest g)
      let now := (n.job.map CkJob.epoch).getD g.openEpoch
      exec (.ckptOfferAccept l) s = .next (s.on (if m.fld 0 8 ≠ now then h.offer r x 1 now else h.ckProgress r))) ∧
    (d.CkMsgAt l 7 8 m → offerOk m = true → m.msgB = 0 → ∀ g x n, e.region? r = some g → e.nbrOf r m.src = some (x, n) →
      n.offer = some (2, m.fld 0 8) →
      exec (.ckptOfferAccept l) s = .next (s.on ((e.updNbr r x fun y =>
        { y with offer := none, opened := some (m.fld 0 8), links := [] }).ckProgress r))) ∧
    (d.CkMsgAt l 7 9 m → offerOk m = true → ∀ x n, e.nbrOf r m.src = some (x, n) → (n.leased = true ∨ n.fence = true) →
      exec (.ckptOfferRefuse l) s = .next (s.on (e.nbrLost r x).restoreDone.stuckRelease)) ∧
    (d.CkMsgAt l 9 2 m → m.body.length = 16 → m.msgB = 0 → bitsOf m.msgA 8 16 = 0 → m.fld 10 6 = 0 → ∀ x n j,
      e.nbrOf r m.src = some (x, n) → n.job = some j → j.stage = 2 → j.epoch = m.fld 0 8 → n.st ≠ 2 →
      exec (.ckptCommitAck l) s = .next (s.on ((((((e.updNbr r x fun y => { y with job := none, opened := none, links := [], st := 1 }
        ).updRegion r fun g => { g with commit := g.commit.map fun (c : CkPoint) =>
          if c.epoch = j.epoch then { c with wait := c.wait.erase x, acked := true } else c }).commitCheck r).offerOpen r).ckProgress r)))) ∧
    (d.CkMsgAt l 9 3 m → m.body.length = 64 → m.msgB = 0 → bitsOf m.msgA 12 12 = 0 → ∀ t g p, e.ck.restore = some t →
      e.region? r = some g → e.part? r = some p → t.node = m.src → p.st = 0 → bitsOf m.msgA 8 4 ≠ 4 →
      (bitsOf m.msgA 8 4 ≠ 3 ∨ t.force = true) → crc32c (m.body.take 0x3C) = recFld m.body 0x3C 4 → recFld m.body 0x28 4 ≤ trainMax →
      let tb := recFld m.body 0x28 4
      exec (.ckptCommitRecord l) s = .next (s.on (((e.updPart r fun q =>
        { q with st := 1, record := m.body, wet := List.replicate (2 * g.blocks) 0, train := List.replicate tb 0 }).imageRead r 1 wetBase
          (2 * g.blocks)).imageRead r 2 trainBase tb))) ∧
    (d.CkMsgAt l 9 4 m → m.body = [] → (m.msgB = 0x0902 ∨ m.msgB = 0x0904) → bitsOf m.msgA 8 16 = 0 → ∀ t p, e.ck.restore = some t →
      e.part? r = some p → t.node = m.src → p.st = 0 → exec (.ckptCommitNoRecord l) s = .next (s.on (e.restoreFail m.msgB))) ∧
    (d.CkMsgAt l 10 2 m → m.body.length = 8 → m.msgB = 0 → bitsOf m.msgA 4 20 = 0 → m.fld 6 2 = 0 → ∀ g y, e.ck.regions = [g] →
      g.nbrs = [y] → y.node = m.src → y.asked = true → bitsOf (m.fld 0 2) g.id 1 = 1 →
      exec (.leaseAnswer l) s = .next (s.on { e with ck := { e.ck with
        regions := [{ g with nbrs := [{ y with ans := e.gh.timer, asked := false }] }] } })) ∧
    (d.CkMsgAt l 11 2 m → m.body.length = 16 → m.msgB = 0 → bitsOf m.msgA 8 16 = 0 → m.fld 10 6 = 0 → ∀ g x, e.region? r = some g →
      (g.nbrs.findIdx? fun n => n.node == m.src && n.fence) = some x →
      exec (.fenceAck l) s = .next (s.on (e.updNbr r x fun n => { n with fence := false }).restoreDone))

/-- What a hosting Cistern does with a writer's messages (R430, R432 to R434, R440). -/
def Obligations.HostingCompletes : Prop :=
  ∀ (s : State) (l : Nat) (m : Flit), s.Live →
    let d := s.dev
    let e := d.rxPop l m
    let r := bitsOf m.msgA 4 4
    (∀ op cmd, (op = 1 ∧ cmd = Instr.ckptOfferFirst l) ∨ (op = 2 ∧ cmd = Instr.ckptOfferEpoch l) ∨ (op = 3 ∧ cmd = Instr.ckptOfferRejoin l) →
      d.CkMsgAt l 7 op m → d.canReply m.src 1 = true → offerOk m = true → m.msgB = 0 →
      (e.slotFor m.src r = none → exec cmd s = .next (s.on (e.hostRefuse m.src r (m.fld 0 8) (m.fld 8 2) cNoSlot))) ∧
      (∀ n, e.slotFor m.src r = some n → (e.slot n).gen ≤ m.fld 8 2 → slotNeed (m.fld 16 8) ≤ ((e.slot n).place.map Place.size).getD 0 →
        (e.slot n).last ≠ some (op, m.fld 0 8, m.fld 8 2) →
        (op = 2 → ((e.slot n).buf ((m.fld 0 8 + 1) % 2)).st = 2 ∧ ((e.slot n).buf ((m.fld 0 8 + 1) % 2)).epoch + 1 = m.fld 0 8) →
        exec cmd s = .next (s.on (e.hostAccept n op m)))) ∧
    (d.CkMsgAt l 7 4 m → d.canReply m.src 3 = true → offerOk m = true → m.msgB = 0 → ∀ n b, e.slotFor m.src r = some n →
      b = (e.slot n).buf (m.fld 0 8 % 2) → b.epoch = m.fld 0 8 → (b.st = 2 ∨ b.st = 3) →
      exec (.ckptOfferQuery l) s = .next (s.on (e.lrMsg 9 m.src (b.st * 256 + r * 16 + 3) 0 b.record))) ∧
    (d.CkMsgAt l 8 (bitsOf m.msgA 0 4) m → m.body ≠ [] → m.body.length % 16 = 0 → ∀ n b, e.slotFor m.src (bitsOf m.msgB 12 4) = some n →
      (e.slot n).filling = some b → bitsOf m.msgB 10 2 = (e.slot n).gen % 4 → (e.slot n).area m.off m.body.length = some 0 →
      exec (.ckptData l) s = .next (s.on (e.wbs spHost (hostKey n b m.off) m.body))) ∧
    (d.CkMsgAt l 9 1 m → m.body.length = 64 → m.msgB = 0 → bitsOf m.msgA 8 16 = 0 → ∀ n ep g b, e.slotFor m.src r = some n →
      ep = recFld m.body 0x10 8 → g = recFld m.body 10 2 → b = (e.slot n).buf (ep % 2) → (e.slot n).gen ≤ g → b.st = 1 → b.epoch = ep →
      exec (.ckptCommitCommit l) s = .next (s.on (((e.updSlot n fun y => y.setBuf (ep % 2) { b with st := 2, record := m.body }).lrMsg 9
        m.src (r * 16 + 2) 0 (leBytes 8 ep ++ leBytes 2 g ++ leBytes 6 0)).raise ckBlk 1 3))) ∧
    (d.CkMsgAt l 10 1 m → m.body.length = 8 → m.msgB = 0 → bitsOf m.msgA 4 20 = 0 → m.fld 6 2 = 0 → m.fld 0 2 = 1 → ∀ n,
      e.slotFor m.src 0 = some n → (e.slot n).gen ≤ m.fld 2 2 →
      exec (.leaseRenew l) s = .next (s.on ((e.updSlot n fun y => { y with lease := some (e.gh.timer, m.fld 4 2) }).lrMsg 10 m.src 2 0
        (leBytes 2 1 ++ leBytes 2 (m.fld 2 2) ++ leBytes 2 (m.fld 4 2) ++ leBytes 2 0)))) ∧
    (d.CkMsgAt l 11 1 m → m.body.length = 16 → m.msgB = 0 → bitsOf m.msgA 8 16 = 0 → m.fld 10 6 = 0 → ∀ n, e.slotFor m.src r = some n →
      (e.slot n).gen ≤ m.fld 8 2 →
      let hit := fun (b : HBuf) => b.st != 0 && b.st != 4 && decide (b.gen < m.fld 8 2) && decide (m.fld 0 8 ≤ b.epoch)
      let f := e.updSlot n fun y =>
        { y with gen := m.fld 8 2, bufs := y.bufs.map fun b => if hit b then { b with st := 4 } else b }
      exec (.fenceFence l) s = .next (s.on ((if (e.slot n).bufs.any hit then f.raise ckBlk 1 1 else f).lrMsg 11 m.src (r * 16 + 2) 0 m.body)))

/-- Accesses of a partner to its window, its register block and the gate mirror; a held read is served when its hold ends or expires
(R447 to R460, R463, R464). -/
def Obligations.PartnerAccessesComplete : Prop :=
  ∀ (s : State) (p : Nat), s.Live → s.dev.InRun → s.dev.portUp p = true →
    let d := s.dev
    (∀ a data, exec (.partnerWindowWrite p a data false) s = .next (s.on ((cutAt 4096 (data.length + 1) a 0 data.length).foldl (fun e x =>
      e.pWritePart p (a + x.1) ((data.drop x.1).take x.2)) ((d.touchBlocks p a data.length).pWriteBad p a data.length)))) ∧
    (∀ a data, exec (.partnerWindowWrite p a data true) s = .next (s.on ((d.touchBlocks p a data.length).pViol p 0x0A06 a
      ((((d.touchBlocks p a data.length).objectAt p a).map fun x => x.1.handle).getD 0)))) ∧
    (∀ a len tid, (d.touchBlocks p a len).waitsFor p a len = none →
      ((readParts a len).filterMap fun x => match (d.touchBlocks p a len).readPart p (a + x.1) with
        | .hold h => some (a + x.1, h)
        | _ => none) = [] → (d.touchBlocks p a len).frozen (ppb p) = false →
      exec (.partnerWindowRead p a len tid false) s = .next (s.on ((d.touchBlocks p a len).pServe p a len tid))) ∧
    (∀ off, off < 0x800000 → ∀ tid size, ((size = 8 ∧ off % 8 = 0) ∨ (size = 4 ∧ off % 4 = 0)) →
      (∀ g, d.gateOf p (0x800000 + off) = some g → exec (.gateMirrorRead p off size tid) s =
        .next (s.on (d.emit (.partner p tid 0 (((leBytes 8 g).drop (off % 8)).take size))))) ∧
      (d.gateOf p (0x800000 + off) = none → exec (.gateMirrorRead p off size tid) s =
        .next (s.on ((d.pViol p 0x0A08 (0x800000 + off) (off / 8)).emit (.partner p tid 0 (List.replicate size 0)))))) ∧
    (∀ off, off < 0x20000 → off % 4 = 0 → off ≠ 0x20 → ∀ tid, exec (.portRegisterBlockAccess p off 4 none tid) s =
      .next (s.on (d.emit (.partner p tid 0 (leBytes 4 (d.portWord p off)))))) ∧
    (∀ v tid, exec (.portRegisterBlockAccess p 0 4 (some v) tid) s = .next (s.on (d.pMark p (v % 2 ^ 32)))) ∧
    (∀ v : Word, exec (.markDoorbell p 0 4 v) s = .next (s.on (d.pMark p v.toNat))) ∧
    (∀ (v : Word) off size, (off ≠ 0 ∨ size ≠ 4) → exec (.markDoorbell p off size v) s = .next (s.on (d.pViol p 0x0A02 off 0))) ∧
    (∀ h, h < 4 → ∀ v : Word, exec (.hintWrite p h v) s =
      .next (s.on (((d.wr (.HINT h) v.toNat p).bump .HINT_COUNT p).raise (ppb p) 0 3))) ∧
    (∀ a, exec (.memspecrd p a) s = .next s) ∧
    (∀ a tid, d.portCxl p = true → exec (.memUnsupported p a tid true) s =
      .next (s.on ((d.pViol p 0x0A0C a 0).pAnswer p tid (List.replicate 64 0) true))) ∧
    (∀ r tid e, d.stuckRelease = e → (d.reads.find? fun r => r.port == p && r.tid == tid) = some r →
      (e.reads.filter fun r => r.port == p && r.tid == tid) = [r] →
      let f := e.touchBlocks r.port r.addr r.len
      (f.reads.find? fun r => r.port == p && r.tid == tid) = some r → f.waitsFor p r.addr r.len = none → f.frozen (ppb p) = false →
      f.asleep = false → exec (.heldReadRelease p tid) s = .next (s.on ((f.holdEnd r r.cause).pServe p r.addr r.len tid))) ∧
    (∀ r tid, (d.reads.find? fun r => r.port == p && r.tid == tid) = some r →
      r.since + usToTicks (d.get .STALL_LIMIT_PARTNER) ≤ d.gh.timer → d.movePathFailed r.handle = false →
      exec (.readExpired p tid) s = .next (s.on (((d.holdEnd r r.cause).raise 5 0 7).pAnswer p tid (List.replicate r.len 0)
        (((d.obj? r.handle).map Obj.poison).getD false))))

/-- The partner's link: down, a hold that expires, up again, PERST and a function level reset; its decoders and its mailbox (R445, R446,
R461, R462, R465). -/
def Obligations.PartnerLinkCompletes : Prop :=
  ∀ (s : State) (p : Nat), s.Live → p < 8 →
    let d := s.dev
    (d.portUp p = true → exec (.partnerLinkDown p) s = .next (s.on (((((((d.set .PORT_STATUS_LINK 4 p).set .PORT_STATUS_MODE 0 p).bump
      .PP_RETRAIN_COUNT p).updPort p fun x => { x with hold := some d.gh.timer }).raise (ppb p) 0 0).tracePort p)))) ∧
    (∀ w r, d.mayTrain 8 (p, (40 + p, ppb p)) r = true → d.portUp p = false → 8 ≤ d.boot.next → d.get .PORT_STATUS_LINK p ≠ 4 → (d.port p).last = 0 →
      let e := ((((d.set .PORT_HOLD_HOLD_LEFT_MS 0 p).set .PORT_STATUS_LINK 2 p).set .PORT_STATUS_MODE 1 p).set .PORT_STATUS_WIDTH w p).set
        .PORT_STATUS_RATE r p
      let f := e.updPort p fun x => { x with hold := none, last := 1 }
      let g : Dev := { f with pins := { f.pins with ppPerst := putBits f.pins.ppPerst p 1 1 } }
      exec (.partnerLinkUp p w r true) s = .next (s.on (((g.portTrained p 0 1 w r).raise (ppb p) 0 1).tracePort p))) ∧
    (d.get .PORT_STATUS_LINK p = 4 → d.holdLeft p = 0 →
      let e := (((d.set .PORT_STATUS_LINK 5 p).set .PORT_HOLD_HOLD_LEFT_MS 0 p).updPort p fun x => { x with hold := none }).bump
        .HOLD_EXPIRE_COUNT p
      exec (.partnerHoldExpiry p) s = .next (s.on ((((((e.objs.map (·.2)).filter fun o => o.partner == p && !o.stateWin).foldl (fun f o =>
        f.retire o.handle) e).raise (ppb p) 0 2).tracePort p).ledgerEvent 2 0 (unitWord (ppb p))))) ∧
    (bitsOf d.pins.ppPerst p 1 = 1 → d.asleep = false → exec (.ppPerstNFall p) s = .next (s.on
      ((({ d with pins := { d.pins with ppPerst := putBits d.pins.ppPerst p 1 0 } } : Dev).partnerReset p).partnerDown p))) ∧
    (d.portUp p = true → exec (.partnerConfigRequest p true) s = .next (s.on (d.partnerReset p))) ∧
    (d.portUp p = true → d.portCxl p = true → ∀ base size, size % 2 ^ 28 = 0 → size ≤ 2 ^ 40 →
      let e := d.wr .HDM_SIZE_0 (size / 2 ^ 28) p
      exec (.hdmDecoderCommit p 0 base size 1 0) s = .next (s.on ((e.set .HDM_STATUS_COMMITTED (putBits (d.get .HDM_STATUS_COMMITTED p) 0 1
        1) p).updPort p fun x => { x with bases := x.bases.set 0 base }))) ∧
    (d.portUp p = true → d.portCxl p = true → ∀ k base size ways skip, k < 2 → (ways ≠ 1 ∨ skip ≠ 0 ∨ size % 2 ^ 28 ≠ 0 ∨ 2 ^ 40 < size) →
      exec (.hdmDecoderCommit p k base size ways skip) s = .next (s.on ((d.pViol p 0x0A0B 0 0).emit (.mailbox p 0 false [k])))) ∧
    (d.portUp p = true → d.portCxl p = true →
      exec (.getEventRecords p 0) s = .next (s.on (d.emit (.mailbox p 0x0100 true ((d.port p).info.flatMap CxlEvent.vals)))) ∧
      exec (.getEventRecords p 1) s = .next (s.on (d.emit (.mailbox p 0x0100 true ((d.port p).warn.flatMap CxlEvent.vals)))) ∧
      (∀ n, exec (.clearEventRecords p 0 n) s = .next (s.on ((d.updPort p fun x => { x with info := x.info.drop n }).mailbox p 0x0101 true
        []))) ∧
      exec (.getSupportedLogs p) s = .next (s.on (d.emit (.mailbox p 0x0400 true [1]))) ∧
      exec (.getLog p) s = .next (s.on (d.emit (.mailbox p 0x0401 true mailboxOps))) ∧
      exec (.identifyMemoryDevice p) s = .next (s.on (d.emit (.mailbox p 0x4000 true [8192, 8192, 0, 0]))) ∧
      exec (.getHealthInfo p) s = .next (s.on (d.emit (.mailbox p 0x4200 true [unsigned 16 (signed 16 (d.get .TJ_NOW_TJ) / 4)]))) ∧
      (∀ op, mailboxOps.contains op = false → exec (.mailboxUnsupported p op) s = .next (s.on (d.emit (.mailbox p op false [])))))

/-- The host's link, resets, configuration requests, BAR-2 and BAR-4 accesses and ATS invalidations (R469 to R482, R488, R491, R493). -/
def Obligations.HostCommandsComplete : Prop :=
  ∀ (s : State), s.Live →
    let d := s.dev
    (d.hostUp = true → exec (.hostReset .hot) s = .next (s.on (((d.hostLink 1).hostReset.raise hostBlk 0 0).raise hostBlk 0 2)) ∧
      exec (.hostReset .flr) s = .next (s.on (d.hostReset.raise hostBlk 0 2))) ∧
    (d.pins.hostPerst = true → d.asleep = false → d.hostUp = false →
      let e : Dev := { d with pins := { d.pins with hostPerst := false } }
      exec (.hostReset .perst) s = .next (s.on (((e.hostLink 0).hostReset.raise hostBlk 0 2)))) ∧
    (d.pins.hostPerst = false → d.bootPast 3 = true → d.hostless = false →
      exec .hostPerstRelease s = .next (s.on (({ d with pins := { d.pins with hostPerst := true } } : Dev).hostLink 1))) ∧
    (d.get .HOST_LINK_STATE = 1 → d.pins.hostPerst = true → ∀ w r, exec (.hostLinkUp w r) s =
      .next (s.on (((((d.set .HOST_LINK_WIDTH w).set .HOST_LINK_RATE r).hostLink 2).raise hostBlk 0 1).t3Update))) ∧
    (d.hostUp = true → d.retryStatus = true → ∀ c tid, exec (.hostConfigRequest c tid) s = .next (s.on (d.emit (.host tid 4 [])))) ∧
    (d.hostUp = true → d.retryStatus = false → ∀ tid,
      exec (.hostConfigRequest (.read 0) tid) s =
        .next (s.on (d.emit (.host tid 0 (leBytes 4 (0x4460 * 65536 + Config.vendorId () % 65536))))) ∧
      (∀ on, exec (.hostConfigRequest (.bme on) tid) s =
        .next (s.on (((d.set .HOST_LINK_BME (bit01 on)).t3Update).emit (.host tid 0 [])))) ∧
      exec (.hostConfigRequest .other tid) s = .next (s.on (d.emit (.host tid 0 [])))) ∧
    (d.hostUp = true → d.InRun → ∀ v w (x : Word), v < 256 → w < 4 → exec (.msiXTableWrite v w x) s =
      .next (s.on (({ d with msix := { d.msix with tbl := Sparse.put msixDefault d.msix.tbl (4 * v + w) x } } : Dev).sendPending v))) ∧
    (d.hostUp = true → d.InRun → ∀ a len tid, a < 2 ^ 36 →
      let e := d.touchEntry (hIndex (d.rd (.AP_BIND (a / 2 ^ 32))))
      (e.apTarget a len = .error 0x0B02 → exec (.apertureRead a len tid) s =
        .next (s.on ((e.apFault (a / 2 ^ 32) 0x0B02).emit (.host tid 0 (List.replicate len 0))))) ∧
      (∀ c, c ≠ 0x0B02 → e.apTarget a len = .error c → exec (.apertureRead a len tid) s =
        .next (s.on ((e.apFault (a / 2 ^ 32) c).emit (.host tid 2 [])))) ∧
      (∀ o off, e.apTarget a len = .ok (o, off) → o.state ≠ oFILLING → o.state ≠ oWET → o.state ≠ oSEALED → o.state ≠ oREADY →
        exec (.apertureRead a len tid) s = .next (s.on ((e.apFault (a / 2 ^ 32) 0x0B05).emit (.host tid 2 []))))) ∧
    (d.hostUp = true → d.InRun → ∀ a (data : List (Option Byte)) o off, a < 2 ^ 36 →
      let e := d.touchEntry (hIndex (d.rd (.AP_BIND (a / 2 ^ 32))))
      e.apTarget a data.length = .ok (o, off) → e.get (.AP_CTRL_WR_EN (a / 2 ^ 32)) ≠ 0 → o.writable = true →
      exec (.apertureWrite a data) s = .next (s.on ((cutAt 4096 (data.length + 1) off 0 data.length).foldl (fun f x =>
        ((f.obj? o.handle).elim f fun y => f.granuleWrite y (off + x.1) ((data.drop x.1).take x.2))) e))) ∧
    (d.hostUp = true → ∀ g a len, exec (.atsInvalidation g a len) s = .next (s.on { d with host := { d.host with inv := d.host.inv ++
      [{ itag := g, since := d.gh.timer, waits := d.flm.streams.filterMap fun x => d.invalWait x a len }] } })) ∧
    (∀ g x, (d.host.inv.find? fun x => x.itag == g) = some x → d.invalHeld x = [] → exec (.atsInvalidationComplete g) s =
      .next (s.on ((({ d with host := { d.host with inv := d.host.inv.filter fun y => y.itag != g } } : Dev).bump .ATS_INVAL_COUNT).emit
        (.ats g))))

/-- Completion errors on tier reads and the expanders' links (R484 to R487, R489). -/
def Obligations.ExpanderEventsComplete : Prop :=
  ∀ (s : State), s.Live →
    let d := s.dev
    (∀ f c k x i, d.stream? (f, c, k) = some x → x.nextRead = some i → x.src.tier = 2 → ∀ er,
      let e := if er = CplErr.poison then (d.bump .POISON_RX_COUNT x.src.unit).raise (expb x.src.unit) 0 2 else d.bump .CPL_ERR_COUNT x.src.unit
      let g := (e.updStream x.key fun y => { y with rdq := y.rdq.filter fun e => e.1 != i }).streamTierFail x
      exec (.tierCompletionError f c k er) s = .next (s.on (g.issueAll f))) ∧
    (∀ f c k x i, d.stream? (f, c, k) = some x → x.nextRead = some i → x.src.tier = 3 → ∀ er,
      let e := ({ d.bump .T3_CPL_ERR_COUNT with host := { d.host with cpl := true } } : Dev).t3Update
      let g := (e.updStream x.key fun y => { y with rdq := y.rdq.filter fun e => e.1 != i }).streamTierFail x
      exec (.tierCompletionError f c k er) s = .next (s.on (g.issueAll f))) ∧
    (∀ e, e < 4 → 2 ≤ d.get .EXP_STATUS_STATE e → d.get .EXP_STATUS_STATE e ≤ 4 →
      exec (.expanderLinkDown e) s = .next (s.on (((((((d.expLink e 1).bump .EXP_RETRAIN_COUNT e).set .EXP_STATUS_PATH_FAILED 1 e).setDown e
        (some d.gh.timer)).raise (expb e) 0 0).setPath 2 e true)))) ∧
    (∀ e w r fl, e < 4 → d.mayTrain 9 (e, (48 + e, expb e)) r = true → (d.get .EXP_STATUS_STATE e = 1 ∨ d.get .EXP_STATUS_STATE e = 6) →
      let x := ((d.set .EXP_STATUS_WIDTH w e).set .EXP_STATUS_RATE r e).set .EXP_STATUS_FLIT256 (bit01 fl) e
      let y := ((x.expLink e 2).set .EXP_STATUS_PATH_FAILED 0 e).setDown e none
      exec (.expanderLinkUp e w r fl) s =
        .next (s.on (((y.raise (expb e) 0 1).setPath 2 e false).mapParam (expb e) 16 (r * 256 + w)))) ∧
    (∀ e t, (d.exp e).down = some t → d.get .EXP_STATUS_STATE e = 1 → t + msToTicks (d.get .EXP_DOWN_LIMIT_MS e) ≤ d.gh.timer →
      d.present (expb e) = true →
      let x := d.wr64 (.CAPACITY_T_LO 2) (d.rd64 (.CAPACITY_T_LO 2) - d.unitCap 2 e)
      let y := ((x.expLink e 5).setDown e none).disableUnit (expb e) 0x0B10
      let z : Dev := { y with pins := { y.pins with expPerst := putBits y.pins.expPerst e 1 0 } }
      exec (.expanderDownLimit e) s = .next (s.on (((z.raise (expb e) 0 3).damageUnit 2 e).emptySlots 2 e))) ∧
    (∀ e w n, e < 4 → d.asleep = false → d.get .EXP_STATUS_STATE e = 2 → n ≠ 0 →
      exec (.expanderEventPoll e w n) s =
        .next (s.on (((d.bumpBy .EXP_WARN_COUNT w e).bumpBy .EXP_FAIL_COUNT n e).raise (expb e) 0 4)))

/-- Link-local flits of a lateral link, each taken from the front (R496, R499, R502 to R506). -/
def Obligations.LinkFlitsComplete : Prop :=
  ∀ (s : State) (l : Nat) (m : Flit), s.Live →
    let d := s.dev
    let e := d.localPop l
    (d.LocalAt l tNAK 0 m → ∀ i, (((e.bump .NAK_RX_COUNT l).link l).replay.findIdx? fun x => x.seq == bitsOf m.msgA 0 12) = some i →
      ((e.bump .NAK_RX_COUNT l).lstate l = 6 → exec (.nak l) s = .next (s.on ((e.bump .NAK_RX_COUNT l).linkReplay l i))) ∧
      ((e.bump .NAK_RX_COUNT l).lstate l ≠ 6 → exec (.nak l) s = .next (s.on (e.bump .NAK_RX_COUNT l)))) ∧
    (d.LocalAt l tCREDIT 0 m → exec (.credit l) s = .next (s.on ((e.updLink l fun x =>
      { x with freed := (List.range 4).map fun v => leNat ((m.body.drop (2 * v)).take 2) }).linkPump l))) ∧
    (d.LocalAt l tCTL 1 m → leNat (m.body.take 1) ≠ 1 → exec (.param l) s = .next (s.on (e.linkFail l 5))) ∧
    (d.LocalAt l tCTL 1 m → leNat (m.body.take 1) = 1 →
      let at_ := fun o n => leNat ((m.body.drop o).take n)
      at_ 1 2 % 4096 ≠ e.lr.node → at_ 12 1 % 4 = e.get .LL_STATUS_LANES l →
      at_ 12 1 / 16 = (if e.get .LL_STATUS_RATE l = 224 then 2 else if e.get .LL_STATUS_RATE l = 112 then 1 else 0) →
      exec (.param l) s = .next (s.on ((((((e.set .LL_PEER_NODE (at_ 1 2 % 4096) l).set .LL_PEER_LINK_INDEX (at_ 3 1) l).updLink l fun x =>
        { x with cred := (List.range 4).map fun v => at_ (4 + 2 * v) 2, gotParam := true }).linkCtl l 2 0).paramDone l)))) ∧
    (d.LocalAt l tCTL 2 m → exec (.paramAck l) s = .next (s.on ((e.updLink l fun x => { x with gotAck := true }).paramDone l))) ∧
    (d.LocalAt l tCTL 3 m → (e.linkCtl l 4 0).lstate l = 6 → (e.linkCtl l 4 0).get .LL_STATUS_LANES l = 2 →
      exec (.laneDrop l) s = .next (s.on ((e.linkCtl l 4 0).laneKeep l (bitsOf m.msgA 0 1)))) ∧
    (d.LocalAt l tCTL 4 m → ∀ lane, (e.link l).dropTo = some lane → e.get .LL_STATUS_LANES l = 2 →
      exec (.laneDropAck l) s = .next (s.on (e.laneKeep l lane))) ∧
    (d.LocalAt l tCTL 5 m → exec (.lpReq l) s = .next (s.on ((e.updLink l fun x => { x with lpOwe := true }).linkLp l))) ∧
    (d.LocalAt l tCTL 6 m → e.lstate l = 6 → (e.link l).lpSent = true → exec (.lpAck l) s = .next (s.on (e.linkSleep l))) ∧
    (d.LocalAt l tCTL 7 m → ∀ i, ((e.link l).replay.findIdx? fun g => g.seq == bitsOf m.msgA 0 12) = some i →
      let f := e.updLink l fun y => { y with resume := false, replay := (e.link l).replay.drop i, nextSeq := (e.link l).nextSeq }
      exec (.linkResume l) s = .next (s.on ((f.linkSend l (f.link l).replay).linkPump l)))

/-- A lateral link's receiver, timers and training (R494, R496 to R501, R503, R506 to R513). -/
def Obligations.LinkEventsComplete : Prop :=
  ∀ (s : State) (l : Nat), s.Live →
    let d := s.dev
    (∀ lanes, 4 ≤ d.lstate l → d.lstate l ≤ 6 → exec (.fecGroupReceive l lanes) s = .next (s.on (d.groupRx l lanes))) ∧
    (d.lstate l = 6 → (d.link l).nak.isSome = true → d.passed (d.link l).nakAt 1000 = true →
      exec (.nakRepeatTimer l) s = .next (s.on (d.nakSend l))) ∧
    (d.lstate l = 6 → d.passed (d.link l).ackAt (d.get .LL_ACK_TIMEOUT_NS l) = true →
      exec (.ackTimeout l) s = .next (s.on (d.linkReplay l 0))) ∧
    (d.lstate l = 6 → d.creditDue (d.link l) = true → exec (.creditSend l) s = .next (s.on (d.creditSend l))) ∧
    (d.lstate l = 1 → exec (.energyDetect l) s = .next (s.on (d.linkCdr l (d.linkRate l)))) ∧
    (∀ bits peer eq, (d.lstate l = 2 ∨ d.lstate l = 3) → exec (.tsFrame l bits peer eq) s = .next (s.on (d.tsFrame l bits peer eq))) ∧
    ((d.link l).exit = false →
      (d.lstate l = 2 → d.passed (d.link l).stAt 2000000 = true → (d.link l).locked = 0 →
        exec (.trainTimeout l) s = .next (s.on (d.linkLower l 1))) ∧
      (d.lstate l = 3 → d.passed (d.link l).stAt 10000000 = true → exec (.trainTimeout l) s = .next (s.on (d.linkLower l 2))) ∧
      (d.lstate l = 4 → d.passed (d.link l).stAt 1000000 = true → (d.link l).again = true →
        exec (.trainTimeout l) s = .next (s.on (d.linkLower l 3)))) ∧
    ((d.link l).exit = true → (d.lstate l = 2 ∨ d.lstate l = 4) → d.passed (d.link l).exitAt 90000 = true →
      exec (.trainTimeout l) s = .next (s.on ((d.updLink l fun y => { y with exit := false }).linkCdr l (d.link l).rate))) ∧
    (d.lstate l = 8 → d.passed (d.link l).stAt (1000000 * d.get .LL_RETRY_MS_MS l) = true → d.present (lnk l) = true →
      bitsOf (d.get .LR_QUARANTINED_LINKS) l 1 = 0 → exec (.linkRetryTimer l) s = .next (s.on (d.linkSet l 1))) ∧
    (d.lstate l = 6 → (d.link l).winAt + usToTicks (d.get .FEC_WINDOW_US l) ≤ d.gh.timer →
      ∀ a b u, (d.link l).win = [a, b, u] → d.get .FEC_THRESH_CORR l ≤ a + b →
      let e := d.updLink l fun x => { x with win := [0, 0, 0], winAt := d.gh.timer, wrote := false, cleanSince := d.gh.timer }
      exec (.fecWindow l) s = .next (s.on (e.degrade l a b (d.link l).wrote))) ∧
    (d.lstate l = 6 → d.get .LL_PROMOTE_EN l = 1 → (d.link l).cleanSince + 19200000 * d.get .LL_PROMOTE_PERIOD_S l ≤ d.gh.timer →
      let rate := d.get .LL_STATUS_RATE l
      let e := (d.set .LL_RATE_SHADOW_RATE (min 224 (2 * rate)) l).rateCheck l rate
      let f := e.updLink l fun y => { y with cleanSince := e.gh.timer }
      (e.linkRate l ≠ rate ∨ d.get .LL_STATUS_LANES l ≠ 2) →
      exec (.promotePeriod l) s = .next (s.on ((((f.bump .PROMOTE_COUNT l).raise (lnk l) 0 3).linkRetrain l (e.linkRate l)).updLink l fun y =>
        { y with old := some (rate, d.get .LL_STATUS_LANE_MASK l) }))) ∧
    (∀ p (v : Word), l < 24 → d.Writes p → bitsOf (v ||| 4).toNat 0 2 ≠ 0 → bitsOf (v ||| 4).toNat 2 1 = 1 →
      let e := (d.set .LL_CTRL_LANE_ALLOW (bitsOf (v ||| 4).toNat 0 2) l).updLink l fun x => { x with wrote := true }
      2 ≤ e.lstate l → e.lstate l ≤ 6 →
      exec (.retrain p l v) s = .next (s.on ((e.rateCheck l (e.get .LL_RATE_APPLIED_RATE l)).linkRetrain l (e.linkRate l)))) ∧
    (d.lstate l = 7 → exec (.linkWakeSignal l) s =
      .next (s.on (((d.updLink l fun y => { y with exit := true, exitAt := d.gh.timer }).linkCdr l (d.link l).rate).wake 4)))

/-- Messages of the router: writes, reads and barriers, and the router's registers (R514 to R535, R540). -/
def Obligations.RouterCompletes : Prop :=
  ∀ (s : State), s.Live →
    let d := s.dev
    (∀ l m n, let e := d.rxPop l m
      d.MsgAt l 1 0 m → m.body ≠ [] → m.body.length % 16 = 0 → bitsOf m.msgB 10 6 = 0 → e.window m.src = some n →
      m.off + m.body.length ≤ (e.windowPlace n).size → e.pathFailed (e.windowPlace n).tier (e.windowPlace n).unit = false →
      exec (.write l) s = .next (s.on (e.placeWr (e.windowPlace n) m.off m.body))) ∧
    (∀ l m, let e := d.rxPop l m
      d.MsgAt l 2 0 m → m.dst = d.lr.node → d.canReply m.src 2 = true → m.reqOk = true → m.rlen ≠ 0 → m.space ≠ 1 →
      (e.windowRead m).2.2 = 0 →
      exec (.readReq l) s = .next (s.on (e.respond m.src m.rtag (e.windowRead m).1 (e.windowRead m).2.1))) ∧
    (∀ l m rest, d.MsgAt l 2 0 m → (d.link l).rxq = m :: rest → m.dst = d.lr.node → d.canReply m.src 2 = true → m.reqOk = true → m.rlen = 0 →
      exec (.flushAnswer l) s = .next (s.on ((d.rxPop l m).respond m.src m.rtag 1 []))) ∧
    (∀ l m t, let e := d.rxPop l m
      d.MsgAt l 3 0 m → m.msgB = 0 → bitsOf m.msgA 5 3 = 0 → bitsOf m.msgA 8 4 < 6 → bitsOf m.msgA 0 5 < 18 →
      (e.lr.tags.find? fun t => t.tag == bitsOf m.msgA 12 12 && t.dst == m.src) = some t → t.dead = false → t.status = none →
      (t.got.any fun p => p.1 == bitsOf m.msgA 0 5) = false → bitsOf m.msgA 8 4 ≠ 0 →
      let t' := { t with got := Sparse.ins t.got (bitsOf m.msgA 0 5) m.body, status := some (bitsOf m.msgA 8 4) }
      exec (.readRsp l) s = .next (s.on (({ e with lr := { e.lr with tags := e.lr.tags.map fun x => if x == t then t' else x } } :
        Dev).tagDone t' (bitsOf m.msgA 8 4)))) ∧
    (∀ t, d.sentTask t.tag 0xB1 1 = some t → d.frozen rtr = false → d.enabled rtr = true → d.asleep = false → bitsOf t.w1 32 8 < 16 →
      bitsOf t.w1 40 24 = 0 → t.w2 = 0 → t.w3 = 0 →
      let b := (d.barrier? (bitsOf t.w1 32 8) (bitsOf t.w1 0 32)).getD (Barrier.new (bitsOf t.w1 32 8) (bitsOf t.w1 0 32) d.gh.timer)
      b.tag = none → exec (.barrier t.tag) s = .next (s.on ((d.acceptTask t.tag).barrierStep { b with tag := some t.tag }))) ∧
    (∀ l m c, let e := d.rxPop l m
      d.MsgAt l 6 0 m → bitsOf m.msgA 0 4 = 1 → barrierOk m = true → e.get .VOTE_CFG_ENABLE = 1 → e.childOf l = some c →
      let b := (e.barrier? (bitsOf m.msgA 8 4) (m.fld 0 4)).getD (Barrier.new (bitsOf m.msgA 8 4) (m.fld 0 4) e.gh.timer)
      exec (.barrierArrive l) s = .next (s.on (e.barrierStep { b with kids := Sparse.ins (Sparse.del b.kids c) c (m.fld 4 2) }))) ∧
    (∀ l m, let e := d.rxPop l m
      d.MsgAt l 6 0 m → bitsOf m.msgA 0 4 = 2 → barrierOk m = true → m.fld 4 2 < 2 → e.get .VOTE_CFG_ENABLE = 1 → e.fromParent l = true →
      exec (.barrierRelease l) s = .next (s.on (e.barrierRelease (bitsOf m.msgA 8 4) (m.fld 0 4) (m.fld 4 2)
        ((e.barrier? (bitsOf m.msgA 8 4) (m.fld 0 4)).bind Barrier.tag)))) ∧
    (∀ g st b, d.barrier? g st = some b → d.isRoot = true → d.frozen rtr = false →
      b.first + usToTicks (d.get .LR_BARRIER_TIMEOUT_US) ≤ d.gh.timer →
      exec (.barrierRootTimeout g st) s = .next (s.on (d.barrierRelease g st 1 b.tag))) ∧
    (∀ g st b t tag, d.barrier? g st = some b → b.sentAt = some t → b.tag = some tag → d.isRoot = false →
      t + 2 * usToTicks (d.get .LR_BARRIER_TIMEOUT_US) ≤ d.gh.timer →
      exec (.barrierTimeout g st) s = .next (s.on (((d.dropBarrier g st).raise rtr 0 6).refuse tag 0x0C22))) ∧
    (∀ p, d.Writes p → d.topoOk = false → exec (.lrApply p) s =
      .next (s.on (((d.set .LR_CFG_STATUS_RESULT 2).set .LR_CFG_STATUS_CAUSE 0x0C20).raise rtr 0 1))) ∧
    (∀ p, d.Writes p → d.topoOk = true →
      let e : Dev := { d with lr := { d.lr with kind := d.get .LR_TOPO_KIND, node := d.get .LR_TOPO_NODE, dims := d.dimRegs, sets := (List.range 24).map d.setReg } }
      let f : Dev := { e with lr := { e.lr with table := (List.range (e.dimRegs.foldl (· * ·) 1)).map fun i => (i, e.routeOf i) } }
      exec (.lrApply p) s =
        .next (s.on (((((f.eccClear 0x0B 0 1024).set .LR_CFG_STATUS_RESULT 1).set .LR_CFG_STATUS_CAUSE 0).raise rtr 0 0).routesChanged))) ∧
    (∀ l, l < 24 → bitsOf (d.get .LR_QUARANTINED_LINKS) l 1 = 0 →
      let e := ((d.linkLeave l).set .LR_QUARANTINED_LINKS (putBits (d.get .LR_QUARANTINED_LINKS) l 1 1)).linkSet l 0
      exec (.lrQuarantine l) s = .next (s.on (((((((e.setParam (lnk l) 8 0).disableUnit (lnk l) 0x0C25).raise rtr 0 3).alert 5).linkResend
        l).routesChanged)))) ∧
    (∀ p (v : Word), d.Writes p → (v.toNat % 16 = 14 ∨ v.toNat % 16 = 15) → exec (.lrRouteDataWrite p v) s =
      .next (s.on (let e := d.touchRoute (d.get .LR_ROUTE_SEL_NODE)
        ({ e with lr := { e.lr with
          table := Sparse.put (fun _ => 0xF) e.lr.table (e.get .LR_ROUTE_SEL_NODE) (v.toNat % 16) } } : Dev).routesChanged))) ∧
    (∀ p n (v : Word), d.Writes p → n < 8 → bitsOf (d.rd (.LR_HOST_CTRL n)) 31 1 = 0 → bitsOf (v.toNat &&& 0xC0000FFF) 31 1 = 0 →
      exec (.lrHostCtrlWrite p n v) s = .next (s.on (d.wr (.LR_HOST_CTRL n) (v.toNat &&& 0xC0000FFF))))

/-- Events of the HBM stacks and the interleave setting (R541, R543 to R549). -/
def Obligations.HbmCompletes : Prop :=
  ∀ (s : State) (n : Nat), s.Live → s.dev.stackActive n = true →
    let d := s.dev
    (∀ pc, bitsOf (d.rd (.HBM_PC_MASK) n) pc 1 = 1 → exec (.refreshDue n pc true) s = .next (s.on (d.bump .REF_BLOCK_COUNT n))) ∧
    (∀ t : Int, 85 ≤ t →
      let e := (((d.calAge n).set .HBM_TEMP_DEG_C (unsigned 8 t) n)).set .HBM_STATUS_REF_2X 1 n
      exec (.hbmTempRead n t) s = .next (s.on (if (e.get .HBM_TEMP_ALARM_DEG_C n : Int) ≤ t then (e.raise (hbmb n) 0 2).sensorLevel (0x10 + n) 1
        else e.sensorLevel (0x10 + n) 0))) ∧
    (∀ t : Int, t < 82 →
      let e := (((d.calAge n).set .HBM_TEMP_DEG_C (unsigned 8 t) n)).set .HBM_STATUS_REF_2X 0 n
      exec (.hbmTempRead n t) s = .next (s.on (if (e.get .HBM_TEMP_ALARM_DEG_C n : Int) ≤ t then (e.raise (hbmb n) 0 2).sensorLevel (0x10 + n) 1
        else e.sensorLevel (0x10 + n) 0))) ∧
    (∀ c, d.frozen (hbmb n) = false → c < 16 → d.get (.PC_STATUS_CAL_AGE_MS (2 * c)) n ≤ 256 →
      d.get (.PC_STATUS_CAL_AGE_MS (2 * c + 1)) n ≤ 256 → exec (.hbmCalibration n c true) s =
        .next (s.on (((d.set (.PC_STATUS_CAL_AGE_MS (2 * c)) 0 n).set (.PC_STATUS_CAL_AGE_MS (2 * c + 1)) 0 n).bump .CAL_COUNT n))) ∧
    (∀ c, d.frozen (hbmb n) = false → c < 16 → exec (.hbmCalibration n c false) s = .next (s.on (d.stackLost n))) ∧
    (∀ k, 0 < k → k < 4 → exec (.caParityError n k) s = .next (s.on ((d.bump .CA_PAR_COUNT n).raise (hbmb n) 0 1))) ∧
    (exec (.caParityError n 4) s = .next (s.on (((d.bump .CA_PAR_COUNT n).raise (hbmb n) 0 1).stackLost n))) ∧
    (∀ p (v : Word), n < 4 → d.Writes p → d.plan.admitted = false → v.toNat % 4 ≠ 3 → exec (.hbmIlvWrite p n v) s =
      .next (s.on ((List.range 4).foldl (fun e i => e.set .HBM_ILV_GRANULE (v.toNat % 4) i) d))) ∧
    (∀ p (v : Word), n < 4 → d.Writes p → d.plan.admitted = true →
      exec (.hbmIlvWrite p n v) s = .next (s.on (d.errWr p (hbmb n) 0 0x84 0x0D03 v.toNat)))

/-- The trace unit: its timers, its control register and its two-word registers (R563 to R571). -/
def Obligations.TraceCompletes : Prop :=
  ∀ (s : State), s.Live →
    let d := s.dev
    (d.trc.last + d.get .TRC_FLUSH_IDLE_CYCLES ≤ d.trcNow → exec .traceIdleFlush s = .next (s.on (Dev.trcEvents d.trcWriteLine))) ∧
    (d.get .TRC_CTRL_RECORD = 1 → d.trc.lastSync + d.get .TRC_SYNC_PERIOD_CYCLES ≤ d.trcNow →
      let t := d.trc.lastSync + d.get .TRC_SYNC_PERIOD_CYCLES
      exec .syncPeriodic s = .next (s.on (Dev.trcEvents (d.trcSyncAt t (d.gh.timer - (d.trcNow - t) * 3 / 250) 0)))) ∧
    (d.trc.post = some 0 → exec .stopAfterDone s = .next (s.on ((d.trcStop 3).raise 108 0 1))) ∧
    (∀ p, d.Writes p →
      exec (.trcFlush p) s = .next (s.on (Dev.trcEvents d.trcWriteLine)) ∧
      (∀ (v : Word) n, let e := d.trcHitsOnly n
        bitsOf v.toNat 4 2 = e.get .TRC_CTRL_MODE → bitsOf v.toNat 2 1 = 0 → e.get .TRC_CTRL_RECORD = 0 → bitsOf v.toNat 1 1 = 1 →
        exec (.trcRecordWrite p v n) s = .next (s.on ((e.set .TRC_CTRL_HANDLE_EN (bitsOf v.toNat 3 1)).trcStart))) ∧
      (∀ v : Word, let x := v.toNat * 2 ^ 32 + d.stagedLow p 108 0 0x98
        d.rd64 .TRC_VALID_FROM_LO ≤ x → x ≤ d.rd64 .TRC_WRITTEN_LO →
        exec (.trcRdWrite p v) s = .next (s.on ((Dev.trcEvents (d.wr64 .TRC_RD_LO x).trcLost).unstage p 108 0 0x98))) ∧
      (∀ v : Word, let x := v.toNat * 2 ^ 32 + d.stagedLow p 108 0 0x98
        (x < d.rd64 .TRC_VALID_FROM_LO ∨ d.rd64 .TRC_WRITTEN_LO < x) →
        exec (.trcRdWrite p v) s = .next (s.on ((d.errWr p 108 0 0x9C 0x0F02 (x / 2 ^ 32)).unstage p 108 0 0x98))) ∧
      (∀ v : Word, exec (.trcSwHiWrite p v) s =
        .next (s.on ((d.trcSw (v.toNat * 2 ^ 32 + d.stagedLow p 108 0 0xC0)).unstage p 108 0 0xC0))))

/-- Commands of Table 27-1 that read or write registers, verdicts and the ledger (R131, R138, R139, R597 to R601, R604 to R606). -/
def Obligations.ManagementCommandsComplete : Prop :=
  ∀ (s : State) (src : MSrc) (pec : Pec), s.Live → s.dev.InRun → s.dev.MgmtUp src pec true → s.dev.bootPast 3 = true →
    let d := s.dev
    let e : Dev := { d.mgmtBegin src with errSeen := 0 }
    (∀ a, a < 2 ^ 32 → exec (.regRead src pec a) s =
      .next (s.on ((e.busRead .mgmt a 4).2.regsDone (some src) (leBytes 4 (e.busRead .mgmt a 4).1)))) ∧
    (∀ a (v : Word), a < 2 ^ 32 → d.get .MGMT_CTRL_REG_WR_EN = 1 →
      exec (.regWrite src pec a v) s = .next (s.on ((e.busWrite .mgmt a 4 v.toNat).regsDone (some src) []))) ∧
    (∀ a, a < 2 ^ 32 →
      let l := e.busRead .mgmt a 4
      let h := l.2.busRead .mgmt (a + 4) 4
      exec (.regRead64 src pec a) s = .next (s.on (h.2.regsDone (some src) (leBytes 4 l.1 ++ leBytes 4 h.1)))) ∧
    (∀ a (lo hi : Word), a < 2 ^ 32 → d.get .MGMT_CTRL_REG_WR_EN = 1 → exec (.regWrite64 src pec a lo hi) s =
      .next (s.on (((e.busWrite .mgmt a 4 lo.toNat).busWrite .mgmt (a + 4) 4 hi.toNat).regsDone (some src) []))) ∧
    (∀ a (v : Word), a < 2 ^ 32 → d.get .MGMT_CTRL_REG_WR_EN ≠ 1 →
      exec (.regWrite src pec a v) s = .next (s.on (((d.bump .MGMT_DENIED_COUNT).raise 109 0 5).mgmtAnswer (some src) 2 0x1101 []))) ∧
    (∀ n off c, n < 8 → off % 4 = 0 → off < 960 → c % 4 = 0 → 4 ≤ c → c ≤ 240 → exec (.ledgerRead src pec n off c) s =
      .next (s.on (d.mgmtAnswer (some src) 0 0 (d.rbs spLedger (slotBase n + off) (min c (960 - off)))))) ∧
    (∀ i, i < 128 → exec (.verdictRead src pec i) s = .next (s.on (d.mgmtAnswer (some src) 0 0 (leBytes 4 (d.verdict i))))) ∧
    (∀ i, i ≤ 100 → d.bootBusy = false →
      exec (.mgmtVerdictClear src pec i) s = .next (s.on ((e.verdictClear (some i)).mgmtAnswer (some src) 0 0 []))) ∧
    (d.bootBusy = false → exec (.mgmtVerdictClear src pec 0xFF) s = .next (s.on ((e.verdictClear none).mgmtAnswer (some src) 0 0 []))) ∧
    (∀ v, v < 2 → d.get .MGMT_CTRL_FLASH_WR_EN = 1 →
      exec (.imagePrefWrite src pec v) s = .next (s.on ((e.imagePrefSet v).mgmtAnswer (some src) 0 0 []))) ∧
    (d.rebootOk = true → exec (.reboot src pec 0xB007) s = .next (s.on ((e.rebootWith 6).mgmtAnswer (some src) 0 0 []))) ∧
    (∀ k, k ≠ 0xB007 → k < 2 ^ 32 → exec (.reboot src pec k) s = .next (s.on (e.mgmtAnswer (some src) 5 0x012C [])))

/-- STATUS, TEMP and the flash commands of the management path, the SMBus timeouts, and the flash controller's own commands (R600, R602,
R605, R611 to R613). -/
def Obligations.FlashCommandsComplete : Prop :=
  ∀ (s : State), s.Live → s.dev.InRun →
    let d := s.dev
    (∀ src pec, d.MgmtUp src pec false →
      exec (.status src pec) s = .next (s.on (d.mgmtAnswer (some src) 0 0 (leBytes 4 (d.rd .PWR_STATE) ++ leBytes 4 (d.rd .BOOT_STATUS) ++
        leBytes 4 (d.rd .DEV_FATAL) ++ leBytes 4 (d.rd .TJ_NOW)))) ∧
      exec (.temp src pec) s = .next (s.on (d.mgmtAnswer (some src) 0 0 (leBytes 2 (d.rd .TJ_NOW)))) ∧
      exec (.flashStatus src pec) s = .next (s.on (d.mgmtAnswer (some src) 0 0 (leBytes 4 ((d.mgmtView .mgmt 0x10C).getD 0))))) ∧
    (∀ src pec, d.MgmtUp src pec true → d.bootPast 3 = true → d.mgmt.flash = none →
      let e : Dev := { d.mgmtBegin src with errSeen := 0 }
      (∀ a n, a < 2 ^ 32 → 1 ≤ n → n ≤ 240 →
        let f := ((e.setFlashAddr .mgmt a).setFlashLen .mgmt n).setFlashBuf .mgmt 0 []
        (f.flashStart .mgmt (some src) 1).2 = 0 → exec (.flashRead src pec a n) s = .next (s.on (f.flashStart .mgmt (some src) 1).1)) ∧
      (∀ a (b : List Byte), a < 2 ^ 32 → 1 ≤ b.length → b.length ≤ 240 → d.get .MGMT_CTRL_FLASH_WR_EN = 1 →
        let f := ((e.setFlashAddr .mgmt a).setFlashLen .mgmt b.length).setFlashBuf .mgmt 0 b
        (f.flashStart .mgmt none 2).2 = 0 →
        exec (.flashProgram src pec a b) s = .next (s.on ((f.flashStart .mgmt none 2).1.mgmtAnswer (some src) 0 0 []))) ∧
      (∀ a sz, a < 2 ^ 32 → sz < 2 → d.get .MGMT_CTRL_FLASH_WR_EN = 1 →
        let f := ((e.setFlashAddr .mgmt a).setFlashLen .mgmt (e.flashLen .mgmt)).setFlashBuf .mgmt 0 []
        (f.flashStart .mgmt none (3 + sz)).2 = 0 →
        exec (.flashErase src pec a sz) s = .next (s.on ((f.flashStart .mgmt none (3 + sz)).1.mgmtAnswer (some src) 0 0 [])))) ∧
    (∀ c, smbListed c = false → exec (.unlistedSmbusCommand c) s = .next (s.on (d.emit (.nack .smb)))) ∧
    (d.waits .smb = true → d.mgmt.smbAt + msToTicks 20 ≤ d.gh.timer → exec .smbStretchTimeout s = .next (s.on ((d.loseSource .smb).emit (.mgmt .smb 1 0 [])))) ∧
    (exec .smbClockLowTimeout s = .next (s.on ((d.loseSource .smb).bump .SMB_TIMEOUT_COUNT))) ∧
    (∀ p n cmd, d.Reach p → (n = 1 ∧ cmd = Instr.flashCmdRead p) ∨ (n = 2 ∧ cmd = Instr.flashCmdProgram p) ∨
        (n = 3 ∧ cmd = Instr.flashCmdErase4k p) ∨ (n = 4 ∧ cmd = Instr.flashCmdErase64k p) →
      d.mgmt.flash = none → (p = .host ∨ n = 1 ∨ d.get .MGMT_CTRL_FLASH_WR_EN ≠ 0) →
      (d.flashRefusal n (d.flashAddr p) (d.flashLen p) = 0 → exec cmd s = .next (s.on { d.setResult p 0 with mgmt := { d.mgmt with
        flash := some { mgmt := p == .mgmt, src := none, cmd := n, addr := d.flashAddr p, len := d.flashLen p } } })) ∧
      (∀ c, c ≠ 0 → d.flashRefusal n (d.flashAddr p) (d.flashLen p) = c →
        exec cmd s = .next (s.on ((d.setResult p c).errWr p 109 0 0x108 c n)))) ∧
    (∀ j bad, d.mgmt.flash = some j → d.get .LEDGER_FLASH_COPY_PENDING ≠ 1 → j.src = none →
      let p : Path := if j.mgmt then .mgmt else .host
      let r := d.flashRun j bad
      exec (.flashCommandDone bad) s =
        .next (s.on (({ r.1.setResult p r.2 with mgmt := { r.1.mgmt with flash := none } } : Dev).raise 109 0 4))) ∧
    (∀ (v : Word), d.Writes .host → bitsOf (d.rd .MGMT_CTRL) 31 1 = 0 → bitsOf v.toNat 31 1 = 0 →
      exec (.mgmtCtrlWrite .host v) s = .next (s.on (d.wr .MGMT_CTRL (putBits (d.rd .MGMT_CTRL) 0 3 v.toNat)))) ∧
    (∀ (v : Word), d.Writes .mgmt → exec (.mgmtCtrlWrite .mgmt v) s =
      .next (s.on (((d.errWr .mgmt 109 0 0xB8 0x1101 v.toNat).bump .MGMT_DENIED_COUNT).raise 109 0 5)))

/-- MCTP control and PLDM requests (R605, R607 to R610). The numbers of their answers follow the DMTF's documents, which the spec names
and does not give: the model's choice (notes/assumptions/46.md). -/
def Obligations.MctpRequestsComplete : Prop :=
  ∀ (s : State) (src : MSrc), s.Live → s.dev.MctpUp src →
    let d := s.dev
    (∀ n, 0 < n → n < 0xFF → src = .mctpSmb →
      exec (.setEndpointId src n) s = .next (s.on ((d.set .MCTP_EID_SMB n).emit (.mctp src 0x01 [0, n])))) ∧
    (∀ n, 0 < n → n < 0xFF → src = .mctpVdm →
      exec (.setEndpointId src n) s = .next (s.on ((d.set .MCTP_EID_VDM n).emit (.mctp src 0x01 [0, n])))) ∧
    exec (.getEndpointId src) s = .next (s.on (d.emit (.mctp src 0x02 [0, d.eid src]))) ∧
    exec (.getEndpointUuid src) s = .next (s.on (d.emit (.mctp src 0x03 [0, Config.endpointUuid ()]))) ∧
    (∀ t, exec (.getMctpVersionSupport src t) s = .next (s.on (d.emit (.mctp src 0x04 (0 :: Config.mctpVersions t))))) ∧
    exec (.getMessageTypeSupport src) s = .next (s.on (d.emit (.mctp src 0x05 [0, 0x00, 0x01, 0x7E]))) ∧
    exec (.getVendorDefinedMessageSupport src) s = .next (s.on (d.emit (.mctp src 0x06 [0, Config.vendorId ()]))) ∧
    (d.eid src ≠ 0 →
      exec (.gettid src) s = .next (s.on (d.emit (.mctp src 0x0002 [0, d.mgmt.tid]))) ∧
      (d.bootPast 3 = true → ∀ t, exec (.settid src t) s =
        .next (s.on (({ d with mgmt := { d.mgmt with tid := t % 256 } } : Dev).emit (.mctp src 0x0001 [0])))) ∧
      (∀ t, exec (.getpldmversion src t) s = .next (s.on (d.emit (.mctp src 0x0003 (0 :: Config.pldmVersions t))))) ∧
      exec (.getpldmtypes src) s = .next (s.on (d.emit (.mctp src 0x0004 [0, 0, 2]))) ∧
      (∀ t, exec (.getpldmcommands src t) s = .next (s.on (d.emit (.mctp src 0x0005 (0 :: pldmCommands t))))) ∧
      (∀ i v a, d.sensor i = some (v, a) → (a = true ∨ d.get .PWR_STATE_STATE ≠ 3) → exec (.getsensorreading src i) s =
        .next (s.on (d.emit (.mctp src 0x0211 [0, 0, v, Sparse.get (fun _ => 0) d.mgmt.levels i])))) ∧
      (∀ i v, d.stateSensor i = some v → exec (.getstatesensorreadings src i) s = .next (s.on (d.emit (.mctp src 0x0221 [0, 0, v])))) ∧
      exec (.getpdrrepositoryinfo src) s = .next (s.on (d.emit (.mctp src 0x0250 (0 :: Config.pdrInfo ())))) ∧
      (∀ h, exec (.getpdr src h) s = .next (s.on (d.emit (.mctp src 0x0251 (0 :: ((sensorName h).toList.map Char.toNat ++ Config.pdrRecord h)))))) ∧
      (d.bootPast 3 = true → ∀ n, exec (.seteventreceiver src n) s = .next (s.on (({ d with mgmt := { d.mgmt with
        rcv := some (src == MSrc.mctpVdm, n % 256) } } : Dev).emit (.mctp src 0x0204 [0])))))

/-- JTAG instructions, the pins and the alert wire (R104, R615, R616, R618, R619, R656). -/
def Obligations.PinsComplete : Prop :=
  ∀ (s : State), s.dev.undef = false →
    let d := s.dev
    (d.boot.held = false →
      exec .idcode s = .next (s.on ((d.setIr 0x01).emit (.tdo 0x01 idcode))) ∧
      exec .samplePreload s = .next (s.on ((d.setIr 0x02).tapCapture 0x02)) ∧
      (d.get .BOOT_STATUS_RESULT = 2 ∨ d.pins.devReset = true →
        exec .extest s = .next (s.on ((d.setIr 0x00).tapCapture 0x00)) ∧
        exec .highz s = .next (s.on ((d.setIr 0x03).emit (.tdo 0x03 0))) ∧
        exec .clamp s = .next (s.on ((d.setIr 0x04).emit (.tdo 0x04 0))) ∧
        exec .extestPulse s = .next (s.on ((d.setIr 0x05).tapCapture 0x05)) ∧
        exec .extestTrain s = .next (s.on ((d.setIr 0x06).tapCapture 0x06))) ∧
      (d.get .BOOT_STATUS_RESULT ≠ 2 → d.pins.devReset = false → ∀ c, c ∈ [Instr.extest, .highz, .clamp, .extestPulse, .extestTrain] →
        exec c s = .next (s.on (((d.bump .JTAG_REFUSED_COUNT).setIr 0xFF).emit (.tdo 0xFF 0)))) ∧
      (∀ wr off (v : Word), let e := (d.setIr 0x20).accessCapture
        e.get .MGMT_CTRL_JTAG_ACCESS_EN ≠ 0 → (wr = true → e.get .MGMT_CTRL_REG_WR_EN = 1) → e.pathUp .mgmt = true →
        exec (.mgmtAccess wr off v) s =
          .next (s.on (e.mgmtTake .jtag (if wr then .regWrite (off % 2 ^ 26) v.toNat else .regRead (off % 2 ^ 26)))))) ∧
    exec .bypass s = .next (s.on ((d.setIr 0xFF).emit (.tdo 0xFF 0))) ∧
    exec .trstNReset s = .next (s.on (d.setIr 0x01)) ∧
    (∀ n high, n < 8 → bitsOf d.gh.gpio n 1 ≠ bit01 high → bitsOf (d.rd .GPIO_FUNC) (3 * n) 3 = 0 → d.bit .GH_GPIO_WAKE n = false →
      d.bit .GPIO_EDGE_EN (if high then n else 8 + n) = true →
      let e : Dev := { d with gh := { d.gh with gpio := putBits d.gh.gpio n 1 (bit01 high) } }
      let f := (e.setBit .GPIO_EDGE (if high then n else 8 + n) true).raise 109 0 7
      f.bit .GH_GPIO_WAKE n = false → exec (.gpioInputEdge n high) s = .next (s.on f)) ∧
    (∀ low, exec (.fleetAlertWire low) s = .next (s.on (({ d with pins := { d.pins with alert := low } } : Dev).alertDrive)))

/-- Every 100 µs in RUN the governor moves its shadow one step by the junction and the board power, clamps it between its bounds, and applies
the highest 50 MHz step at or below it that the voltage bound allows; the voltage follows, and comes first on a rise (R84, R85, R88). An update
tied to a write of the loop changes only the shadow (R23). In another state only POWER_NOW follows. -/
def Obligations.GovernorUpdateCompletes : Prop :=
  (∀ (s : State) (p : Nat), s.Live → (s.dev.get .PWR_STATE_STATE ≠ 0 ∨ s.dev.bootPast 3 = false ∨ s.dev.due.run < 1920) →
    exec (.governorUpdate p) s = .next (s.on (s.dev.set .POWER_NOW_POWER p))) ∧
  (∀ (s : State) (p : Nat), s.Live → s.dev.get .PWR_STATE_STATE = 0 → s.dev.bootPast 3 = true → 1920 ≤ s.dev.due.run →
    let o := s.dev.set .POWER_NOW_POWER p
    let q := ({ o with due := { o.due with run := 0 } } : Dev).govRise
    let d := q.untie 0xE1 0
    let cap := d.get .POWER_CAP_WATTS
    let f := d.get .GOV_APPLIED_MHZ
    let hot := signed 16 (d.get .THROTTLE_THRESH_ON) ≤ d.pwr.tj ∨ 8 * cap < p
    let cool := d.pwr.tj < signed 16 (d.get .THROTTLE_THRESH_OFF) ∧ p ≤ 8 * (cap - 10)
    let lo := d.get .GOV_FREQ_BOUNDS_LOW
    let hi := d.get .GOV_FREQ_BOUNDS_HIGH
    let vlo := d.get .GOV_VOLT_BOUNDS_LOW
    let vhi := d.get .GOV_VOLT_BOUNDS_HIGH
    let pin := d.get .GOV_PIN_PIN_EN = 1
    ∀ sh t ap mv, sh = max 200 (min 1600 (if hot then f - 50 else if cool then f + 50 else f)) →
      t = (if pin then d.get .GOV_PIN_FREQ else max lo (min hi sh)) → ap = govStep vhi ((t - 200) / 50) → mv = max (vOf ap) vlo →
      let a := (d.set .GOV_SHADOW_MHZ sh).set .GOV_SHADOW_MV (max (vOf sh) vlo)
      let b : Dev := { a with pwr := { a.pwr with vidTarget := (mv - 650) / 5 } }
      let c := if a.get .GOV_APPLIED_MHZ < ap ∧ a.pwr.vid < (mv - 650) / 5 then { b with pwr := { b.pwr with ask := some (ap, mv) } }
        else b.govSet ap mv
      let out := sh < lo ∨ hi < sh ∨ vhi < max (vOf sh) vlo ∨
        (¬ pin ∧ (f < lo ∨ hi < f ∨ d.get .GOV_APPLIED_MV < vlo ∨ vhi < d.get .GOV_APPLIED_MV))
      let e := if q.isTied 0xE1 0 then a else if out then (c.bump .GOV_CLAMP_COUNT).raise pwrBlk 0 4 else c
      exec (.governorUpdate p) s = .next (s.on (if 8 * cap < p then (e.raise pwrBlk 0 5).sensorLevel 0x20 1 else e.sensorLevel 0x20 0))) ∧
  (∀ v n, (govStep v n = 200 ∨ vOf (govStep v n) ≤ v) ∧ govStep v n ≤ 200 + 50 * n ∧
    ∀ k, k ≤ n → vOf (200 + 50 * k) ≤ v → 200 + 50 * k ≤ govStep v n)

/-- The fused table: after a write of step index i, 0 to 28, to GOV_VF_SEL, a read of GOV_VF_MV answers vfused of that step, the same on every
read; an index above 28 is refused as a reserved encoding and changes nothing but the error registers. -/
def Obligations.FusedTableReads : Prop :=
  ∀ (s : State) (p : Path), s.Live → s.dev.PageWrites p 110 0 →
    (∀ i, i < 29 → ∃ t, exec (.registerWrite p (regAddr 110 0 0xFC) 4 i) s = .next t ∧ t.dev.get .GOV_VF_SEL_STEP = i ∧
      exec (.registerRead p (regAddr 110 0 0x100) 4) t =
        .next (t.on (t.dev.emit (.readData p (regAddr 110 0 0x100) (Config.vfused i))))) ∧
    (∀ i, 28 < i → i < 32 →
      exec (.registerWrite p (regAddr 110 0 0xFC) 4 i) s = .next (s.on (s.dev.errWr p 110 0 0xFC 0x0001 i)))

/-- A hardware event sets its IRQ_PEND bit, whatever IRQ_MASK holds, and adds one to IRQ_SEQ modulo 65,536, also where the bit is set
already; IRQ_FORCE sets the bits of the page's events and leaves IRQ_SEQ as it is. -/
def Obligations.EventSetsPendingBit : Prop :=
  (∀ (d : Dev) (b page bit : Nat), bit < 32 →
    let e := d.irqSet b page bit
    e.hrd b page offPend = d.hrd b page offPend ||| 2 ^ bit ∧ e.hrd b page offSeq = (d.hrd b page offSeq + 1) % 65536 ∧
      ∀ k, k ≠ regKey b page offPend → k ≠ regKey b page offSeq → e.rdk k = d.rdk k) ∧
  (∀ (s : State) (p : Path) (b page : Nat) (v : Word), s.Live → s.dev.PageWrites p b page →
    ∃ t, exec (.irqForce p b page v) s = .next t ∧ t.dev.hrd b page offPend = s.dev.hrd b page offPend ||| v.toNat % 2 ^ eventCount (blkClass b) page ∧
      t.dev.hrd b page offSeq = s.dev.hrd b page offSeq)

/-- The first error after VALID was cleared stays captured, with its detail; later errors only count, up to 0xFFFF_FFFF; a cleared capture
holds nothing (R58). -/
def Obligations.FirstErrorStays : Prop :=
  (∀ (d : Dev) (b page code lo hi : Nat) (es : List (Nat × Nat × Nat)), bitsOf (d.hrd b page offErr) 31 1 = 0 → code < 65536 → lo < 2 ^ 32 →
    hi < 2 ^ 32 →
    let e := es.foldl (fun x y => x.errCapture b page y.1 y.2.1 y.2.2) (d.errCapture b page code lo hi)
    e.hrd b page offErr = 2 ^ 31 + code ∧ e.hrd b page offInfoLo = lo ∧ e.hrd b page offInfoHi = hi ∧
      e.hrd b page offErrCount = min 0xFFFFFFFF (d.hrd b page offErrCount + 1 + es.length)) ∧
  (∀ (s : State) (p : Path) (b page : Nat), s.Live → s.dev.PageWrites p b page →
    ∃ t, exec (.errCodeClear p b page) s = .next t ∧ t.dev.hrd b page offErr = 0 ∧ t.dev.hrd b page offInfoLo = 0 ∧
      t.dev.hrd b page offInfoHi = 0 ∧ t.dev.hrd b page offErrCount = s.dev.hrd b page offErrCount)

/-- A slot executes when p[QP] XOR QN is 1; one that does not leaves the core as a NOP would: counted and at the next pc (R144, R174). -/
def Obligations.PredicateDecides : Prop :=
  (∀ (d : Dev) (x : Slot), (d.predOn x = true ↔ ((d.pReg x.qp = true) ≠ (x.qn = 1))) ∧ (x.qp = 0 → x.qn = 1 → d.predOn x = false)) ∧
  (∀ (s : State) (w : Nat), s.Live →
    let off := Host.Outcome.next (s.on (s.dev.hgDone (s.dev.get .HG_PC_PC + 1)))
    (s.dev.HgAt (Bundle.onlyA w) → s.dev.predOn ⟨w, 0⟩ = false → ∀ oc ∈ [(0x10, Instr.hgAlu 0), (0x11, .hgAlui 0), (0x14, .ext 0),
        (0x15, .dep 0), (0x16, .cnt 0), (0x18, .cmp 0), (0x19, .cmpi 0), (0x1A, .plog 0), (0x1B, .sel 0), (0x1C, .mfp 0), (0x1D, .mtp 0),
        (0x20, .mpeek 0), (0x21, .mpop 0), (0x22, .mfev 0), (0x23, .mfh 0), (0x24, .hqry 0), (0x25, .aot 0)],
      (⟨w, 0⟩ : Slot).opc = oc.1 → exec oc.2 s = off) ∧
    (s.dev.HgAt (Bundle.onlyB w) → s.dev.predOn ⟨w, 0⟩ = false → ∀ oc ∈ [(0x40, Instr.br 0), (0x41, .bl 0), (0x42, .bx 0), (0x43, .hgWait 0),
        (0x44, .evclr 0), (0x46, .signal 0), (0x47, .halt 0), (0x48, .sleep 0), (0x49, .habort 0), (0x4A, .hclr 0)],
      (⟨w, 0⟩ : Slot).opc = oc.1 → exec oc.2 s = off) ∧
    (∀ c1, s.dev.HgAt (Bundle.onlyC w c1) → s.dev.predOn ⟨w, c1⟩ = false → ∀ oc ∈ [(0x80, Instr.ld 0), (0x81, .st 0)],
      (⟨w, c1⟩ : Slot).opc = oc.1 → exec oc.2 s = off))

/-- A value stored is read back, little-endian, every other byte of every address space reads as before, and the memory keeps its canonical
form (R7). -/
def Obligations.MemoryReadsBack : Prop :=
  ∀ (d : Dev) (sp a n v : Nat), a + n ≤ 2 ^ 64 →
    (d.st sp a n v).ld sp a n = v % 256 ^ n ∧
    (∀ i, i < n → ((d.st sp a n v).rb sp (a + i)).toNat = v / 256 ^ i % 256) ∧
    (∀ sp' b, b < 2 ^ 64 → (sp' ≠ sp ∨ b < a ∨ a + n ≤ b) → (d.st sp a n v).rb sp' b = d.rb sp' b) ∧
    (Memory.wf d = true → Memory.wf (d.st sp a n v) = true)

/-- With a command at the front of the queue a step is exec of it on the queue's rest. With nothing waiting one AO tick passes: the model's choice
(notes/assumptions/1.md). -/
def Obligations.StepRunsTheFrontCommand : Prop :=
  (∀ (c : Instr) (rest : List Instr) (s : State), s.pending = c :: rest → step s = exec c { s with pending := rest }) ∧
  (∀ s : State, s.pending = [] → step s = .next (s.on s.dev.tick))

/-- The queue is first in, first out: no command touches it, so as many steps as it is long, or fewer, take that many commands from its
front, and a command put behind it waits its turn. The queue is the model's own (notes/assumptions/1.md). -/
def Obligations.QueueIsFifo : Prop :=
  ∀ (k : Nat) (s t : State), k ≤ s.pending.length → Sys2Proof.core.run k s = .next t →
    t.pending = s.pending.drop k ∧
      ∀ c, Sys2Proof.core.run k { s with pending := s.pending ++ [c] } = .next { t with pending := t.pending ++ [c] }

/-- What reset leaves: the spec's values of a few registers of each kind, empty FIFOs, nothing waiting. -/
def Obligations.ResetLeaves : Prop :=
  let d := State.reset.dev
  State.reset.pending = [] ∧ d.undef = false ∧ d.pwr.tripped = false ∧ d.hg.tasks = [] ∧ d.hg.marks.all List.isEmpty = true ∧ d.objs = [] ∧
    d.keys = [] ∧ d.stage = [] ∧ d.flm.streams = [] ∧ d.get .POWER_CAP_WATTS = 300 ∧ d.get .PWR_STATE_STATE = 0 ∧
    d.get .GLOBAL_CTRL_FREEZE = 0 ∧ d.get .HG_STATE_STATE = 0 ∧ d.get .HG_PC_PC = 0 ∧ d.hrd 3 0 offPend = 0 ∧ d.hrd 3 0 offErrCount = 0

/-- After a main rail left its range or a reference clock stopped the device is undefined until its next reset: every command but the
power-up, the resets and those two events stops with the fault of that name, which is the model's form of what the spec leaves undefined
(R649, R650; notes/assumptions/5.md). -/
def Obligations.UndefinedStops : Prop :=
  ∀ (c : Instr) (s : State), s.dev.undef = true → (∀ n, c ≠ .aoPowerUp n) → (∀ n, c ≠ .aoDomainReset n) → c ≠ .devResetAssert →
    (∀ b, c ≠ .mainRailExcursion b) → c ≠ .referenceClockLoss → exec c s = .fault .undefinedUntilReset

/-- A trip is latched: in every run from a state with the latch set, whatever commands wait, a power-up of the AO domain and its reset
apart, the latch is still set (R91, R621, R632). -/
def Obligations.TripIsLatched : Prop :=
  ∀ (k : Nat) (s t : State), s.dev.pwr.tripped = true → (∀ c ∈ s.pending, (∀ n, c ≠ .aoPowerUp n) ∧ ∀ n, c ≠ .aoDomainReset n) →
    Sys2Proof.core.run k s = .next t → t.dev.pwr.tripped = true
end

