-- ==== Sys2Proof/Laws/Access.lean ====
section
/-! SUPPORT. What the shells of the commands answer: `State.run` and its relatives, and an access that reaches the registers in RUN. -/
namespace Sys2Proof.Machine

/-! ### The three shells -/

theorem State.run_live {s : State} (h : s.Live) (f : Dev → Dev) : s.run f = .next (s.on (f s.dev)) := by
  simp [State.run, h.1, h.2]

theorem State.runOn_defined {s : State} (h : s.dev.undef = false) (f : Dev → Dev) : s.runOn f = .next (s.on (f s.dev)) := by
  simp [State.runOn, h]

theorem State.runAo_next (s : State) (f : Dev → Dev) : s.runAo f = .next (s.on (f s.dev)) := rfl

theorem State.run_undef {s : State} (h : s.dev.undef = true) (f : Dev → Dev) : s.run f = .fault .undefinedUntilReset := by
  simp [State.run, h]

theorem State.runOn_undef {s : State} (h : s.dev.undef = true) (f : Dev → Dev) : s.runOn f = .fault .undefinedUntilReset := by
  simp [State.runOn, h]

theorem State.run_tripped {s : State} (h : s.dev.undef = false) (t : s.dev.pwr.tripped = true) (f : Dev → Dev) :
    s.run f = .next s := by
  simp [State.run, h, t]

theorem State.run_pending {s t : State} {f : Dev → Dev} (h : s.run f = .next t) : t.pending = s.pending := by
  unfold State.run at h
  split at h
  · cases h
  · split at h <;> · cases h; rfl

theorem State.runOn_pending {s t : State} {f : Dev → Dev} (h : s.runOn f = .next t) : t.pending = s.pending := by
  unfold State.runOn at h
  split at h
  · cases h
  · cases h; rfl

theorem State.runAo_pending {s t : State} {f : Dev → Dev} (h : s.runAo f = .next t) : t.pending = s.pending := by
  cases h; rfl

/-! ### Accesses in RUN -/

theorem Dev.Reach.notTripped {d : Dev} {p : Path} (h : d.Reach p) : d.pwr.tripped = false := by
  have := h.1
  cases ht : d.pwr.tripped <;> simp_all [Dev.pathUp]

theorem Dev.idleExit_inRun {d : Dev} (h : d.InRun) : d.idleExit = d := by
  simp [Dev.idleExit, h.1]

theorem Dev.asleep_inRun {d : Dev} (h : d.InRun) : d.asleep = false := by
  simp [Dev.asleep, h.1]

theorem Dev.wake_inRun {d : Dev} (h : d.InRun) (src : Nat) : d.wake src = d := by
  simp [Dev.wake, h.1, h.2.1, h.2.2.1, h.2.2.2]

theorem Dev.heldAccess_inRun {d : Dev} (h : d.InRun) (src : Nat) (a : Held) (f : Dev → Dev) : d.heldAccess src a f = f d := by
  simp [Dev.heldAccess, Dev.wake_inRun h, Dev.asleep_inRun h, h.2.1]

theorem Dev.fatalShut_open {d : Dev} (h : d.get .DEV_FATAL_LEVEL ≠ 2) (b page off : Nat) : d.fatalShut b page off = false := by
  simp [Dev.fatalShut, h]

theorem Dev.viaBus_reach {d : Dev} {p : Path} (h : d.Reach p) {b page off : Nat} (hs : d.fatalShut b page off = false) (v : Nat)
    (f : Dev → Dev) : d.viaBus p b page off v f = f d := by
  simp [Dev.viaBus, h.1, hs, Dev.idleExit_inRun h.2, Dev.heldAccess_inRun h.2]

theorem Dev.viaBus_writes {d : Dev} {p : Path} (h : d.Writes p) (b page off v : Nat) (f : Dev → Dev) :
    d.viaBus p b page off v f = f d := Dev.viaBus_reach h.1 (Dev.fatalShut_open h.2 ..) ..

theorem Dev.viaReg_reach {d : Dev} {p : Path} (h : d.Reach p) {r : Reg} {i : Nat}
    (hs : d.fatalShut (blkBase r.cls + i) r.page r.off = false) (v : Nat) (f : Dev → Dev) :
    d.viaReg p r i v f = f d := Dev.viaBus_reach h hs ..

theorem Dev.viaReg_writes {d : Dev} {p : Path} (h : d.Writes p) (r : Reg) (i v : Nat) (f : Dev → Dev) :
    d.viaReg p r i v f = f d := Dev.viaBus_writes h ..

theorem Dev.arrive_reach {d : Dev} {p : Path} (h : d.Reach p) {a : Nat} (ha : a < 0x4000000) (size : Nat) (v : Option Nat)
    (f : Dev → Dev) : d.arrive p a size v f = f d := by
  have : ¬ 67108864 ≤ a := by omega
  simp [Dev.arrive, h.1, this, Dev.idleExit_inRun h.2, Dev.heldAccess_inRun h.2]

/-! ### The register pages do not overlap (Table 3-1) -/

theorem pageBase_aligned : ∀ b, b < blkCount → 4096 * (pageBase b / 4096) = pageBase b := by decide

/-- A page's addresses lie below the windows and above the Ditch Map, clear of Freeboard's window. -/
theorem pages_clear : ∀ b, b < blkCount → b ≠ 0 →
    16 ≤ pageBase b / 4096 ∧ pageBase b / 4096 + pageCount b ≤ 2048 ∧
      (pageBase b / 4096 + pageCount b ≤ 180 ∨ 184 ≤ pageBase b / 4096) := by decide

/-- The first block whose pages hold page number `k` of the BAR. -/
def pageOwner (k : Nat) : Option Nat := (List.range blkCount).find? fun b =>
  b != 0 && decide (pageBase b / 4096 ≤ k) && decide (k < pageBase b / 4096 + pageCount b)

theorem find?_congr {α : Type} {f g : α → Bool} : ∀ (l : List α), (∀ x ∈ l, f x = g x) → l.find? f = l.find? g
  | [], _ => rfl
  | x :: t, h => by
    rw [List.find?_cons, List.find?_cons, h x (by simp), find?_congr t fun y hy => h y (by simp [hy])]

set_option maxRecDepth 4000 in
theorem pageOwner_base : ∀ b, b < blkCount → b ≠ 0 → ∀ k, k < pageCount b → pageOwner (pageBase b / 4096 + k) = some b := by
  decide +kernel

theorem targetOf_regAddr {b page off : Nat} (h : PageAt b page) (ho : off < 4096) :
    targetOf (regAddr b page off) = .page b page off := by
  obtain ⟨hb0, hb, hp⟩ := h
  have e := pageBase_aligned b hb
  have c := pages_clear b hb hb0
  have o := pageOwner_base b hb hb0 page hp
  have a : regAddr b page off = 4096 * (pageBase b / 4096 + page) + off := by unfold regAddr; omega
  have f : ((List.range blkCount).find? fun b' => b' != 0 && decide (pageBase b' ≤ regAddr b page off) &&
      decide (regAddr b page off < pageBase b' + 4096 * pageCount b')) = some b := by
    rw [← o, pageOwner]
    apply find?_congr
    intro x hx
    have ex := pageBase_aligned x (List.mem_range.mp hx)
    have i1 : pageBase x ≤ regAddr b page off ↔ pageBase x / 4096 ≤ pageBase b / 4096 + page := by omega
    have i2 : regAddr b page off < pageBase x + 4096 * pageCount x ↔
        pageBase b / 4096 + page < pageBase x / 4096 + pageCount x := by omega
    simp only [i1, i2]
  unfold targetOf
  rw [if_neg (by omega), if_neg (by omega), if_neg (by omega), if_neg (by omega), if_neg (by omega), if_neg (by omega), f]
  simp only
  congr 1 <;> omega

theorem regAddr_lt {b page off : Nat} (h : PageAt b page) (ho : off < 4096) : regAddr b page off < 0x800000 := by
  obtain ⟨hb0, hb, hp⟩ := h
  have e := pageBase_aligned b hb
  have c := pages_clear b hb hb0
  unfold regAddr
  omega

theorem goodSize_regAddr {b page off : Nat} (h : PageAt b page) (ho : off % 4 = 0) : goodSize (regAddr b page off) 4 = true := by
  have e := pageBase_aligned b h.2.1
  have : regAddr b page off % 4 = 0 := by unfold regAddr; omega
  simp [goodSize, this]

/-- A 4-byte write of a page's register. -/
theorem Dev.busWrite_page {d : Dev} (p : Path) {b page off : Nat} (v : Nat) (h : PageAt b page) (ho : off < 4096) (h4 : off % 4 = 0)
    (hs : d.fatalShut b page off = false) : d.busWrite p (regAddr b page off) 4 v = d.regWrite p b page off (v % 2 ^ 32) := by
  simp [Dev.busWrite, Dev.write4, Dev.targetShut, targetOf_regAddr h ho, goodSize_regAddr h h4, hs]

/-- A 4-byte read of a page's register. -/
theorem Dev.busRead_page (d : Dev) (p : Path) {b page off : Nat} (h : PageAt b page) (ho : off < 4096) (h4 : off % 4 = 0) :
    d.busRead p (regAddr b page off) 4 = d.regRead p b page off := by
  simp [Dev.busRead, Dev.read4, targetOf_regAddr h ho, goodSize_regAddr h h4]

theorem Dev.writeAt_reach {d : Dev} {p : Path} {b page off : Nat} (v : Nat) (h : d.PageReach p b page) (ho : off < 4096)
    (h4 : off % 4 = 0) (hs : d.fatalShut b page off = false) : d.writeAt p b page off v = d.regWrite p b page off (v % 2 ^ 32) := by
  have l := regAddr_lt h.2.1 ho
  have g : ¬ (b = 0 ∨ blkCount ≤ b ∨ pageCount b ≤ page ∨ 4096 ≤ off) := by
    have := h.2.1.1; have := h.2.1.2.1; have := h.2.1.2.2; omega
  simp only [Dev.writeAt, if_neg g]
  rw [Dev.arrive_reach h.1 (by omega), Dev.busWrite_page _ _ h.2.1 ho h4 hs]

theorem Dev.writeAt_writes {d : Dev} {p : Path} {b page off : Nat} (v : Nat) (h : d.PageWrites p b page) (ho : off < 4096)
    (h4 : off % 4 = 0) : d.writeAt p b page off v = d.regWrite p b page off (v % 2 ^ 32) :=
  Dev.writeAt_reach v h.1 ho h4 (Dev.fatalShut_open h.2 ..)

theorem Dev.readAt_reach {d : Dev} {p : Path} {b page off : Nat} (h : d.PageReach p b page) (ho : off < 4096) (h4 : off % 4 = 0) :
    d.readAt p b page off = (d.regRead p b page off).2.emit (.readData p (regAddr b page off) (d.regRead p b page off).1) := by
  have l := regAddr_lt h.2.1 ho
  have g : ¬ (b = 0 ∨ blkCount ≤ b ∨ pageCount b ≤ page ∨ 4096 ≤ off) := by
    have := h.2.1.1; have := h.2.1.2.1; have := h.2.1.2.2; omega
  simp only [Dev.readAt, if_neg g]
  rw [Dev.arrive_reach h.1 (by omega), Dev.busAnswer, Dev.busRead_page _ _ h.2.1 ho h4]

/-- A write that is neither of BLK_CTRL nor of GLOBAL_CTRL. -/
theorem Dev.regWrite_core {d : Dev} {p : Path} {b page off : Nat} (v : Nat) (h : d.PageReach p b page) (hc : off ≠ offCtrl)
    (hg : ¬ (b = 109 ∧ off = 0x80)) : d.regWrite p b page off v = d.regWriteCore p b page off v := by
  have : ¬ (b = 74 ∧ d.frozen 74 = true) := fun x => by simp [h.2.2 x.1] at x
  simp only [Dev.regWrite, if_neg hc, if_neg hg, if_neg this]

end Sys2Proof.Machine
end

