-- ==== Sys2Proof/Laws/State.lean ====
section
/-! SUPPORT. One lemma per field per update: what a register write, a memory write and an output leave as they are. -/
namespace Sys2Proof.Machine

@[simp] theorem State.on_dev (s : State) (d : Dev) : ({ s with dev := d } : State).dev = d := rfl
@[simp] theorem State.on_pending (s : State) (d : Dev) : ({ s with dev := d } : State).pending = s.pending := rfl

/-- The device with another memory. -/
def Dev.withMem (d : Dev) (m : List Host.Cell) : Dev := { d with mem := m }

@[simp] theorem Dev.withMem_mem (d : Dev) (m : List Host.Cell) : (d.withMem m).mem = m := rfl
@[simp] theorem Dev.withMem_free (d : Dev) (m : List Host.Cell) : (d.withMem m).free = d.free := rfl
@[simp] theorem Dev.withMem_undef (d : Dev) (m : List Host.Cell) : (d.withMem m).undef = d.undef := rfl
@[simp] theorem Dev.withMem_regs (d : Dev) (m : List Host.Cell) : (d.withMem m).regs = d.regs := rfl
@[simp] theorem Dev.withMem_lostEpoch (d : Dev) (m : List Host.Cell) : (d.withMem m).lostEpoch = d.lostEpoch := rfl
@[simp] theorem Dev.withMem_latch (d : Dev) (m : List Host.Cell) : (d.withMem m).latch = d.latch := rfl
@[simp] theorem Dev.withMem_stage (d : Dev) (m : List Host.Cell) : (d.withMem m).stage = d.stage := rfl
@[simp] theorem Dev.withMem_out (d : Dev) (m : List Host.Cell) : (d.withMem m).out = d.out := rfl
@[simp] theorem Dev.withMem_msix (d : Dev) (m : List Host.Cell) : (d.withMem m).msix = d.msix := rfl
@[simp] theorem Dev.withMem_trc (d : Dev) (m : List Host.Cell) : (d.withMem m).trc = d.trc := rfl
@[simp] theorem Dev.withMem_gh (d : Dev) (m : List Host.Cell) : (d.withMem m).gh = d.gh := rfl
@[simp] theorem Dev.withMem_pwr (d : Dev) (m : List Host.Cell) : (d.withMem m).pwr = d.pwr := rfl
@[simp] theorem Dev.withMem_keys (d : Dev) (m : List Host.Cell) : (d.withMem m).keys = d.keys := rfl
@[simp] theorem Dev.withMem_hg (d : Dev) (m : List Host.Cell) : (d.withMem m).hg = d.hg := rfl
@[simp] theorem Dev.withMem_map (d : Dev) (m : List Host.Cell) : (d.withMem m).map = d.map := rfl
@[simp] theorem Dev.withMem_objs (d : Dev) (m : List Host.Cell) : (d.withMem m).objs = d.objs := rfl
@[simp] theorem Dev.withMem_wins (d : Dev) (m : List Host.Cell) : (d.withMem m).wins = d.wins := rfl
@[simp] theorem Dev.withMem_pool (d : Dev) (m : List Host.Cell) : (d.withMem m).pool = d.pool := rfl
@[simp] theorem Dev.withMem_flm (d : Dev) (m : List Host.Cell) : (d.withMem m).flm = d.flm := rfl
@[simp] theorem Dev.withMem_slc (d : Dev) (m : List Host.Cell) : (d.withMem m).slc = d.slc := rfl
@[simp] theorem Dev.withMem_auto (d : Dev) (m : List Host.Cell) : (d.withMem m).auto = d.auto := rfl
@[simp] theorem Dev.withMem_plan (d : Dev) (m : List Host.Cell) : (d.withMem m).plan = d.plan := rfl
@[simp] theorem Dev.withMem_obsQ (d : Dev) (m : List Host.Cell) : (d.withMem m).obsQ = d.obsQ := rfl
@[simp] theorem Dev.withMem_chains (d : Dev) (m : List Host.Cell) : (d.withMem m).chains = d.chains := rfl
@[simp] theorem Dev.withMem_links (d : Dev) (m : List Host.Cell) : (d.withMem m).links = d.links := rfl
@[simp] theorem Dev.withMem_lr (d : Dev) (m : List Host.Cell) : (d.withMem m).lr = d.lr := rfl
@[simp] theorem Dev.withMem_fb (d : Dev) (m : List Host.Cell) : (d.withMem m).fb = d.fb := rfl
@[simp] theorem Dev.withMem_ck (d : Dev) (m : List Host.Cell) : (d.withMem m).ck = d.ck := rfl
@[simp] theorem Dev.withMem_ports (d : Dev) (m : List Host.Cell) : (d.withMem m).ports = d.ports := rfl
@[simp] theorem Dev.withMem_reads (d : Dev) (m : List Host.Cell) : (d.withMem m).reads = d.reads := rfl
@[simp] theorem Dev.withMem_host (d : Dev) (m : List Host.Cell) : (d.withMem m).host = d.host := rfl
@[simp] theorem Dev.withMem_exps (d : Dev) (m : List Host.Cell) : (d.withMem m).exps = d.exps := rfl
@[simp] theorem Dev.withMem_stuck (d : Dev) (m : List Host.Cell) : (d.withMem m).stuck = d.stuck := rfl
@[simp] theorem Dev.withMem_held (d : Dev) (m : List Host.Cell) : (d.withMem m).held = d.held := rfl
@[simp] theorem Dev.withMem_pins (d : Dev) (m : List Host.Cell) : (d.withMem m).pins = d.pins := rfl
@[simp] theorem Dev.withMem_mgmt (d : Dev) (m : List Host.Cell) : (d.withMem m).mgmt = d.mgmt := rfl
@[simp] theorem Dev.withMem_boot (d : Dev) (m : List Host.Cell) : (d.withMem m).boot = d.boot := rfl
@[simp] theorem Dev.withMem_sel (d : Dev) (m : List Host.Cell) : (d.withMem m).sel = d.sel := rfl
@[simp] theorem Dev.withMem_snaps (d : Dev) (m : List Host.Cell) : (d.withMem m).snaps = d.snaps := rfl
@[simp] theorem Dev.withMem_ecc (d : Dev) (m : List Host.Cell) : (d.withMem m).ecc = d.ecc := rfl
@[simp] theorem Dev.withMem_errSeen (d : Dev) (m : List Host.Cell) : (d.withMem m).errSeen = d.errSeen := rfl
@[simp] theorem Dev.withMem_tied (d : Dev) (m : List Host.Cell) : (d.withMem m).tied = d.tied := rfl
@[simp] theorem Dev.withMem_due (d : Dev) (m : List Host.Cell) : (d.withMem m).due = d.due := rfl

/-! ### `wrk` writes `regs` alone -/

@[simp] theorem Dev.wrk_free (d : Dev) (k v : Nat) : (d.wrk k v).free = d.free := rfl
@[simp] theorem Dev.wrk_undef (d : Dev) (k v : Nat) : (d.wrk k v).undef = d.undef := rfl
@[simp] theorem Dev.wrk_mem (d : Dev) (k v : Nat) : (d.wrk k v).mem = d.mem := rfl
@[simp] theorem Dev.wrk_lostEpoch (d : Dev) (k v : Nat) : (d.wrk k v).lostEpoch = d.lostEpoch := rfl
@[simp] theorem Dev.wrk_latch (d : Dev) (k v : Nat) : (d.wrk k v).latch = d.latch := rfl
@[simp] theorem Dev.wrk_stage (d : Dev) (k v : Nat) : (d.wrk k v).stage = d.stage := rfl
@[simp] theorem Dev.wrk_out (d : Dev) (k v : Nat) : (d.wrk k v).out = d.out := rfl
@[simp] theorem Dev.wrk_msix (d : Dev) (k v : Nat) : (d.wrk k v).msix = d.msix := rfl
@[simp] theorem Dev.wrk_trc (d : Dev) (k v : Nat) : (d.wrk k v).trc = d.trc := rfl
@[simp] theorem Dev.wrk_gh (d : Dev) (k v : Nat) : (d.wrk k v).gh = d.gh := rfl
@[simp] theorem Dev.wrk_pwr (d : Dev) (k v : Nat) : (d.wrk k v).pwr = d.pwr := rfl
@[simp] theorem Dev.wrk_keys (d : Dev) (k v : Nat) : (d.wrk k v).keys = d.keys := rfl
@[simp] theorem Dev.wrk_hg (d : Dev) (k v : Nat) : (d.wrk k v).hg = d.hg := rfl
@[simp] theorem Dev.wrk_map (d : Dev) (k v : Nat) : (d.wrk k v).map = d.map := rfl
@[simp] theorem Dev.wrk_objs (d : Dev) (k v : Nat) : (d.wrk k v).objs = d.objs := rfl
@[simp] theorem Dev.wrk_wins (d : Dev) (k v : Nat) : (d.wrk k v).wins = d.wins := rfl
@[simp] theorem Dev.wrk_pool (d : Dev) (k v : Nat) : (d.wrk k v).pool = d.pool := rfl
@[simp] theorem Dev.wrk_flm (d : Dev) (k v : Nat) : (d.wrk k v).flm = d.flm := rfl
@[simp] theorem Dev.wrk_slc (d : Dev) (k v : Nat) : (d.wrk k v).slc = d.slc := rfl
@[simp] theorem Dev.wrk_auto (d : Dev) (k v : Nat) : (d.wrk k v).auto = d.auto := rfl
@[simp] theorem Dev.wrk_plan (d : Dev) (k v : Nat) : (d.wrk k v).plan = d.plan := rfl
@[simp] theorem Dev.wrk_obsQ (d : Dev) (k v : Nat) : (d.wrk k v).obsQ = d.obsQ := rfl
@[simp] theorem Dev.wrk_chains (d : Dev) (k v : Nat) : (d.wrk k v).chains = d.chains := rfl
@[simp] theorem Dev.wrk_links (d : Dev) (k v : Nat) : (d.wrk k v).links = d.links := rfl
@[simp] theorem Dev.wrk_lr (d : Dev) (k v : Nat) : (d.wrk k v).lr = d.lr := rfl
@[simp] theorem Dev.wrk_fb (d : Dev) (k v : Nat) : (d.wrk k v).fb = d.fb := rfl
@[simp] theorem Dev.wrk_ck (d : Dev) (k v : Nat) : (d.wrk k v).ck = d.ck := rfl
@[simp] theorem Dev.wrk_ports (d : Dev) (k v : Nat) : (d.wrk k v).ports = d.ports := rfl
@[simp] theorem Dev.wrk_reads (d : Dev) (k v : Nat) : (d.wrk k v).reads = d.reads := rfl
@[simp] theorem Dev.wrk_host (d : Dev) (k v : Nat) : (d.wrk k v).host = d.host := rfl
@[simp] theorem Dev.wrk_exps (d : Dev) (k v : Nat) : (d.wrk k v).exps = d.exps := rfl
@[simp] theorem Dev.wrk_stuck (d : Dev) (k v : Nat) : (d.wrk k v).stuck = d.stuck := rfl
@[simp] theorem Dev.wrk_held (d : Dev) (k v : Nat) : (d.wrk k v).held = d.held := rfl
@[simp] theorem Dev.wrk_pins (d : Dev) (k v : Nat) : (d.wrk k v).pins = d.pins := rfl
@[simp] theorem Dev.wrk_mgmt (d : Dev) (k v : Nat) : (d.wrk k v).mgmt = d.mgmt := rfl
@[simp] theorem Dev.wrk_boot (d : Dev) (k v : Nat) : (d.wrk k v).boot = d.boot := rfl
@[simp] theorem Dev.wrk_sel (d : Dev) (k v : Nat) : (d.wrk k v).sel = d.sel := rfl
@[simp] theorem Dev.wrk_snaps (d : Dev) (k v : Nat) : (d.wrk k v).snaps = d.snaps := rfl
@[simp] theorem Dev.wrk_ecc (d : Dev) (k v : Nat) : (d.wrk k v).ecc = d.ecc := rfl
@[simp] theorem Dev.wrk_errSeen (d : Dev) (k v : Nat) : (d.wrk k v).errSeen = d.errSeen := rfl
@[simp] theorem Dev.wrk_tied (d : Dev) (k v : Nat) : (d.wrk k v).tied = d.tied := rfl
@[simp] theorem Dev.wrk_due (d : Dev) (k v : Nat) : (d.wrk k v).due = d.due := rfl

/-! ### `wr` writes `regs` alone -/

@[simp] theorem Dev.wr_free (d : Dev) (r : Reg) (v i : Nat) : (d.wr r v i).free = d.free := rfl
@[simp] theorem Dev.wr_undef (d : Dev) (r : Reg) (v i : Nat) : (d.wr r v i).undef = d.undef := rfl
@[simp] theorem Dev.wr_mem (d : Dev) (r : Reg) (v i : Nat) : (d.wr r v i).mem = d.mem := rfl
@[simp] theorem Dev.wr_lostEpoch (d : Dev) (r : Reg) (v i : Nat) : (d.wr r v i).lostEpoch = d.lostEpoch := rfl
@[simp] theorem Dev.wr_latch (d : Dev) (r : Reg) (v i : Nat) : (d.wr r v i).latch = d.latch := rfl
@[simp] theorem Dev.wr_stage (d : Dev) (r : Reg) (v i : Nat) : (d.wr r v i).stage = d.stage := rfl
@[simp] theorem Dev.wr_out (d : Dev) (r : Reg) (v i : Nat) : (d.wr r v i).out = d.out := rfl
@[simp] theorem Dev.wr_msix (d : Dev) (r : Reg) (v i : Nat) : (d.wr r v i).msix = d.msix := rfl
@[simp] theorem Dev.wr_trc (d : Dev) (r : Reg) (v i : Nat) : (d.wr r v i).trc = d.trc := rfl
@[simp] theorem Dev.wr_gh (d : Dev) (r : Reg) (v i : Nat) : (d.wr r v i).gh = d.gh := rfl
@[simp] theorem Dev.wr_pwr (d : Dev) (r : Reg) (v i : Nat) : (d.wr r v i).pwr = d.pwr := rfl
@[simp] theorem Dev.wr_keys (d : Dev) (r : Reg) (v i : Nat) : (d.wr r v i).keys = d.keys := rfl
@[simp] theorem Dev.wr_hg (d : Dev) (r : Reg) (v i : Nat) : (d.wr r v i).hg = d.hg := rfl
@[simp] theorem Dev.wr_map (d : Dev) (r : Reg) (v i : Nat) : (d.wr r v i).map = d.map := rfl
@[simp] theorem Dev.wr_objs (d : Dev) (r : Reg) (v i : Nat) : (d.wr r v i).objs = d.objs := rfl
@[simp] theorem Dev.wr_wins (d : Dev) (r : Reg) (v i : Nat) : (d.wr r v i).wins = d.wins := rfl
@[simp] theorem Dev.wr_pool (d : Dev) (r : Reg) (v i : Nat) : (d.wr r v i).pool = d.pool := rfl
@[simp] theorem Dev.wr_flm (d : Dev) (r : Reg) (v i : Nat) : (d.wr r v i).flm = d.flm := rfl
@[simp] theorem Dev.wr_slc (d : Dev) (r : Reg) (v i : Nat) : (d.wr r v i).slc = d.slc := rfl
@[simp] theorem Dev.wr_auto (d : Dev) (r : Reg) (v i : Nat) : (d.wr r v i).auto = d.auto := rfl
@[simp] theorem Dev.wr_plan (d : Dev) (r : Reg) (v i : Nat) : (d.wr r v i).plan = d.plan := rfl
@[simp] theorem Dev.wr_obsQ (d : Dev) (r : Reg) (v i : Nat) : (d.wr r v i).obsQ = d.obsQ := rfl
@[simp] theorem Dev.wr_chains (d : Dev) (r : Reg) (v i : Nat) : (d.wr r v i).chains = d.chains := rfl
@[simp] theorem Dev.wr_links (d : Dev) (r : Reg) (v i : Nat) : (d.wr r v i).links = d.links := rfl
@[simp] theorem Dev.wr_lr (d : Dev) (r : Reg) (v i : Nat) : (d.wr r v i).lr = d.lr := rfl
@[simp] theorem Dev.wr_fb (d : Dev) (r : Reg) (v i : Nat) : (d.wr r v i).fb = d.fb := rfl
@[simp] theorem Dev.wr_ck (d : Dev) (r : Reg) (v i : Nat) : (d.wr r v i).ck = d.ck := rfl
@[simp] theorem Dev.wr_ports (d : Dev) (r : Reg) (v i : Nat) : (d.wr r v i).ports = d.ports := rfl
@[simp] theorem Dev.wr_reads (d : Dev) (r : Reg) (v i : Nat) : (d.wr r v i).reads = d.reads := rfl
@[simp] theorem Dev.wr_host (d : Dev) (r : Reg) (v i : Nat) : (d.wr r v i).host = d.host := rfl
@[simp] theorem Dev.wr_exps (d : Dev) (r : Reg) (v i : Nat) : (d.wr r v i).exps = d.exps := rfl
@[simp] theorem Dev.wr_stuck (d : Dev) (r : Reg) (v i : Nat) : (d.wr r v i).stuck = d.stuck := rfl
@[simp] theorem Dev.wr_held (d : Dev) (r : Reg) (v i : Nat) : (d.wr r v i).held = d.held := rfl
@[simp] theorem Dev.wr_pins (d : Dev) (r : Reg) (v i : Nat) : (d.wr r v i).pins = d.pins := rfl
@[simp] theorem Dev.wr_mgmt (d : Dev) (r : Reg) (v i : Nat) : (d.wr r v i).mgmt = d.mgmt := rfl
@[simp] theorem Dev.wr_boot (d : Dev) (r : Reg) (v i : Nat) : (d.wr r v i).boot = d.boot := rfl
@[simp] theorem Dev.wr_sel (d : Dev) (r : Reg) (v i : Nat) : (d.wr r v i).sel = d.sel := rfl
@[simp] theorem Dev.wr_snaps (d : Dev) (r : Reg) (v i : Nat) : (d.wr r v i).snaps = d.snaps := rfl
@[simp] theorem Dev.wr_ecc (d : Dev) (r : Reg) (v i : Nat) : (d.wr r v i).ecc = d.ecc := rfl
@[simp] theorem Dev.wr_errSeen (d : Dev) (r : Reg) (v i : Nat) : (d.wr r v i).errSeen = d.errSeen := rfl
@[simp] theorem Dev.wr_tied (d : Dev) (r : Reg) (v i : Nat) : (d.wr r v i).tied = d.tied := rfl
@[simp] theorem Dev.wr_due (d : Dev) (r : Reg) (v i : Nat) : (d.wr r v i).due = d.due := rfl

/-! ### `set` writes `regs` alone -/

@[simp] theorem Dev.set_free (d : Dev) (f : Fld) (v i : Nat) : (d.set f v i).free = d.free := rfl
@[simp] theorem Dev.set_undef (d : Dev) (f : Fld) (v i : Nat) : (d.set f v i).undef = d.undef := rfl
@[simp] theorem Dev.set_mem (d : Dev) (f : Fld) (v i : Nat) : (d.set f v i).mem = d.mem := rfl
@[simp] theorem Dev.set_lostEpoch (d : Dev) (f : Fld) (v i : Nat) : (d.set f v i).lostEpoch = d.lostEpoch := rfl
@[simp] theorem Dev.set_latch (d : Dev) (f : Fld) (v i : Nat) : (d.set f v i).latch = d.latch := rfl
@[simp] theorem Dev.set_stage (d : Dev) (f : Fld) (v i : Nat) : (d.set f v i).stage = d.stage := rfl
@[simp] theorem Dev.set_out (d : Dev) (f : Fld) (v i : Nat) : (d.set f v i).out = d.out := rfl
@[simp] theorem Dev.set_msix (d : Dev) (f : Fld) (v i : Nat) : (d.set f v i).msix = d.msix := rfl
@[simp] theorem Dev.set_trc (d : Dev) (f : Fld) (v i : Nat) : (d.set f v i).trc = d.trc := rfl
@[simp] theorem Dev.set_gh (d : Dev) (f : Fld) (v i : Nat) : (d.set f v i).gh = d.gh := rfl
@[simp] theorem Dev.set_pwr (d : Dev) (f : Fld) (v i : Nat) : (d.set f v i).pwr = d.pwr := rfl
@[simp] theorem Dev.set_keys (d : Dev) (f : Fld) (v i : Nat) : (d.set f v i).keys = d.keys := rfl
@[simp] theorem Dev.set_hg (d : Dev) (f : Fld) (v i : Nat) : (d.set f v i).hg = d.hg := rfl
@[simp] theorem Dev.set_map (d : Dev) (f : Fld) (v i : Nat) : (d.set f v i).map = d.map := rfl
@[simp] theorem Dev.set_objs (d : Dev) (f : Fld) (v i : Nat) : (d.set f v i).objs = d.objs := rfl
@[simp] theorem Dev.set_wins (d : Dev) (f : Fld) (v i : Nat) : (d.set f v i).wins = d.wins := rfl
@[simp] theorem Dev.set_pool (d : Dev) (f : Fld) (v i : Nat) : (d.set f v i).pool = d.pool := rfl
@[simp] theorem Dev.set_flm (d : Dev) (f : Fld) (v i : Nat) : (d.set f v i).flm = d.flm := rfl
@[simp] theorem Dev.set_slc (d : Dev) (f : Fld) (v i : Nat) : (d.set f v i).slc = d.slc := rfl
@[simp] theorem Dev.set_auto (d : Dev) (f : Fld) (v i : Nat) : (d.set f v i).auto = d.auto := rfl
@[simp] theorem Dev.set_plan (d : Dev) (f : Fld) (v i : Nat) : (d.set f v i).plan = d.plan := rfl
@[simp] theorem Dev.set_obsQ (d : Dev) (f : Fld) (v i : Nat) : (d.set f v i).obsQ = d.obsQ := rfl
@[simp] theorem Dev.set_chains (d : Dev) (f : Fld) (v i : Nat) : (d.set f v i).chains = d.chains := rfl
@[simp] theorem Dev.set_links (d : Dev) (f : Fld) (v i : Nat) : (d.set f v i).links = d.links := rfl
@[simp] theorem Dev.set_lr (d : Dev) (f : Fld) (v i : Nat) : (d.set f v i).lr = d.lr := rfl
@[simp] theorem Dev.set_fb (d : Dev) (f : Fld) (v i : Nat) : (d.set f v i).fb = d.fb := rfl
@[simp] theorem Dev.set_ck (d : Dev) (f : Fld) (v i : Nat) : (d.set f v i).ck = d.ck := rfl
@[simp] theorem Dev.set_ports (d : Dev) (f : Fld) (v i : Nat) : (d.set f v i).ports = d.ports := rfl
@[simp] theorem Dev.set_reads (d : Dev) (f : Fld) (v i : Nat) : (d.set f v i).reads = d.reads := rfl
@[simp] theorem Dev.set_host (d : Dev) (f : Fld) (v i : Nat) : (d.set f v i).host = d.host := rfl
@[simp] theorem Dev.set_exps (d : Dev) (f : Fld) (v i : Nat) : (d.set f v i).exps = d.exps := rfl
@[simp] theorem Dev.set_stuck (d : Dev) (f : Fld) (v i : Nat) : (d.set f v i).stuck = d.stuck := rfl
@[simp] theorem Dev.set_held (d : Dev) (f : Fld) (v i : Nat) : (d.set f v i).held = d.held := rfl
@[simp] theorem Dev.set_pins (d : Dev) (f : Fld) (v i : Nat) : (d.set f v i).pins = d.pins := rfl
@[simp] theorem Dev.set_mgmt (d : Dev) (f : Fld) (v i : Nat) : (d.set f v i).mgmt = d.mgmt := rfl
@[simp] theorem Dev.set_boot (d : Dev) (f : Fld) (v i : Nat) : (d.set f v i).boot = d.boot := rfl
@[simp] theorem Dev.set_sel (d : Dev) (f : Fld) (v i : Nat) : (d.set f v i).sel = d.sel := rfl
@[simp] theorem Dev.set_snaps (d : Dev) (f : Fld) (v i : Nat) : (d.set f v i).snaps = d.snaps := rfl
@[simp] theorem Dev.set_ecc (d : Dev) (f : Fld) (v i : Nat) : (d.set f v i).ecc = d.ecc := rfl
@[simp] theorem Dev.set_errSeen (d : Dev) (f : Fld) (v i : Nat) : (d.set f v i).errSeen = d.errSeen := rfl
@[simp] theorem Dev.set_tied (d : Dev) (f : Fld) (v i : Nat) : (d.set f v i).tied = d.tied := rfl
@[simp] theorem Dev.set_due (d : Dev) (f : Fld) (v i : Nat) : (d.set f v i).due = d.due := rfl

/-! ### `hwr` writes `regs` alone -/

@[simp] theorem Dev.hwr_free (d : Dev) (b page off v : Nat) : (d.hwr b page off v).free = d.free := rfl
@[simp] theorem Dev.hwr_undef (d : Dev) (b page off v : Nat) : (d.hwr b page off v).undef = d.undef := rfl
@[simp] theorem Dev.hwr_mem (d : Dev) (b page off v : Nat) : (d.hwr b page off v).mem = d.mem := rfl
@[simp] theorem Dev.hwr_lostEpoch (d : Dev) (b page off v : Nat) : (d.hwr b page off v).lostEpoch = d.lostEpoch := rfl
@[simp] theorem Dev.hwr_latch (d : Dev) (b page off v : Nat) : (d.hwr b page off v).latch = d.latch := rfl
@[simp] theorem Dev.hwr_stage (d : Dev) (b page off v : Nat) : (d.hwr b page off v).stage = d.stage := rfl
@[simp] theorem Dev.hwr_out (d : Dev) (b page off v : Nat) : (d.hwr b page off v).out = d.out := rfl
@[simp] theorem Dev.hwr_msix (d : Dev) (b page off v : Nat) : (d.hwr b page off v).msix = d.msix := rfl
@[simp] theorem Dev.hwr_trc (d : Dev) (b page off v : Nat) : (d.hwr b page off v).trc = d.trc := rfl
@[simp] theorem Dev.hwr_gh (d : Dev) (b page off v : Nat) : (d.hwr b page off v).gh = d.gh := rfl
@[simp] theorem Dev.hwr_pwr (d : Dev) (b page off v : Nat) : (d.hwr b page off v).pwr = d.pwr := rfl
@[simp] theorem Dev.hwr_keys (d : Dev) (b page off v : Nat) : (d.hwr b page off v).keys = d.keys := rfl
@[simp] theorem Dev.hwr_hg (d : Dev) (b page off v : Nat) : (d.hwr b page off v).hg = d.hg := rfl
@[simp] theorem Dev.hwr_map (d : Dev) (b page off v : Nat) : (d.hwr b page off v).map = d.map := rfl
@[simp] theorem Dev.hwr_objs (d : Dev) (b page off v : Nat) : (d.hwr b page off v).objs = d.objs := rfl
@[simp] theorem Dev.hwr_wins (d : Dev) (b page off v : Nat) : (d.hwr b page off v).wins = d.wins := rfl
@[simp] theorem Dev.hwr_pool (d : Dev) (b page off v : Nat) : (d.hwr b page off v).pool = d.pool := rfl
@[simp] theorem Dev.hwr_flm (d : Dev) (b page off v : Nat) : (d.hwr b page off v).flm = d.flm := rfl
@[simp] theorem Dev.hwr_slc (d : Dev) (b page off v : Nat) : (d.hwr b page off v).slc = d.slc := rfl
@[simp] theorem Dev.hwr_auto (d : Dev) (b page off v : Nat) : (d.hwr b page off v).auto = d.auto := rfl
@[simp] theorem Dev.hwr_plan (d : Dev) (b page off v : Nat) : (d.hwr b page off v).plan = d.plan := rfl
@[simp] theorem Dev.hwr_obsQ (d : Dev) (b page off v : Nat) : (d.hwr b page off v).obsQ = d.obsQ := rfl
@[simp] theorem Dev.hwr_chains (d : Dev) (b page off v : Nat) : (d.hwr b page off v).chains = d.chains := rfl
@[simp] theorem Dev.hwr_links (d : Dev) (b page off v : Nat) : (d.hwr b page off v).links = d.links := rfl
@[simp] theorem Dev.hwr_lr (d : Dev) (b page off v : Nat) : (d.hwr b page off v).lr = d.lr := rfl
@[simp] theorem Dev.hwr_fb (d : Dev) (b page off v : Nat) : (d.hwr b page off v).fb = d.fb := rfl
@[simp] theorem Dev.hwr_ck (d : Dev) (b page off v : Nat) : (d.hwr b page off v).ck = d.ck := rfl
@[simp] theorem Dev.hwr_ports (d : Dev) (b page off v : Nat) : (d.hwr b page off v).ports = d.ports := rfl
@[simp] theorem Dev.hwr_reads (d : Dev) (b page off v : Nat) : (d.hwr b page off v).reads = d.reads := rfl
@[simp] theorem Dev.hwr_host (d : Dev) (b page off v : Nat) : (d.hwr b page off v).host = d.host := rfl
@[simp] theorem Dev.hwr_exps (d : Dev) (b page off v : Nat) : (d.hwr b page off v).exps = d.exps := rfl
@[simp] theorem Dev.hwr_stuck (d : Dev) (b page off v : Nat) : (d.hwr b page off v).stuck = d.stuck := rfl
@[simp] theorem Dev.hwr_held (d : Dev) (b page off v : Nat) : (d.hwr b page off v).held = d.held := rfl
@[simp] theorem Dev.hwr_pins (d : Dev) (b page off v : Nat) : (d.hwr b page off v).pins = d.pins := rfl
@[simp] theorem Dev.hwr_mgmt (d : Dev) (b page off v : Nat) : (d.hwr b page off v).mgmt = d.mgmt := rfl
@[simp] theorem Dev.hwr_boot (d : Dev) (b page off v : Nat) : (d.hwr b page off v).boot = d.boot := rfl
@[simp] theorem Dev.hwr_sel (d : Dev) (b page off v : Nat) : (d.hwr b page off v).sel = d.sel := rfl
@[simp] theorem Dev.hwr_snaps (d : Dev) (b page off v : Nat) : (d.hwr b page off v).snaps = d.snaps := rfl
@[simp] theorem Dev.hwr_ecc (d : Dev) (b page off v : Nat) : (d.hwr b page off v).ecc = d.ecc := rfl
@[simp] theorem Dev.hwr_errSeen (d : Dev) (b page off v : Nat) : (d.hwr b page off v).errSeen = d.errSeen := rfl
@[simp] theorem Dev.hwr_tied (d : Dev) (b page off v : Nat) : (d.hwr b page off v).tied = d.tied := rfl
@[simp] theorem Dev.hwr_due (d : Dev) (b page off v : Nat) : (d.hwr b page off v).due = d.due := rfl

/-! ### `emit` writes `out` alone -/

@[simp] theorem Dev.emit_free (d : Dev) (o : Output) : (d.emit o).free = d.free := rfl
@[simp] theorem Dev.emit_undef (d : Dev) (o : Output) : (d.emit o).undef = d.undef := rfl
@[simp] theorem Dev.emit_regs (d : Dev) (o : Output) : (d.emit o).regs = d.regs := rfl
@[simp] theorem Dev.emit_mem (d : Dev) (o : Output) : (d.emit o).mem = d.mem := rfl
@[simp] theorem Dev.emit_lostEpoch (d : Dev) (o : Output) : (d.emit o).lostEpoch = d.lostEpoch := rfl
@[simp] theorem Dev.emit_latch (d : Dev) (o : Output) : (d.emit o).latch = d.latch := rfl
@[simp] theorem Dev.emit_stage (d : Dev) (o : Output) : (d.emit o).stage = d.stage := rfl
@[simp] theorem Dev.emit_msix (d : Dev) (o : Output) : (d.emit o).msix = d.msix := rfl
@[simp] theorem Dev.emit_trc (d : Dev) (o : Output) : (d.emit o).trc = d.trc := rfl
@[simp] theorem Dev.emit_gh (d : Dev) (o : Output) : (d.emit o).gh = d.gh := rfl
@[simp] theorem Dev.emit_pwr (d : Dev) (o : Output) : (d.emit o).pwr = d.pwr := rfl
@[simp] theorem Dev.emit_keys (d : Dev) (o : Output) : (d.emit o).keys = d.keys := rfl
@[simp] theorem Dev.emit_hg (d : Dev) (o : Output) : (d.emit o).hg = d.hg := rfl
@[simp] theorem Dev.emit_map (d : Dev) (o : Output) : (d.emit o).map = d.map := rfl
@[simp] theorem Dev.emit_objs (d : Dev) (o : Output) : (d.emit o).objs = d.objs := rfl
@[simp] theorem Dev.emit_wins (d : Dev) (o : Output) : (d.emit o).wins = d.wins := rfl
@[simp] theorem Dev.emit_pool (d : Dev) (o : Output) : (d.emit o).pool = d.pool := rfl
@[simp] theorem Dev.emit_flm (d : Dev) (o : Output) : (d.emit o).flm = d.flm := rfl
@[simp] theorem Dev.emit_slc (d : Dev) (o : Output) : (d.emit o).slc = d.slc := rfl
@[simp] theorem Dev.emit_auto (d : Dev) (o : Output) : (d.emit o).auto = d.auto := rfl
@[simp] theorem Dev.emit_plan (d : Dev) (o : Output) : (d.emit o).plan = d.plan := rfl
@[simp] theorem Dev.emit_obsQ (d : Dev) (o : Output) : (d.emit o).obsQ = d.obsQ := rfl
@[simp] theorem Dev.emit_chains (d : Dev) (o : Output) : (d.emit o).chains = d.chains := rfl
@[simp] theorem Dev.emit_links (d : Dev) (o : Output) : (d.emit o).links = d.links := rfl
@[simp] theorem Dev.emit_lr (d : Dev) (o : Output) : (d.emit o).lr = d.lr := rfl
@[simp] theorem Dev.emit_fb (d : Dev) (o : Output) : (d.emit o).fb = d.fb := rfl
@[simp] theorem Dev.emit_ck (d : Dev) (o : Output) : (d.emit o).ck = d.ck := rfl
@[simp] theorem Dev.emit_ports (d : Dev) (o : Output) : (d.emit o).ports = d.ports := rfl
@[simp] theorem Dev.emit_reads (d : Dev) (o : Output) : (d.emit o).reads = d.reads := rfl
@[simp] theorem Dev.emit_host (d : Dev) (o : Output) : (d.emit o).host = d.host := rfl
@[simp] theorem Dev.emit_exps (d : Dev) (o : Output) : (d.emit o).exps = d.exps := rfl
@[simp] theorem Dev.emit_stuck (d : Dev) (o : Output) : (d.emit o).stuck = d.stuck := rfl
@[simp] theorem Dev.emit_held (d : Dev) (o : Output) : (d.emit o).held = d.held := rfl
@[simp] theorem Dev.emit_pins (d : Dev) (o : Output) : (d.emit o).pins = d.pins := rfl
@[simp] theorem Dev.emit_mgmt (d : Dev) (o : Output) : (d.emit o).mgmt = d.mgmt := rfl
@[simp] theorem Dev.emit_boot (d : Dev) (o : Output) : (d.emit o).boot = d.boot := rfl
@[simp] theorem Dev.emit_sel (d : Dev) (o : Output) : (d.emit o).sel = d.sel := rfl
@[simp] theorem Dev.emit_snaps (d : Dev) (o : Output) : (d.emit o).snaps = d.snaps := rfl
@[simp] theorem Dev.emit_ecc (d : Dev) (o : Output) : (d.emit o).ecc = d.ecc := rfl
@[simp] theorem Dev.emit_errSeen (d : Dev) (o : Output) : (d.emit o).errSeen = d.errSeen := rfl
@[simp] theorem Dev.emit_tied (d : Dev) (o : Output) : (d.emit o).tied = d.tied := rfl
@[simp] theorem Dev.emit_due (d : Dev) (o : Output) : (d.emit o).due = d.due := rfl

/-! ### `wb` writes `mem` alone -/

theorem Dev.wb_eq (d : Dev) (sp a : Nat) (v : Byte) :
    d.wb sp a v = d.withMem (Sparse.put (memDefault d.lostEpoch) d.mem (memKey sp a) v) := by unfold Dev.wb; exact rfl
@[simp] theorem Dev.wb_free (d : Dev) (sp a : Nat) (v : Byte) : (d.wb sp a v).free = d.free := (congrArg Dev.free (Dev.wb_eq ..)).trans (Dev.withMem_free ..)
@[simp] theorem Dev.wb_undef (d : Dev) (sp a : Nat) (v : Byte) : (d.wb sp a v).undef = d.undef := (congrArg Dev.undef (Dev.wb_eq ..)).trans (Dev.withMem_undef ..)
@[simp] theorem Dev.wb_regs (d : Dev) (sp a : Nat) (v : Byte) : (d.wb sp a v).regs = d.regs := (congrArg Dev.regs (Dev.wb_eq ..)).trans (Dev.withMem_regs ..)
@[simp] theorem Dev.wb_lostEpoch (d : Dev) (sp a : Nat) (v : Byte) : (d.wb sp a v).lostEpoch = d.lostEpoch := (congrArg Dev.lostEpoch (Dev.wb_eq ..)).trans (Dev.withMem_lostEpoch ..)
@[simp] theorem Dev.wb_latch (d : Dev) (sp a : Nat) (v : Byte) : (d.wb sp a v).latch = d.latch := (congrArg Dev.latch (Dev.wb_eq ..)).trans (Dev.withMem_latch ..)
@[simp] theorem Dev.wb_stage (d : Dev) (sp a : Nat) (v : Byte) : (d.wb sp a v).stage = d.stage := (congrArg Dev.stage (Dev.wb_eq ..)).trans (Dev.withMem_stage ..)
@[simp] theorem Dev.wb_out (d : Dev) (sp a : Nat) (v : Byte) : (d.wb sp a v).out = d.out := (congrArg Dev.out (Dev.wb_eq ..)).trans (Dev.withMem_out ..)
@[simp] theorem Dev.wb_msix (d : Dev) (sp a : Nat) (v : Byte) : (d.wb sp a v).msix = d.msix := (congrArg Dev.msix (Dev.wb_eq ..)).trans (Dev.withMem_msix ..)
@[simp] theorem Dev.wb_trc (d : Dev) (sp a : Nat) (v : Byte) : (d.wb sp a v).trc = d.trc := (congrArg Dev.trc (Dev.wb_eq ..)).trans (Dev.withMem_trc ..)
@[simp] theorem Dev.wb_gh (d : Dev) (sp a : Nat) (v : Byte) : (d.wb sp a v).gh = d.gh := (congrArg Dev.gh (Dev.wb_eq ..)).trans (Dev.withMem_gh ..)
@[simp] theorem Dev.wb_pwr (d : Dev) (sp a : Nat) (v : Byte) : (d.wb sp a v).pwr = d.pwr := (congrArg Dev.pwr (Dev.wb_eq ..)).trans (Dev.withMem_pwr ..)
@[simp] theorem Dev.wb_keys (d : Dev) (sp a : Nat) (v : Byte) : (d.wb sp a v).keys = d.keys := (congrArg Dev.keys (Dev.wb_eq ..)).trans (Dev.withMem_keys ..)
@[simp] theorem Dev.wb_hg (d : Dev) (sp a : Nat) (v : Byte) : (d.wb sp a v).hg = d.hg := (congrArg Dev.hg (Dev.wb_eq ..)).trans (Dev.withMem_hg ..)
@[simp] theorem Dev.wb_map (d : Dev) (sp a : Nat) (v : Byte) : (d.wb sp a v).map = d.map := (congrArg Dev.map (Dev.wb_eq ..)).trans (Dev.withMem_map ..)
@[simp] theorem Dev.wb_objs (d : Dev) (sp a : Nat) (v : Byte) : (d.wb sp a v).objs = d.objs := (congrArg Dev.objs (Dev.wb_eq ..)).trans (Dev.withMem_objs ..)
@[simp] theorem Dev.wb_wins (d : Dev) (sp a : Nat) (v : Byte) : (d.wb sp a v).wins = d.wins := (congrArg Dev.wins (Dev.wb_eq ..)).trans (Dev.withMem_wins ..)
@[simp] theorem Dev.wb_pool (d : Dev) (sp a : Nat) (v : Byte) : (d.wb sp a v).pool = d.pool := (congrArg Dev.pool (Dev.wb_eq ..)).trans (Dev.withMem_pool ..)
@[simp] theorem Dev.wb_flm (d : Dev) (sp a : Nat) (v : Byte) : (d.wb sp a v).flm = d.flm := (congrArg Dev.flm (Dev.wb_eq ..)).trans (Dev.withMem_flm ..)
@[simp] theorem Dev.wb_slc (d : Dev) (sp a : Nat) (v : Byte) : (d.wb sp a v).slc = d.slc := (congrArg Dev.slc (Dev.wb_eq ..)).trans (Dev.withMem_slc ..)
@[simp] theorem Dev.wb_auto (d : Dev) (sp a : Nat) (v : Byte) : (d.wb sp a v).auto = d.auto := (congrArg Dev.auto (Dev.wb_eq ..)).trans (Dev.withMem_auto ..)
@[simp] theorem Dev.wb_plan (d : Dev) (sp a : Nat) (v : Byte) : (d.wb sp a v).plan = d.plan := (congrArg Dev.plan (Dev.wb_eq ..)).trans (Dev.withMem_plan ..)
@[simp] theorem Dev.wb_obsQ (d : Dev) (sp a : Nat) (v : Byte) : (d.wb sp a v).obsQ = d.obsQ := (congrArg Dev.obsQ (Dev.wb_eq ..)).trans (Dev.withMem_obsQ ..)
@[simp] theorem Dev.wb_chains (d : Dev) (sp a : Nat) (v : Byte) : (d.wb sp a v).chains = d.chains := (congrArg Dev.chains (Dev.wb_eq ..)).trans (Dev.withMem_chains ..)
@[simp] theorem Dev.wb_links (d : Dev) (sp a : Nat) (v : Byte) : (d.wb sp a v).links = d.links := (congrArg Dev.links (Dev.wb_eq ..)).trans (Dev.withMem_links ..)
@[simp] theorem Dev.wb_lr (d : Dev) (sp a : Nat) (v : Byte) : (d.wb sp a v).lr = d.lr := (congrArg Dev.lr (Dev.wb_eq ..)).trans (Dev.withMem_lr ..)
@[simp] theorem Dev.wb_fb (d : Dev) (sp a : Nat) (v : Byte) : (d.wb sp a v).fb = d.fb := (congrArg Dev.fb (Dev.wb_eq ..)).trans (Dev.withMem_fb ..)
@[simp] theorem Dev.wb_ck (d : Dev) (sp a : Nat) (v : Byte) : (d.wb sp a v).ck = d.ck := (congrArg Dev.ck (Dev.wb_eq ..)).trans (Dev.withMem_ck ..)
@[simp] theorem Dev.wb_ports (d : Dev) (sp a : Nat) (v : Byte) : (d.wb sp a v).ports = d.ports := (congrArg Dev.ports (Dev.wb_eq ..)).trans (Dev.withMem_ports ..)
@[simp] theorem Dev.wb_reads (d : Dev) (sp a : Nat) (v : Byte) : (d.wb sp a v).reads = d.reads := (congrArg Dev.reads (Dev.wb_eq ..)).trans (Dev.withMem_reads ..)
@[simp] theorem Dev.wb_host (d : Dev) (sp a : Nat) (v : Byte) : (d.wb sp a v).host = d.host := (congrArg Dev.host (Dev.wb_eq ..)).trans (Dev.withMem_host ..)
@[simp] theorem Dev.wb_exps (d : Dev) (sp a : Nat) (v : Byte) : (d.wb sp a v).exps = d.exps := (congrArg Dev.exps (Dev.wb_eq ..)).trans (Dev.withMem_exps ..)
@[simp] theorem Dev.wb_stuck (d : Dev) (sp a : Nat) (v : Byte) : (d.wb sp a v).stuck = d.stuck := (congrArg Dev.stuck (Dev.wb_eq ..)).trans (Dev.withMem_stuck ..)
@[simp] theorem Dev.wb_held (d : Dev) (sp a : Nat) (v : Byte) : (d.wb sp a v).held = d.held := (congrArg Dev.held (Dev.wb_eq ..)).trans (Dev.withMem_held ..)
@[simp] theorem Dev.wb_pins (d : Dev) (sp a : Nat) (v : Byte) : (d.wb sp a v).pins = d.pins := (congrArg Dev.pins (Dev.wb_eq ..)).trans (Dev.withMem_pins ..)
@[simp] theorem Dev.wb_mgmt (d : Dev) (sp a : Nat) (v : Byte) : (d.wb sp a v).mgmt = d.mgmt := (congrArg Dev.mgmt (Dev.wb_eq ..)).trans (Dev.withMem_mgmt ..)
@[simp] theorem Dev.wb_boot (d : Dev) (sp a : Nat) (v : Byte) : (d.wb sp a v).boot = d.boot := (congrArg Dev.boot (Dev.wb_eq ..)).trans (Dev.withMem_boot ..)
@[simp] theorem Dev.wb_sel (d : Dev) (sp a : Nat) (v : Byte) : (d.wb sp a v).sel = d.sel := (congrArg Dev.sel (Dev.wb_eq ..)).trans (Dev.withMem_sel ..)
@[simp] theorem Dev.wb_snaps (d : Dev) (sp a : Nat) (v : Byte) : (d.wb sp a v).snaps = d.snaps := (congrArg Dev.snaps (Dev.wb_eq ..)).trans (Dev.withMem_snaps ..)
@[simp] theorem Dev.wb_ecc (d : Dev) (sp a : Nat) (v : Byte) : (d.wb sp a v).ecc = d.ecc := (congrArg Dev.ecc (Dev.wb_eq ..)).trans (Dev.withMem_ecc ..)
@[simp] theorem Dev.wb_errSeen (d : Dev) (sp a : Nat) (v : Byte) : (d.wb sp a v).errSeen = d.errSeen := (congrArg Dev.errSeen (Dev.wb_eq ..)).trans (Dev.withMem_errSeen ..)
@[simp] theorem Dev.wb_tied (d : Dev) (sp a : Nat) (v : Byte) : (d.wb sp a v).tied = d.tied := (congrArg Dev.tied (Dev.wb_eq ..)).trans (Dev.withMem_tied ..)
@[simp] theorem Dev.wb_due (d : Dev) (sp a : Nat) (v : Byte) : (d.wb sp a v).due = d.due := (congrArg Dev.due (Dev.wb_eq ..)).trans (Dev.withMem_due ..)

/-! ### `wbs` writes `mem` alone -/

theorem Dev.wbs_eq (d : Dev) (sp a : Nat) (v : List Byte) :
    d.wbs sp a v = d.withMem (Sparse.putMany (memDefault d.lostEpoch) d.mem (memKey sp a) v) := by unfold Dev.wbs; exact rfl
@[simp] theorem Dev.wbs_free (d : Dev) (sp a : Nat) (v : List Byte) : (d.wbs sp a v).free = d.free := (congrArg Dev.free (Dev.wbs_eq ..)).trans (Dev.withMem_free ..)
@[simp] theorem Dev.wbs_undef (d : Dev) (sp a : Nat) (v : List Byte) : (d.wbs sp a v).undef = d.undef := (congrArg Dev.undef (Dev.wbs_eq ..)).trans (Dev.withMem_undef ..)
@[simp] theorem Dev.wbs_regs (d : Dev) (sp a : Nat) (v : List Byte) : (d.wbs sp a v).regs = d.regs := (congrArg Dev.regs (Dev.wbs_eq ..)).trans (Dev.withMem_regs ..)
@[simp] theorem Dev.wbs_lostEpoch (d : Dev) (sp a : Nat) (v : List Byte) : (d.wbs sp a v).lostEpoch = d.lostEpoch := (congrArg Dev.lostEpoch (Dev.wbs_eq ..)).trans (Dev.withMem_lostEpoch ..)
@[simp] theorem Dev.wbs_latch (d : Dev) (sp a : Nat) (v : List Byte) : (d.wbs sp a v).latch = d.latch := (congrArg Dev.latch (Dev.wbs_eq ..)).trans (Dev.withMem_latch ..)
@[simp] theorem Dev.wbs_stage (d : Dev) (sp a : Nat) (v : List Byte) : (d.wbs sp a v).stage = d.stage := (congrArg Dev.stage (Dev.wbs_eq ..)).trans (Dev.withMem_stage ..)
@[simp] theorem Dev.wbs_out (d : Dev) (sp a : Nat) (v : List Byte) : (d.wbs sp a v).out = d.out := (congrArg Dev.out (Dev.wbs_eq ..)).trans (Dev.withMem_out ..)
@[simp] theorem Dev.wbs_msix (d : Dev) (sp a : Nat) (v : List Byte) : (d.wbs sp a v).msix = d.msix := (congrArg Dev.msix (Dev.wbs_eq ..)).trans (Dev.withMem_msix ..)
@[simp] theorem Dev.wbs_trc (d : Dev) (sp a : Nat) (v : List Byte) : (d.wbs sp a v).trc = d.trc := (congrArg Dev.trc (Dev.wbs_eq ..)).trans (Dev.withMem_trc ..)
@[simp] theorem Dev.wbs_gh (d : Dev) (sp a : Nat) (v : List Byte) : (d.wbs sp a v).gh = d.gh := (congrArg Dev.gh (Dev.wbs_eq ..)).trans (Dev.withMem_gh ..)
@[simp] theorem Dev.wbs_pwr (d : Dev) (sp a : Nat) (v : List Byte) : (d.wbs sp a v).pwr = d.pwr := (congrArg Dev.pwr (Dev.wbs_eq ..)).trans (Dev.withMem_pwr ..)
@[simp] theorem Dev.wbs_keys (d : Dev) (sp a : Nat) (v : List Byte) : (d.wbs sp a v).keys = d.keys := (congrArg Dev.keys (Dev.wbs_eq ..)).trans (Dev.withMem_keys ..)
@[simp] theorem Dev.wbs_hg (d : Dev) (sp a : Nat) (v : List Byte) : (d.wbs sp a v).hg = d.hg := (congrArg Dev.hg (Dev.wbs_eq ..)).trans (Dev.withMem_hg ..)
@[simp] theorem Dev.wbs_map (d : Dev) (sp a : Nat) (v : List Byte) : (d.wbs sp a v).map = d.map := (congrArg Dev.map (Dev.wbs_eq ..)).trans (Dev.withMem_map ..)
@[simp] theorem Dev.wbs_objs (d : Dev) (sp a : Nat) (v : List Byte) : (d.wbs sp a v).objs = d.objs := (congrArg Dev.objs (Dev.wbs_eq ..)).trans (Dev.withMem_objs ..)
@[simp] theorem Dev.wbs_wins (d : Dev) (sp a : Nat) (v : List Byte) : (d.wbs sp a v).wins = d.wins := (congrArg Dev.wins (Dev.wbs_eq ..)).trans (Dev.withMem_wins ..)
@[simp] theorem Dev.wbs_pool (d : Dev) (sp a : Nat) (v : List Byte) : (d.wbs sp a v).pool = d.pool := (congrArg Dev.pool (Dev.wbs_eq ..)).trans (Dev.withMem_pool ..)
@[simp] theorem Dev.wbs_flm (d : Dev) (sp a : Nat) (v : List Byte) : (d.wbs sp a v).flm = d.flm := (congrArg Dev.flm (Dev.wbs_eq ..)).trans (Dev.withMem_flm ..)
@[simp] theorem Dev.wbs_slc (d : Dev) (sp a : Nat) (v : List Byte) : (d.wbs sp a v).slc = d.slc := (congrArg Dev.slc (Dev.wbs_eq ..)).trans (Dev.withMem_slc ..)
@[simp] theorem Dev.wbs_auto (d : Dev) (sp a : Nat) (v : List Byte) : (d.wbs sp a v).auto = d.auto := (congrArg Dev.auto (Dev.wbs_eq ..)).trans (Dev.withMem_auto ..)
@[simp] theorem Dev.wbs_plan (d : Dev) (sp a : Nat) (v : List Byte) : (d.wbs sp a v).plan = d.plan := (congrArg Dev.plan (Dev.wbs_eq ..)).trans (Dev.withMem_plan ..)
@[simp] theorem Dev.wbs_obsQ (d : Dev) (sp a : Nat) (v : List Byte) : (d.wbs sp a v).obsQ = d.obsQ := (congrArg Dev.obsQ (Dev.wbs_eq ..)).trans (Dev.withMem_obsQ ..)
@[simp] theorem Dev.wbs_chains (d : Dev) (sp a : Nat) (v : List Byte) : (d.wbs sp a v).chains = d.chains := (congrArg Dev.chains (Dev.wbs_eq ..)).trans (Dev.withMem_chains ..)
@[simp] theorem Dev.wbs_links (d : Dev) (sp a : Nat) (v : List Byte) : (d.wbs sp a v).links = d.links := (congrArg Dev.links (Dev.wbs_eq ..)).trans (Dev.withMem_links ..)
@[simp] theorem Dev.wbs_lr (d : Dev) (sp a : Nat) (v : List Byte) : (d.wbs sp a v).lr = d.lr := (congrArg Dev.lr (Dev.wbs_eq ..)).trans (Dev.withMem_lr ..)
@[simp] theorem Dev.wbs_fb (d : Dev) (sp a : Nat) (v : List Byte) : (d.wbs sp a v).fb = d.fb := (congrArg Dev.fb (Dev.wbs_eq ..)).trans (Dev.withMem_fb ..)
@[simp] theorem Dev.wbs_ck (d : Dev) (sp a : Nat) (v : List Byte) : (d.wbs sp a v).ck = d.ck := (congrArg Dev.ck (Dev.wbs_eq ..)).trans (Dev.withMem_ck ..)
@[simp] theorem Dev.wbs_ports (d : Dev) (sp a : Nat) (v : List Byte) : (d.wbs sp a v).ports = d.ports := (congrArg Dev.ports (Dev.wbs_eq ..)).trans (Dev.withMem_ports ..)
@[simp] theorem Dev.wbs_reads (d : Dev) (sp a : Nat) (v : List Byte) : (d.wbs sp a v).reads = d.reads := (congrArg Dev.reads (Dev.wbs_eq ..)).trans (Dev.withMem_reads ..)
@[simp] theorem Dev.wbs_host (d : Dev) (sp a : Nat) (v : List Byte) : (d.wbs sp a v).host = d.host := (congrArg Dev.host (Dev.wbs_eq ..)).trans (Dev.withMem_host ..)
@[simp] theorem Dev.wbs_exps (d : Dev) (sp a : Nat) (v : List Byte) : (d.wbs sp a v).exps = d.exps := (congrArg Dev.exps (Dev.wbs_eq ..)).trans (Dev.withMem_exps ..)
@[simp] theorem Dev.wbs_stuck (d : Dev) (sp a : Nat) (v : List Byte) : (d.wbs sp a v).stuck = d.stuck := (congrArg Dev.stuck (Dev.wbs_eq ..)).trans (Dev.withMem_stuck ..)
@[simp] theorem Dev.wbs_held (d : Dev) (sp a : Nat) (v : List Byte) : (d.wbs sp a v).held = d.held := (congrArg Dev.held (Dev.wbs_eq ..)).trans (Dev.withMem_held ..)
@[simp] theorem Dev.wbs_pins (d : Dev) (sp a : Nat) (v : List Byte) : (d.wbs sp a v).pins = d.pins := (congrArg Dev.pins (Dev.wbs_eq ..)).trans (Dev.withMem_pins ..)
@[simp] theorem Dev.wbs_mgmt (d : Dev) (sp a : Nat) (v : List Byte) : (d.wbs sp a v).mgmt = d.mgmt := (congrArg Dev.mgmt (Dev.wbs_eq ..)).trans (Dev.withMem_mgmt ..)
@[simp] theorem Dev.wbs_boot (d : Dev) (sp a : Nat) (v : List Byte) : (d.wbs sp a v).boot = d.boot := (congrArg Dev.boot (Dev.wbs_eq ..)).trans (Dev.withMem_boot ..)
@[simp] theorem Dev.wbs_sel (d : Dev) (sp a : Nat) (v : List Byte) : (d.wbs sp a v).sel = d.sel := (congrArg Dev.sel (Dev.wbs_eq ..)).trans (Dev.withMem_sel ..)
@[simp] theorem Dev.wbs_snaps (d : Dev) (sp a : Nat) (v : List Byte) : (d.wbs sp a v).snaps = d.snaps := (congrArg Dev.snaps (Dev.wbs_eq ..)).trans (Dev.withMem_snaps ..)
@[simp] theorem Dev.wbs_ecc (d : Dev) (sp a : Nat) (v : List Byte) : (d.wbs sp a v).ecc = d.ecc := (congrArg Dev.ecc (Dev.wbs_eq ..)).trans (Dev.withMem_ecc ..)
@[simp] theorem Dev.wbs_errSeen (d : Dev) (sp a : Nat) (v : List Byte) : (d.wbs sp a v).errSeen = d.errSeen := (congrArg Dev.errSeen (Dev.wbs_eq ..)).trans (Dev.withMem_errSeen ..)
@[simp] theorem Dev.wbs_tied (d : Dev) (sp a : Nat) (v : List Byte) : (d.wbs sp a v).tied = d.tied := (congrArg Dev.tied (Dev.wbs_eq ..)).trans (Dev.withMem_tied ..)
@[simp] theorem Dev.wbs_due (d : Dev) (sp a : Nat) (v : List Byte) : (d.wbs sp a v).due = d.due := (congrArg Dev.due (Dev.wbs_eq ..)).trans (Dev.withMem_due ..)

/-! ### `st` writes `mem` alone -/

theorem Dev.st_eq (d : Dev) (sp a n v : Nat) :
    d.st sp a n v = d.withMem (Sparse.putMany (memDefault d.lostEpoch) d.mem (memKey sp a) (leBytes n v)) := by unfold Dev.st Dev.wbs; exact rfl
@[simp] theorem Dev.st_free (d : Dev) (sp a n v : Nat) : (d.st sp a n v).free = d.free := (congrArg Dev.free (Dev.st_eq ..)).trans (Dev.withMem_free ..)
@[simp] theorem Dev.st_undef (d : Dev) (sp a n v : Nat) : (d.st sp a n v).undef = d.undef := (congrArg Dev.undef (Dev.st_eq ..)).trans (Dev.withMem_undef ..)
@[simp] theorem Dev.st_regs (d : Dev) (sp a n v : Nat) : (d.st sp a n v).regs = d.regs := (congrArg Dev.regs (Dev.st_eq ..)).trans (Dev.withMem_regs ..)
@[simp] theorem Dev.st_lostEpoch (d : Dev) (sp a n v : Nat) : (d.st sp a n v).lostEpoch = d.lostEpoch := (congrArg Dev.lostEpoch (Dev.st_eq ..)).trans (Dev.withMem_lostEpoch ..)
@[simp] theorem Dev.st_latch (d : Dev) (sp a n v : Nat) : (d.st sp a n v).latch = d.latch := (congrArg Dev.latch (Dev.st_eq ..)).trans (Dev.withMem_latch ..)
@[simp] theorem Dev.st_stage (d : Dev) (sp a n v : Nat) : (d.st sp a n v).stage = d.stage := (congrArg Dev.stage (Dev.st_eq ..)).trans (Dev.withMem_stage ..)
@[simp] theorem Dev.st_out (d : Dev) (sp a n v : Nat) : (d.st sp a n v).out = d.out := (congrArg Dev.out (Dev.st_eq ..)).trans (Dev.withMem_out ..)
@[simp] theorem Dev.st_msix (d : Dev) (sp a n v : Nat) : (d.st sp a n v).msix = d.msix := (congrArg Dev.msix (Dev.st_eq ..)).trans (Dev.withMem_msix ..)
@[simp] theorem Dev.st_trc (d : Dev) (sp a n v : Nat) : (d.st sp a n v).trc = d.trc := (congrArg Dev.trc (Dev.st_eq ..)).trans (Dev.withMem_trc ..)
@[simp] theorem Dev.st_gh (d : Dev) (sp a n v : Nat) : (d.st sp a n v).gh = d.gh := (congrArg Dev.gh (Dev.st_eq ..)).trans (Dev.withMem_gh ..)
@[simp] theorem Dev.st_pwr (d : Dev) (sp a n v : Nat) : (d.st sp a n v).pwr = d.pwr := (congrArg Dev.pwr (Dev.st_eq ..)).trans (Dev.withMem_pwr ..)
@[simp] theorem Dev.st_keys (d : Dev) (sp a n v : Nat) : (d.st sp a n v).keys = d.keys := (congrArg Dev.keys (Dev.st_eq ..)).trans (Dev.withMem_keys ..)
@[simp] theorem Dev.st_hg (d : Dev) (sp a n v : Nat) : (d.st sp a n v).hg = d.hg := (congrArg Dev.hg (Dev.st_eq ..)).trans (Dev.withMem_hg ..)
@[simp] theorem Dev.st_map (d : Dev) (sp a n v : Nat) : (d.st sp a n v).map = d.map := (congrArg Dev.map (Dev.st_eq ..)).trans (Dev.withMem_map ..)
@[simp] theorem Dev.st_objs (d : Dev) (sp a n v : Nat) : (d.st sp a n v).objs = d.objs := (congrArg Dev.objs (Dev.st_eq ..)).trans (Dev.withMem_objs ..)
@[simp] theorem Dev.st_wins (d : Dev) (sp a n v : Nat) : (d.st sp a n v).wins = d.wins := (congrArg Dev.wins (Dev.st_eq ..)).trans (Dev.withMem_wins ..)
@[simp] theorem Dev.st_pool (d : Dev) (sp a n v : Nat) : (d.st sp a n v).pool = d.pool := (congrArg Dev.pool (Dev.st_eq ..)).trans (Dev.withMem_pool ..)
@[simp] theorem Dev.st_flm (d : Dev) (sp a n v : Nat) : (d.st sp a n v).flm = d.flm := (congrArg Dev.flm (Dev.st_eq ..)).trans (Dev.withMem_flm ..)
@[simp] theorem Dev.st_slc (d : Dev) (sp a n v : Nat) : (d.st sp a n v).slc = d.slc := (congrArg Dev.slc (Dev.st_eq ..)).trans (Dev.withMem_slc ..)
@[simp] theorem Dev.st_auto (d : Dev) (sp a n v : Nat) : (d.st sp a n v).auto = d.auto := (congrArg Dev.auto (Dev.st_eq ..)).trans (Dev.withMem_auto ..)
@[simp] theorem Dev.st_plan (d : Dev) (sp a n v : Nat) : (d.st sp a n v).plan = d.plan := (congrArg Dev.plan (Dev.st_eq ..)).trans (Dev.withMem_plan ..)
@[simp] theorem Dev.st_obsQ (d : Dev) (sp a n v : Nat) : (d.st sp a n v).obsQ = d.obsQ := (congrArg Dev.obsQ (Dev.st_eq ..)).trans (Dev.withMem_obsQ ..)
@[simp] theorem Dev.st_chains (d : Dev) (sp a n v : Nat) : (d.st sp a n v).chains = d.chains := (congrArg Dev.chains (Dev.st_eq ..)).trans (Dev.withMem_chains ..)
@[simp] theorem Dev.st_links (d : Dev) (sp a n v : Nat) : (d.st sp a n v).links = d.links := (congrArg Dev.links (Dev.st_eq ..)).trans (Dev.withMem_links ..)
@[simp] theorem Dev.st_lr (d : Dev) (sp a n v : Nat) : (d.st sp a n v).lr = d.lr := (congrArg Dev.lr (Dev.st_eq ..)).trans (Dev.withMem_lr ..)
@[simp] theorem Dev.st_fb (d : Dev) (sp a n v : Nat) : (d.st sp a n v).fb = d.fb := (congrArg Dev.fb (Dev.st_eq ..)).trans (Dev.withMem_fb ..)
@[simp] theorem Dev.st_ck (d : Dev) (sp a n v : Nat) : (d.st sp a n v).ck = d.ck := (congrArg Dev.ck (Dev.st_eq ..)).trans (Dev.withMem_ck ..)
@[simp] theorem Dev.st_ports (d : Dev) (sp a n v : Nat) : (d.st sp a n v).ports = d.ports := (congrArg Dev.ports (Dev.st_eq ..)).trans (Dev.withMem_ports ..)
@[simp] theorem Dev.st_reads (d : Dev) (sp a n v : Nat) : (d.st sp a n v).reads = d.reads := (congrArg Dev.reads (Dev.st_eq ..)).trans (Dev.withMem_reads ..)
@[simp] theorem Dev.st_host (d : Dev) (sp a n v : Nat) : (d.st sp a n v).host = d.host := (congrArg Dev.host (Dev.st_eq ..)).trans (Dev.withMem_host ..)
@[simp] theorem Dev.st_exps (d : Dev) (sp a n v : Nat) : (d.st sp a n v).exps = d.exps := (congrArg Dev.exps (Dev.st_eq ..)).trans (Dev.withMem_exps ..)
@[simp] theorem Dev.st_stuck (d : Dev) (sp a n v : Nat) : (d.st sp a n v).stuck = d.stuck := (congrArg Dev.stuck (Dev.st_eq ..)).trans (Dev.withMem_stuck ..)
@[simp] theorem Dev.st_held (d : Dev) (sp a n v : Nat) : (d.st sp a n v).held = d.held := (congrArg Dev.held (Dev.st_eq ..)).trans (Dev.withMem_held ..)
@[simp] theorem Dev.st_pins (d : Dev) (sp a n v : Nat) : (d.st sp a n v).pins = d.pins := (congrArg Dev.pins (Dev.st_eq ..)).trans (Dev.withMem_pins ..)
@[simp] theorem Dev.st_mgmt (d : Dev) (sp a n v : Nat) : (d.st sp a n v).mgmt = d.mgmt := (congrArg Dev.mgmt (Dev.st_eq ..)).trans (Dev.withMem_mgmt ..)
@[simp] theorem Dev.st_boot (d : Dev) (sp a n v : Nat) : (d.st sp a n v).boot = d.boot := (congrArg Dev.boot (Dev.st_eq ..)).trans (Dev.withMem_boot ..)
@[simp] theorem Dev.st_sel (d : Dev) (sp a n v : Nat) : (d.st sp a n v).sel = d.sel := (congrArg Dev.sel (Dev.st_eq ..)).trans (Dev.withMem_sel ..)
@[simp] theorem Dev.st_snaps (d : Dev) (sp a n v : Nat) : (d.st sp a n v).snaps = d.snaps := (congrArg Dev.snaps (Dev.st_eq ..)).trans (Dev.withMem_snaps ..)
@[simp] theorem Dev.st_ecc (d : Dev) (sp a n v : Nat) : (d.st sp a n v).ecc = d.ecc := (congrArg Dev.ecc (Dev.st_eq ..)).trans (Dev.withMem_ecc ..)
@[simp] theorem Dev.st_errSeen (d : Dev) (sp a n v : Nat) : (d.st sp a n v).errSeen = d.errSeen := (congrArg Dev.errSeen (Dev.st_eq ..)).trans (Dev.withMem_errSeen ..)
@[simp] theorem Dev.st_tied (d : Dev) (sp a n v : Nat) : (d.st sp a n v).tied = d.tied := (congrArg Dev.tied (Dev.st_eq ..)).trans (Dev.withMem_tied ..)
@[simp] theorem Dev.st_due (d : Dev) (sp a n v : Nat) : (d.st sp a n v).due = d.due := (congrArg Dev.due (Dev.st_eq ..)).trans (Dev.withMem_due ..)

/-! ### `fresh` advances the free values' counter alone -/

@[simp] theorem Dev.fresh_value (d : Dev) : d.fresh.1 = Config.freeNat d.free := rfl
@[simp] theorem Dev.fresh_free (d : Dev) : d.fresh.2.free = d.free + 1 := rfl
@[simp] theorem Dev.fresh_undef (d : Dev) : d.fresh.2.undef = d.undef := rfl
@[simp] theorem Dev.fresh_regs (d : Dev) : d.fresh.2.regs = d.regs := rfl
@[simp] theorem Dev.fresh_mem (d : Dev) : d.fresh.2.mem = d.mem := rfl
@[simp] theorem Dev.fresh_lostEpoch (d : Dev) : d.fresh.2.lostEpoch = d.lostEpoch := rfl
@[simp] theorem Dev.fresh_latch (d : Dev) : d.fresh.2.latch = d.latch := rfl
@[simp] theorem Dev.fresh_stage (d : Dev) : d.fresh.2.stage = d.stage := rfl
@[simp] theorem Dev.fresh_out (d : Dev) : d.fresh.2.out = d.out := rfl
@[simp] theorem Dev.fresh_msix (d : Dev) : d.fresh.2.msix = d.msix := rfl
@[simp] theorem Dev.fresh_trc (d : Dev) : d.fresh.2.trc = d.trc := rfl
@[simp] theorem Dev.fresh_gh (d : Dev) : d.fresh.2.gh = d.gh := rfl
@[simp] theorem Dev.fresh_pwr (d : Dev) : d.fresh.2.pwr = d.pwr := rfl
@[simp] theorem Dev.fresh_keys (d : Dev) : d.fresh.2.keys = d.keys := rfl
@[simp] theorem Dev.fresh_hg (d : Dev) : d.fresh.2.hg = d.hg := rfl
@[simp] theorem Dev.fresh_map (d : Dev) : d.fresh.2.map = d.map := rfl
@[simp] theorem Dev.fresh_objs (d : Dev) : d.fresh.2.objs = d.objs := rfl
@[simp] theorem Dev.fresh_wins (d : Dev) : d.fresh.2.wins = d.wins := rfl
@[simp] theorem Dev.fresh_pool (d : Dev) : d.fresh.2.pool = d.pool := rfl
@[simp] theorem Dev.fresh_flm (d : Dev) : d.fresh.2.flm = d.flm := rfl
@[simp] theorem Dev.fresh_slc (d : Dev) : d.fresh.2.slc = d.slc := rfl
@[simp] theorem Dev.fresh_auto (d : Dev) : d.fresh.2.auto = d.auto := rfl
@[simp] theorem Dev.fresh_plan (d : Dev) : d.fresh.2.plan = d.plan := rfl
@[simp] theorem Dev.fresh_obsQ (d : Dev) : d.fresh.2.obsQ = d.obsQ := rfl
@[simp] theorem Dev.fresh_chains (d : Dev) : d.fresh.2.chains = d.chains := rfl
@[simp] theorem Dev.fresh_links (d : Dev) : d.fresh.2.links = d.links := rfl
@[simp] theorem Dev.fresh_lr (d : Dev) : d.fresh.2.lr = d.lr := rfl
@[simp] theorem Dev.fresh_fb (d : Dev) : d.fresh.2.fb = d.fb := rfl
@[simp] theorem Dev.fresh_ck (d : Dev) : d.fresh.2.ck = d.ck := rfl
@[simp] theorem Dev.fresh_ports (d : Dev) : d.fresh.2.ports = d.ports := rfl
@[simp] theorem Dev.fresh_reads (d : Dev) : d.fresh.2.reads = d.reads := rfl
@[simp] theorem Dev.fresh_host (d : Dev) : d.fresh.2.host = d.host := rfl
@[simp] theorem Dev.fresh_exps (d : Dev) : d.fresh.2.exps = d.exps := rfl
@[simp] theorem Dev.fresh_stuck (d : Dev) : d.fresh.2.stuck = d.stuck := rfl
@[simp] theorem Dev.fresh_held (d : Dev) : d.fresh.2.held = d.held := rfl
@[simp] theorem Dev.fresh_pins (d : Dev) : d.fresh.2.pins = d.pins := rfl
@[simp] theorem Dev.fresh_mgmt (d : Dev) : d.fresh.2.mgmt = d.mgmt := rfl
@[simp] theorem Dev.fresh_boot (d : Dev) : d.fresh.2.boot = d.boot := rfl
@[simp] theorem Dev.fresh_sel (d : Dev) : d.fresh.2.sel = d.sel := rfl
@[simp] theorem Dev.fresh_snaps (d : Dev) : d.fresh.2.snaps = d.snaps := rfl
@[simp] theorem Dev.fresh_ecc (d : Dev) : d.fresh.2.ecc = d.ecc := rfl
@[simp] theorem Dev.fresh_errSeen (d : Dev) : d.fresh.2.errSeen = d.errSeen := rfl
@[simp] theorem Dev.fresh_tied (d : Dev) : d.fresh.2.tied = d.tied := rfl
@[simp] theorem Dev.fresh_due (d : Dev) : d.fresh.2.due = d.due := rfl

@[simp] theorem Dev.emit_out (d : Dev) (o : Output) : (d.emit o).out = d.out ++ [o] := rfl

end Sys2Proof.Machine
end

