-- ==== Sys2Proof/Laws/Sparse.lean ====
section
/-! SUPPORT. Sparse storage: a read after a write, and the canonical form, which every write keeps. -/
namespace Sys2Proof.Machine.Sparse

variable {α : Type}

/-! ### Reads after writes -/

@[simp] theorem get_nil (d : Nat → α) (k : Nat) : get d [] k = d k := rfl

theorem get_del (d : Nat → α) (l : List (Nat × α)) (k j : Nat) : get d (del l k) j = if j = k then d k else get d l j := by
  induction l with
  | nil => by_cases h : j = k <;> simp [del, get, h]
  | cons p t ih =>
    unfold del
    by_cases h : p.1 = k
    · rw [if_pos h, ih]
      by_cases hj : j = k
      · simp [hj]
      · have : p.1 ≠ j := fun e => hj (e ▸ h)
        simp [hj, get, this]
    · rw [if_neg h]
      unfold get
      by_cases hp : p.1 = j
      · have : j ≠ k := fun e => h (hp ▸ e)
        simp [hp, this]
      · simp [hp, ih]

theorem get_ins (d : Nat → α) (l : List (Nat × α)) (k j : Nat) (v : α) (h : j = k → ∀ p ∈ l, p.1 ≠ k) :
    get d (ins l k v) j = if j = k then v else get d l j := by
  induction l with
  | nil => by_cases hj : j = k
           · simp [ins, get, hj]
           · have : k ≠ j := fun e => hj e.symm
             simp [ins, get, hj, this]
  | cons p t ih =>
    unfold ins
    split
    · by_cases hj : j = k
      · simp [get, hj]
      · have : k ≠ j := fun e => hj e.symm
        simp [get, hj, this]
    · unfold get
      by_cases hp : p.1 = j
      · have : j ≠ k := fun e => (h e p (by simp)) (hp ▸ e)
        simp [hp, this]
      · rw [if_neg hp, if_neg hp, ih fun e q hq => h e q (by simp [hq])]

theorem del_keys (l : List (Nat × α)) (k : Nat) : ∀ p ∈ del l k, p.1 ≠ k := by
  induction l with
  | nil => simp [del]
  | cons p t ih =>
    unfold del
    split
    · exact ih
    · intro q hq
      rcases List.mem_cons.mp hq with rfl | hq
      · assumption
      · exact ih q hq

variable [DecidableEq α]

theorem get_put (d : Nat → α) (l : List (Nat × α)) (k j : Nat) (v : α) :
    get d (put d l k v) j = if j = k then v else get d l j := by
  unfold put
  split
  · rename_i h; rw [get_del, h]
  · rw [get_ins _ _ _ _ _ fun _ => del_keys l k, get_del]
    by_cases hj : j = k <;> simp [hj]

@[simp] theorem get_put_same (d : Nat → α) (l : List (Nat × α)) (k : Nat) (v : α) : get d (put d l k v) k = v := by simp [get_put]

theorem get_put_ne (d : Nat → α) (l : List (Nat × α)) {k j : Nat} (v : α) (h : j ≠ k) : get d (put d l k v) j = get d l j := by
  simp [get_put, h]

/-- A key outside the written range reads as before. -/
theorem get_putMany_out (d : Nat → α) (vs : List α) : ∀ (l : List (Nat × α)) (k j : Nat), (j < k ∨ k + vs.length ≤ j) →
    get d (putMany d l k vs) j = get d l j := by
  induction vs with
  | nil => intros; rfl
  | cons v t ih =>
    intro l k j h
    rw [putMany, ih _ _ _ (by simp at h; omega), get_put_ne _ _ _ (by simp at h; omega)]

/-- A key inside reads the value written there. -/
theorem get_putMany_in (d : Nat → α) (vs : List α) : ∀ (l : List (Nat × α)) (k i : Nat) (h : i < vs.length),
    get d (putMany d l k vs) (k + i) = vs[i] := by
  induction vs with
  | nil => intro l k i h; simp at h
  | cons v t ih =>
    intro l k i h
    cases i with
    | zero => rw [putMany, get_putMany_out _ _ _ _ _ (by omega)]; simp
    | succ i =>
      rw [putMany, show k + (i + 1) = k + 1 + i by omega, ih _ _ _ (by simpa using h)]
      simp

omit [DecidableEq α] in
@[simp] theorem length_getMany (d : Nat → α) (l : List (Nat × α)) (k n : Nat) : (getMany d l k n).length = n := by
  induction n generalizing k with
  | zero => rfl
  | succ n ih => simp [getMany, ih]

omit [DecidableEq α] in
theorem getMany_congr (d : Nat → α) (l m : List (Nat × α)) (n : Nat) : ∀ k, (∀ i, i < n → get d l (k + i) = get d m (k + i)) →
    getMany d l k n = getMany d m k n := by
  induction n with
  | zero => intros; rfl
  | succ n ih =>
    intro k h
    rw [getMany, getMany, ih (k + 1) fun i hi => by have := h (i + 1) (by omega); rwa [show k + 1 + i = k + (i + 1) by omega]]
    rw [show get d l k = get d m k from h 0 (by omega)]

/-- What was written is read back. -/
theorem getMany_putMany (d : Nat → α) (vs : List α) : ∀ (l : List (Nat × α)) (k : Nat),
    getMany d (putMany d l k vs) k vs.length = vs := by
  induction vs with
  | nil => intros; rfl
  | cons v t ih =>
    intro l k
    simp only [List.length_cons, getMany, putMany]
    rw [ih, get_putMany_out _ _ _ _ _ (by omega)]
    simp

/-! ### The canonical form -/

/-- The form as a statement over the whole list. -/
theorem wf_iff (d : Nat → α) : ∀ l : List (Nat × α),
    wf d l = true ↔ (∀ p ∈ l, p.2 ≠ d p.1) ∧ (l.map Prod.fst).Pairwise (· < ·)
  | [] => by simp [wf]
  | [p] => by simp [wf]
  | p :: q :: t => by
    rw [wf, Bool.and_eq_true, Bool.and_eq_true, wf_iff d (q :: t)]
    simp only [decide_eq_true_eq, List.map_cons, List.pairwise_cons, List.mem_cons, List.mem_map, forall_eq_or_imp]
    constructor
    · rintro ⟨⟨a, b⟩, ⟨c, e⟩, f, g⟩
      refine ⟨⟨a, c, e⟩, ⟨b, ?_⟩, f, g⟩
      rintro x ⟨y, hy, rfl⟩
      exact b.trans (f _ ⟨y, hy, rfl⟩)
    · rintro ⟨⟨a, c, e⟩, ⟨b, _⟩, f, g⟩
      exact ⟨⟨a, b⟩, ⟨c, e⟩, f, g⟩

omit [DecidableEq α] in
theorem mem_del (l : List (Nat × α)) (k : Nat) (p : Nat × α) : p ∈ del l k ↔ p ∈ l ∧ p.1 ≠ k := by
  induction l with
  | nil => simp [del]
  | cons q t ih =>
    unfold del
    split
    · rename_i h
      rw [ih]
      constructor
      · rintro ⟨a, b⟩; exact ⟨by simp [a], b⟩
      · rintro ⟨a, b⟩
        rcases List.mem_cons.mp a with rfl | a
        · exact absurd h b
        · exact ⟨a, b⟩
    · rename_i h
      rw [List.mem_cons, ih, List.mem_cons]
      constructor
      · rintro (rfl | ⟨a, b⟩)
        · exact ⟨.inl rfl, h⟩
        · exact ⟨.inr a, b⟩
      · rintro ⟨rfl | a, b⟩
        · exact .inl rfl
        · exact .inr ⟨a, b⟩

omit [DecidableEq α] in
theorem mem_ins (l : List (Nat × α)) (k : Nat) (v : α) (p : Nat × α) : p ∈ ins l k v ↔ p = (k, v) ∨ p ∈ l := by
  induction l with
  | nil => simp [ins]
  | cons q t ih =>
    unfold ins
    split
    · simp
    · simp only [List.mem_cons, ih]; tauto

omit [DecidableEq α] in
theorem sorted_del (l : List (Nat × α)) (k : Nat) (h : (l.map Prod.fst).Pairwise (· < ·)) :
    ((del l k).map Prod.fst).Pairwise (· < ·) := by
  induction l with
  | nil => simp [del]
  | cons q t ih =>
    rw [List.map_cons, List.pairwise_cons] at h
    unfold del
    split
    · exact ih h.2
    · rw [List.map_cons, List.pairwise_cons]
      refine ⟨fun x hx => ?_, ih h.2⟩
      obtain ⟨p, hp, rfl⟩ := List.mem_map.mp hx
      exact h.1 _ (List.mem_map.mpr ⟨p, ((mem_del t k p).mp hp).1, rfl⟩)

omit [DecidableEq α] in
theorem sorted_ins (l : List (Nat × α)) (k : Nat) (v : α) (h : (l.map Prod.fst).Pairwise (· < ·)) (hk : ∀ p ∈ l, p.1 ≠ k) :
    ((ins l k v).map Prod.fst).Pairwise (· < ·) := by
  induction l with
  | nil => simp [ins]
  | cons q t ih =>
    have h0 := h
    rw [List.map_cons, List.pairwise_cons] at h
    unfold ins
    split
    · rename_i hlt
      rw [List.map_cons, List.pairwise_cons]
      refine ⟨fun x hx => ?_, h0⟩
      rw [List.map_cons, List.mem_cons] at hx
      rcases hx with rfl | hx
      · exact hlt
      · exact hlt.trans (h.1 _ hx)
    · rename_i hge
      rw [List.map_cons, List.pairwise_cons]
      refine ⟨fun x hx => ?_, ih h.2 fun p hp => hk p (by simp [hp])⟩
      obtain ⟨p, hp, rfl⟩ := List.mem_map.mp hx
      rcases (mem_ins t k v p).mp hp with rfl | hp
      · have := hk q (by simp)
        show q.1 < k
        omega
      · exact h.1 _ (List.mem_map.mpr ⟨p, hp, rfl⟩)

theorem wf_put (d : Nat → α) (l : List (Nat × α)) (k : Nat) (v : α) (h : wf d l = true) : wf d (put d l k v) = true := by
  rw [wf_iff] at h ⊢
  unfold put
  split
  · exact ⟨fun p hp => h.1 p ((mem_del l k p).mp hp).1, sorted_del l k h.2⟩
  · rename_i hv
    refine ⟨fun p hp => ?_, sorted_ins _ k v (sorted_del l k h.2) (del_keys l k)⟩
    rcases (mem_ins _ k v p).mp hp with rfl | hp
    · exact hv
    · exact h.1 p ((mem_del l k p).mp hp).1

theorem wf_putMany (d : Nat → α) (vs : List α) : ∀ (l : List (Nat × α)) (k : Nat), wf d l = true → wf d (putMany d l k vs) = true := by
  induction vs with
  | nil => intro l k h; exact h
  | cons v t ih => intro l k h; exact ih _ _ (wf_put d l k v h)

/-- Dropping entries keeps the form, also under a new unlisted value where every entry that stays has the old one. -/
theorem wf_filter (d e : Nat → α) (l : List (Nat × α)) (f : Nat × α → Bool) (h : wf d l = true) (he : ∀ p ∈ l, f p = true → e p.1 = d p.1) :
    wf e (l.filter f) = true := by
  rw [wf_iff] at h ⊢
  refine ⟨fun p hp => ?_, (h.2.sublist (List.filter_sublist.map _))⟩
  obtain ⟨hm, hf⟩ := List.mem_filter.mp hp
  rw [he p hm hf]
  exact h.1 p hm

end Sys2Proof.Machine.Sparse
end

