-- ==== Sys2Proof/Laws/Word.lean ====
section
/-! SUPPORT. Bit fields of natural numbers: reading a field after replacing one. -/
namespace Sys2Proof

theorem bitsOf_lt (n lo w : Nat) : bitsOf n lo w < 2 ^ w := Nat.mod_lt _ (by positivity)

@[simp] theorem bitsOf_zero_left (lo w : Nat) : bitsOf 0 lo w = 0 := by simp [bitsOf]

theorem bitsOf_eq (n lo w : Nat) : bitsOf n lo w = (n >>> lo) % 2 ^ w := by
  simp [bitsOf, Nat.shiftRight_eq_div_pow]

theorem testBit_bitsOf (n lo w i : Nat) : (bitsOf n lo w).testBit i = (decide (i < w) && n.testBit (lo + i)) := by
  rw [bitsOf_eq, Nat.testBit_mod_two_pow, Nat.testBit_shiftRight]

/-- Replacing a field: the parts above it, of it and below it. -/
theorem putBits_eq (n lo w v : Nat) :
    putBits n lo w v = n / 2 ^ (lo + w) * 2 ^ (lo + w) + (v % 2 ^ w * 2 ^ lo + n % 2 ^ lo) := by
  unfold putBits bitsOf
  have h1 : n = 2 ^ lo * (n / 2 ^ lo) + n % 2 ^ lo := (Nat.div_add_mod n (2 ^ lo)).symm
  have h2 : n / 2 ^ lo = 2 ^ w * (n / 2 ^ lo / 2 ^ w) + n / 2 ^ lo % 2 ^ w := (Nat.div_add_mod _ (2 ^ w)).symm
  have h3 : n / 2 ^ (lo + w) = n / 2 ^ lo / 2 ^ w := by rw [pow_add, Nat.div_div_eq_div_mul]
  rw [h3, pow_add]
  generalize n / 2 ^ lo / 2 ^ w = q at *
  generalize n / 2 ^ lo % 2 ^ w = m at *
  generalize n % 2 ^ lo = r at *
  generalize v % 2 ^ w = x at *
  rw [h2] at h1
  have h4 : n = q * (2 ^ lo * 2 ^ w) + m * 2 ^ lo + r := by rw [h1]; ring
  rw [h4]
  omega

theorem bitsOf_putBits_same (n lo w v : Nat) : bitsOf (putBits n lo w v) lo w = v % 2 ^ w := by
  rw [putBits_eq, bitsOf, pow_add]
  have hr : n % 2 ^ lo < 2 ^ lo := Nat.mod_lt _ (by positivity)
  have : n / (2 ^ lo * 2 ^ w) * (2 ^ lo * 2 ^ w) + (v % 2 ^ w * 2 ^ lo + n % 2 ^ lo)
      = n % 2 ^ lo + 2 ^ lo * (n / (2 ^ lo * 2 ^ w) * 2 ^ w + v % 2 ^ w) := by ring
  rw [this, Nat.add_mul_div_left _ _ (by positivity), Nat.div_eq_of_lt hr]
  simp [Nat.add_mod]

/-- A field above or below the replaced one reads as before. -/
theorem bitsOf_putBits_other (n lo w v lo' w' : Nat) (h : lo' + w' ≤ lo ∨ lo + w ≤ lo') :
    bitsOf (putBits n lo w v) lo' w' = bitsOf n lo' w' := by
  rw [putBits_eq]
  rcases h with h | h
  · obtain ⟨k, rfl⟩ := Nat.exists_eq_add_of_le h
    have e : n / 2 ^ (lo' + w' + k + w) * 2 ^ (lo' + w' + k + w) + (v % 2 ^ w * 2 ^ (lo' + w' + k) + n % 2 ^ (lo' + w' + k))
        = 2 ^ (lo' + w') * (n / 2 ^ (lo' + w' + k + w) * 2 ^ (k + w) + v % 2 ^ w * 2 ^ k) + n % 2 ^ (lo' + w' + k) := by
      simp only [pow_add]; ring
    rw [e]
    have f : ∀ x y : Nat, bitsOf (2 ^ (lo' + w') * x + y) lo' w' = bitsOf y lo' w' := by
      intro x y
      simp only [bitsOf, pow_add]
      rw [show 2 ^ lo' * 2 ^ w' * x + y = y + 2 ^ lo' * (2 ^ w' * x) by ring, Nat.add_mul_div_left _ _ (by positivity)]
      simp
    rw [f]
    conv_rhs => rw [← Nat.div_add_mod n (2 ^ (lo' + w' + k)), pow_add, mul_assoc, f]
    rw [pow_add]
  · obtain ⟨k, rfl⟩ := Nat.exists_eq_add_of_le h
    have hlt : v % 2 ^ w * 2 ^ lo + n % 2 ^ lo < 2 ^ (lo + w) := by
      have h1 : v % 2 ^ w + 1 ≤ 2 ^ w := Nat.mod_lt _ (by positivity)
      have h2 : n % 2 ^ lo < 2 ^ lo := Nat.mod_lt _ (by positivity)
      calc v % 2 ^ w * 2 ^ lo + n % 2 ^ lo < v % 2 ^ w * 2 ^ lo + 2 ^ lo := by omega
        _ = (v % 2 ^ w + 1) * 2 ^ lo := by ring
        _ ≤ 2 ^ w * 2 ^ lo := Nat.mul_le_mul_right _ h1
        _ = 2 ^ (lo + w) := by rw [pow_add]; ring
    have e : (n / 2 ^ (lo + w) * 2 ^ (lo + w) + (v % 2 ^ w * 2 ^ lo + n % 2 ^ lo)) / 2 ^ (lo + w) = n / 2 ^ (lo + w) := by
      rw [mul_comm, Nat.mul_add_div (by positivity), Nat.div_eq_of_lt hlt]; simp
    simp only [bitsOf, pow_add _ (lo + w) k]
    rw [← Nat.div_div_eq_div_mul, ← Nat.div_div_eq_div_mul, e]

/-- Replacing a field of a word of `m` bits leaves a word of `m` bits. -/
theorem putBits_lt (n lo w v m : Nat) (hn : n < 2 ^ m) (hw : lo + w ≤ m) : putBits n lo w v < 2 ^ m := by
  rw [putBits_eq]
  have hlt : v % 2 ^ w * 2 ^ lo + n % 2 ^ lo < 2 ^ (lo + w) := by
    have h1 : v % 2 ^ w + 1 ≤ 2 ^ w := Nat.mod_lt _ (by positivity)
    have h2 : n % 2 ^ lo < 2 ^ lo := Nat.mod_lt _ (by positivity)
    calc v % 2 ^ w * 2 ^ lo + n % 2 ^ lo < v % 2 ^ w * 2 ^ lo + 2 ^ lo := by omega
      _ = (v % 2 ^ w + 1) * 2 ^ lo := by ring
      _ ≤ 2 ^ w * 2 ^ lo := Nat.mul_le_mul_right _ h1
      _ = 2 ^ (lo + w) := by rw [pow_add]; ring
  obtain ⟨k, rfl⟩ := Nat.exists_eq_add_of_le hw
  have h3 : n / 2 ^ (lo + w) < 2 ^ k := by
    apply Nat.div_lt_of_lt_mul; rwa [← pow_add]
  calc _ < n / 2 ^ (lo + w) * 2 ^ (lo + w) + 2 ^ (lo + w) := by omega
    _ = (n / 2 ^ (lo + w) + 1) * 2 ^ (lo + w) := by ring
    _ ≤ 2 ^ k * 2 ^ (lo + w) := Nat.mul_le_mul_right _ h3
    _ = 2 ^ (lo + w + k) := by rw [pow_add]; ring

end Sys2Proof
end

