-- ==== Sys2Proof/Laws/Regs.lean ====
section
/-! SUPPORT. Registers: a read after a write, by key, by name, by field, and of the page headers; what an interrupt's set and an error's
capture do to the registers. -/
namespace Sys2Proof.Machine

/-! ### By key -/

@[simp] theorem Dev.rdk_wrk_same (d : Dev) (k v : Nat) : (d.wrk k v).rdk k = v % 2 ^ 32 := by
  simp [Dev.rdk, Dev.wrk]

theorem Dev.rdk_wrk_ne (d : Dev) {k j : Nat} (v : Nat) (h : j ≠ k) : (d.wrk k v).rdk j = d.rdk j := by
  simp [Dev.rdk, Dev.wrk, Sparse.get_put_ne _ _ _ h]

theorem Dev.rdk_lt (d : Dev) (k : Nat) : d.rdk k < 2 ^ 32 := (Sparse.get regDefault d.regs k).isLt

/-- Registers alone decide what a register reads. -/
theorem Dev.rdk_congr {d e : Dev} (h : d.regs = e.regs) (k : Nat) : d.rdk k = e.rdk k := by simp [Dev.rdk, h]

/-! ### By name -/

@[simp] theorem Dev.rd_wr_same (d : Dev) (r : Reg) (i v : Nat) : (d.wr r v i).rd r i = v % 2 ^ 32 := Dev.rdk_wrk_same ..

theorem Dev.rd_wr_ne (d : Dev) {r q : Reg} {i j : Nat} (v : Nat) (h : q.key j ≠ r.key i) : (d.wr r v i).rd q j = d.rd q j :=
  Dev.rdk_wrk_ne _ _ h

theorem Dev.rd_lt (d : Dev) (r : Reg) (i : Nat) : d.rd r i < 2 ^ 32 := Dev.rdk_lt ..

/-! ### By field -/

/-- A field written is read back, narrowed to its width. -/
theorem Dev.get_set_same (d : Dev) (f : Fld) (v i : Nat) (h : f.lo + f.w ≤ 32) : (d.set f v i).get f i = v % 2 ^ f.w := by
  unfold Dev.get Dev.set
  rw [Dev.rd_wr_same, Nat.mod_eq_of_lt (putBits_lt _ _ _ _ 32 (Dev.rd_lt ..) h), bitsOf_putBits_same]

/-- A field of another register, or another field of the register, reads as before. -/
theorem Dev.get_set_other (d : Dev) (f g : Fld) (v i j : Nat) (hf : f.lo + f.w ≤ 32)
    (h : g.reg.key j ≠ f.reg.key i ∨ (g.reg.key j = f.reg.key i ∧ (g.lo + g.w ≤ f.lo ∨ f.lo + f.w ≤ g.lo))) :
    (d.set f v i).get g j = d.get g j := by
  rcases h with h | ⟨h, h'⟩
  · unfold Dev.get Dev.set; rw [Dev.rd_wr_ne _ _ h]
  · unfold Dev.get Dev.set Dev.rd Dev.wr
    rw [h, Dev.rdk_wrk_same, Nat.mod_eq_of_lt (putBits_lt _ _ _ _ 32 (Dev.rdk_lt ..) hf), bitsOf_putBits_other _ _ _ _ _ _ h']

/-! ### Page headers -/

@[simp] theorem Dev.hrd_hwr_same (d : Dev) (b page off v : Nat) : (d.hwr b page off v).hrd b page off = v % 2 ^ 32 :=
  Dev.rdk_wrk_same ..

theorem Dev.hrd_hwr_ne (d : Dev) (b page off v : Nat) {b' page' off' : Nat} (h : regKey b' page' off' ≠ regKey b page off) :
    (d.hwr b page off v).hrd b' page' off' = d.hrd b' page' off' := Dev.rdk_wrk_ne _ _ h

/-- Another offset of the same page. -/
theorem Dev.hrd_hwr_off (d : Dev) (b page off v : Nat) {off' : Nat} (h : off' ≠ off) :
    (d.hwr b page off v).hrd b page off' = d.hrd b page off' := Dev.hrd_hwr_ne _ _ _ _ _ (by unfold regKey; omega)

theorem Dev.hrd_lt (d : Dev) (b page off : Nat) : d.hrd b page off < 2 ^ 32 := Dev.rdk_lt ..

/-! ### Interrupts (R53) -/

theorem Dev.sendVec_regs (d : Dev) (v : Nat) : (d.sendVec v).regs = d.regs := by
  unfold Dev.sendVec; split <;> [rfl; split <;> rfl]

theorem Dev.sendVec_rdk (d : Dev) (v k : Nat) : (d.sendVec v).rdk k = d.rdk k := Dev.rdk_congr (Dev.sendVec_regs ..) k

/-- All that a set of an interrupt bit does to the registers. -/
theorem Dev.irqSet_regs (d : Dev) (b page bit : Nat) : (d.irqSet b page bit).regs =
    ((d.hwr b page offPend (d.hrd b page offPend ||| 2 ^ bit)).hwr b page offSeq ((d.hrd b page offSeq + 1) % 65536)).regs := by
  unfold Dev.irqSet
  simp only []
  rw [Dev.hrd_hwr_off _ _ _ _ _ (by decide)]
  split
  · exact Dev.sendVec_regs ..
  · rfl

/-- What a set of an interrupt bit leaves: the bit, the count, every other register. -/
theorem Dev.irqSet_spec (d : Dev) (b page bit : Nat) (h : bit < 32) :
    (d.irqSet b page bit).hrd b page offPend = d.hrd b page offPend ||| 2 ^ bit ∧
    (d.irqSet b page bit).hrd b page offSeq = (d.hrd b page offSeq + 1) % 65536 ∧
    ∀ k, k ≠ regKey b page offPend → k ≠ regKey b page offSeq → (d.irqSet b page bit).rdk k = d.rdk k := by
  have e := fun k => Dev.rdk_congr (Dev.irqSet_regs d b page bit) k
  refine ⟨?_, ?_, fun k h1 h2 => ?_⟩
  · rw [Dev.hrd, e]
    change Dev.hrd _ b page offPend = _
    rw [Dev.hrd_hwr_off _ _ _ _ _ (by decide), Dev.hrd_hwr_same, Nat.mod_eq_of_lt]
    exact Nat.or_lt_two_pow (Dev.hrd_lt ..) (Nat.pow_lt_pow_right (by decide) h)
  · rw [Dev.hrd, e]
    change Dev.hrd _ b page offSeq = _
    rw [Dev.hrd_hwr_same]; omega
  · rw [e]
    unfold Dev.hwr
    rw [Dev.rdk_wrk_ne _ _ h2, Dev.rdk_wrk_ne _ _ h1]

/-! ### Errors (R58) -/

/-- A capture that finds VALID clear. -/
theorem Dev.errCapture_first (d : Dev) (b page code lo hi : Nat) (v : bitsOf (d.hrd b page offErr) 31 1 = 0) (hc : code < 65536)
    (hl : lo < 2 ^ 32) (hh : hi < 2 ^ 32) :
    (d.errCapture b page code lo hi).hrd b page offErr = 2 ^ 31 + code ∧ (d.errCapture b page code lo hi).hrd b page offInfoLo = lo ∧
    (d.errCapture b page code lo hi).hrd b page offInfoHi = hi ∧
    (d.errCapture b page code lo hi).hrd b page offErrCount = min 0xFFFFFFFF (d.hrd b page offErrCount + 1) := by
  have hv : ∀ e : Dev, e.regs = d.regs → bitsOf ((e.hwr b page offErrCount (min 0xFFFFFFFF (e.hrd b page offErrCount + 1))).hrd b page offErr) 31 1 ≠ 1 := by
    intro e he
    rw [Dev.hrd_hwr_off _ _ _ _ _ (by decide), Dev.hrd, Dev.rdk_congr he]
    change bitsOf (d.hrd b page offErr) 31 1 ≠ 1
    rw [v]; decide
  unfold Dev.errCapture
  simp only []
  rw [if_neg (hv { d with errSeen := if d.errSeen = 0 then code else d.errSeen } rfl)]
  refine ⟨?_, ?_, ?_, ?_⟩
  · rw [Dev.hrd_hwr_off _ _ _ _ _ (by decide), Dev.hrd_hwr_off _ _ _ _ _ (by decide), Dev.hrd_hwr_same]; omega
  · rw [Dev.hrd_hwr_off _ _ _ _ _ (by decide), Dev.hrd_hwr_same]; omega
  · rw [Dev.hrd_hwr_same]; omega
  · rw [Dev.hrd_hwr_off _ _ _ _ _ (by decide), Dev.hrd_hwr_off _ _ _ _ _ (by decide), Dev.hrd_hwr_off _ _ _ _ _ (by decide),
      Dev.hrd_hwr_same]
    change min 4294967295 (d.hrd b page offErrCount + 1) % 2 ^ 32 = _
    omega

/-- A capture that finds VALID set only counts. -/
theorem Dev.errCapture_later (d : Dev) (b page code lo hi : Nat) (v : bitsOf (d.hrd b page offErr) 31 1 = 1) :
    (∀ off, off ≠ offErrCount → (d.errCapture b page code lo hi).hrd b page off = d.hrd b page off) ∧
    (d.errCapture b page code lo hi).hrd b page offErrCount = min 0xFFFFFFFF (d.hrd b page offErrCount + 1) := by
  have hv : ∀ e : Dev, e.regs = d.regs → bitsOf ((e.hwr b page offErrCount (min 0xFFFFFFFF (e.hrd b page offErrCount + 1))).hrd b page offErr) 31 1 = 1 := by
    intro e he
    rw [Dev.hrd_hwr_off _ _ _ _ _ (by decide), Dev.hrd, Dev.rdk_congr he]
    exact v
  unfold Dev.errCapture
  simp only []
  rw [if_pos (hv { d with errSeen := if d.errSeen = 0 then code else d.errSeen } rfl)]
  refine ⟨fun off ho => ?_, ?_⟩
  · rw [Dev.hrd_hwr_off _ _ _ _ _ ho]; rfl
  · rw [Dev.hrd_hwr_same]
    change min 4294967295 (d.hrd b page offErrCount + 1) % 2 ^ 32 = _
    omega

/-! ### The canonical form of the register store -/

theorem Dev.regs_wf_wrk (d : Dev) (k v : Nat) (h : Sparse.wf regDefault d.regs = true) : Sparse.wf regDefault (d.wrk k v).regs = true :=
  Sparse.wf_put _ _ _ _ h

end Sys2Proof.Machine
end

