-- ==== Sys2Proof/Laws/Trace.lean ====
section
/-! SUPPORT. What events, errors and trace packets can change: registers, the buffer's memory, the trace unit, MSI-X, the outputs (and, an
error, `errSeen`). -/
namespace Sys2Proof.Machine

/-- `e` differs from `d` in its registers, memory, trace unit, MSI-X state, outputs and `errSeen` alone. -/
def Dev.Kin (d e : Dev) : Prop :=
  e = { d with regs := e.regs, mem := e.mem, trc := e.trc, msix := e.msix, out := e.out, errSeen := e.errSeen }

theorem Dev.Kin.refl (d : Dev) : d.Kin d := rfl

theorem Dev.Kin.trans {d e f : Dev} (h : d.Kin e) (g : e.Kin f) : d.Kin f := by
  unfold Dev.Kin at *
  rw [g, h]

theorem Dev.Kin.wrk (d : Dev) (k v : Nat) : d.Kin (d.wrk k v) := rfl
theorem Dev.Kin.wr (d : Dev) (r : Reg) (v i : Nat) : d.Kin (d.wr r v i) := Dev.Kin.wrk ..
theorem Dev.Kin.set (d : Dev) (f : Fld) (v i : Nat) : d.Kin (d.set f v i) := Dev.Kin.wrk ..
theorem Dev.Kin.hwr (d : Dev) (b page off v : Nat) : d.Kin (d.hwr b page off v) := Dev.Kin.wrk ..
theorem Dev.Kin.bump (d : Dev) (r : Reg) (i : Nat) : d.Kin (d.bump r i) := Dev.Kin.wrk ..
theorem Dev.Kin.wr64 (d : Dev) (r : Reg) (v i : Nat) : d.Kin (d.wr64 r v i) := (Dev.Kin.wr ..).trans (Dev.Kin.wr ..)
theorem Dev.Kin.emit (d : Dev) (o : Output) : d.Kin (d.emit o) := rfl
theorem Dev.Kin.withTrc (d : Dev) (t : Trc) : d.Kin { d with trc := t } := rfl
theorem Dev.Kin.withMem (d : Dev) (m : List Host.Cell) : d.Kin (d.withMem m) := rfl
theorem Dev.Kin.wbs (d : Dev) (sp a : Nat) (v : List Byte) : d.Kin (d.wbs sp a v) := by rw [Dev.wbs_eq]; exact Dev.Kin.withMem ..

theorem Dev.Kin.sendVec (d : Dev) (v : Nat) : d.Kin (d.sendVec v) := by
  unfold Dev.sendVec; split <;> [rfl; split <;> rfl]

theorem Dev.Kin.irqSet (d : Dev) (b page bit : Nat) : d.Kin (d.irqSet b page bit) := by
  unfold Dev.irqSet
  simp only []
  split
  · exact ((Dev.Kin.hwr ..).trans (Dev.Kin.hwr ..)).trans (Dev.Kin.sendVec ..)
  · exact (Dev.Kin.hwr ..).trans (Dev.Kin.hwr ..)

theorem Dev.Kin.setLine (d : Dev) (l : List Byte) : d.Kin (d.setLine l) := (Dev.Kin.withTrc ..).trans (Dev.Kin.set ..)

theorem Dev.Kin.trcStop (d : Dev) (c : Nat) : d.Kin (d.trcStop c) :=
  ((((Dev.Kin.set ..).trans (Dev.Kin.set ..)).trans (Dev.Kin.set ..)).trans (Dev.Kin.set ..)).trans (Dev.Kin.withTrc ..)

theorem Dev.Kin.trcDrop (d : Dev) (s : Nat) : d.Kin (d.trcDrop s) := (Dev.Kin.bump ..).trans (Dev.Kin.withTrc ..)

theorem Dev.Kin.trcClose (d : Dev) : d.Kin d.trcClose :=
  (((Dev.Kin.withTrc d _).trans (Dev.Kin.wbs ..)).trans (Dev.Kin.setLine ..)).trans (Dev.Kin.wr64 ..)

theorem Dev.Kin.trcWriteLine (d : Dev) : d.Kin d.trcWriteLine.1 := by
  unfold Dev.trcWriteLine
  split
  · exact Dev.Kin.refl d
  · have h := Dev.Kin.trcClose d
    generalize d.trcClose = e at h ⊢
    refine h.trans ?_
    simp only []
    split
    · split <;> [exact Dev.Kin.withTrc ..; exact Dev.Kin.refl _]
    · refine Dev.Kin.trans ?_ (Dev.Kin.withTrc ..)
      split <;> [exact Dev.Kin.withTrc ..; exact Dev.Kin.refl _]

theorem Dev.Kin.trcAppend (d : Dev) (t : Nat) (body : List Byte) : d.Kin (d.trcAppend t body).1 := by
  unfold Dev.trcAppend
  refine Dev.Kin.trans ?_ (Dev.Kin.withTrc ..)
  refine Dev.Kin.trans ?_ (Dev.Kin.setLine ..)
  generalize d.trc.line.length + _ = c
  by_cases h : 64 < c
  · rw [if_pos h]; exact Dev.Kin.trcWriteLine d
  · rw [if_neg h]; exact Dev.Kin.refl d

theorem Dev.Kin.trcLost (d : Dev) : d.Kin d.trcLost.1 := by
  unfold Dev.trcLost
  split
  · exact Dev.Kin.refl d
  · exact (Dev.Kin.trcAppend ..).trans (Dev.Kin.withTrc ..)

theorem Dev.Kin.trcRecord (d : Dev) (p : Pkt) : d.Kin (d.trcRecord p).1 := by
  unfold Dev.trcRecord
  split
  · exact Dev.Kin.refl d
  · split
    · exact Dev.Kin.trcDrop ..
    · refine (Dev.Kin.withTrc d ((d.trc.inTick d.gh.timer).take p.src)).trans ?_
      generalize ({ d with trc := (d.trc.inTick d.gh.timer).take p.src } : Dev) = e
      refine (Dev.Kin.trcLost e).trans ?_
      simp only []
      split
      · exact Dev.Kin.trcDrop ..
      · exact Dev.Kin.trcAppend ..

theorem Dev.Kin.trcSyncAt (d : Dev) (t ao reason : Nat) : d.Kin (d.trcSyncAt t ao reason).1 :=
  (Dev.Kin.trcRecord ..).trans (Dev.Kin.withTrc ..)

theorem Dev.Kin.trcCountHits (l : List Nat) : ∀ d : Dev, d.Kin (d.trcCountHits l).1 := by
  induction l with
  | nil => intro d; exact Dev.Kin.refl d
  | cons t r ih =>
    intro d
    unfold Dev.trcCountHits
    exact (((Dev.Kin.bump ..).trans (Dev.Kin.withTrc ..)).trans (Dev.Kin.trcRecord ..)).trans (ih _)

theorem Dev.Kin.trcAct (d : Dev) (hits : List Nat) : d.Kin (d.trcAct hits).1 := by
  unfold Dev.trcAct
  simp only []
  split
  · exact (Dev.Kin.trcStop ..).trans (Dev.Kin.trcWriteLine ..)
  · split
    · split
      · exact Dev.Kin.refl d
      · exact (Dev.Kin.set ..).trans (Dev.Kin.withTrc ..)
    · split
      · exact (((Dev.Kin.set ..).trans (Dev.Kin.set ..)).trans (Dev.Kin.set ..)).trans (Dev.Kin.trcSyncAt ..)
      · exact Dev.Kin.refl d

/-- A fold of operations that each leave a kin leaves a kin. -/
theorem Dev.Kin.foldl {α : Type} (f : Dev → α → Dev) (hf : ∀ (e : Dev) (x : α), e.Kin (f e x)) (l : List α) : ∀ d : Dev, d.Kin (l.foldl f d) := by
  induction l with
  | nil => intro d; exact Dev.Kin.refl d
  | cons x t ih => intro d; exact (hf d x).trans (ih _)

theorem Dev.Kin.trcPacket (fuel : Nat) : ∀ (p : Pkt) (d : Dev), d.Kin (Dev.trcPacket fuel p d) := by
  induction fuel with
  | zero => intro p d; exact Dev.Kin.refl d
  | succ n ih =>
    intro p d
    unfold Dev.trcPacket
    simp only []
    refine Dev.Kin.trans ?_ (Dev.Kin.foldl _ ?_ _ _)
    · refine Dev.Kin.trans ?_ (Dev.Kin.trcAct ..)
      refine Dev.Kin.trans ?_ (Dev.Kin.trcCountHits ..)
      split <;> [exact Dev.Kin.refl d; exact Dev.Kin.trcRecord ..]
    · intro e x
      cases x with
      | ev bit => exact (Dev.Kin.irqSet ..).trans (ih _ _)
      | pkt type key => exact ih _ _

theorem Dev.Kin.trace (d : Dev) (p : Pkt) : d.Kin (d.trace p) := Dev.Kin.trcPacket ..

theorem Dev.Kin.raise (d : Dev) (b page bit : Nat) : d.Kin (d.raise b page bit) := (Dev.Kin.irqSet ..).trans (Dev.Kin.trace ..)

theorem Dev.Kin.trcEvents (r : Dev × List Aux) : r.1.Kin (Dev.trcEvents r) := by
  unfold Dev.trcEvents
  refine Dev.Kin.foldl _ ?_ _ _
  intro e x
  cases x with
  | ev bit => exact Dev.Kin.raise ..
  | pkt type key => exact Dev.Kin.trace ..

theorem Dev.Kin.errCapture (d : Dev) (b page code lo hi : Nat) : d.Kin (d.errCapture b page code lo hi) := by
  unfold Dev.errCapture
  simp only []
  have h : ∀ n, d.Kin { d with errSeen := n } := fun _ => rfl
  generalize (if d.errSeen = 0 then code else d.errSeen) = n
  refine (h n).trans ?_
  split
  · exact Dev.Kin.hwr ..
  · exact (((Dev.Kin.hwr ..).trans (Dev.Kin.hwr ..)).trans (Dev.Kin.hwr ..)).trans (Dev.Kin.hwr ..)

theorem Dev.Kin.err (d : Dev) (b page code lo hi : Nat) : d.Kin (d.err b page code lo hi) :=
  (Dev.Kin.errCapture ..).trans (Dev.Kin.trace ..)

theorem Dev.Kin.errWr (d : Dev) (p : Path) (b page off code v : Nat) : d.Kin (d.errWr p b page off code v) := Dev.Kin.err ..

/-! ### The fields that kin share -/

theorem Dev.Kin.free {d e : Dev} (h : d.Kin e) : e.free = d.free := by rw [h]
theorem Dev.Kin.undef {d e : Dev} (h : d.Kin e) : e.undef = d.undef := by rw [h]
theorem Dev.Kin.lostEpoch {d e : Dev} (h : d.Kin e) : e.lostEpoch = d.lostEpoch := by rw [h]
theorem Dev.Kin.latch {d e : Dev} (h : d.Kin e) : e.latch = d.latch := by rw [h]
theorem Dev.Kin.stage {d e : Dev} (h : d.Kin e) : e.stage = d.stage := by rw [h]
theorem Dev.Kin.gh {d e : Dev} (h : d.Kin e) : e.gh = d.gh := by rw [h]
theorem Dev.Kin.pwr {d e : Dev} (h : d.Kin e) : e.pwr = d.pwr := by rw [h]
theorem Dev.Kin.keys {d e : Dev} (h : d.Kin e) : e.keys = d.keys := by rw [h]
theorem Dev.Kin.hg {d e : Dev} (h : d.Kin e) : e.hg = d.hg := by rw [h]
theorem Dev.Kin.map {d e : Dev} (h : d.Kin e) : e.map = d.map := by rw [h]
theorem Dev.Kin.objs {d e : Dev} (h : d.Kin e) : e.objs = d.objs := by rw [h]
theorem Dev.Kin.wins {d e : Dev} (h : d.Kin e) : e.wins = d.wins := by rw [h]
theorem Dev.Kin.pool {d e : Dev} (h : d.Kin e) : e.pool = d.pool := by rw [h]
theorem Dev.Kin.flm {d e : Dev} (h : d.Kin e) : e.flm = d.flm := by rw [h]
theorem Dev.Kin.slc {d e : Dev} (h : d.Kin e) : e.slc = d.slc := by rw [h]
theorem Dev.Kin.auto {d e : Dev} (h : d.Kin e) : e.auto = d.auto := by rw [h]
theorem Dev.Kin.plan {d e : Dev} (h : d.Kin e) : e.plan = d.plan := by rw [h]
theorem Dev.Kin.obsQ {d e : Dev} (h : d.Kin e) : e.obsQ = d.obsQ := by rw [h]
theorem Dev.Kin.chains {d e : Dev} (h : d.Kin e) : e.chains = d.chains := by rw [h]
theorem Dev.Kin.links {d e : Dev} (h : d.Kin e) : e.links = d.links := by rw [h]
theorem Dev.Kin.lr {d e : Dev} (h : d.Kin e) : e.lr = d.lr := by rw [h]
theorem Dev.Kin.fb {d e : Dev} (h : d.Kin e) : e.fb = d.fb := by rw [h]
theorem Dev.Kin.ck {d e : Dev} (h : d.Kin e) : e.ck = d.ck := by rw [h]
theorem Dev.Kin.ports {d e : Dev} (h : d.Kin e) : e.ports = d.ports := by rw [h]
theorem Dev.Kin.reads {d e : Dev} (h : d.Kin e) : e.reads = d.reads := by rw [h]
theorem Dev.Kin.host {d e : Dev} (h : d.Kin e) : e.host = d.host := by rw [h]
theorem Dev.Kin.exps {d e : Dev} (h : d.Kin e) : e.exps = d.exps := by rw [h]
theorem Dev.Kin.stuck {d e : Dev} (h : d.Kin e) : e.stuck = d.stuck := by rw [h]
theorem Dev.Kin.held {d e : Dev} (h : d.Kin e) : e.held = d.held := by rw [h]
theorem Dev.Kin.pins {d e : Dev} (h : d.Kin e) : e.pins = d.pins := by rw [h]
theorem Dev.Kin.mgmt {d e : Dev} (h : d.Kin e) : e.mgmt = d.mgmt := by rw [h]
theorem Dev.Kin.boot {d e : Dev} (h : d.Kin e) : e.boot = d.boot := by rw [h]
theorem Dev.Kin.sel {d e : Dev} (h : d.Kin e) : e.sel = d.sel := by rw [h]
theorem Dev.Kin.snaps {d e : Dev} (h : d.Kin e) : e.snaps = d.snaps := by rw [h]
theorem Dev.Kin.ecc {d e : Dev} (h : d.Kin e) : e.ecc = d.ecc := by rw [h]
theorem Dev.Kin.tied {d e : Dev} (h : d.Kin e) : e.tied = d.tied := by rw [h]
theorem Dev.Kin.due {d e : Dev} (h : d.Kin e) : e.due = d.due := by rw [h]

@[simp] theorem Dev.trace_free (d : Dev) (p : Pkt) : (d.trace p).free = d.free := (Dev.Kin.trace ..).free
@[simp] theorem Dev.trace_undef (d : Dev) (p : Pkt) : (d.trace p).undef = d.undef := (Dev.Kin.trace ..).undef
@[simp] theorem Dev.trace_lostEpoch (d : Dev) (p : Pkt) : (d.trace p).lostEpoch = d.lostEpoch := (Dev.Kin.trace ..).lostEpoch
@[simp] theorem Dev.trace_latch (d : Dev) (p : Pkt) : (d.trace p).latch = d.latch := (Dev.Kin.trace ..).latch
@[simp] theorem Dev.trace_stage (d : Dev) (p : Pkt) : (d.trace p).stage = d.stage := (Dev.Kin.trace ..).stage
@[simp] theorem Dev.trace_gh (d : Dev) (p : Pkt) : (d.trace p).gh = d.gh := (Dev.Kin.trace ..).gh
@[simp] theorem Dev.trace_pwr (d : Dev) (p : Pkt) : (d.trace p).pwr = d.pwr := (Dev.Kin.trace ..).pwr
@[simp] theorem Dev.trace_keys (d : Dev) (p : Pkt) : (d.trace p).keys = d.keys := (Dev.Kin.trace ..).keys
@[simp] theorem Dev.trace_hg (d : Dev) (p : Pkt) : (d.trace p).hg = d.hg := (Dev.Kin.trace ..).hg
@[simp] theorem Dev.trace_map (d : Dev) (p : Pkt) : (d.trace p).map = d.map := (Dev.Kin.trace ..).map
@[simp] theorem Dev.trace_objs (d : Dev) (p : Pkt) : (d.trace p).objs = d.objs := (Dev.Kin.trace ..).objs
@[simp] theorem Dev.trace_wins (d : Dev) (p : Pkt) : (d.trace p).wins = d.wins := (Dev.Kin.trace ..).wins
@[simp] theorem Dev.trace_pool (d : Dev) (p : Pkt) : (d.trace p).pool = d.pool := (Dev.Kin.trace ..).pool
@[simp] theorem Dev.trace_flm (d : Dev) (p : Pkt) : (d.trace p).flm = d.flm := (Dev.Kin.trace ..).flm
@[simp] theorem Dev.trace_slc (d : Dev) (p : Pkt) : (d.trace p).slc = d.slc := (Dev.Kin.trace ..).slc
@[simp] theorem Dev.trace_auto (d : Dev) (p : Pkt) : (d.trace p).auto = d.auto := (Dev.Kin.trace ..).auto
@[simp] theorem Dev.trace_plan (d : Dev) (p : Pkt) : (d.trace p).plan = d.plan := (Dev.Kin.trace ..).plan
@[simp] theorem Dev.trace_obsQ (d : Dev) (p : Pkt) : (d.trace p).obsQ = d.obsQ := (Dev.Kin.trace ..).obsQ
@[simp] theorem Dev.trace_chains (d : Dev) (p : Pkt) : (d.trace p).chains = d.chains := (Dev.Kin.trace ..).chains
@[simp] theorem Dev.trace_links (d : Dev) (p : Pkt) : (d.trace p).links = d.links := (Dev.Kin.trace ..).links
@[simp] theorem Dev.trace_lr (d : Dev) (p : Pkt) : (d.trace p).lr = d.lr := (Dev.Kin.trace ..).lr
@[simp] theorem Dev.trace_fb (d : Dev) (p : Pkt) : (d.trace p).fb = d.fb := (Dev.Kin.trace ..).fb
@[simp] theorem Dev.trace_ck (d : Dev) (p : Pkt) : (d.trace p).ck = d.ck := (Dev.Kin.trace ..).ck
@[simp] theorem Dev.trace_ports (d : Dev) (p : Pkt) : (d.trace p).ports = d.ports := (Dev.Kin.trace ..).ports
@[simp] theorem Dev.trace_reads (d : Dev) (p : Pkt) : (d.trace p).reads = d.reads := (Dev.Kin.trace ..).reads
@[simp] theorem Dev.trace_host (d : Dev) (p : Pkt) : (d.trace p).host = d.host := (Dev.Kin.trace ..).host
@[simp] theorem Dev.trace_exps (d : Dev) (p : Pkt) : (d.trace p).exps = d.exps := (Dev.Kin.trace ..).exps
@[simp] theorem Dev.trace_stuck (d : Dev) (p : Pkt) : (d.trace p).stuck = d.stuck := (Dev.Kin.trace ..).stuck
@[simp] theorem Dev.trace_held (d : Dev) (p : Pkt) : (d.trace p).held = d.held := (Dev.Kin.trace ..).held
@[simp] theorem Dev.trace_pins (d : Dev) (p : Pkt) : (d.trace p).pins = d.pins := (Dev.Kin.trace ..).pins
@[simp] theorem Dev.trace_mgmt (d : Dev) (p : Pkt) : (d.trace p).mgmt = d.mgmt := (Dev.Kin.trace ..).mgmt
@[simp] theorem Dev.trace_boot (d : Dev) (p : Pkt) : (d.trace p).boot = d.boot := (Dev.Kin.trace ..).boot
@[simp] theorem Dev.trace_sel (d : Dev) (p : Pkt) : (d.trace p).sel = d.sel := (Dev.Kin.trace ..).sel
@[simp] theorem Dev.trace_snaps (d : Dev) (p : Pkt) : (d.trace p).snaps = d.snaps := (Dev.Kin.trace ..).snaps
@[simp] theorem Dev.trace_ecc (d : Dev) (p : Pkt) : (d.trace p).ecc = d.ecc := (Dev.Kin.trace ..).ecc
@[simp] theorem Dev.trace_tied (d : Dev) (p : Pkt) : (d.trace p).tied = d.tied := (Dev.Kin.trace ..).tied
@[simp] theorem Dev.trace_due (d : Dev) (p : Pkt) : (d.trace p).due = d.due := (Dev.Kin.trace ..).due

@[simp] theorem Dev.raise_free (d : Dev) (b page bit : Nat) : (d.raise b page bit).free = d.free := (Dev.Kin.raise ..).free
@[simp] theorem Dev.raise_undef (d : Dev) (b page bit : Nat) : (d.raise b page bit).undef = d.undef := (Dev.Kin.raise ..).undef
@[simp] theorem Dev.raise_lostEpoch (d : Dev) (b page bit : Nat) : (d.raise b page bit).lostEpoch = d.lostEpoch := (Dev.Kin.raise ..).lostEpoch
@[simp] theorem Dev.raise_latch (d : Dev) (b page bit : Nat) : (d.raise b page bit).latch = d.latch := (Dev.Kin.raise ..).latch
@[simp] theorem Dev.raise_stage (d : Dev) (b page bit : Nat) : (d.raise b page bit).stage = d.stage := (Dev.Kin.raise ..).stage
@[simp] theorem Dev.raise_gh (d : Dev) (b page bit : Nat) : (d.raise b page bit).gh = d.gh := (Dev.Kin.raise ..).gh
@[simp] theorem Dev.raise_pwr (d : Dev) (b page bit : Nat) : (d.raise b page bit).pwr = d.pwr := (Dev.Kin.raise ..).pwr
@[simp] theorem Dev.raise_keys (d : Dev) (b page bit : Nat) : (d.raise b page bit).keys = d.keys := (Dev.Kin.raise ..).keys
@[simp] theorem Dev.raise_hg (d : Dev) (b page bit : Nat) : (d.raise b page bit).hg = d.hg := (Dev.Kin.raise ..).hg
@[simp] theorem Dev.raise_map (d : Dev) (b page bit : Nat) : (d.raise b page bit).map = d.map := (Dev.Kin.raise ..).map
@[simp] theorem Dev.raise_objs (d : Dev) (b page bit : Nat) : (d.raise b page bit).objs = d.objs := (Dev.Kin.raise ..).objs
@[simp] theorem Dev.raise_wins (d : Dev) (b page bit : Nat) : (d.raise b page bit).wins = d.wins := (Dev.Kin.raise ..).wins
@[simp] theorem Dev.raise_pool (d : Dev) (b page bit : Nat) : (d.raise b page bit).pool = d.pool := (Dev.Kin.raise ..).pool
@[simp] theorem Dev.raise_flm (d : Dev) (b page bit : Nat) : (d.raise b page bit).flm = d.flm := (Dev.Kin.raise ..).flm
@[simp] theorem Dev.raise_slc (d : Dev) (b page bit : Nat) : (d.raise b page bit).slc = d.slc := (Dev.Kin.raise ..).slc
@[simp] theorem Dev.raise_auto (d : Dev) (b page bit : Nat) : (d.raise b page bit).auto = d.auto := (Dev.Kin.raise ..).auto
@[simp] theorem Dev.raise_plan (d : Dev) (b page bit : Nat) : (d.raise b page bit).plan = d.plan := (Dev.Kin.raise ..).plan
@[simp] theorem Dev.raise_obsQ (d : Dev) (b page bit : Nat) : (d.raise b page bit).obsQ = d.obsQ := (Dev.Kin.raise ..).obsQ
@[simp] theorem Dev.raise_chains (d : Dev) (b page bit : Nat) : (d.raise b page bit).chains = d.chains := (Dev.Kin.raise ..).chains
@[simp] theorem Dev.raise_links (d : Dev) (b page bit : Nat) : (d.raise b page bit).links = d.links := (Dev.Kin.raise ..).links
@[simp] theorem Dev.raise_lr (d : Dev) (b page bit : Nat) : (d.raise b page bit).lr = d.lr := (Dev.Kin.raise ..).lr
@[simp] theorem Dev.raise_fb (d : Dev) (b page bit : Nat) : (d.raise b page bit).fb = d.fb := (Dev.Kin.raise ..).fb
@[simp] theorem Dev.raise_ck (d : Dev) (b page bit : Nat) : (d.raise b page bit).ck = d.ck := (Dev.Kin.raise ..).ck
@[simp] theorem Dev.raise_ports (d : Dev) (b page bit : Nat) : (d.raise b page bit).ports = d.ports := (Dev.Kin.raise ..).ports
@[simp] theorem Dev.raise_reads (d : Dev) (b page bit : Nat) : (d.raise b page bit).reads = d.reads := (Dev.Kin.raise ..).reads
@[simp] theorem Dev.raise_host (d : Dev) (b page bit : Nat) : (d.raise b page bit).host = d.host := (Dev.Kin.raise ..).host
@[simp] theorem Dev.raise_exps (d : Dev) (b page bit : Nat) : (d.raise b page bit).exps = d.exps := (Dev.Kin.raise ..).exps
@[simp] theorem Dev.raise_stuck (d : Dev) (b page bit : Nat) : (d.raise b page bit).stuck = d.stuck := (Dev.Kin.raise ..).stuck
@[simp] theorem Dev.raise_held (d : Dev) (b page bit : Nat) : (d.raise b page bit).held = d.held := (Dev.Kin.raise ..).held
@[simp] theorem Dev.raise_pins (d : Dev) (b page bit : Nat) : (d.raise b page bit).pins = d.pins := (Dev.Kin.raise ..).pins
@[simp] theorem Dev.raise_mgmt (d : Dev) (b page bit : Nat) : (d.raise b page bit).mgmt = d.mgmt := (Dev.Kin.raise ..).mgmt
@[simp] theorem Dev.raise_boot (d : Dev) (b page bit : Nat) : (d.raise b page bit).boot = d.boot := (Dev.Kin.raise ..).boot
@[simp] theorem Dev.raise_sel (d : Dev) (b page bit : Nat) : (d.raise b page bit).sel = d.sel := (Dev.Kin.raise ..).sel
@[simp] theorem Dev.raise_snaps (d : Dev) (b page bit : Nat) : (d.raise b page bit).snaps = d.snaps := (Dev.Kin.raise ..).snaps
@[simp] theorem Dev.raise_ecc (d : Dev) (b page bit : Nat) : (d.raise b page bit).ecc = d.ecc := (Dev.Kin.raise ..).ecc
@[simp] theorem Dev.raise_tied (d : Dev) (b page bit : Nat) : (d.raise b page bit).tied = d.tied := (Dev.Kin.raise ..).tied
@[simp] theorem Dev.raise_due (d : Dev) (b page bit : Nat) : (d.raise b page bit).due = d.due := (Dev.Kin.raise ..).due

@[simp] theorem Dev.err_free (d : Dev) (b page code lo hi : Nat) : (d.err b page code lo hi).free = d.free := (Dev.Kin.err ..).free
@[simp] theorem Dev.err_undef (d : Dev) (b page code lo hi : Nat) : (d.err b page code lo hi).undef = d.undef := (Dev.Kin.err ..).undef
@[simp] theorem Dev.err_lostEpoch (d : Dev) (b page code lo hi : Nat) : (d.err b page code lo hi).lostEpoch = d.lostEpoch := (Dev.Kin.err ..).lostEpoch
@[simp] theorem Dev.err_latch (d : Dev) (b page code lo hi : Nat) : (d.err b page code lo hi).latch = d.latch := (Dev.Kin.err ..).latch
@[simp] theorem Dev.err_stage (d : Dev) (b page code lo hi : Nat) : (d.err b page code lo hi).stage = d.stage := (Dev.Kin.err ..).stage
@[simp] theorem Dev.err_gh (d : Dev) (b page code lo hi : Nat) : (d.err b page code lo hi).gh = d.gh := (Dev.Kin.err ..).gh
@[simp] theorem Dev.err_pwr (d : Dev) (b page code lo hi : Nat) : (d.err b page code lo hi).pwr = d.pwr := (Dev.Kin.err ..).pwr
@[simp] theorem Dev.err_keys (d : Dev) (b page code lo hi : Nat) : (d.err b page code lo hi).keys = d.keys := (Dev.Kin.err ..).keys
@[simp] theorem Dev.err_hg (d : Dev) (b page code lo hi : Nat) : (d.err b page code lo hi).hg = d.hg := (Dev.Kin.err ..).hg
@[simp] theorem Dev.err_map (d : Dev) (b page code lo hi : Nat) : (d.err b page code lo hi).map = d.map := (Dev.Kin.err ..).map
@[simp] theorem Dev.err_objs (d : Dev) (b page code lo hi : Nat) : (d.err b page code lo hi).objs = d.objs := (Dev.Kin.err ..).objs
@[simp] theorem Dev.err_wins (d : Dev) (b page code lo hi : Nat) : (d.err b page code lo hi).wins = d.wins := (Dev.Kin.err ..).wins
@[simp] theorem Dev.err_pool (d : Dev) (b page code lo hi : Nat) : (d.err b page code lo hi).pool = d.pool := (Dev.Kin.err ..).pool
@[simp] theorem Dev.err_flm (d : Dev) (b page code lo hi : Nat) : (d.err b page code lo hi).flm = d.flm := (Dev.Kin.err ..).flm
@[simp] theorem Dev.err_slc (d : Dev) (b page code lo hi : Nat) : (d.err b page code lo hi).slc = d.slc := (Dev.Kin.err ..).slc
@[simp] theorem Dev.err_auto (d : Dev) (b page code lo hi : Nat) : (d.err b page code lo hi).auto = d.auto := (Dev.Kin.err ..).auto
@[simp] theorem Dev.err_plan (d : Dev) (b page code lo hi : Nat) : (d.err b page code lo hi).plan = d.plan := (Dev.Kin.err ..).plan
@[simp] theorem Dev.err_obsQ (d : Dev) (b page code lo hi : Nat) : (d.err b page code lo hi).obsQ = d.obsQ := (Dev.Kin.err ..).obsQ
@[simp] theorem Dev.err_chains (d : Dev) (b page code lo hi : Nat) : (d.err b page code lo hi).chains = d.chains := (Dev.Kin.err ..).chains
@[simp] theorem Dev.err_links (d : Dev) (b page code lo hi : Nat) : (d.err b page code lo hi).links = d.links := (Dev.Kin.err ..).links
@[simp] theorem Dev.err_lr (d : Dev) (b page code lo hi : Nat) : (d.err b page code lo hi).lr = d.lr := (Dev.Kin.err ..).lr
@[simp] theorem Dev.err_fb (d : Dev) (b page code lo hi : Nat) : (d.err b page code lo hi).fb = d.fb := (Dev.Kin.err ..).fb
@[simp] theorem Dev.err_ck (d : Dev) (b page code lo hi : Nat) : (d.err b page code lo hi).ck = d.ck := (Dev.Kin.err ..).ck
@[simp] theorem Dev.err_ports (d : Dev) (b page code lo hi : Nat) : (d.err b page code lo hi).ports = d.ports := (Dev.Kin.err ..).ports
@[simp] theorem Dev.err_reads (d : Dev) (b page code lo hi : Nat) : (d.err b page code lo hi).reads = d.reads := (Dev.Kin.err ..).reads
@[simp] theorem Dev.err_host (d : Dev) (b page code lo hi : Nat) : (d.err b page code lo hi).host = d.host := (Dev.Kin.err ..).host
@[simp] theorem Dev.err_exps (d : Dev) (b page code lo hi : Nat) : (d.err b page code lo hi).exps = d.exps := (Dev.Kin.err ..).exps
@[simp] theorem Dev.err_stuck (d : Dev) (b page code lo hi : Nat) : (d.err b page code lo hi).stuck = d.stuck := (Dev.Kin.err ..).stuck
@[simp] theorem Dev.err_held (d : Dev) (b page code lo hi : Nat) : (d.err b page code lo hi).held = d.held := (Dev.Kin.err ..).held
@[simp] theorem Dev.err_pins (d : Dev) (b page code lo hi : Nat) : (d.err b page code lo hi).pins = d.pins := (Dev.Kin.err ..).pins
@[simp] theorem Dev.err_mgmt (d : Dev) (b page code lo hi : Nat) : (d.err b page code lo hi).mgmt = d.mgmt := (Dev.Kin.err ..).mgmt
@[simp] theorem Dev.err_boot (d : Dev) (b page code lo hi : Nat) : (d.err b page code lo hi).boot = d.boot := (Dev.Kin.err ..).boot
@[simp] theorem Dev.err_sel (d : Dev) (b page code lo hi : Nat) : (d.err b page code lo hi).sel = d.sel := (Dev.Kin.err ..).sel
@[simp] theorem Dev.err_snaps (d : Dev) (b page code lo hi : Nat) : (d.err b page code lo hi).snaps = d.snaps := (Dev.Kin.err ..).snaps
@[simp] theorem Dev.err_ecc (d : Dev) (b page code lo hi : Nat) : (d.err b page code lo hi).ecc = d.ecc := (Dev.Kin.err ..).ecc
@[simp] theorem Dev.err_tied (d : Dev) (b page code lo hi : Nat) : (d.err b page code lo hi).tied = d.tied := (Dev.Kin.err ..).tied
@[simp] theorem Dev.err_due (d : Dev) (b page code lo hi : Nat) : (d.err b page code lo hi).due = d.due := (Dev.Kin.err ..).due

@[simp] theorem Dev.irqSet_free (d : Dev) (b page bit : Nat) : (d.irqSet b page bit).free = d.free := (Dev.Kin.irqSet ..).free
@[simp] theorem Dev.irqSet_undef (d : Dev) (b page bit : Nat) : (d.irqSet b page bit).undef = d.undef := (Dev.Kin.irqSet ..).undef
@[simp] theorem Dev.irqSet_lostEpoch (d : Dev) (b page bit : Nat) : (d.irqSet b page bit).lostEpoch = d.lostEpoch := (Dev.Kin.irqSet ..).lostEpoch
@[simp] theorem Dev.irqSet_latch (d : Dev) (b page bit : Nat) : (d.irqSet b page bit).latch = d.latch := (Dev.Kin.irqSet ..).latch
@[simp] theorem Dev.irqSet_stage (d : Dev) (b page bit : Nat) : (d.irqSet b page bit).stage = d.stage := (Dev.Kin.irqSet ..).stage
@[simp] theorem Dev.irqSet_gh (d : Dev) (b page bit : Nat) : (d.irqSet b page bit).gh = d.gh := (Dev.Kin.irqSet ..).gh
@[simp] theorem Dev.irqSet_pwr (d : Dev) (b page bit : Nat) : (d.irqSet b page bit).pwr = d.pwr := (Dev.Kin.irqSet ..).pwr
@[simp] theorem Dev.irqSet_keys (d : Dev) (b page bit : Nat) : (d.irqSet b page bit).keys = d.keys := (Dev.Kin.irqSet ..).keys
@[simp] theorem Dev.irqSet_hg (d : Dev) (b page bit : Nat) : (d.irqSet b page bit).hg = d.hg := (Dev.Kin.irqSet ..).hg
@[simp] theorem Dev.irqSet_map (d : Dev) (b page bit : Nat) : (d.irqSet b page bit).map = d.map := (Dev.Kin.irqSet ..).map
@[simp] theorem Dev.irqSet_objs (d : Dev) (b page bit : Nat) : (d.irqSet b page bit).objs = d.objs := (Dev.Kin.irqSet ..).objs
@[simp] theorem Dev.irqSet_wins (d : Dev) (b page bit : Nat) : (d.irqSet b page bit).wins = d.wins := (Dev.Kin.irqSet ..).wins
@[simp] theorem Dev.irqSet_pool (d : Dev) (b page bit : Nat) : (d.irqSet b page bit).pool = d.pool := (Dev.Kin.irqSet ..).pool
@[simp] theorem Dev.irqSet_flm (d : Dev) (b page bit : Nat) : (d.irqSet b page bit).flm = d.flm := (Dev.Kin.irqSet ..).flm
@[simp] theorem Dev.irqSet_slc (d : Dev) (b page bit : Nat) : (d.irqSet b page bit).slc = d.slc := (Dev.Kin.irqSet ..).slc
@[simp] theorem Dev.irqSet_auto (d : Dev) (b page bit : Nat) : (d.irqSet b page bit).auto = d.auto := (Dev.Kin.irqSet ..).auto
@[simp] theorem Dev.irqSet_plan (d : Dev) (b page bit : Nat) : (d.irqSet b page bit).plan = d.plan := (Dev.Kin.irqSet ..).plan
@[simp] theorem Dev.irqSet_obsQ (d : Dev) (b page bit : Nat) : (d.irqSet b page bit).obsQ = d.obsQ := (Dev.Kin.irqSet ..).obsQ
@[simp] theorem Dev.irqSet_chains (d : Dev) (b page bit : Nat) : (d.irqSet b page bit).chains = d.chains := (Dev.Kin.irqSet ..).chains
@[simp] theorem Dev.irqSet_links (d : Dev) (b page bit : Nat) : (d.irqSet b page bit).links = d.links := (Dev.Kin.irqSet ..).links
@[simp] theorem Dev.irqSet_lr (d : Dev) (b page bit : Nat) : (d.irqSet b page bit).lr = d.lr := (Dev.Kin.irqSet ..).lr
@[simp] theorem Dev.irqSet_fb (d : Dev) (b page bit : Nat) : (d.irqSet b page bit).fb = d.fb := (Dev.Kin.irqSet ..).fb
@[simp] theorem Dev.irqSet_ck (d : Dev) (b page bit : Nat) : (d.irqSet b page bit).ck = d.ck := (Dev.Kin.irqSet ..).ck
@[simp] theorem Dev.irqSet_ports (d : Dev) (b page bit : Nat) : (d.irqSet b page bit).ports = d.ports := (Dev.Kin.irqSet ..).ports
@[simp] theorem Dev.irqSet_reads (d : Dev) (b page bit : Nat) : (d.irqSet b page bit).reads = d.reads := (Dev.Kin.irqSet ..).reads
@[simp] theorem Dev.irqSet_host (d : Dev) (b page bit : Nat) : (d.irqSet b page bit).host = d.host := (Dev.Kin.irqSet ..).host
@[simp] theorem Dev.irqSet_exps (d : Dev) (b page bit : Nat) : (d.irqSet b page bit).exps = d.exps := (Dev.Kin.irqSet ..).exps
@[simp] theorem Dev.irqSet_stuck (d : Dev) (b page bit : Nat) : (d.irqSet b page bit).stuck = d.stuck := (Dev.Kin.irqSet ..).stuck
@[simp] theorem Dev.irqSet_held (d : Dev) (b page bit : Nat) : (d.irqSet b page bit).held = d.held := (Dev.Kin.irqSet ..).held
@[simp] theorem Dev.irqSet_pins (d : Dev) (b page bit : Nat) : (d.irqSet b page bit).pins = d.pins := (Dev.Kin.irqSet ..).pins
@[simp] theorem Dev.irqSet_mgmt (d : Dev) (b page bit : Nat) : (d.irqSet b page bit).mgmt = d.mgmt := (Dev.Kin.irqSet ..).mgmt
@[simp] theorem Dev.irqSet_boot (d : Dev) (b page bit : Nat) : (d.irqSet b page bit).boot = d.boot := (Dev.Kin.irqSet ..).boot
@[simp] theorem Dev.irqSet_sel (d : Dev) (b page bit : Nat) : (d.irqSet b page bit).sel = d.sel := (Dev.Kin.irqSet ..).sel
@[simp] theorem Dev.irqSet_snaps (d : Dev) (b page bit : Nat) : (d.irqSet b page bit).snaps = d.snaps := (Dev.Kin.irqSet ..).snaps
@[simp] theorem Dev.irqSet_ecc (d : Dev) (b page bit : Nat) : (d.irqSet b page bit).ecc = d.ecc := (Dev.Kin.irqSet ..).ecc

@[simp] theorem Dev.errWr_free (d : Dev) (p : Path) (b page off code v : Nat) : (d.errWr p b page off code v).free = d.free := (Dev.Kin.errWr ..).free
@[simp] theorem Dev.errWr_undef (d : Dev) (p : Path) (b page off code v : Nat) : (d.errWr p b page off code v).undef = d.undef := (Dev.Kin.errWr ..).undef
@[simp] theorem Dev.errWr_lostEpoch (d : Dev) (p : Path) (b page off code v : Nat) : (d.errWr p b page off code v).lostEpoch = d.lostEpoch := (Dev.Kin.errWr ..).lostEpoch
@[simp] theorem Dev.errWr_latch (d : Dev) (p : Path) (b page off code v : Nat) : (d.errWr p b page off code v).latch = d.latch := (Dev.Kin.errWr ..).latch
@[simp] theorem Dev.errWr_stage (d : Dev) (p : Path) (b page off code v : Nat) : (d.errWr p b page off code v).stage = d.stage := (Dev.Kin.errWr ..).stage
@[simp] theorem Dev.errWr_gh (d : Dev) (p : Path) (b page off code v : Nat) : (d.errWr p b page off code v).gh = d.gh := (Dev.Kin.errWr ..).gh
@[simp] theorem Dev.errWr_pwr (d : Dev) (p : Path) (b page off code v : Nat) : (d.errWr p b page off code v).pwr = d.pwr := (Dev.Kin.errWr ..).pwr
@[simp] theorem Dev.errWr_keys (d : Dev) (p : Path) (b page off code v : Nat) : (d.errWr p b page off code v).keys = d.keys := (Dev.Kin.errWr ..).keys
@[simp] theorem Dev.errWr_hg (d : Dev) (p : Path) (b page off code v : Nat) : (d.errWr p b page off code v).hg = d.hg := (Dev.Kin.errWr ..).hg
@[simp] theorem Dev.errWr_map (d : Dev) (p : Path) (b page off code v : Nat) : (d.errWr p b page off code v).map = d.map := (Dev.Kin.errWr ..).map
@[simp] theorem Dev.errWr_objs (d : Dev) (p : Path) (b page off code v : Nat) : (d.errWr p b page off code v).objs = d.objs := (Dev.Kin.errWr ..).objs
@[simp] theorem Dev.errWr_wins (d : Dev) (p : Path) (b page off code v : Nat) : (d.errWr p b page off code v).wins = d.wins := (Dev.Kin.errWr ..).wins
@[simp] theorem Dev.errWr_pool (d : Dev) (p : Path) (b page off code v : Nat) : (d.errWr p b page off code v).pool = d.pool := (Dev.Kin.errWr ..).pool
@[simp] theorem Dev.errWr_flm (d : Dev) (p : Path) (b page off code v : Nat) : (d.errWr p b page off code v).flm = d.flm := (Dev.Kin.errWr ..).flm
@[simp] theorem Dev.errWr_slc (d : Dev) (p : Path) (b page off code v : Nat) : (d.errWr p b page off code v).slc = d.slc := (Dev.Kin.errWr ..).slc
@[simp] theorem Dev.errWr_auto (d : Dev) (p : Path) (b page off code v : Nat) : (d.errWr p b page off code v).auto = d.auto := (Dev.Kin.errWr ..).auto
@[simp] theorem Dev.errWr_plan (d : Dev) (p : Path) (b page off code v : Nat) : (d.errWr p b page off code v).plan = d.plan := (Dev.Kin.errWr ..).plan
@[simp] theorem Dev.errWr_obsQ (d : Dev) (p : Path) (b page off code v : Nat) : (d.errWr p b page off code v).obsQ = d.obsQ := (Dev.Kin.errWr ..).obsQ
@[simp] theorem Dev.errWr_chains (d : Dev) (p : Path) (b page off code v : Nat) : (d.errWr p b page off code v).chains = d.chains := (Dev.Kin.errWr ..).chains
@[simp] theorem Dev.errWr_links (d : Dev) (p : Path) (b page off code v : Nat) : (d.errWr p b page off code v).links = d.links := (Dev.Kin.errWr ..).links
@[simp] theorem Dev.errWr_lr (d : Dev) (p : Path) (b page off code v : Nat) : (d.errWr p b page off code v).lr = d.lr := (Dev.Kin.errWr ..).lr
@[simp] theorem Dev.errWr_fb (d : Dev) (p : Path) (b page off code v : Nat) : (d.errWr p b page off code v).fb = d.fb := (Dev.Kin.errWr ..).fb
@[simp] theorem Dev.errWr_ck (d : Dev) (p : Path) (b page off code v : Nat) : (d.errWr p b page off code v).ck = d.ck := (Dev.Kin.errWr ..).ck
@[simp] theorem Dev.errWr_ports (d : Dev) (p : Path) (b page off code v : Nat) : (d.errWr p b page off code v).ports = d.ports := (Dev.Kin.errWr ..).ports
@[simp] theorem Dev.errWr_reads (d : Dev) (p : Path) (b page off code v : Nat) : (d.errWr p b page off code v).reads = d.reads := (Dev.Kin.errWr ..).reads
@[simp] theorem Dev.errWr_host (d : Dev) (p : Path) (b page off code v : Nat) : (d.errWr p b page off code v).host = d.host := (Dev.Kin.errWr ..).host
@[simp] theorem Dev.errWr_exps (d : Dev) (p : Path) (b page off code v : Nat) : (d.errWr p b page off code v).exps = d.exps := (Dev.Kin.errWr ..).exps
@[simp] theorem Dev.errWr_stuck (d : Dev) (p : Path) (b page off code v : Nat) : (d.errWr p b page off code v).stuck = d.stuck := (Dev.Kin.errWr ..).stuck
@[simp] theorem Dev.errWr_held (d : Dev) (p : Path) (b page off code v : Nat) : (d.errWr p b page off code v).held = d.held := (Dev.Kin.errWr ..).held
@[simp] theorem Dev.errWr_pins (d : Dev) (p : Path) (b page off code v : Nat) : (d.errWr p b page off code v).pins = d.pins := (Dev.Kin.errWr ..).pins
@[simp] theorem Dev.errWr_mgmt (d : Dev) (p : Path) (b page off code v : Nat) : (d.errWr p b page off code v).mgmt = d.mgmt := (Dev.Kin.errWr ..).mgmt
@[simp] theorem Dev.errWr_boot (d : Dev) (p : Path) (b page off code v : Nat) : (d.errWr p b page off code v).boot = d.boot := (Dev.Kin.errWr ..).boot
@[simp] theorem Dev.errWr_sel (d : Dev) (p : Path) (b page off code v : Nat) : (d.errWr p b page off code v).sel = d.sel := (Dev.Kin.errWr ..).sel
@[simp] theorem Dev.errWr_snaps (d : Dev) (p : Path) (b page off code v : Nat) : (d.errWr p b page off code v).snaps = d.snaps := (Dev.Kin.errWr ..).snaps
@[simp] theorem Dev.errWr_ecc (d : Dev) (p : Path) (b page off code v : Nat) : (d.errWr p b page off code v).ecc = d.ecc := (Dev.Kin.errWr ..).ecc
@[simp] theorem Dev.errWr_tied (d : Dev) (p : Path) (b page off code v : Nat) : (d.errWr p b page off code v).tied = d.tied := (Dev.Kin.errWr ..).tied
@[simp] theorem Dev.errWr_due (d : Dev) (p : Path) (b page off code v : Nat) : (d.errWr p b page off code v).due = d.due := (Dev.Kin.errWr ..).due

end Sys2Proof.Machine
end

