-- ==== Sys2Proof/Laws/Admission.lean ====
section
/-! SUPPORT. The admission service's answer leaves the plan as it was, and a service that is not under way does no part. -/
namespace Sys2Proof.Machine

theorem Dev.Kin.plan_eq {d e : Dev} (h : d.Kin e) : e.plan = d.plan := by rw [h]

theorem admGo_idle (n : Nat) {d : Dev} (h : d.plan.job = none) : d.admGo n = d := by
  cases n with
  | zero => rfl
  | succ n => simp [Dev.admGo, h]

@[simp] theorem set_plan (d : Dev) (f : Fld) (v i : Nat) : (d.set f v i).plan = d.plan := (Dev.Kin.set ..).plan_eq

@[simp] theorem raise_plan (d : Dev) (b page bit : Nat) : (d.raise b page bit).plan = d.plan := (Dev.Kin.raise ..).plan_eq

@[simp] theorem hgHalted_plan (d : Dev) : d.hgHalted.plan = d.plan := by
  unfold Dev.hgHalted Dev.setHg
  rw [raise_plan, set_plan]

theorem eccClear_plan (d : Dev) (mem w n : Nat) : (d.eccClear mem w n).plan = d.plan := rfl

@[simp] theorem admReply_plan (d : Dev) (r : Reply) : (d.admReply r).plan = d.plan := by
  unfold Dev.admReply Dev.ctlWrite
  exact (eccClear_plan ..).trans (Dev.Kin.wbs ..).plan_eq

@[simp] theorem coreUsed_plan (d : Dev) : d.coreUsed.plan = d.plan := by
  unfold Dev.coreUsed Dev.add64
  exact (Dev.Kin.wr64 ..).plan_eq

theorem fresh_plan (d : Dev) : d.fresh.2.plan = d.plan := rfl

@[simp] theorem admEnd_plan (d : Dev) (r : Reply) (n : Nat) : (d.admEnd r n).plan = d.plan := by
  rw [← admReply_plan d r, ← coreUsed_plan (d.admReply r)]
  unfold Dev.admEnd
  generalize (d.admReply r).coreUsed = e
  by_cases a : e.admAuto = true ∧ (r.status = 1 ∨ r.status = 2)
  · rw [if_pos a, set_plan, raise_plan, set_plan]
  · rw [if_neg a, hgHalted_plan, set_plan, fresh_plan]

end Sys2Proof.Machine
end

