-- ==== Sys2Proof/Laws/Engines.lean ====
section
/-! SUPPORT. The shells of the engines' commands when their conditions hold: the Gauge House, the lanes, the links, the Cistern, the
management sources. -/
namespace Sys2Proof.Machine

/-- A use of a control memory none of whose words is bad changes nothing. -/
theorem eccTouch_free {d : Dev} {mem : Nat} (h : d.EccFree mem) (n : Nat) (p : Nat → Bool) (r : Dev → Nat → Dev) : d.eccTouch mem n p r = d := by
  have : d.ecc.filter (fun e => e.1 == mem) = [] := by
    apply List.filter_eq_nil_iff.mpr
    intro a ha e
    simp only [Dev.EccFree, List.any_eq_false] at h
    exact h a ha e
  simp [Dev.eccTouch, Dev.eccGroups, this]

/-- The Gauge House core executes the instruction it is at. -/
theorem ghExec_at {d : Dev} {w : Nat} (h : d.GhAt w) (m : Nat → Bool) (f : Dev → Nat → Dev) (hm : m w = true) : d.ghExec m f = f d w := by
  obtain ⟨h1, h2, h3⟩ := h
  unfold Dev.ghFetch at h2
  unfold Dev.ghExec
  simp only [h1, Bool.not_true, Bool.false_eq_true, if_false]
  rcases h3 with h3 | ⟨h3, h4, h5⟩
  · simp only [h3, if_true] at h2 ⊢; simp [h2, hm]
  · by_cases h6 : d.ghRom = true
    · simp only [h6, if_true] at h2 ⊢; simp [h2, hm]
    · simp only [h6] at h2 ⊢
      have : ¬ (d.ghPc < 4 ∨ d.ghLen ≤ d.ghPc) := by omega
      simp at h2
      have h7 : ¬ (7, d.ghPc / 2) ∈ d.ecc := by simpa using h5
      simp [this, h7, h2, hm]

/-- A lane with a block at its head. -/
theorem onLane_at {d : Dev} {n dir : Nat} {b : LaneBlk} {st : Stream} {o : Obj} (h : d.LaneAt n dir b st o)
    (g : Dev → LaneBlk → Stream → Obj → Dev) : d.onLane n dir g = (g d b st o).retryFull := by
  obtain ⟨h1, h2, h3, h4, h5, h6⟩ := h
  simp [Dev.onLane, h1, h2, h3, h4, h5, h6]

/-- A message waiting at the Router. -/
theorem lrTake_at {d : Dev} {l type blk : Nat} {m : Flit} (h : d.MsgAt l type blk m) (ok : Flit → Bool) (ho : ok m = true)
    (f : Dev → Flit → Dev) : d.lrTake l type none blk ok f = f (d.rxPop l m) m := by
  obtain ⟨h1, h2, hk, h3, h4, h5, h6⟩ := h
  have : (!isTree type && m.dst != d.lr.node) = false := by rcases h4 with h | h <;> simp [h]
  simp [Dev.lrTake, h1, h2, hk, h3, h5, h6, this, ho]

/-- The same, of a checkpoint message with an operation. -/
theorem lrTake_op {d : Dev} {l type op blk : Nat} {m : Flit} (h : d.MsgAt l type blk m) (h' : bitsOf m.msgA 0 4 = op)
    (ok : Flit → Bool) (ho : ok m = true) (f : Dev → Flit → Dev) : d.lrTake l type (some op) blk ok f = f (d.rxPop l m) m := by
  obtain ⟨h1, h2, hk, h3, h4, h5, h6⟩ := h
  have : (!isTree type && m.dst != d.lr.node) = false := by rcases h4 with h | h <;> simp [h]
  simp [Dev.lrTake, h1, h2, hk, h3, h5, h6, this, ho, h']

/-- A link-local message. -/
theorem rxLocal_at {d : Dev} {l type ctl : Nat} {m : Flit} (h : d.LocalAt l type ctl m) (f : Dev → Flit → Dev) :
    d.rxLocal l type ctl f = f (d.localPop l) m := by
  obtain ⟨h1, h2, h3⟩ := h
  unfold Dev.rxLocal Dev.localPop
  cases hq : (d.link l).rxl with
  | nil => rw [hq] at h1; simp at h1
  | cons x t =>
    rw [hq] at h1; simp at h1; subst h1
    simp only
    rw [if_pos]
    · simp
    · refine ⟨h2, ?_⟩
      by_cases ht : type = tCTL
      · right; exact h3 ht
      · left; exact ht

/-- A Cistern task whose turn it is. -/
theorem ckTask_at {d : Dev} {t : Task} {op : Nat} (h : d.CkReady t op) (bad : Task → Bool) (f : Dev → Task → Dev) (hb : bad t = false) :
    d.ckTask t.tag op bad f = f d t := by
  obtain ⟨h1, h2, h3, h4, h5, h6, h7⟩ := h
  simp [Dev.ckTask, h1, h2, h3, h4, h5, h6, hb, Dev.touchRegions, eccTouch_free h7]

/-- A management command that reaches the device. -/
theorem mgmtArrive_up {d : Dev} {src : MSrc} {pec : Pec} {w : Bool} (h : d.MgmtUp src pec w) (f : Dev → Dev) : d.mgmtArrive src pec w f = f d := by
  obtain ⟨h1, h2, h3, h4⟩ := h
  simp [Dev.mgmtArrive, h1, h2, h3, h4]

@[simp] theorem mgmtBegin_inRun {d : Dev} (h : d.InRun) (src : MSrc) : (d.mgmtBegin src).InRun := by
  unfold Dev.mgmtBegin
  split <;> exact h

/-- A command that stage 3 and RUN let through runs at once. -/
theorem mgmtCmd_up {d : Dev} {src : MSrc} {pec : Pec} (ht : d.pwr.tripped = false) (hr : d.InRun) (h : d.MgmtUp src pec true)
    (h3 : d.bootPast 3 = true) (k : Early) (ok : Bool) (al : Dev → Bool) (c : MCmd) (ho : ok = true) (ha : al d = true) :
    d.mgmtCmd src pec k ok al c = (d.mgmtBegin src).mgmtRun (some src) c := by
  have hn : d.notReady k = false := by simp [Dev.notReady, ht, h3]
  unfold Dev.mgmtCmd
  rw [mgmtArrive_up h]
  have hb := mgmtBegin_inRun hr src
  simp [hn, ho, ha, Dev.mgmtTake, Dev.idleExit_inRun hb, Dev.heldAccess_inRun hb]

/-- An MCTP request that is served. -/
theorem mctp_up {d : Dev} {src : MSrc} (h : d.MctpUp src) (c : Bool) (f : Dev → Dev) (hc : c = true ∨ d.eid src ≠ 0) : d.mctp src c f = f d := by
  obtain ⟨h1, h2, h3⟩ := h
  unfold Dev.mctp
  rw [if_neg (by simp [h1, h2]), if_neg (by simp [h3]), if_neg (by rcases hc with h | h <;> simp [h])]

end Sys2Proof.Machine
end

