-- ==== Sys2Proof/Laws/Exec.lean ====
section
/-! SUPPORT. The dispatch, arm by arm: what `exec` calls for each command. -/
namespace Sys2Proof.Machine

@[simp] theorem exec_registerWrite (s : State) (p : Path) (addr size v : Nat) : exec (.registerWrite p addr size v) s = execRegisterWrite p addr size v s := rfl
@[simp] theorem exec_unmappedAccess (s : State) (p : Path) (addr : Nat) (wr : Option Word) : exec (.unmappedAccess p addr wr) s = execUnmappedAccess p addr wr s := rfl
@[simp] theorem exec_latchReadLow (s : State) (p : Path) (b page off : Nat) : exec (.latchReadLow p b page off) s = execLatchReadLow p b page off s := rfl
@[simp] theorem exec_highWordWrite (s : State) (p : Path) (b page off : Nat) (v : Word) : exec (.highWordWrite p b page off v) s = execHighWordWrite p b page off v s := rfl
@[simp] theorem exec_irqPendClear (s : State) (p : Path) (b page : Nat) (v : Word) : exec (.irqPendClear p b page v) s = execIrqPendClear p b page v s := rfl
@[simp] theorem exec_irqMaskWrite (s : State) (p : Path) (b page : Nat) (v : Word) : exec (.irqMaskWrite p b page v) s = execIrqMaskWrite p b page v s := rfl
@[simp] theorem exec_irqForce (s : State) (p : Path) (b page : Nat) (v : Word) : exec (.irqForce p b page v) s = execIrqForce p b page v s := rfl
@[simp] theorem exec_errCodeClear (s : State) (p : Path) (b page : Nat) : exec (.errCodeClear p b page) s = execErrCodeClear p b page s := rfl
@[simp] theorem exec_blockReset (s : State) (p : Path) (b page : Nat) : exec (.blockReset p b page) s = execBlockReset p b page s := rfl
@[simp] theorem exec_resetComplete (s : State) (b : Nat) : exec (.resetComplete b) s = execResetComplete b s := rfl
@[simp] theorem exec_blkFreeze (s : State) (p : Path) (b page : Nat) : exec (.blkFreeze p b page) s = execBlkFreeze p b page s := rfl
@[simp] theorem exec_thaw (s : State) (p : Path) (b page : Nat) : exec (.thaw p b page) s = execThaw p b page s := rfl
@[simp] theorem exec_frozenReached (s : State) (b : Nat) : exec (.frozenReached b) s = execFrozenReached b s := rfl
@[simp] theorem exec_blkQuiesce (s : State) (p : Path) (b page : Nat) : exec (.blkQuiesce p b page) s = execBlkQuiesce p b page s := rfl
@[simp] theorem exec_quiescedReached (s : State) (b : Nat) : exec (.quiescedReached b) s = execQuiescedReached b s := rfl
@[simp] theorem exec_blkEnable (s : State) (p : Path) (b page : Nat) : exec (.blkEnable p b page) s = execBlkEnable p b page s := rfl
@[simp] theorem exec_globalFreezeSet (s : State) (p : Path) : exec (.globalFreezeSet p) s = execGlobalFreezeSet p s := rfl
@[simp] theorem exec_globalFreezeClear (s : State) (p : Path) : exec (.globalFreezeClear p) s = execGlobalFreezeClear p s := rfl
@[simp] theorem exec_allFrozen (s : State) : exec (.allFrozen) s = execAllFrozen s := rfl
@[simp] theorem exec_stateDataRead (s : State) (p : Path) (b page : Nat) : exec (.stateDataRead p b page) s = execStateDataRead p b page s := rfl
@[simp] theorem exec_loopBoundsWrite (s : State) (p : Path) (b page off : Nat) (v : Word) (same : Bool) : exec (.loopBoundsWrite p b page off v same) s = execLoopBoundsWrite p b page off v same s := rfl
@[simp] theorem exec_loopPinWrite (s : State) (p : Path) (b page off : Nat) (v : Word) (same : Bool) : exec (.loopPinWrite p b page off v same) s = execLoopPinWrite p b page off v same s := rfl
@[simp] theorem exec_aoPowerUp (s : State) (straps : Nat) : exec (.aoPowerUp straps) s = execAoPowerUp straps s := rfl
@[simp] theorem exec_aoDomainReset (s : State) (straps : Nat) : exec (.aoDomainReset straps) s = execAoDomainReset straps s := rfl
@[simp] theorem exec_devResetAssert (s : State) : exec (.devResetAssert) s = execDevResetAssert s := rfl
@[simp] theorem exec_vidStep (s : State) : exec (.vidStep) s = execVidStep s := rfl
@[simp] theorem exec_bootStart (s : State) (testHigh : Bool) : exec (.bootStart testHigh) s = execBootStart testHigh s := rfl
@[simp] theorem exec_stageAoStart (s : State) : exec (.stageAoStart) s = execStageAoStart s := rfl
@[simp] theorem exec_stageFuses (s : State) (bad : Nat) (absent : List Nat) : exec (.stageFuses bad absent) s = execStageFuses bad absent s := rfl
@[simp] theorem exec_stageImageVerify (s : State) (sfdp : Bool) : exec (.stageImageVerify sfdp) s = execStageImageVerify sfdp s := rfl
@[simp] theorem exec_stagePllLock (s : State) (ok : Bool) : exec (.stagePllLock ok) s = execStagePllLock ok s := rfl
@[simp] theorem exec_stageHbmBringup (s : State) (trained : Nat) (pcs : List Nat) (chs : List Nat) : exec (.stageHbmBringup trained pcs chs) s = execStageHbmBringup trained pcs chs s := rfl
@[simp] theorem exec_stageSramInit (s : State) (ok : Bool) (flumes : Nat) : exec (.stageSramInit ok flumes) s = execStageSramInit ok flumes s := rfl
@[simp] theorem exec_stageFwLoad (s : State) (ok : Bool) : exec (.stageFwLoad ok) s = execStageFwLoad ok s := rfl
@[simp] theorem exec_stageHostLink (s : State) (fail : Bool) : exec (.stageHostLink fail) s = execStageHostLink fail s := rfl
@[simp] theorem exec_stagePartnerPorts (s : State) (outs : List BootOut) : exec (.stagePartnerPorts outs) s = execStagePartnerPorts outs s := rfl
@[simp] theorem exec_stageExpanderPorts (s : State) (outs : List BootOut) (mib : List Nat) : exec (.stageExpanderPorts outs mib) s = execStageExpanderPorts outs mib s := rfl
@[simp] theorem exec_stageLateralLinks (s : State) : exec (.stageLateralLinks) s = execStageLateralLinks s := rfl
@[simp] theorem exec_stageSelftest (s : State) (tiles : Nat) (lanes : Nat) : exec (.stageSelftest tiles lanes) s = execStageSelftest tiles lanes s := rfl
@[simp] theorem exec_stageMapPublish (s : State) (ok : Bool) : exec (.stageMapPublish ok) s = execStageMapPublish ok s := rfl
@[simp] theorem exec_stageReady (s : State) : exec (.stageReady) s = execStageReady s := rfl
@[simp] theorem exec_stageTimeout (s : State) : exec (.stageTimeout) s = execStageTimeout s := rfl
@[simp] theorem exec_ledgerCopyDone (s : State) (ok : Bool) : exec (.ledgerCopyDone ok) s = execLedgerCopyDone ok s := rfl
@[simp] theorem exec_verdictClear (s : State) (p : Path) (v : Word) : exec (.verdictClear p v) s = execVerdictClear p v s := rfl
@[simp] theorem exec_bootReboot (s : State) (p : Path) (v : Word) : exec (.bootReboot p v) s = execBootReboot p v s := rfl
@[simp] theorem exec_imagePref (s : State) (p : Path) (v : Word) : exec (.imagePref p v) s = execImagePref p v s := rfl
@[simp] theorem exec_pwrReqDoze (s : State) (p : Path) : exec (.pwrReqDoze p) s = execPwrReqDoze p s := rfl
@[simp] theorem exec_pwrReqHold (s : State) (p : Path) : exec (.pwrReqHold p) s = execPwrReqHold p s := rfl
@[simp] theorem exec_pwrReqCancel (s : State) (p : Path) : exec (.pwrReqCancel p) s = execPwrReqCancel p s := rfl
@[simp] theorem exec_holdDrainDone (s : State) (bad : Nat) : exec (.holdDrainDone bad) s = execHoldDrainDone bad s := rfl
@[simp] theorem exec_pendingRequestEnter (s : State) : exec (.pendingRequestEnter) s = execPendingRequestEnter s := rfl
@[simp] theorem exec_pendingRequestDemote (s : State) : exec (.pendingRequestDemote) s = execPendingRequestDemote s := rfl
@[simp] theorem exec_pendingRequestDrop (s : State) : exec (.pendingRequestDrop) s = execPendingRequestDrop s := rfl
@[simp] theorem exec_idleEntry (s : State) : exec (.idleEntry) s = execIdleEntry s := rfl
@[simp] theorem exec_tc0Fire (s : State) : exec (.tc0Fire) s = execTc0Fire s := rfl
@[simp] theorem exec_dozeExitComplete (s : State) : exec (.dozeExitComplete) s = execDozeExitComplete s := rfl
@[simp] theorem exec_governorUpdate (s : State) (p : Nat) : exec (.governorUpdate p) s = execGovernorUpdate p s := rfl
@[simp] theorem exec_tjSample (s : State) (tj : Int) (sensor : Nat) : exec (.tjSample tj sensor) s = execTjSample tj sensor s := rfl
@[simp] theorem exec_powerGate (s : State) (b : Nat) : exec (.powerGate b) s = execPowerGate b s := rfl
@[simp] theorem exec_ghProgRunSet (s : State) (p : Path) : exec (.ghProgRunSet p) s = execGhProgRunSet p s := rfl
@[simp] theorem exec_ghProgRunClear (s : State) (p : Path) : exec (.ghProgRunClear p) s = execGhProgRunClear p s := rfl
@[simp] theorem exec_ghDoorbell (s : State) (p : Path) (v : Word) : exec (.ghDoorbell p v) s = execGhDoorbell p v s := rfl
@[simp] theorem exec_ghTimerFire (s : State) (n : Nat) : exec (.ghTimerFire n) s = execGhTimerFire n s := rfl
@[simp] theorem exec_ghWaitMatch (s : State) : exec (.ghWaitMatch) s = execGhWaitMatch s := rfl
@[simp] theorem exec_ghNop (s : State) : exec (.ghNop) s = execGhNop s := rfl
@[simp] theorem exec_ghStop (s : State) : exec (.ghStop) s = execGhStop s := rfl
@[simp] theorem exec_ghRet (s : State) : exec (.ghRet) s = execGhRet s := rfl
@[simp] theorem exec_ghWake (s : State) : exec (.ghWake) s = execGhWake s := rfl
@[simp] theorem exec_seqVret (s : State) : exec (.seqVret) s = execSeqVret s := rfl
@[simp] theorem exec_seqSre (s : State) : exec (.seqSre) s = execSeqSre s := rfl
@[simp] theorem exec_seqLinklp (s : State) (l1 : Nat) : exec (.seqLinklp l1) s = execSeqLinklp l1 s := rfl
@[simp] theorem exec_seqFastoff (s : State) : exec (.seqFastoff) s = execSeqFastoff s := rfl
@[simp] theorem exec_seqFaston (s : State) : exec (.seqFaston) s = execSeqFaston s := rfl
@[simp] theorem exec_seqVopr (s : State) : exec (.seqVopr) s = execSeqVopr s := rfl
@[simp] theorem exec_seqSrx (s : State) (bad : Nat) : exec (.seqSrx bad) s = execSeqSrx bad s := rfl
@[simp] theorem exec_seqLinkup (s : State) : exec (.seqLinkup) s = execSeqLinkup s := rfl
@[simp] theorem exec_seqResume (s : State) (ue : Nat) : exec (.seqResume ue) s = execSeqResume ue s := rfl
@[simp] theorem exec_scrub (s : State) (ce ue : List Nat) : exec (.scrub ce ue) s = execScrub ce ue s := rfl
@[simp] theorem exec_scrubDone (s : State) : exec (.scrubDone) s = execScrubDone s := rfl
@[simp] theorem exec_ghTemp (s : State) : exec (.ghTemp) s = execGhTemp s := rfl
@[simp] theorem exec_gpin (s : State) : exec (.gpin) s = execGpin s := rfl
@[simp] theorem exec_evt (s : State) : exec (.evt) s = execEvt s := rfl
@[simp] theorem exec_ghWait (s : State) : exec (.ghWait) s = execGhWait s := rfl
@[simp] theorem exec_ghSig (s : State) : exec (.ghSig) s = execGhSig s := rfl
@[simp] theorem exec_ldi (s : State) : exec (.ldi) s = execLdi s := rfl
@[simp] theorem exec_ghAlu (s : State) : exec (.ghAlu) s = execGhAlu s := rfl
@[simp] theorem exec_ghAddi (s : State) : exec (.ghAddi) s = execGhAddi s := rfl
@[simp] theorem exec_ghCmpi (s : State) : exec (.ghCmpi) s = execGhCmpi s := rfl
@[simp] theorem exec_ghB (s : State) : exec (.ghB) s = execGhB s := rfl
@[simp] theorem exec_ghCall (s : State) : exec (.ghCall) s = execGhCall s := rfl
@[simp] theorem exec_ldc (s : State) : exec (.ldc) s = execLdc s := rfl
@[simp] theorem exec_tcset (s : State) : exec (.tcset) s = execTcset s := rfl
@[simp] theorem exec_tcclr (s : State) : exec (.tcclr) s = execTcclr s := rfl
@[simp] theorem exec_tcrd (s : State) : exec (.tcrd) s = execTcrd s := rfl
@[simp] theorem exec_ghTnow (s : State) : exec (.ghTnow) s = execGhTnow s := rfl
@[simp] theorem exec_tnowh (s : State) : exec (.tnowh) s = execTnowh s := rfl
@[simp] theorem exec_ghLd (s : State) : exec (.ghLd) s = execGhLd s := rfl
@[simp] theorem exec_ghSt (s : State) : exec (.ghSt) s = execGhSt s := rfl
@[simp] theorem exec_btst (s : State) : exec (.btst) s = execBtst s := rfl
@[simp] theorem exec_ghBudgetExceeded (s : State) : exec (.ghBudgetExceeded) s = execGhBudgetExceeded s := rfl
@[simp] theorem exec_issue (s : State) (ue : Nat) : exec (.issue ue) s = execIssue ue s := rfl
@[simp] theorem exec_issueStallRelease (s : State) : exec (.issueStallRelease) s = execIssueStallRelease s := rfl
@[simp] theorem exec_taskDispatch (s : State) (tag : Nat) (ue : Bool) : exec (.taskDispatch tag ue) s = execTaskDispatch tag ue s := rfl
@[simp] theorem exec_ringConsWrite (s : State) (p : Path) (n : Nat) (v : Word) : exec (.ringConsWrite p n v) s = execRingConsWrite p n v s := rfl
@[simp] theorem exec_ringConfigWrite (s : State) (p : Path) (n : Nat) (size : Bool) (v : Word) : exec (.ringConfigWrite p n size v) s = execRingConfigWrite p n size v s := rfl
@[simp] theorem exec_imemWindowWrite (s : State) (p : Path) (off : Nat) (v : Word) : exec (.imemWindowWrite p off v) s = execImemWindowWrite p off v s := rfl
@[simp] theorem exec_hgStart (s : State) (p : Path) : exec (.hgStart p) s = execHgStart p s := rfl
@[simp] theorem exec_hgHaltReq (s : State) (p : Path) : exec (.hgHaltReq p) s = execHgHaltReq p s := rfl
@[simp] theorem exec_hgStep (s : State) (p : Path) (ue : Nat) : exec (.hgStep p ue) s = execHgStep p ue s := rfl
@[simp] theorem exec_hgDoorbell (s : State) (p : Path) (v : Word) : exec (.hgDoorbell p v) s = execHgDoorbell p v s := rfl
@[simp] theorem exec_taskAbort (s : State) (p : Path) (tag : Nat) : exec (.taskAbort p tag) s = execTaskAbort p tag s := rfl
@[simp] theorem exec_taskAbortAll (s : State) (p : Path) : exec (.taskAbortAll p) s = execTaskAbortAll p s := rfl
@[simp] theorem exec_hgTimerFire (s : State) (n : Nat) : exec (.hgTimerFire n) s = execHgTimerFire n s := rfl
@[simp] theorem exec_hgWaitEnd (s : State) : exec (.hgWaitEnd) s = execHgWaitEnd s := rfl
@[simp] theorem exec_hgNop (s : State) (ue : Nat) : exec (.hgNop ue) s = execHgNop ue s := rfl
@[simp] theorem exec_hgAlu (s : State) (ue : Nat) : exec (.hgAlu ue) s = execHgAlu ue s := rfl
@[simp] theorem exec_hgAlui (s : State) (ue : Nat) : exec (.hgAlui ue) s = execHgAlui ue s := rfl
@[simp] theorem exec_ext (s : State) (ue : Nat) : exec (.ext ue) s = execExt ue s := rfl
@[simp] theorem exec_dep (s : State) (ue : Nat) : exec (.dep ue) s = execDep ue s := rfl
@[simp] theorem exec_cnt (s : State) (ue : Nat) : exec (.cnt ue) s = execCnt ue s := rfl
@[simp] theorem exec_cmp (s : State) (ue : Nat) : exec (.cmp ue) s = execCmp ue s := rfl
@[simp] theorem exec_cmpi (s : State) (ue : Nat) : exec (.cmpi ue) s = execCmpi ue s := rfl
@[simp] theorem exec_plog (s : State) (ue : Nat) : exec (.plog ue) s = execPlog ue s := rfl
@[simp] theorem exec_sel (s : State) (ue : Nat) : exec (.sel ue) s = execSel ue s := rfl
@[simp] theorem exec_mfp (s : State) (ue : Nat) : exec (.mfp ue) s = execMfp ue s := rfl
@[simp] theorem exec_mtp (s : State) (ue : Nat) : exec (.mtp ue) s = execMtp ue s := rfl
@[simp] theorem exec_mpeek (s : State) (ue : Nat) : exec (.mpeek ue) s = execMpeek ue s := rfl
@[simp] theorem exec_mpop (s : State) (ue : Nat) : exec (.mpop ue) s = execMpop ue s := rfl
@[simp] theorem exec_mfev (s : State) (ue : Nat) : exec (.mfev ue) s = execMfev ue s := rfl
@[simp] theorem exec_mfh (s : State) (ue : Nat) : exec (.mfh ue) s = execMfh ue s := rfl
@[simp] theorem exec_hqry (s : State) (ue : Nat) : exec (.hqry ue) s = execHqry ue s := rfl
@[simp] theorem exec_aot (s : State) (ue : Nat) : exec (.aot ue) s = execAot ue s := rfl
@[simp] theorem exec_br (s : State) (ue : Nat) : exec (.br ue) s = execBr ue s := rfl
@[simp] theorem exec_bl (s : State) (ue : Nat) : exec (.bl ue) s = execBl ue s := rfl
@[simp] theorem exec_bx (s : State) (ue : Nat) : exec (.bx ue) s = execBx ue s := rfl
@[simp] theorem exec_hgWait (s : State) (ue : Nat) : exec (.hgWait ue) s = execHgWait ue s := rfl
@[simp] theorem exec_evclr (s : State) (ue : Nat) : exec (.evclr ue) s = execEvclr ue s := rfl
@[simp] theorem exec_tmrSet (s : State) (ue : Nat) : exec (.tmrSet ue) s = execTmrSet ue s := rfl
@[simp] theorem exec_tmrClr (s : State) (ue : Nat) : exec (.tmrClr ue) s = execTmrClr ue s := rfl
@[simp] theorem exec_signal (s : State) (ue : Nat) : exec (.signal ue) s = execSignal ue s := rfl
@[simp] theorem exec_halt (s : State) (ue : Nat) : exec (.halt ue) s = execHalt ue s := rfl
@[simp] theorem exec_sleep (s : State) (ue : Nat) : exec (.sleep ue) s = execSleep ue s := rfl
@[simp] theorem exec_sleepAnswer (s : State) : exec (.sleepAnswer) s = execSleepAnswer s := rfl
@[simp] theorem exec_habort (s : State) (ue : Nat) : exec (.habort ue) s = execHabort ue s := rfl
@[simp] theorem exec_hclr (s : State) (ue : Nat) : exec (.hclr ue) s = execHclr ue s := rfl
@[simp] theorem exec_ld (s : State) (ue : Nat) : exec (.ld ue) s = execLd ue s := rfl
@[simp] theorem exec_st (s : State) (ue : Nat) : exec (.st ue) s = execSt ue s := rfl
@[simp] theorem exec_ldv (s : State) (ue : Nat) : exec (.ldv ue) s = execLdv ue s := rfl
@[simp] theorem exec_ldvResponse (s : State) : exec (.ldvResponse) s = execLdvResponse s := rfl
@[simp] theorem exec_stv (s : State) (ue : Nat) : exec (.stv ue) s = execStv ue s := rfl
@[simp] theorem exec_movw (s : State) (ue : Nat) : exec (.movw ue) s = execMovw ue s := rfl
@[simp] theorem exec_movp (s : State) (ue : Nat) : exec (.movp ue) s = execMovp ue s := rfl
@[simp] theorem exec_fence (s : State) (ue : Nat) : exec (.fence ue) s = execFence ue s := rfl
@[simp] theorem exec_fenceDone (s : State) : exec (.fenceDone) s = execFenceDone s := rfl
@[simp] theorem exec_admitPlan (s : State) (img : Option (List Byte)) (parts : Nat) : exec (.admitPlan img parts) s = execAdmit img parts s := rfl
@[simp] theorem exec_unload (s : State) : exec (.unload) s = execUnload s := rfl
@[simp] theorem exec_seal (s : State) (tag : Nat) : exec (.seal tag) s = execSeal tag s := rfl
@[simp] theorem exec_openGate (s : State) (tag : Nat) : exec (.openGate tag) s = execOpenGate tag s := rfl
@[simp] theorem exec_drop (s : State) (tag : Nat) : exec (.drop tag) s = execDrop tag s := rfl
@[simp] theorem exec_rearm (s : State) (tag : Nat) : exec (.rearm tag) s = execRearm tag s := rfl
@[simp] theorem exec_rearmApply (s : State) (h : Nat) : exec (.rearmApply h) s = execRearmApply h s := rfl
@[simp] theorem exec_partnerWindowWrite (s : State) (p addr : Nat) (data : List (Option Byte)) (poison : Bool) : exec (.partnerWindowWrite p addr data poison) s = execPartnerWindowWrite p addr data poison s := rfl
@[simp] theorem exec_partnerWindowRead (s : State) (p addr len tid : Nat) (ue : Bool) : exec (.partnerWindowRead p addr len tid ue) s = execPartnerWindowRead p addr len tid ue s := rfl
@[simp] theorem exec_heldReadRelease (s : State) (p tid : Nat) : exec (.heldReadRelease p tid) s = execHeldReadRelease p tid s := rfl
@[simp] theorem exec_readExpired (s : State) (p tid : Nat) : exec (.readExpired p tid) s = execReadExpired p tid s := rfl
@[simp] theorem exec_deferredEvictionStart (s : State) (h : Nat) : exec (.deferredEvictionStart h) s = execDeferredEvictionStart h s := rfl
@[simp] theorem exec_retiredRelease (s : State) (h : Nat) : exec (.retiredRelease h) s = execRetiredRelease h s := rfl
@[simp] theorem exec_evict (s : State) (tag : Nat) : exec (.evict tag) s = execEvict tag s := rfl
@[simp] theorem exec_reserve (s : State) (tag : Nat) : exec (.reserve tag) s = execReserve tag s := rfl
@[simp] theorem exec_allocationGrant (s : State) : exec (.allocationGrant) s = execAllocationGrant s := rfl
@[simp] theorem exec_arbitrationGrant (s : State) (pt dir : Nat) : exec (.arbitrationGrant pt dir) s = execArbitrationGrant pt dir s := rfl
@[simp] theorem exec_ageLoopUpdate (s : State) : exec (.ageLoopUpdate) s = execAgeLoopUpdate s := rfl
@[simp] theorem exec_engineStallExpiry (s : State) (w : Waiter) : exec (.engineStallExpiry w) s = execEngineStallExpiry w s := rfl
@[simp] theorem exec_park (s : State) (tag : Nat) : exec (.park tag) s = execPark tag s := rfl
@[simp] theorem exec_lift (s : State) (tag : Nat) : exec (.lift tag) s = execLift tag s := rfl
@[simp] theorem exec_compress (s : State) (tag : Nat) : exec (.compress tag) s = execCompress tag s := rfl
@[simp] theorem exec_observe (s : State) (tag : Nat) : exec (.observe tag) s = execObserve tag s := rfl
@[simp] theorem exec_turnout (s : State) (tag : Nat) : exec (.turnout tag) s = execTurnout tag s := rfl
@[simp] theorem exec_liftStart (s : State) (f c : Nat) : exec (.liftStart f c) s = execLiftStart f c s := rfl
@[simp] theorem exec_transferComplete (s : State) (f c slot : Nat) (write fault : Bool) : exec (.transferComplete f c slot write fault) s = execTransferComplete f c slot write fault s := rfl
@[simp] theorem exec_priResponse (s : State) (f g pasid : Nat) (ok : Bool) : exec (.priResponse f g pasid ok) s = execPriResponse f g pasid ok s := rfl
@[simp] theorem exec_streamHaltComplete (s : State) (f c slot : Nat) : exec (.streamHaltComplete f c slot) s = execStreamHaltComplete f c slot s := rfl
@[simp] theorem exec_streamAbortComplete (s : State) (f c slot : Nat) : exec (.streamAbortComplete f c slot) s = execStreamAbortComplete f c slot s := rfl
@[simp] theorem exec_flmCtxResume (s : State) (p : Path) (f c tag : Nat) : exec (.flmCtxResume p f c tag) s = execFlmCtxResume p f c tag s := rfl
@[simp] theorem exec_flmCtxAbort (s : State) (p : Path) (f c tag : Nat) : exec (.flmCtxAbort p f c tag) s = execFlmCtxAbort p f c tag s := rfl
@[simp] theorem exec_flmCtxHalt (s : State) (p : Path) (f c tag : Nat) : exec (.flmCtxHalt p f c tag) s = execFlmCtxHalt p f c tag s := rfl
@[simp] theorem exec_turnoutProgramWrite (s : State) (p : Path) (f ix : Nat) (v : Word) : exec (.turnoutProgramWrite p f ix v) s = execTurnoutProgramWrite p f ix v s := rfl
@[simp] theorem exec_turnNop (s : State) (f c : Nat) : exec (.turnNop f c) s = execTurnNop f c s := rfl
@[simp] theorem exec_turnEnd (s : State) (f c : Nat) : exec (.turnEnd f c) s = execTurnEnd f c s := rfl
@[simp] theorem exec_endRecord (s : State) (f c : Nat) : exec (.endRecord f c) s = execEndRecord f c s := rfl
@[simp] theorem exec_turnB (s : State) (f c : Nat) : exec (.turnB f c) s = execTurnB f c s := rfl
@[simp] theorem exec_djnz (s : State) (f c : Nat) : exec (.djnz f c) s = execDjnz f c s := rfl
@[simp] theorem exec_turnAlu (s : State) (f c : Nat) : exec (.turnAlu f c) s = execTurnAlu f c s := rfl
@[simp] theorem exec_turnAddi (s : State) (f c : Nat) : exec (.turnAddi f c) s = execTurnAddi f c s := rfl
@[simp] theorem exec_movi (s : State) (f c : Nat) : exec (.movi f c) s = execMovi f c s := rfl
@[simp] theorem exec_movhi (s : State) (f c : Nat) : exec (.movhi f c) s = execMovhi f c s := rfl
@[simp] theorem exec_bset (s : State) (f c : Nat) : exec (.bset f c) s = execBset f c s := rfl
@[simp] theorem exec_badd (s : State) (f c : Nat) : exec (.badd f c) s = execBadd f c s := rfl
@[simp] theorem exec_ldw (s : State) (f c : Nat) : exec (.ldw f c) s = execLdw f c s := rfl
@[simp] theorem exec_ldobj (s : State) (f c : Nat) : exec (.ldobj f c) s = execLdobj f c s := rfl
@[simp] theorem exec_ldlead (s : State) (f c : Nat) : exec (.ldlead f c) s = execLdlead f c s := rfl
@[simp] theorem exec_turnTnow (s : State) (f c : Nat) : exec (.turnTnow f c) s = execTurnTnow f c s := rfl
@[simp] theorem exec_waitt (s : State) (f c : Nat) : exec (.waitt f c) s = execWaitt f c s := rfl
@[simp] theorem exec_waittEnd (s : State) (f c : Nat) : exec (.waittEnd f c) s = execWaittEnd f c s := rfl
@[simp] theorem exec_waito (s : State) (f c : Nat) : exec (.waito f c) s = execWaito f c s := rfl
@[simp] theorem exec_waitoEnd (s : State) (f c : Nat) : exec (.waitoEnd f c) s = execWaitoEnd f c s := rfl
@[simp] theorem exec_waitoTimeout (s : State) (f c : Nat) : exec (.waitoTimeout f c) s = execWaitoTimeout f c s := rfl
@[simp] theorem exec_burst (s : State) (f c : Nat) : exec (.burst f c) s = execBurst f c s := rfl
@[simp] theorem exec_burstSlotFree (s : State) (f c : Nat) : exec (.burstSlotFree f c) s = execBurstSlotFree f c s := rfl
@[simp] theorem exec_waitb (s : State) (f c : Nat) : exec (.waitb f c) s = execWaitb f c s := rfl
@[simp] theorem exec_waitbEnd (s : State) (f c : Nat) : exec (.waitbEnd f c) s = execWaitbEnd f c s := rfl
@[simp] theorem exec_lanes (s : State) (f c : Nat) : exec (.lanes f c) s = execLanes f c s := rfl
@[simp] theorem exec_obsid (s : State) (f c : Nat) : exec (.obsid f c) s = execObsid f c s := rfl
@[simp] theorem exec_dline (s : State) (f c : Nat) : exec (.dline f c) s = execDline f c s := rfl
@[simp] theorem exec_turnSig (s : State) (f c : Nat) : exec (.turnSig f c) s = execTurnSig f c s := rfl
@[simp] theorem exec_blockCompress (s : State) (n : Nat) : exec (.blockCompress n) s = execBlockCompress n s := rfl
@[simp] theorem exec_escapeDecision (s : State) (n : Nat) : exec (.escapeDecision n) s = execEscapeDecision n s := rfl
@[simp] theorem exec_blockExpand (s : State) (n : Nat) : exec (.blockExpand n) s = execBlockExpand n s := rfl
@[simp] theorem exec_keyDataWrite (s : State) (p : Path) (v : Word) : exec (.keyDataWrite p v) s = execKeyDataWrite p v s := rfl
@[simp] theorem exec_keySelWrite (s : State) (p : Path) (v : Word) : exec (.keySelWrite p v) s = execKeySelWrite p v s := rfl
@[simp] theorem exec_keyLoad (s : State) (p : Path) : exec (.keyLoad p) s = execKeyLoad p s := rfl
@[simp] theorem exec_keyClear (s : State) (p : Path) : exec (.keyClear p) s = execKeyClear p s := rfl
@[simp] theorem exec_keyRetainWrite (s : State) (p : Path) (v : Word) : exec (.keyRetainWrite p v) s = execKeyRetainWrite p v s := rfl
@[simp] theorem exec_runChain (s : State) (tag : Nat) : exec (.runChain tag) s = execRunChain tag s := rfl
@[simp] theorem exec_chainStart (s : State) : exec (.chainStart) s = execChainStart s := rfl
@[simp] theorem exec_bindingReady (s : State) (h : Nat) : exec (.bindingReady h) s = execBindingReady h s := rfl
@[simp] theorem exec_descriptorExecute (s : State) (n : Nat) : exec (.descriptorExecute n) s = execDescriptorExecute n s := rfl
@[simp] theorem exec_observeBlock (s : State) : exec (.observeBlock) s = execObserveBlock s := rfl
@[simp] theorem exec_publish (s : State) (tag : Nat) : exec (.publish tag) s = execPublish tag s := rfl
@[simp] theorem exec_vote (s : State) (tag : Nat) : exec (.vote tag) s = execVote tag s := rfl
@[simp] theorem exec_voteMsg (s : State) (l : Nat) : exec (.voteMsg l) s = execVoteMsg l s := rfl
@[simp] theorem exec_voteResult (s : State) (l : Nat) : exec (.voteResult l) s = execVoteResult l s := rfl
@[simp] theorem exec_voteWindowClose (s : State) : exec (.voteWindowClose) s = execVoteWindowClose s := rfl
@[simp] theorem exec_resultTimeout (s : State) : exec (.resultTimeout) s = execResultTimeout s := rfl
@[simp] theorem exec_scaleCommit (s : State) : exec (.scaleCommit) s = execScaleCommit s := rfl
@[simp] theorem exec_commit (s : State) (tag : Nat) : exec (.commit tag) s = execCommit tag s := rfl
@[simp] theorem exec_trickle (s : State) (tag : Nat) : exec (.trickle tag) s = execTrickle tag s := rfl
@[simp] theorem exec_restore (s : State) (tag : Nat) : exec (.restore tag) s = execRestore tag s := rfl
@[simp] theorem exec_leaseSendTimer (s : State) (node : Nat) : exec (.leaseSendTimer node) s = execLeaseSendTimer node s := rfl
@[simp] theorem exec_leaseLost (s : State) (node : Nat) : exec (.leaseLost node) s = execLeaseLost node s := rfl
@[simp] theorem exec_hostLeaseExpiry (s : State) (n : Nat) : exec (.hostLeaseExpiry n) s = execHostLeaseExpiry n s := rfl
@[simp] theorem exec_reofferTimer (s : State) (node : Nat) : exec (.reofferTimer node) s = execReofferTimer node s := rfl
@[simp] theorem exec_hostSlotCtrlWrite (s : State) (p : Path) (n : Nat) (v : Word) : exec (.hostSlotCtrlWrite p n v) s = execHostSlotCtrlWrite p n v s := rfl
@[simp] theorem exec_ckRegionResume (s : State) (p : Path) (v : Word) : exec (.ckRegionResume p v) s = execCkRegionResume p v s := rfl
@[simp] theorem exec_partnerLinkDown (s : State) (p : Nat) : exec (.partnerLinkDown p) s = execPartnerLinkDown p s := rfl
@[simp] theorem exec_partnerLinkUp (s : State) (p width rate : Nat) (cxl : Bool) : exec (.partnerLinkUp p width rate cxl) s = execPartnerLinkUp p width rate cxl s := rfl
@[simp] theorem exec_partnerHoldExpiry (s : State) (p : Nat) : exec (.partnerHoldExpiry p) s = execPartnerHoldExpiry p s := rfl
@[simp] theorem exec_ppPerstNFall (s : State) (p : Nat) : exec (.ppPerstNFall p) s = execPpPerstNFall p s := rfl
@[simp] theorem exec_hdmDecoderCommit (s : State) (p k base size ways skip : Nat) : exec (.hdmDecoderCommit p k base size ways skip) s = execHdmDecoderCommit p k base size ways skip s := rfl
@[simp] theorem exec_markDoorbell (s : State) (p off size : Nat) (v : Word) : exec (.markDoorbell p off size v) s = execMarkDoorbell p off size v s := rfl
@[simp] theorem exec_hintWrite (s : State) (p h : Nat) (v : Word) : exec (.hintWrite p h v) s = execHintWrite p h v s := rfl
@[simp] theorem exec_gateMirrorRead (s : State) (p off size tid : Nat) : exec (.gateMirrorRead p off size tid) s = execGateMirrorRead p off size tid s := rfl
@[simp] theorem exec_memspecrd (s : State) (p addr : Nat) : exec (.memspecrd p addr) s = execMemspecrd p addr s := rfl
@[simp] theorem exec_memUnsupported (s : State) (p addr tid : Nat) (rd : Bool) : exec (.memUnsupported p addr tid rd) s = execMemUnsupported p addr tid rd s := rfl
@[simp] theorem exec_getEventRecords (s : State) (p log : Nat) : exec (.getEventRecords p log) s = execGetEventRecords p log s := rfl
@[simp] theorem exec_clearEventRecords (s : State) (p log n : Nat) : exec (.clearEventRecords p log n) s = execClearEventRecords p log n s := rfl
@[simp] theorem exec_getSupportedLogs (s : State) (p : Nat) : exec (.getSupportedLogs p) s = execGetSupportedLogs p s := rfl
@[simp] theorem exec_getLog (s : State) (p : Nat) : exec (.getLog p) s = execGetLog p s := rfl
@[simp] theorem exec_identifyMemoryDevice (s : State) (p : Nat) : exec (.identifyMemoryDevice p) s = execIdentifyMemoryDevice p s := rfl
@[simp] theorem exec_getHealthInfo (s : State) (p : Nat) : exec (.getHealthInfo p) s = execGetHealthInfo p s := rfl
@[simp] theorem exec_mailboxUnsupported (s : State) (p op : Nat) : exec (.mailboxUnsupported p op) s = execMailboxUnsupported p op s := rfl
@[simp] theorem exec_hostReset (s : State) (k : HostRst) : exec (.hostReset k) s = execHostReset k s := rfl
@[simp] theorem exec_hostPerstRelease (s : State) : exec (.hostPerstRelease) s = execHostPerstRelease s := rfl
@[simp] theorem exec_bar4AliasWrite (s : State) (off : Nat) (v : Word) : exec (.bar4AliasWrite off v) s = execBar4AliasWrite off v s := rfl
@[simp] theorem exec_apertureRead (s : State) (addr len tid : Nat) : exec (.apertureRead addr len tid) s = execApertureRead addr len tid s := rfl
@[simp] theorem exec_apertureWrite (s : State) (addr : Nat) (data : List (Option Byte)) : exec (.apertureWrite addr data) s = execApertureWrite addr data s := rfl
@[simp] theorem exec_atsInvalidation (s : State) (itag addr len : Nat) : exec (.atsInvalidation itag addr len) s = execAtsInvalidation itag addr len s := rfl
@[simp] theorem exec_atsInvalidationComplete (s : State) (itag : Nat) : exec (.atsInvalidationComplete itag) s = execAtsInvalidationComplete itag s := rfl
@[simp] theorem exec_tierCompletionError (s : State) (f c slot : Nat) (e : CplErr) : exec (.tierCompletionError f c slot e) s = execTierCompletionError f c slot e s := rfl
@[simp] theorem exec_expanderLinkDown (s : State) (e : Nat) : exec (.expanderLinkDown e) s = execExpanderLinkDown e s := rfl
@[simp] theorem exec_expanderLinkUp (s : State) (e width rate : Nat) (flit256 : Bool) : exec (.expanderLinkUp e width rate flit256) s = execExpanderLinkUp e width rate flit256 s := rfl
@[simp] theorem exec_expanderDownLimit (s : State) (e : Nat) : exec (.expanderDownLimit e) s = execExpanderDownLimit e s := rfl
@[simp] theorem exec_expanderEventPoll (s : State) (e warn fail : Nat) : exec (.expanderEventPoll e warn fail) s = execExpanderEventPoll e warn fail s := rfl
@[simp] theorem exec_fecGroupReceive (s : State) (l : Nat) (lanes : List (List Nat)) : exec (.fecGroupReceive l lanes) s = execFecGroupReceive l lanes s := rfl
@[simp] theorem exec_nak (s : State) (l : Nat) : exec (.nak l) s = execNak l s := rfl
@[simp] theorem exec_credit (s : State) (l : Nat) : exec (.credit l) s = execCredit l s := rfl
@[simp] theorem exec_param (s : State) (l : Nat) : exec (.param l) s = execParam l s := rfl
@[simp] theorem exec_paramAck (s : State) (l : Nat) : exec (.paramAck l) s = execParamAck l s := rfl
@[simp] theorem exec_laneDrop (s : State) (l : Nat) : exec (.laneDrop l) s = execLaneDrop l s := rfl
@[simp] theorem exec_laneDropAck (s : State) (l : Nat) : exec (.laneDropAck l) s = execLaneDropAck l s := rfl
@[simp] theorem exec_lpReq (s : State) (l : Nat) : exec (.lpReq l) s = execLpReq l s := rfl
@[simp] theorem exec_lpAck (s : State) (l : Nat) : exec (.lpAck l) s = execLpAck l s := rfl
@[simp] theorem exec_linkResume (s : State) (l : Nat) : exec (.linkResume l) s = execLinkResume l s := rfl
@[simp] theorem exec_nakRepeatTimer (s : State) (l : Nat) : exec (.nakRepeatTimer l) s = execNakRepeatTimer l s := rfl
@[simp] theorem exec_ackTimeout (s : State) (l : Nat) : exec (.ackTimeout l) s = execAckTimeout l s := rfl
@[simp] theorem exec_creditSend (s : State) (l : Nat) : exec (.creditSend l) s = execCreditSend l s := rfl
@[simp] theorem exec_energyDetect (s : State) (l : Nat) : exec (.energyDetect l) s = execEnergyDetect l s := rfl
@[simp] theorem exec_tsFrame (s : State) (l bits peer : Nat) (eq : Bool) : exec (.tsFrame l bits peer eq) s = execTsFrame l bits peer eq s := rfl
@[simp] theorem exec_trainTimeout (s : State) (l : Nat) : exec (.trainTimeout l) s = execTrainTimeout l s := rfl
@[simp] theorem exec_linkRetryTimer (s : State) (l : Nat) : exec (.linkRetryTimer l) s = execLinkRetryTimer l s := rfl
@[simp] theorem exec_fecWindow (s : State) (l : Nat) : exec (.fecWindow l) s = execFecWindow l s := rfl
@[simp] theorem exec_promotePeriod (s : State) (l : Nat) : exec (.promotePeriod l) s = execPromotePeriod l s := rfl
@[simp] theorem exec_retrain (s : State) (p : Path) (l : Nat) (v : Word) : exec (.retrain p l v) s = execRetrain p l v s := rfl
@[simp] theorem exec_linkWakeSignal (s : State) (l : Nat) : exec (.linkWakeSignal l) s = execLinkWakeSignal l s := rfl
@[simp] theorem exec_write (s : State) (l : Nat) : exec (.write l) s = execWrite l s := rfl
@[simp] theorem exec_readReq (s : State) (l : Nat) : exec (.readReq l) s = execReadReq l s := rfl
@[simp] theorem exec_flushAnswer (s : State) (l : Nat) : exec (.flushAnswer l) s = execFlushAnswer l s := rfl
@[simp] theorem exec_readRsp (s : State) (l : Nat) : exec (.readRsp l) s = execReadRsp l s := rfl
@[simp] theorem exec_barrier (s : State) (tag : Nat) : exec (.barrier tag) s = execBarrier tag s := rfl
@[simp] theorem exec_barrierArrive (s : State) (l : Nat) : exec (.barrierArrive l) s = execBarrierArrive l s := rfl
@[simp] theorem exec_barrierRelease (s : State) (l : Nat) : exec (.barrierRelease l) s = execBarrierRelease l s := rfl
@[simp] theorem exec_barrierRootTimeout (s : State) (g step : Nat) : exec (.barrierRootTimeout g step) s = execBarrierRootTimeout g step s := rfl
@[simp] theorem exec_barrierTimeout (s : State) (g step : Nat) : exec (.barrierTimeout g step) s = execBarrierTimeout g step s := rfl
@[simp] theorem exec_ckptOfferFirst (s : State) (l : Nat) : exec (.ckptOfferFirst l) s = execCkptOfferFirst l s := rfl
@[simp] theorem exec_ckptOfferEpoch (s : State) (l : Nat) : exec (.ckptOfferEpoch l) s = execCkptOfferEpoch l s := rfl
@[simp] theorem exec_ckptOfferRejoin (s : State) (l : Nat) : exec (.ckptOfferRejoin l) s = execCkptOfferRejoin l s := rfl
@[simp] theorem exec_ckptOfferQuery (s : State) (l : Nat) : exec (.ckptOfferQuery l) s = execCkptOfferQuery l s := rfl
@[simp] theorem exec_ckptOfferAccept (s : State) (l : Nat) : exec (.ckptOfferAccept l) s = execCkptOfferAccept l s := rfl
@[simp] theorem exec_ckptOfferRefuse (s : State) (l : Nat) : exec (.ckptOfferRefuse l) s = execCkptOfferRefuse l s := rfl
@[simp] theorem exec_ckptData (s : State) (l : Nat) : exec (.ckptData l) s = execCkptData l s := rfl
@[simp] theorem exec_ckptCommitCommit (s : State) (l : Nat) : exec (.ckptCommitCommit l) s = execCkptCommitCommit l s := rfl
@[simp] theorem exec_ckptCommitAck (s : State) (l : Nat) : exec (.ckptCommitAck l) s = execCkptCommitAck l s := rfl
@[simp] theorem exec_ckptCommitRecord (s : State) (l : Nat) : exec (.ckptCommitRecord l) s = execCkptCommitRecord l s := rfl
@[simp] theorem exec_ckptCommitNoRecord (s : State) (l : Nat) : exec (.ckptCommitNoRecord l) s = execCkptCommitNoRecord l s := rfl
@[simp] theorem exec_leaseRenew (s : State) (l : Nat) : exec (.leaseRenew l) s = execLeaseRenew l s := rfl
@[simp] theorem exec_leaseAnswer (s : State) (l : Nat) : exec (.leaseAnswer l) s = execLeaseAnswer l s := rfl
@[simp] theorem exec_fenceFence (s : State) (l : Nat) : exec (.fenceFence l) s = execFenceFence l s := rfl
@[simp] theorem exec_fenceAck (s : State) (l : Nat) : exec (.fenceAck l) s = execFenceAck l s := rfl
@[simp] theorem exec_lrApply (s : State) (p : Path) : exec (.lrApply p) s = execLrApply p s := rfl
@[simp] theorem exec_lrQuarantine (s : State) (l : Nat) : exec (.lrQuarantine l) s = execLrQuarantine l s := rfl
@[simp] theorem exec_lrRouteDataWrite (s : State) (p : Path) (v : Word) : exec (.lrRouteDataWrite p v) s = execLrRouteDataWrite p v s := rfl
@[simp] theorem exec_lrHostCtrlWrite (s : State) (p : Path) (n : Nat) (v : Word) : exec (.lrHostCtrlWrite p n v) s = execLrHostCtrlWrite p n v s := rfl
@[simp] theorem exec_refreshDue (s : State) (n pc : Nat) (waits : Bool) : exec (.refreshDue n pc waits) s = execRefreshDue n pc waits s := rfl
@[simp] theorem exec_hbmTempRead (s : State) (n : Nat) (t : Int) : exec (.hbmTempRead n t) s = execHbmTempRead n t s := rfl
@[simp] theorem exec_hbmCalibration (s : State) (n c : Nat) (ok : Bool) : exec (.hbmCalibration n c ok) s = execHbmCalibration n c ok s := rfl
@[simp] theorem exec_caParityError (s : State) (n k : Nat) : exec (.caParityError n k) s = execCaParityError n k s := rfl
@[simp] theorem exec_hbmIlvWrite (s : State) (p : Path) (n : Nat) (v : Word) : exec (.hbmIlvWrite p n v) s = execHbmIlvWrite p n v s := rfl
@[simp] theorem exec_traceIdleFlush (s : State) : exec (.traceIdleFlush) s = execTraceIdleFlush s := rfl
@[simp] theorem exec_trcFlush (s : State) (p : Path) : exec (.trcFlush p) s = execTrcFlush p s := rfl
@[simp] theorem exec_syncPeriodic (s : State) : exec (.syncPeriodic) s = execSyncPeriodic s := rfl
@[simp] theorem exec_stopAfterDone (s : State) : exec (.stopAfterDone) s = execStopAfterDone s := rfl
@[simp] theorem exec_trcRecordWrite (s : State) (p : Path) (v : Word) (hits : Nat) : exec (.trcRecordWrite p v hits) s = execTrcRecordWrite p v hits s := rfl
@[simp] theorem exec_trcRdWrite (s : State) (p : Path) (v : Word) : exec (.trcRdWrite p v) s = execTrcRdWrite p v s := rfl
@[simp] theorem exec_trcSwHiWrite (s : State) (p : Path) (v : Word) : exec (.trcSwHiWrite p v) s = execTrcSwHiWrite p v s := rfl
@[simp] theorem exec_ueFirstClear (s : State) (p : Path) : exec (.ueFirstClear p) s = execUeFirstClear p s := rfl
@[simp] theorem exec_mgmtCtrlWrite (s : State) (p : Path) (v : Word) : exec (.mgmtCtrlWrite p v) s = execMgmtCtrlWrite p v s := rfl
@[simp] theorem exec_regRead (s : State) (src : MSrc) (pec : Pec) (off : Nat) : exec (.regRead src pec off) s = execRegRead src pec off s := rfl
@[simp] theorem exec_regWrite (s : State) (src : MSrc) (pec : Pec) (off : Nat) (v : Word) : exec (.regWrite src pec off v) s = execRegWrite src pec off v s := rfl
@[simp] theorem exec_regRead64 (s : State) (src : MSrc) (pec : Pec) (off : Nat) : exec (.regRead64 src pec off) s = execRegRead64 src pec off s := rfl
@[simp] theorem exec_regWrite64 (s : State) (src : MSrc) (pec : Pec) (off : Nat) (lo hi : Word) : exec (.regWrite64 src pec off lo hi) s = execRegWrite64 src pec off lo hi s := rfl
@[simp] theorem exec_status (s : State) (src : MSrc) (pec : Pec) : exec (.status src pec) s = execStatus src pec s := rfl
@[simp] theorem exec_temp (s : State) (src : MSrc) (pec : Pec) : exec (.temp src pec) s = execTemp src pec s := rfl
@[simp] theorem exec_ledgerRead (s : State) (src : MSrc) (pec : Pec) (slot off count : Nat) : exec (.ledgerRead src pec slot off count) s = execLedgerRead src pec slot off count s := rfl
@[simp] theorem exec_verdictRead (s : State) (src : MSrc) (pec : Pec) (ix : Nat) : exec (.verdictRead src pec ix) s = execVerdictRead src pec ix s := rfl
@[simp] theorem exec_mgmtVerdictClear (s : State) (src : MSrc) (pec : Pec) (ix : Nat) : exec (.mgmtVerdictClear src pec ix) s = execMgmtVerdictClear src pec ix s := rfl
@[simp] theorem exec_imagePrefWrite (s : State) (src : MSrc) (pec : Pec) (v : Nat) : exec (.imagePrefWrite src pec v) s = execImagePrefWrite src pec v s := rfl
@[simp] theorem exec_reboot (s : State) (src : MSrc) (pec : Pec) (key : Nat) : exec (.reboot src pec key) s = execReboot src pec key s := rfl
@[simp] theorem exec_flashRead (s : State) (src : MSrc) (pec : Pec) (addr len : Nat) : exec (.flashRead src pec addr len) s = execFlashRead src pec addr len s := rfl
@[simp] theorem exec_flashProgram (s : State) (src : MSrc) (pec : Pec) (addr : Nat) (data : List Byte) : exec (.flashProgram src pec addr data) s = execFlashProgram src pec addr data s := rfl
@[simp] theorem exec_flashErase (s : State) (src : MSrc) (pec : Pec) (addr size : Nat) : exec (.flashErase src pec addr size) s = execFlashErase src pec addr size s := rfl
@[simp] theorem exec_flashStatus (s : State) (src : MSrc) (pec : Pec) : exec (.flashStatus src pec) s = execFlashStatus src pec s := rfl
@[simp] theorem exec_flashCmdRead (s : State) (p : Path) : exec (.flashCmdRead p) s = execFlashCmdRead p s := rfl
@[simp] theorem exec_flashCmdProgram (s : State) (p : Path) : exec (.flashCmdProgram p) s = execFlashCmdProgram p s := rfl
@[simp] theorem exec_flashCmdErase4k (s : State) (p : Path) : exec (.flashCmdErase4k p) s = execFlashCmdErase4k p s := rfl
@[simp] theorem exec_flashCmdErase64k (s : State) (p : Path) : exec (.flashCmdErase64k p) s = execFlashCmdErase64k p s := rfl
@[simp] theorem exec_flashCommandDone (s : State) (bad : Bool) : exec (.flashCommandDone bad) s = execFlashCommandDone bad s := rfl
@[simp] theorem exec_smbStretchTimeout (s : State) : exec (.smbStretchTimeout) s = execSmbStretchTimeout s := rfl
@[simp] theorem exec_smbClockLowTimeout (s : State) : exec (.smbClockLowTimeout) s = execSmbClockLowTimeout s := rfl
@[simp] theorem exec_setEndpointId (s : State) (src : MSrc) (eid : Nat) : exec (.setEndpointId src eid) s = execSetEndpointId src eid s := rfl
@[simp] theorem exec_getEndpointId (s : State) (src : MSrc) : exec (.getEndpointId src) s = execGetEndpointId src s := rfl
@[simp] theorem exec_getEndpointUuid (s : State) (src : MSrc) : exec (.getEndpointUuid src) s = execGetEndpointUuid src s := rfl
@[simp] theorem exec_getMctpVersionSupport (s : State) (src : MSrc) (type : Nat) : exec (.getMctpVersionSupport src type) s = execGetMctpVersionSupport src type s := rfl
@[simp] theorem exec_getMessageTypeSupport (s : State) (src : MSrc) : exec (.getMessageTypeSupport src) s = execGetMessageTypeSupport src s := rfl
@[simp] theorem exec_getVendorDefinedMessageSupport (s : State) (src : MSrc) : exec (.getVendorDefinedMessageSupport src) s = execGetVendorDefinedMessageSupport src s := rfl
@[simp] theorem exec_gettid (s : State) (src : MSrc) : exec (.gettid src) s = execGettid src s := rfl
@[simp] theorem exec_settid (s : State) (src : MSrc) (tid : Nat) : exec (.settid src tid) s = execSettid src tid s := rfl
@[simp] theorem exec_getpldmversion (s : State) (src : MSrc) (type : Nat) : exec (.getpldmversion src type) s = execGetpldmversion src type s := rfl
@[simp] theorem exec_getpldmtypes (s : State) (src : MSrc) : exec (.getpldmtypes src) s = execGetpldmtypes src s := rfl
@[simp] theorem exec_getpldmcommands (s : State) (src : MSrc) (type : Nat) : exec (.getpldmcommands src type) s = execGetpldmcommands src type s := rfl
@[simp] theorem exec_getsensorreading (s : State) (src : MSrc) (id : Nat) : exec (.getsensorreading src id) s = execGetsensorreading src id s := rfl
@[simp] theorem exec_getstatesensorreadings (s : State) (src : MSrc) (id : Nat) : exec (.getstatesensorreadings src id) s = execGetstatesensorreadings src id s := rfl
@[simp] theorem exec_getpdrrepositoryinfo (s : State) (src : MSrc) : exec (.getpdrrepositoryinfo src) s = execGetpdrrepositoryinfo src s := rfl
@[simp] theorem exec_getpdr (s : State) (src : MSrc) (handle : Nat) : exec (.getpdr src handle) s = execGetpdr src handle s := rfl
@[simp] theorem exec_seteventreceiver (s : State) (src : MSrc) (eid : Nat) : exec (.seteventreceiver src eid) s = execSeteventreceiver src eid s := rfl
@[simp] theorem exec_extest (s : State) : exec (.extest) s = execExtest s := rfl
@[simp] theorem exec_idcode (s : State) : exec (.idcode) s = execIdcode s := rfl
@[simp] theorem exec_samplePreload (s : State) : exec (.samplePreload) s = execSamplePreload s := rfl
@[simp] theorem exec_highz (s : State) : exec (.highz) s = execHighz s := rfl
@[simp] theorem exec_clamp (s : State) : exec (.clamp) s = execClamp s := rfl
@[simp] theorem exec_extestPulse (s : State) : exec (.extestPulse) s = execExtestPulse s := rfl
@[simp] theorem exec_extestTrain (s : State) : exec (.extestTrain) s = execExtestTrain s := rfl
@[simp] theorem exec_bypass (s : State) : exec (.bypass) s = execBypass s := rfl
@[simp] theorem exec_mgmtAccess (s : State) (wr : Bool) (off : Nat) (v : Word) : exec (.mgmtAccess wr off v) s = execMgmtAccess wr off v s := rfl
@[simp] theorem exec_trstNReset (s : State) : exec (.trstNReset) s = execTrstNReset s := rfl
@[simp] theorem exec_gpioInputEdge (s : State) (n : Nat) (high : Bool) : exec (.gpioInputEdge n high) s = execGpioInputEdge n high s := rfl
@[simp] theorem exec_fleetAlertWire (s : State) (low : Bool) : exec (.fleetAlertWire low) s = execFleetAlertWire low s := rfl
@[simp] theorem exec_registerRead (s : State) (p : Path) (addr size : Nat) : exec (.registerRead p addr size) s = execRegisterRead p addr size s := rfl
@[simp] theorem exec_hostConfigRequest (s : State) (c : CfgReq) (tid : Nat) : exec (.hostConfigRequest c tid) s = execHostConfigRequest c tid s := rfl
@[simp] theorem exec_msiXTableWrite (s : State) (v w : Nat) (x : Word) : exec (.msiXTableWrite v w x) s = execMsiXTableWrite v w x s := rfl
@[simp] theorem exec_hostLinkUp (s : State) (width rate : Nat) : exec (.hostLinkUp width rate) s = execHostLinkUp width rate s := rfl
@[simp] theorem exec_portRegisterBlockAccess (s : State) (p off size : Nat) (v : Option Nat) (tid : Nat) : exec (.portRegisterBlockAccess p off size v tid) s = execPortRegisterBlockAccess p off size v tid s := rfl
@[simp] theorem exec_illegalBundle (s : State) (ue : Nat) : exec (.illegalBundle ue) s = execIllegalBundle ue s := rfl
@[simp] theorem exec_turnIllegal (s : State) (f c : Nat) (ue : Bool) : exec (.turnIllegal f c ue) s = execTurnIllegal f c ue s := rfl
@[simp] theorem exec_unlistedSmbusCommand (s : State) (code : Nat) : exec (.unlistedSmbusCommand code) s = execUnlistedSmbusCommand code s := rfl
@[simp] theorem exec_referenceClockLoss (s : State) : exec (.referenceClockLoss) s = execReferenceClockLoss s := rfl
@[simp] theorem exec_mainRailExcursion (s : State) (core : Bool) : exec (.mainRailExcursion core) s = execMainRailExcursion core s := rfl
@[simp] theorem exec_partnerConfigRequest (s : State) (p : Nat) (flr : Bool) : exec (.partnerConfigRequest p flr) s = execPartnerConfigRequest p flr s := rfl

end Sys2Proof.Machine
end

