-- ==== Sys2Proof/Laws/Headgate.lean ====
section
/-! SUPPORT. What a bundle of the Headgate comes to when nothing raises an exception: one lemma for the checks, one per slot that may stand
alone. -/
namespace Sys2Proof.Machine

theorem canRun_stall {d : Dev} (h : d.canRun = true) : d.hg.stall = none := by
  simp only [Dev.canRun, Bool.and_eq_true, Option.isNone_iff_eq_none] at h
  exact h.1.1.1.2

theorem stall_none {d : Dev} (h : d.hg.stall = none) (hd : d.hg.inD = false) : d.noStall = d := by
  unfold Dev.noStall
  have : ({ d.hg with stall := none, inD := false } : Hg) = d.hg := by rw [← h, ← hd]
  rw [this]

theorem bundle_at {d : Dev} {x : Bundle} (h : d.HgAt x) (sel : Bundle → Bool) (hs : sel x = true) :
    d.bundle 0 sel = (d.runOf x).stageM (d.bundleAt (d.get .HG_PC_PC)) false := by
  obtain ⟨h1, hd, hx, h3, h4, h5⟩ := h
  have hn := stall_none (canRun_stall h1) hd
  have hb : bitsOf 0 0 1 ≠ 1 := by decide
  have hb' : (bitsOf 0 1 1 == 1) = false := by decide
  unfold Dev.runOf at h5 ⊢
  simp only [Dev.bundle, hx, h1, hs, h3, hn, Bool.not_true, Bool.or_self, Bool.false_eq_true, if_false, if_neg hb, hb', h4, h5]

theorem slotOn_nop (r : Run) (c1 : Nat) : r.slotOn ⟨0, c1⟩ = true := by
  simp [Run.slotOn, Run.on, Slot.qp, Slot.qn, Dev.pReg, bitsOf]

theorem opc_nop (c1 : Nat) : (⟨0, c1⟩ : Slot).opc = 0 := by simp [Slot.opc, bitsOf]

theorem int_nop (r : Run) (c1 n : Nat) (e : Dev) : r.int ⟨0, c1⟩ n e = e := by simp [Run.int, opc_nop]
theorem ctl_nop (r : Run) (c1 : Nat) (e : Dev) : r.ctl ⟨0, c1⟩ e = e := by simp [Run.ctl, int_nop, opc_nop]
theorem mem_nop (r : Run) (c1 : Nat) (e : Dev) : r.mem ⟨0, c1⟩ e = e := by simp [Run.mem, opc_nop]

theorem dOn_zero (r : Run) (h : r.x.hdr = 0) : r.dOn = false := by simp [Run.dOn, Bundle.issues, Bundle.kind, h, bitsOf]

theorem slotOn_eq (d : Dev) (x : Bundle) (s : Slot) : (d.runOf x).slotOn s = d.predOn s := rfl

/-- Slot A alone. -/
theorem bundle_onlyA {d : Dev} {w : Nat} (h : d.HgAt (Bundle.onlyA w)) (on : d.predOn ⟨w, 0⟩ = true) (sel : Bundle → Bool)
    (hs : sel (Bundle.onlyA w) = true) :
    d.bundle 0 sel = ((d.runOf (Bundle.onlyA w)).int ⟨w, 0⟩ 0 d).hgDone (d.get .HG_PC_PC + 1) := by
  rw [bundle_at h sel hs]
  have hs := stall_none (canRun_stall h.1) h.2.1
  rw [← slotOn_eq d (Bundle.onlyA w)] at on
  generalize hr : d.runOf (Bundle.onlyA w) = r at *
  have e1 : r.x.c = ⟨0, 0⟩ := by rw [← hr]; rfl
  have e2 : r.x.b = ⟨0, 0⟩ := by rw [← hr]; rfl
  have e3 : r.x.a = ⟨w, 0⟩ := by rw [← hr]; rfl
  have e4 : r.dOn = false := dOn_zero r (by rw [← hr]; rfl)
  have e5 : r.target = none := by simp [Run.target, e2, slotOn_nop, opc_nop]
  have e6 : r.d = d := by rw [← hr]; rfl
  have e7 : r.pc = d.get .HG_PC_PC := by rw [← hr]; rfl
  have e9 : r.stores = false := by simp [Run.stores, e1, opc_nop]
  simp only [Run.stageM, e1, slotOn_nop, Bool.not_true, Bool.false_eq_true, ↓reduceIte, opc_nop, OfNat.zero_ne_ofNat, false_and,
    Run.finish, Nat.reduceBEq, Bool.and_false, e6, Bool.false_and, e4, Run.commit, e9, Run.slot, e2, e3, on, hs, ctl_nop, mem_nop, e5, e7,
    Option.getD_none, Dev.hgDone, Dev.hgCount]
  exact ite_congr rfl (fun _ => rfl) (fun _ => rfl)

/-- Slot A alone, its predicate off (R144). -/
theorem bundle_offA {d : Dev} {w : Nat} (h : d.HgAt (Bundle.onlyA w)) (on : d.predOn ⟨w, 0⟩ = false) (sel : Bundle → Bool)
    (hs : sel (Bundle.onlyA w) = true) : d.bundle 0 sel = d.hgDone (d.get .HG_PC_PC + 1) := by
  rw [bundle_at h sel hs]
  have hs := stall_none (canRun_stall h.1) h.2.1
  rw [← slotOn_eq d (Bundle.onlyA w)] at on
  generalize hr : d.runOf (Bundle.onlyA w) = r at *
  have e1 : r.x.c = ⟨0, 0⟩ := by rw [← hr]; rfl
  have e2 : r.x.b = ⟨0, 0⟩ := by rw [← hr]; rfl
  have e3 : r.x.a = ⟨w, 0⟩ := by rw [← hr]; rfl
  have e4 : r.dOn = false := dOn_zero r (by rw [← hr]; rfl)
  have e5 : r.target = none := by simp [Run.target, e2, slotOn_nop, opc_nop]
  have e6 : r.d = d := by rw [← hr]; rfl
  have e7 : r.pc = d.get .HG_PC_PC := by rw [← hr]; rfl
  have e9 : r.stores = false := by simp [Run.stores, e1, opc_nop]
  simp only [Run.stageM, e1, slotOn_nop, Bool.not_true, Bool.false_eq_true, ↓reduceIte, opc_nop, OfNat.zero_ne_ofNat, false_and,
    Run.finish, Nat.reduceBEq, Bool.and_false, e6, Bool.false_and, e4, Run.commit, e9, Run.slot, e2, e3, on, hs, ctl_nop, mem_nop, e5, e7,
    Option.getD_none, Dev.hgDone, Dev.hgCount]
  exact ite_congr rfl (fun _ => rfl) (fun _ => rfl)

/-- Slot B alone, its predicate off. -/
theorem bundle_offB {d : Dev} {w : Nat} (h : d.HgAt (Bundle.onlyB w)) (on : d.predOn ⟨w, 0⟩ = false) (sel : Bundle → Bool)
    (hs : sel (Bundle.onlyB w) = true) : d.bundle 0 sel = d.hgDone (d.get .HG_PC_PC + 1) := by
  rw [bundle_at h sel hs]
  have hs := stall_none (canRun_stall h.1) h.2.1
  rw [← slotOn_eq d (Bundle.onlyB w)] at on
  generalize hr : d.runOf (Bundle.onlyB w) = r at *
  have e1 : r.x.c = ⟨0, 0⟩ := by rw [← hr]; rfl
  have e2 : r.x.b = ⟨w, 0⟩ := by rw [← hr]; rfl
  have e3 : r.x.a = ⟨0, 0⟩ := by rw [← hr]; rfl
  have e4 : r.dOn = false := dOn_zero r (by rw [← hr]; rfl)
  have e5 : r.target = none := by simp [Run.target, e2, on]
  have e6 : r.d = d := by rw [← hr]; rfl
  have e7 : r.pc = d.get .HG_PC_PC := by rw [← hr]; rfl
  have e9 : r.stores = false := by simp [Run.stores, e1, opc_nop]
  simp only [Run.stageM, e1, slotOn_nop, Bool.not_true, Bool.false_eq_true, ↓reduceIte, opc_nop, OfNat.zero_ne_ofNat, false_and,
    Run.finish, Nat.reduceBEq, Bool.and_false, e6, Bool.false_and, e4, Run.commit, e9, Run.slot, e2, on, e3, hs, int_nop, mem_nop, e5, e7,
    Option.getD_none, Dev.hgDone, Dev.hgCount]
  exact ite_congr rfl (fun _ => rfl) (fun _ => rfl)

/-- Slot C alone, its predicate off. -/
theorem bundle_offC {d : Dev} {w c1 : Nat} (h : d.HgAt (Bundle.onlyC w c1)) (on : d.predOn ⟨w, c1⟩ = false) (sel : Bundle → Bool)
    (hs : sel (Bundle.onlyC w c1) = true) : d.bundle 0 sel = d.hgDone (d.get .HG_PC_PC + 1) := by
  rw [bundle_at h sel hs]
  have hs := stall_none (canRun_stall h.1) h.2.1
  rw [← slotOn_eq d (Bundle.onlyC w c1)] at on
  generalize hr : d.runOf (Bundle.onlyC w c1) = r at *
  have e1 : r.x.c = ⟨w, c1⟩ := by rw [← hr]; rfl
  have e2 : r.x.b = ⟨0, 0⟩ := by rw [← hr]; rfl
  have e3 : r.x.a = ⟨0, 0⟩ := by rw [← hr]; rfl
  have e4 : r.dOn = false := dOn_zero r (by rw [← hr]; rfl)
  have e5 : r.target = none := by simp [Run.target, e2, slotOn_nop, opc_nop]
  have e6 : r.d = d := by rw [← hr]; rfl
  have e7 : r.pc = d.get .HG_PC_PC := by rw [← hr]; rfl
  have e9 : r.stores = false := by simp [Run.stores, e1, on]
  simp only [Run.stageM, e1, on, Bool.not_false, ↓reduceIte, Run.finish, Bool.false_and, e6, Bool.false_eq_true, e4, Run.commit, e9,
    Run.slot, e2, slotOn_nop, e3, hs, int_nop, ctl_nop, opc_nop, Nat.reduceBEq, Bool.and_false, e5, e7, Option.getD_none, Dev.hgDone,
    Dev.hgCount]
  exact ite_congr rfl (fun _ => rfl) (fun _ => rfl)

/-- Slot B alone. -/
theorem bundle_onlyB {d : Dev} {w : Nat} (h : d.HgAt (Bundle.onlyB w)) (on : d.predOn ⟨w, 0⟩ = true) (sel : Bundle → Bool)
    (hs : sel (Bundle.onlyB w) = true) :
    d.bundle 0 sel =
      if (⟨w, 0⟩ : Slot).opc = 0x43 then (d.runOf (Bundle.onlyB w)).wait (d.hgCount (d.get .HG_PC_PC + 1))
      else if (⟨w, 0⟩ : Slot).opc = 0x47 then (d.hgCount (d.get .HG_PC_PC + 1)).hgHalted
      else ((d.runOf (Bundle.onlyB w)).ctl ⟨w, 0⟩ d).hgDone
        ((d.runOf (Bundle.onlyB w)).target.getD (d.get .HG_PC_PC + 1)) := by
  rw [bundle_at h sel hs]
  have hs := stall_none (canRun_stall h.1) h.2.1
  rw [← slotOn_eq d (Bundle.onlyB w)] at on
  generalize hr : d.runOf (Bundle.onlyB w) = r at *
  have e1 : r.x.c = ⟨0, 0⟩ := by rw [← hr]; rfl
  have e2 : r.x.b = ⟨w, 0⟩ := by rw [← hr]; rfl
  have e3 : r.x.a = ⟨0, 0⟩ := by rw [← hr]; rfl
  have e4 : r.dOn = false := dOn_zero r (by rw [← hr]; rfl)
  have e6 : r.d = d := by rw [← hr]; rfl
  have e7 : r.pc = d.get .HG_PC_PC := by rw [← hr]; rfl
  have e9 : r.stores = false := by simp [Run.stores, e1, opc_nop]
  simp only [Run.stageM, Run.finish, Run.commit, Run.slot, e1, e2, e3, e4, e6, e7, e9, hs, on, slotOn_nop, opc_nop, int_nop, mem_nop, Dev.hgDone,
    Dev.hgCount, Bool.true_and, Bool.not_true, Bool.false_eq_true, if_false, if_true, beq_iff_eq, Bool.false_and]
  by_cases w43 : (⟨w, 0⟩ : Slot).opc = 0x43
  · have : r.target = none := by simp [Run.target, e2, w43]
    simp only [OfNat.zero_ne_ofNat, ↓reduceIte, false_and, Nat.reduceBEq, Bool.false_and, Bool.false_eq_true, w43, Run.ctl, Nat.reduceEqDiff,
      Run.int, this, Option.getD_none]
  · by_cases w47 : (⟨w, 0⟩ : Slot).opc = 0x47
    · have : r.target = none := by simp [Run.target, e2, w47]
      simp only [OfNat.zero_ne_ofNat, ↓reduceIte, false_and, Nat.reduceBEq, Bool.false_and, Bool.false_eq_true, w47, Nat.reduceEqDiff, Run.ctl,
        Nat.succ_ne_self, Run.int, this, Option.getD_none]
    · simp only [OfNat.zero_ne_ofNat, ↓reduceIte, false_and, Nat.reduceBEq, Bool.false_and, Bool.false_eq_true, w43, w47]
      exact ite_congr rfl (fun _ => rfl) (fun _ => rfl)

/-- Slot C alone: its memory stage has found nothing. -/
theorem finish_onlyC {d : Dev} {w c1 : Nat} (h : d.HgAt (Bundle.onlyC w c1)) (on : d.predOn ⟨w, c1⟩ = true) (ws : List Nat)
    (hf : (⟨w, c1⟩ : Slot).opc = 0x86 → d.hg.stv = 0) (hv : (⟨w, c1⟩ : Slot).opc ≠ 0x83) :
    (d.runOf (Bundle.onlyC w c1)).finish ws =
      ((d.runOf (Bundle.onlyC w c1)).mem ⟨w, c1⟩ d).hgDone (d.get .HG_PC_PC + 1) := by
  have hs := stall_none (canRun_stall h.1) h.2.1
  rw [← slotOn_eq d (Bundle.onlyC w c1)] at on
  generalize hr : d.runOf (Bundle.onlyC w c1) = r at *
  have e1 : r.x.c = ⟨w, c1⟩ := by rw [← hr]; rfl
  have e2 : r.x.b = ⟨0, 0⟩ := by rw [← hr]; rfl
  have e3 : r.x.a = ⟨0, 0⟩ := by rw [← hr]; rfl
  have e4 : r.dOn = false := dOn_zero r (by rw [← hr]; rfl)
  have e5 : r.target = none := by simp [Run.target, e2, slotOn_nop, opc_nop]
  have e6 : r.d = d := by rw [← hr]; rfl
  have e7 : r.pc = d.get .HG_PC_PC := by rw [← hr]; rfl
  have e9 : r.stores = false := by simp [Run.stores, e1, hv]
  have e8 : (true && (⟨w, c1⟩ : Slot).opc == 0x86 && d.hg.stv != 0) = false := by
    by_cases hw : (⟨w, c1⟩ : Slot).opc = 0x86
    · simp [hf hw]
    · simp [hw]
  simp only [Run.finish, Run.commit, Run.slot, e1, e2, e3, e4, e5, e6, e7, e9, hs, on, slotOn_nop, opc_nop, int_nop, ctl_nop, Dev.hgDone,
    Dev.hgCount, e8, Bool.false_eq_true, if_false, if_true, Option.getD_none, Bool.false_and,
    show (0 == 0x43) = false from rfl, show (0 == 0x47) = false from rfl, Bool.and_false]
  exact ite_congr rfl (fun _ => rfl) (fun _ => rfl)

/-- A register-view store alone in slot C, which may reset or halt the core. -/
theorem finish_store {d : Dev} {w c1 : Nat} (h : d.HgAt (Bundle.onlyC w c1)) (on : d.predOn ⟨w, c1⟩ = true) (ws : List Nat)
    (hv : (⟨w, c1⟩ : Slot).opc = 0x83) :
    (d.runOf (Bundle.onlyC w c1)).finish ws =
      if ((d.runOf (Bundle.onlyC w c1)).mem ⟨w, c1⟩ (d.setD true)).hg.inD = false then (d.runOf (Bundle.onlyC w c1)).mem ⟨w, c1⟩ (d.setD true)
      else (((d.runOf (Bundle.onlyC w c1)).mem ⟨w, c1⟩ (d.setD true)).setD false).hgDone (d.get .HG_PC_PC + 1) := by
  have hs := stall_none (canRun_stall h.1) h.2.1
  rw [← slotOn_eq d (Bundle.onlyC w c1)] at on
  generalize hr : d.runOf (Bundle.onlyC w c1) = r at *
  have e1 : r.x.c = ⟨w, c1⟩ := by rw [← hr]; rfl
  have e2 : r.x.b = ⟨0, 0⟩ := by rw [← hr]; rfl
  have e3 : r.x.a = ⟨0, 0⟩ := by rw [← hr]; rfl
  have e4 : r.dOn = false := dOn_zero r (by rw [← hr]; rfl)
  have e5 : r.target = none := by simp [Run.target, e2, slotOn_nop, opc_nop]
  have e6 : r.d = d := by rw [← hr]; rfl
  have e7 : r.pc = d.get .HG_PC_PC := by rw [← hr]; rfl
  have e8 : ((⟨w, c1⟩ : Slot).opc == 0x86 && d.hg.stv != 0) = false := by simp [hv]
  have e9 : r.stores = true := by simp [Run.stores, e1, hv, on]
  simp only [Run.finish, Run.commit, Run.slot, e1, e2, e3, e4, e5, e6, e7, e9, hs, on, slotOn_nop, opc_nop, int_nop, ctl_nop, Dev.hgDone,
    Dev.hgCount, Bool.true_and, e8, Bool.false_eq_true, if_false, if_true, Option.getD_none, Bool.false_and, Bool.not_eq_true',
    show (0 == 0x43) = false from rfl, show (0 == 0x47) = false from rfl, Bool.and_false]
  exact ite_congr rfl (fun _ => rfl) (fun _ => rfl)

/-- Slot D alone, with room in the task table. -/
theorem bundle_onlyD {d : Dev} {hdr w1 w2 w3 i : Nat} (h : d.HgAt (Bundle.onlyD hdr w1 w2 w3))
    (on : (d.runOf (Bundle.onlyD hdr w1 w2 w3)).dOn = true) (hi : d.freeSlot = some i) (sel : Bundle → Bool)
    (hs : sel (Bundle.onlyD hdr w1 w2 w3) = true) :
    d.bundle 0 sel = ((d.runOf (Bundle.onlyD hdr w1 w2 w3)).issue i d).hgDone (d.get .HG_PC_PC + 1) := by
  rw [bundle_at h sel hs]
  have hs := stall_none (canRun_stall h.1) h.2.1
  generalize hr : d.runOf (Bundle.onlyD hdr w1 w2 w3) = r at *
  have e1 : r.x.c = ⟨0, 0⟩ := by rw [← hr]; rfl
  have e2 : r.x.b = ⟨0, 0⟩ := by rw [← hr]; rfl
  have e3 : r.x.a = ⟨0, 0⟩ := by rw [← hr]; rfl
  have e5 : r.target = none := by simp [Run.target, e2, slotOn_nop, opc_nop]
  have e6 : r.d = d := by rw [← hr]; rfl
  have e7 : r.pc = d.get .HG_PC_PC := by rw [← hr]; rfl
  have e9 : r.stores = false := by simp [Run.stores, e1, opc_nop]
  simp only [Run.stageM, e1, slotOn_nop, Bool.not_true, Bool.false_eq_true, ↓reduceIte, opc_nop, OfNat.zero_ne_ofNat, false_and,
    Run.finish, Nat.reduceBEq, Bool.and_false, e6, Bool.false_and, on, hi, Option.isNone_some, Run.commit, e9, Run.slot, e2, e3, hs,
    int_nop, ctl_nop, mem_nop, e5, e7, Option.getD_none, Dev.hgDone, Dev.hgCount]
  exact ite_congr rfl (fun _ => rfl) (fun _ => rfl)

end Sys2Proof.Machine
end

