-- ==== Sys2Proof/Laws/Memory.lean ====
section
/-! SUPPORT. Memory: little-endian bytes, a read after a write, and the canonical form, which every memory operation keeps. -/
namespace Sys2Proof.Machine

/-! ### Little-endian bytes (R7) -/

@[simp] theorem leBytes_length (n v : Nat) : (leBytes n v).length = n := by
  induction n generalizing v with
  | zero => rfl
  | succ n ih => simp [leBytes, ih]

theorem leBytes_get (n : Nat) : ∀ (v i : Nat) (h : i < (leBytes n v).length), ((leBytes n v)[i]).toNat = v / 256 ^ i % 256 := by
  induction n with
  | zero => intro v i h; simp at h
  | succ n ih =>
    intro v i h
    cases i with
    | zero => simp [leBytes]
    | succ i =>
      simp only [leBytes, List.getElem_cons_succ]
      rw [ih, Nat.div_div_eq_div_mul, pow_succ, mul_comm]

theorem leNat_leBytes (n : Nat) : ∀ v, leNat (leBytes n v) = v % 256 ^ n := by
  induction n with
  | zero => intro v; simp [leBytes, leNat, Nat.mod_one]
  | succ n ih =>
    intro v
    simp only [leBytes, leNat, ih, BitVec.toNat_ofNat]
    rw [show 256 ^ (n + 1) = 256 * 256 ^ n by ring, Nat.mod_mul]

/-! ### Keys -/

theorem memKey_ne {sp sp' a b : Nat} (ha : a < 2 ^ 64) (hb : b < 2 ^ 64) (h : sp' ≠ sp ∨ b ≠ a) : memKey sp' b ≠ memKey sp a := by
  unfold memKey
  rcases Nat.lt_trichotomy sp sp' with h' | h' | h'
  · have : (sp + 1) * 2 ^ 64 ≤ sp' * 2 ^ 64 := Nat.mul_le_mul_right _ h'
    omega
  · subst h'; rcases h with h | h
    · exact absurd rfl h
    · omega
  · have : (sp' + 1) * 2 ^ 64 ≤ sp * 2 ^ 64 := Nat.mul_le_mul_right _ h'
    omega

/-! ### Reads after writes -/

theorem Dev.wbs_rb (d : Dev) (sp a : Nat) (v : List Byte) (sp' b : Nat) : (d.wbs sp a v).rb sp' b =
    Sparse.get (memDefault d.lostEpoch) (Sparse.putMany (memDefault d.lostEpoch) d.mem (memKey sp a) v) (memKey sp' b) := by
  rw [Dev.rb, Dev.wbs_lostEpoch, Dev.wbs_eq, Dev.withMem_mem]

/-- A byte that was written. -/
theorem Dev.rb_wbs_in (d : Dev) (sp a : Nat) (v : List Byte) (i : Nat) (h : i < v.length) : (d.wbs sp a v).rb sp (a + i) = v[i] := by
  rw [Dev.wbs_rb, show memKey sp (a + i) = memKey sp a + i by unfold memKey; omega, Sparse.get_putMany_in]

/-- A byte that was not. -/
theorem Dev.rb_wbs_out (d : Dev) (sp a : Nat) (v : List Byte) (sp' b : Nat) (ha : a + v.length ≤ 2 ^ 64) (hb : b < 2 ^ 64)
    (h : sp' ≠ sp ∨ b < a ∨ a + v.length ≤ b) : (d.wbs sp a v).rb sp' b = d.rb sp' b := by
  rw [Dev.wbs_rb, Sparse.get_putMany_out, Dev.rb]
  unfold memKey
  rcases Nat.lt_trichotomy sp sp' with h' | h' | h'
  · have : (sp + 1) * 2 ^ 64 ≤ sp' * 2 ^ 64 := Nat.mul_le_mul_right _ h'
    omega
  · subst h'; rcases h with h | h
    · exact absurd rfl h
    · omega
  · have : (sp' + 1) * 2 ^ 64 ≤ sp * 2 ^ 64 := Nat.mul_le_mul_right _ h'
    omega

/-- What was written is read back. -/
theorem Dev.rbs_wbs (d : Dev) (sp a : Nat) (v : List Byte) : (d.wbs sp a v).rbs sp a v.length = v := by
  rw [Dev.rbs, Dev.wbs_lostEpoch, Dev.wbs_eq, Dev.withMem_mem, Sparse.getMany_putMany]

theorem Dev.ld_st (d : Dev) (sp a n v : Nat) : (d.st sp a n v).ld sp a n = v % 256 ^ n := by
  have := Dev.rbs_wbs d sp a (leBytes n v)
  rw [leBytes_length] at this
  rw [Dev.ld, Dev.st, this, leNat_leBytes]

/-! ### The canonical form -/

theorem Memory.wf_wb (d : Dev) (sp a : Nat) (v : Byte) (h : Memory.wf d = true) : Memory.wf (d.wb sp a v) = true := by
  rw [Memory.wf, Dev.wb_lostEpoch, Dev.wb_eq, Dev.withMem_mem]; exact Sparse.wf_put _ _ _ _ h

theorem Memory.wf_wbs (d : Dev) (sp a : Nat) (v : List Byte) (h : Memory.wf d = true) : Memory.wf (d.wbs sp a v) = true := by
  rw [Memory.wf, Dev.wbs_lostEpoch, Dev.wbs_eq, Dev.withMem_mem]; exact Sparse.wf_putMany _ _ _ _ h

theorem Memory.wf_st (d : Dev) (sp a n v : Nat) (h : Memory.wf d = true) : Memory.wf (d.st sp a n v) = true :=
  Memory.wf_wbs _ _ _ _ h

theorem Memory.wf_reset : Memory.wf State.reset.dev = true := rfl

/-- An erase of flash. -/
theorem Memory.wf_flashErase (d : Dev) (a n : Nat) (h : Memory.wf d = true) : Memory.wf (d.flashErase a n) = true :=
  Sparse.wf_filter _ _ _ _ h fun _ _ _ => rfl

/-- Memory that no reset touches reads the same whatever the count of resets. -/
theorem memDefault_resets (e : Lost) (l : Bool) (k : Nat) (h : resetKeepsMem l k = true) :
    memDefault { e with resets := e.resets + 1 } k = memDefault e k := by
  simp only [resetKeepsMem, spT2, spT4, spFlash, spHost, spImem, spDmem, spLedger, Bool.or_eq_true, Bool.and_eq_true, beq_iff_eq] at h
  unfold memDefault
  generalize saveArea k = b
  generalize hq : k / 2 ^ 64 = q at h
  have hq : q = 2 ∨ q = 4 ∨ q = 7 ∨ q = 12 ∨ q = 5 ∨ q = 6 ∨ q = 11 := by tauto
  rcases hq with h | h | h | h | h | h | h <;> subst h <;> simp [spFlash, spStage, spT0, spTrace, spTile, spT1]

/-- A device reset or a reboot: what HBM, staging SRAM, trace buffer and tiles held is dropped with the change of what they read as. -/
theorem Memory.wf_restart (d : Dev) (full : Bool) (h : Memory.wf d = true) : Memory.wf (d.restart full) = true :=
  Sparse.wf_filter _ _ _ _ h fun _ _ hp => memDefault_resets _ _ _ hp

/-- A power-up keeps what a device reset keeps, but for the ledger retention. -/
theorem Memory.wf_powerUp (d : Dev) (h : Memory.wf d = true) :
    Sparse.wf (memDefault { d.lostEpoch with resets := d.lostEpoch.resets + 1 })
      (d.mem.filter fun e => resetKeepsMem false e.1) = true :=
  Sparse.wf_filter _ _ _ _ h fun _ _ hp => memDefault_resets _ _ _ hp

/-- HOLD drops staging SRAM, the trace buffer and the tiles with the change of what they read as. -/
theorem Memory.wf_hold (d : Dev) (h : Memory.wf d = true) :
    Sparse.wf (memDefault { d.lostEpoch with holds := d.lostEpoch.holds + 1 }) (d.mem.filter fun c => !lostSpace c.1) = true := by
  refine Sparse.wf_filter _ _ _ _ h fun p _ hp => ?_
  simp only [lostSpace, Bool.not_eq_true', Bool.or_eq_false_iff, beq_eq_false_iff_ne] at hp
  obtain ⟨⟨a, b⟩, c⟩ := hp
  unfold memDefault
  simp only [a, b, c, or_self, and_false, if_false]

/-- A save drops the save area with the change of what it reads as. -/
theorem Memory.wf_hgSave (d : Dev) (h : Memory.wf d = true) : Memory.wf d.hgSave = true := by
  refine Sparse.wf_filter _ _ _ _ h fun p _ hp => ?_
  have hp : saveArea p.1 = false := by simpa using hp
  unfold memDefault Dev.hgSave
  simp only [hp, Bool.false_eq_true, and_false, if_false]

/-- Dropping whole spaces, as stage 5 and the AO domain's reset do. -/
theorem Memory.wf_drop (d : Dev) (f : Host.Cell → Bool) (h : Memory.wf d = true) :
    Sparse.wf (memDefault d.lostEpoch) (d.mem.filter f) = true := Sparse.wf_filter _ _ _ _ h fun _ _ _ => rfl

/-- The staged image: flash cells at staging keys, the highest there are. -/
theorem Memory.wf_stageImage (d : Dev) (img : Nat) (h : Memory.wf d = true) (hk : ∀ c ∈ d.mem, c.1 / 2 ^ 64 ≤ spStage) :
    Memory.wf (d.stageImage img) = true := by
  have hb : ∃ base, base = memKey spFlash (if img = 0 then 0x100000 else 0x2000000) ∧ 7 * 2 ^ 64 ≤ base ∧ base + 0x1C00000 ≤ 8 * 2 ^ 64 := by
    refine ⟨_, rfl, ?_, ?_⟩ <;> (unfold memKey spFlash; split <;> omega)
  obtain ⟨base, hbase, hlo, hhi⟩ := hb
  unfold Memory.wf Dev.stageImage at *
  rw [← hbase]
  rw [Sparse.wf_iff] at h ⊢
  have flash : ∀ k : Nat, base ≤ k → k < base + 0x1C00000 → memDefault d.lostEpoch k = 0xFF := by
    intro k h1 h2
    have : k / 2 ^ 64 = 7 := by omega
    unfold memDefault
    simp only [this]
    exact if_pos (.inl rfl)
  have stage : ∀ k : Nat, k < 0x1C00000 → memDefault d.lostEpoch (memKey spStage k) = 0xFF := by
    intro k h1
    have : memKey spStage k / 2 ^ 64 = 13 := by unfold memKey spStage; omega
    unfold memDefault
    simp only [this]
    exact if_pos (.inr rfl)
  refine ⟨fun p hp => ?_, ?_⟩
  · rcases List.mem_append.mp hp with hp | hp
    · exact h.1 p (List.mem_filter.mp hp).1
    · obtain ⟨c, hc, rfl⟩ := List.mem_map.mp hp
      obtain ⟨hm, hr⟩ := List.mem_filter.mp hc
      simp only [Bool.and_eq_true, decide_eq_true_eq] at hr
      have h1 := h.1 c hm
      change c.2 ≠ memDefault d.lostEpoch (memKey spStage (c.1 - base))
      rw [stage _ (by omega), ← flash c.1 hr.1 hr.2]; exact h1
  · rw [List.map_append, List.pairwise_append]
    refine ⟨h.2.sublist (List.filter_sublist.map _), ?_, ?_⟩
    · rw [List.map_map, List.pairwise_map]
      have h2 := h.2
      rw [List.pairwise_map] at h2
      have h3 := h2.sublist (List.filter_sublist (p := fun e => decide (base ≤ e.1) && decide (e.1 < base + 0x1C00000)))
      refine h3.imp_of_mem ?_
      intro a b ha hb hab
      have ha' := (List.mem_filter.mp ha).2
      have hb' := (List.mem_filter.mp hb).2
      simp only [Bool.and_eq_true, decide_eq_true_eq] at ha' hb'
      simp only [Function.comp, memKey]
      omega
    · intro x hx y hy
      obtain ⟨c, hc, rfl⟩ := List.mem_map.mp hx
      obtain ⟨c', hc', rfl⟩ := List.mem_map.mp hy
      obtain ⟨e, he, rfl⟩ := List.mem_map.mp hc'
      obtain ⟨hm, hr⟩ := List.mem_filter.mp hc
      have := hk c hm
      simp only [bne_iff_ne, spStage] at hr this
      simp only [memKey, spStage]
      have : c.1 / 2 ^ 64 < 13 := by omega
      have : c.1 < 13 * 2 ^ 64 := by omega
      omega

end Sys2Proof.Machine
end

