-- ==== Sys2Proof/Laws/PerInstr.lean ====
section
/-! SUPPORT. Per instruction: what the command can do at all. It acts on a live device (`run`), on any defined one (`runOn`), or is one of
the five that act whatever the device does. -/
namespace Sys2Proof.Machine

/-- The command acts on a device that is defined and not tripped. -/
def ByRun (c : Instr) : Prop := ∃ f, ∀ s, exec c s = s.run f

/-- The command acts on a device that is defined, a trip or no. -/
def ByRunOn (c : Instr) : Prop := ∃ f, ∀ s, exec c s = s.runOn f

/-- The command acts on any device. -/
def ByRunAo (c : Instr) : Prop := ∃ f, ∀ s, exec c s = s.runAo f

end Sys2Proof.Machine

namespace Sys2Proof.Laws
open Sys2Proof.Machine

/-- The power-ups, the resets and the two events that leave the device undefined. -/
def Shell.Always (c : Instr) : Prop := (∃ n, c = .aoPowerUp n) ∨ (∃ n, c = .aoDomainReset n) ∨ c = .devResetAssert ∨ (∃ b, c = .mainRailExcursion b) ∨
  c = .referenceClockLoss

/-- Every command acts in one of the three ways, and the third only where it is named. -/
def Shell.Statement (c : Instr) : Prop := ByRun c ∨ ByRunOn c ∨ (ByRunAo c ∧ Shell.Always c)

theorem Shell.registerWrite (p : Path) (addr size v : Nat) : Shell.Statement (.registerWrite p addr size v) := .inl ⟨_, fun s => by rw [exec_registerWrite, execRegisterWrite]⟩
theorem Shell.unmappedAccess (p : Path) (addr : Nat) (wr : Option Word) : Shell.Statement (.unmappedAccess p addr wr) := .inl ⟨_, fun s => by rw [exec_unmappedAccess, execUnmappedAccess]⟩
theorem Shell.latchReadLow (p : Path) (b page off : Nat) : Shell.Statement (.latchReadLow p b page off) := .inl ⟨_, fun s => by rw [exec_latchReadLow, execLatchReadLow]⟩
theorem Shell.highWordWrite (p : Path) (b page off : Nat) (v : Word) : Shell.Statement (.highWordWrite p b page off v) := .inl ⟨_, fun s => by rw [exec_highWordWrite, execHighWordWrite]⟩
theorem Shell.irqPendClear (p : Path) (b page : Nat) (v : Word) : Shell.Statement (.irqPendClear p b page v) := .inl ⟨_, fun s => by rw [exec_irqPendClear, execIrqPendClear]⟩
theorem Shell.irqMaskWrite (p : Path) (b page : Nat) (v : Word) : Shell.Statement (.irqMaskWrite p b page v) := .inl ⟨_, fun s => by rw [exec_irqMaskWrite, execIrqMaskWrite]⟩
theorem Shell.irqForce (p : Path) (b page : Nat) (v : Word) : Shell.Statement (.irqForce p b page v) := .inl ⟨_, fun s => by rw [exec_irqForce, execIrqForce]⟩
theorem Shell.errCodeClear (p : Path) (b page : Nat) : Shell.Statement (.errCodeClear p b page) := .inl ⟨_, fun s => by rw [exec_errCodeClear, execErrCodeClear]⟩
theorem Shell.blockReset (p : Path) (b page : Nat) : Shell.Statement (.blockReset p b page) := .inl ⟨_, fun s => by rw [exec_blockReset, execBlockReset]⟩
theorem Shell.resetComplete (b : Nat) : Shell.Statement (.resetComplete b) := .inl ⟨_, fun s => by rw [exec_resetComplete, execResetComplete]⟩
theorem Shell.blkFreeze (p : Path) (b page : Nat) : Shell.Statement (.blkFreeze p b page) := .inl ⟨_, fun s => by rw [exec_blkFreeze, execBlkFreeze]⟩
theorem Shell.thaw (p : Path) (b page : Nat) : Shell.Statement (.thaw p b page) := .inl ⟨_, fun s => by rw [exec_thaw, execThaw]⟩
theorem Shell.frozenReached (b : Nat) : Shell.Statement (.frozenReached b) := .inl ⟨_, fun s => by rw [exec_frozenReached, execFrozenReached]⟩
theorem Shell.blkQuiesce (p : Path) (b page : Nat) : Shell.Statement (.blkQuiesce p b page) := .inl ⟨_, fun s => by rw [exec_blkQuiesce, execBlkQuiesce]⟩
theorem Shell.quiescedReached (b : Nat) : Shell.Statement (.quiescedReached b) := .inl ⟨_, fun s => by rw [exec_quiescedReached, execQuiescedReached]⟩
theorem Shell.blkEnable (p : Path) (b page : Nat) : Shell.Statement (.blkEnable p b page) := .inl ⟨_, fun s => by rw [exec_blkEnable, execBlkEnable]⟩
theorem Shell.globalFreezeSet (p : Path) : Shell.Statement (.globalFreezeSet p) := .inl ⟨_, fun s => by rw [exec_globalFreezeSet, execGlobalFreezeSet]⟩
theorem Shell.globalFreezeClear (p : Path) : Shell.Statement (.globalFreezeClear p) := .inl ⟨_, fun s => by rw [exec_globalFreezeClear, execGlobalFreezeClear]⟩
theorem Shell.allFrozen : Shell.Statement (.allFrozen) := .inl ⟨_, fun s => by rw [exec_allFrozen, execAllFrozen]⟩
theorem Shell.stateDataRead (p : Path) (b page : Nat) : Shell.Statement (.stateDataRead p b page) := .inl ⟨_, fun s => by rw [exec_stateDataRead, execStateDataRead]⟩
theorem Shell.loopBoundsWrite (p : Path) (b page off : Nat) (v : Word) (same : Bool) : Shell.Statement (.loopBoundsWrite p b page off v same) := .inl ⟨_, fun s => by rw [exec_loopBoundsWrite, execLoopBoundsWrite]⟩
theorem Shell.loopPinWrite (p : Path) (b page off : Nat) (v : Word) (same : Bool) : Shell.Statement (.loopPinWrite p b page off v same) := .inl ⟨_, fun s => by rw [exec_loopPinWrite, execLoopPinWrite]⟩
theorem Shell.aoPowerUp (straps : Nat) : Shell.Statement (.aoPowerUp straps) := .inr (.inr ⟨⟨_, fun s => by rw [exec_aoPowerUp, execAoPowerUp]⟩, .inl ⟨_, rfl⟩⟩)
theorem Shell.aoDomainReset (straps : Nat) : Shell.Statement (.aoDomainReset straps) := .inr (.inr ⟨⟨_, fun s => by rw [exec_aoDomainReset, execAoDomainReset]⟩, .inr (.inl ⟨_, rfl⟩)⟩)
theorem Shell.devResetAssert : Shell.Statement (.devResetAssert) := .inr (.inr ⟨⟨_, fun s => by rw [exec_devResetAssert, execDevResetAssert]⟩, .inr (.inr (.inl rfl))⟩)
theorem Shell.vidStep : Shell.Statement (.vidStep) := .inr (.inl ⟨_, fun s => by rw [exec_vidStep, execVidStep]⟩)
theorem Shell.bootStart (testHigh : Bool) : Shell.Statement (.bootStart testHigh) := .inl ⟨_, fun s => by rw [exec_bootStart, execBootStart]⟩
theorem Shell.stageAoStart : Shell.Statement (.stageAoStart) := .inl ⟨_, fun s => by rw [exec_stageAoStart, execStageAoStart]⟩
theorem Shell.stageFuses (bad : Nat) (absent : List Nat) : Shell.Statement (.stageFuses bad absent) := .inl ⟨_, fun s => by rw [exec_stageFuses, execStageFuses]⟩
theorem Shell.stageImageVerify (sfdp : Bool) : Shell.Statement (.stageImageVerify sfdp) := .inl ⟨_, fun s => by rw [exec_stageImageVerify, execStageImageVerify]⟩
theorem Shell.stagePllLock (ok : Bool) : Shell.Statement (.stagePllLock ok) := .inl ⟨_, fun s => by rw [exec_stagePllLock, execStagePllLock]⟩
theorem Shell.stageHbmBringup (trained : Nat) (pcs : List Nat) (chs : List Nat) : Shell.Statement (.stageHbmBringup trained pcs chs) := .inl ⟨_, fun s => by rw [exec_stageHbmBringup, execStageHbmBringup]⟩
theorem Shell.stageSramInit (ok : Bool) (flumes : Nat) : Shell.Statement (.stageSramInit ok flumes) := .inl ⟨_, fun s => by rw [exec_stageSramInit, execStageSramInit]⟩
theorem Shell.stageFwLoad (ok : Bool) : Shell.Statement (.stageFwLoad ok) := .inl ⟨_, fun s => by rw [exec_stageFwLoad, execStageFwLoad]⟩
theorem Shell.stageHostLink (fail : Bool) : Shell.Statement (.stageHostLink fail) := .inl ⟨_, fun s => by rw [exec_stageHostLink, execStageHostLink]⟩
theorem Shell.stagePartnerPorts (outs : List BootOut) : Shell.Statement (.stagePartnerPorts outs) := .inl ⟨_, fun s => by rw [exec_stagePartnerPorts, execStagePartnerPorts]⟩
theorem Shell.stageExpanderPorts (outs : List BootOut) (mib : List Nat) : Shell.Statement (.stageExpanderPorts outs mib) := .inl ⟨_, fun s => by rw [exec_stageExpanderPorts, execStageExpanderPorts]⟩
theorem Shell.stageLateralLinks : Shell.Statement (.stageLateralLinks) := .inl ⟨_, fun s => by rw [exec_stageLateralLinks, execStageLateralLinks]⟩
theorem Shell.stageSelftest (tiles : Nat) (lanes : Nat) : Shell.Statement (.stageSelftest tiles lanes) := .inl ⟨_, fun s => by rw [exec_stageSelftest, execStageSelftest]⟩
theorem Shell.stageMapPublish (ok : Bool) : Shell.Statement (.stageMapPublish ok) := .inl ⟨_, fun s => by rw [exec_stageMapPublish, execStageMapPublish]⟩
theorem Shell.stageReady : Shell.Statement (.stageReady) := .inl ⟨_, fun s => by rw [exec_stageReady, execStageReady]⟩
theorem Shell.stageTimeout : Shell.Statement (.stageTimeout) := .inl ⟨_, fun s => by rw [exec_stageTimeout, execStageTimeout]⟩
theorem Shell.ledgerCopyDone (ok : Bool) : Shell.Statement (.ledgerCopyDone ok) := .inl ⟨_, fun s => by rw [exec_ledgerCopyDone, execLedgerCopyDone]⟩
theorem Shell.verdictClear (p : Path) (v : Word) : Shell.Statement (.verdictClear p v) := .inl ⟨_, fun s => by rw [exec_verdictClear, execVerdictClear]⟩
theorem Shell.bootReboot (p : Path) (v : Word) : Shell.Statement (.bootReboot p v) := .inl ⟨_, fun s => by rw [exec_bootReboot, execBootReboot]⟩
theorem Shell.imagePref (p : Path) (v : Word) : Shell.Statement (.imagePref p v) := .inl ⟨_, fun s => by rw [exec_imagePref, execImagePref]⟩
theorem Shell.pwrReqDoze (p : Path) : Shell.Statement (.pwrReqDoze p) := .inl ⟨_, fun s => by rw [exec_pwrReqDoze, execPwrReqDoze]⟩
theorem Shell.pwrReqHold (p : Path) : Shell.Statement (.pwrReqHold p) := .inl ⟨_, fun s => by rw [exec_pwrReqHold, execPwrReqHold]⟩
theorem Shell.pwrReqCancel (p : Path) : Shell.Statement (.pwrReqCancel p) := .inl ⟨_, fun s => by rw [exec_pwrReqCancel, execPwrReqCancel]⟩
theorem Shell.holdDrainDone (bad : Nat) : Shell.Statement (.holdDrainDone bad) := .inl ⟨_, fun s => by rw [exec_holdDrainDone, execHoldDrainDone]⟩
theorem Shell.pendingRequestEnter : Shell.Statement (.pendingRequestEnter) := .inl ⟨_, fun s => by rw [exec_pendingRequestEnter, execPendingRequestEnter]⟩
theorem Shell.pendingRequestDemote : Shell.Statement (.pendingRequestDemote) := .inl ⟨_, fun s => by rw [exec_pendingRequestDemote, execPendingRequestDemote]⟩
theorem Shell.pendingRequestDrop : Shell.Statement (.pendingRequestDrop) := .inl ⟨_, fun s => by rw [exec_pendingRequestDrop, execPendingRequestDrop]⟩
theorem Shell.idleEntry : Shell.Statement (.idleEntry) := .inl ⟨_, fun s => by rw [exec_idleEntry, execIdleEntry]⟩
theorem Shell.tc0Fire : Shell.Statement (.tc0Fire) := .inl ⟨_, fun s => by rw [exec_tc0Fire, execTc0Fire]⟩
theorem Shell.dozeExitComplete : Shell.Statement (.dozeExitComplete) := .inl ⟨_, fun s => by rw [exec_dozeExitComplete, execDozeExitComplete]⟩
theorem Shell.governorUpdate (p : Nat) : Shell.Statement (.governorUpdate p) := .inl ⟨_, fun s => by rw [exec_governorUpdate, execGovernorUpdate]⟩
theorem Shell.tjSample (tj : Int) (sensor : Nat) : Shell.Statement (.tjSample tj sensor) := .inr (.inl ⟨_, fun s => by rw [exec_tjSample, execTjSample]⟩)
theorem Shell.powerGate (b : Nat) : Shell.Statement (.powerGate b) := .inl ⟨_, fun s => by rw [exec_powerGate, execPowerGate]⟩
theorem Shell.ghProgRunSet (p : Path) : Shell.Statement (.ghProgRunSet p) := .inl ⟨_, fun s => by rw [exec_ghProgRunSet, execGhProgRunSet]⟩
theorem Shell.ghProgRunClear (p : Path) : Shell.Statement (.ghProgRunClear p) := .inl ⟨_, fun s => by rw [exec_ghProgRunClear, execGhProgRunClear]⟩
theorem Shell.ghDoorbell (p : Path) (v : Word) : Shell.Statement (.ghDoorbell p v) := .inl ⟨_, fun s => by rw [exec_ghDoorbell, execGhDoorbell]⟩
theorem Shell.ghTimerFire (n : Nat) : Shell.Statement (.ghTimerFire n) := .inr (.inl ⟨_, fun s => by rw [exec_ghTimerFire, execGhTimerFire]⟩)
theorem Shell.ghWaitMatch : Shell.Statement (.ghWaitMatch) := .inr (.inl ⟨_, fun s => by rw [exec_ghWaitMatch, execGhWaitMatch]⟩)
theorem Shell.ghNop : Shell.Statement (.ghNop) := .inr (.inl ⟨_, fun s => by rw [exec_ghNop, execGhNop]⟩)
theorem Shell.ghStop : Shell.Statement (.ghStop) := .inr (.inl ⟨_, fun s => by rw [exec_ghStop, execGhStop]⟩)
theorem Shell.ghRet : Shell.Statement (.ghRet) := .inr (.inl ⟨_, fun s => by rw [exec_ghRet, execGhRet]⟩)
theorem Shell.ghWake : Shell.Statement (.ghWake) := .inr (.inl ⟨_, fun s => by rw [exec_ghWake, execGhWake]⟩)
theorem Shell.seqVret : Shell.Statement (.seqVret) := .inl ⟨_, fun s => by rw [exec_seqVret, execSeqVret]⟩
theorem Shell.seqSre : Shell.Statement (.seqSre) := .inl ⟨_, fun s => by rw [exec_seqSre, execSeqSre]⟩
theorem Shell.seqLinklp (l1 : Nat) : Shell.Statement (.seqLinklp l1) := .inl ⟨_, fun s => by rw [exec_seqLinklp, execSeqLinklp]⟩
theorem Shell.seqFastoff : Shell.Statement (.seqFastoff) := .inl ⟨_, fun s => by rw [exec_seqFastoff, execSeqFastoff]⟩
theorem Shell.seqFaston : Shell.Statement (.seqFaston) := .inl ⟨_, fun s => by rw [exec_seqFaston, execSeqFaston]⟩
theorem Shell.seqVopr : Shell.Statement (.seqVopr) := .inl ⟨_, fun s => by rw [exec_seqVopr, execSeqVopr]⟩
theorem Shell.seqSrx (bad : Nat) : Shell.Statement (.seqSrx bad) := .inl ⟨_, fun s => by rw [exec_seqSrx, execSeqSrx]⟩
theorem Shell.seqLinkup : Shell.Statement (.seqLinkup) := .inl ⟨_, fun s => by rw [exec_seqLinkup, execSeqLinkup]⟩
theorem Shell.seqResume (ue : Nat) : Shell.Statement (.seqResume ue) := .inl ⟨_, fun s => by rw [exec_seqResume, execSeqResume]⟩
theorem Shell.scrub (ce ue : List Nat) : Shell.Statement (.scrub ce ue) := .inr (.inl ⟨_, fun s => by rw [exec_scrub, execScrub]⟩)
theorem Shell.scrubDone : Shell.Statement (.scrubDone) := .inr (.inl ⟨_, fun s => by rw [exec_scrubDone, execScrubDone]⟩)
theorem Shell.ghTemp : Shell.Statement (.ghTemp) := .inr (.inl ⟨_, fun s => by rw [exec_ghTemp, execGhTemp]⟩)
theorem Shell.gpin : Shell.Statement (.gpin) := .inr (.inl ⟨_, fun s => by rw [exec_gpin, execGpin]⟩)
theorem Shell.evt : Shell.Statement (.evt) := .inr (.inl ⟨_, fun s => by rw [exec_evt, execEvt]⟩)
theorem Shell.ghWait : Shell.Statement (.ghWait) := .inr (.inl ⟨_, fun s => by rw [exec_ghWait, execGhWait]⟩)
theorem Shell.ghSig : Shell.Statement (.ghSig) := .inr (.inl ⟨_, fun s => by rw [exec_ghSig, execGhSig]⟩)
theorem Shell.ldi : Shell.Statement (.ldi) := .inr (.inl ⟨_, fun s => by rw [exec_ldi, execLdi]⟩)
theorem Shell.ghAlu : Shell.Statement (.ghAlu) := .inr (.inl ⟨_, fun s => by rw [exec_ghAlu, execGhAlu]⟩)
theorem Shell.ghAddi : Shell.Statement (.ghAddi) := .inr (.inl ⟨_, fun s => by rw [exec_ghAddi, execGhAddi]⟩)
theorem Shell.ghCmpi : Shell.Statement (.ghCmpi) := .inr (.inl ⟨_, fun s => by rw [exec_ghCmpi, execGhCmpi]⟩)
theorem Shell.ghB : Shell.Statement (.ghB) := .inr (.inl ⟨_, fun s => by rw [exec_ghB, execGhB]⟩)
theorem Shell.ghCall : Shell.Statement (.ghCall) := .inr (.inl ⟨_, fun s => by rw [exec_ghCall, execGhCall]⟩)
theorem Shell.ldc : Shell.Statement (.ldc) := .inr (.inl ⟨_, fun s => by rw [exec_ldc, execLdc]⟩)
theorem Shell.tcset : Shell.Statement (.tcset) := .inr (.inl ⟨_, fun s => by rw [exec_tcset, execTcset]⟩)
theorem Shell.tcclr : Shell.Statement (.tcclr) := .inr (.inl ⟨_, fun s => by rw [exec_tcclr, execTcclr]⟩)
theorem Shell.tcrd : Shell.Statement (.tcrd) := .inr (.inl ⟨_, fun s => by rw [exec_tcrd, execTcrd]⟩)
theorem Shell.ghTnow : Shell.Statement (.ghTnow) := .inr (.inl ⟨_, fun s => by rw [exec_ghTnow, execGhTnow]⟩)
theorem Shell.tnowh : Shell.Statement (.tnowh) := .inr (.inl ⟨_, fun s => by rw [exec_tnowh, execTnowh]⟩)
theorem Shell.ghLd : Shell.Statement (.ghLd) := .inr (.inl ⟨_, fun s => by rw [exec_ghLd, execGhLd]⟩)
theorem Shell.ghSt : Shell.Statement (.ghSt) := .inr (.inl ⟨_, fun s => by rw [exec_ghSt, execGhSt]⟩)
theorem Shell.btst : Shell.Statement (.btst) := .inr (.inl ⟨_, fun s => by rw [exec_btst, execBtst]⟩)
theorem Shell.ghBudgetExceeded : Shell.Statement (.ghBudgetExceeded) := .inr (.inl ⟨_, fun s => by rw [exec_ghBudgetExceeded, execGhBudgetExceeded]⟩)
theorem Shell.issue (ue : Nat) : Shell.Statement (.issue ue) := .inl ⟨_, fun s => by rw [exec_issue, execIssue]⟩
theorem Shell.issueStallRelease : Shell.Statement (.issueStallRelease) := .inl ⟨_, fun s => by rw [exec_issueStallRelease, execIssueStallRelease]⟩
theorem Shell.taskDispatch (tag : Nat) (ue : Bool) : Shell.Statement (.taskDispatch tag ue) := .inl ⟨_, fun s => by rw [exec_taskDispatch, execTaskDispatch]⟩
theorem Shell.ringConsWrite (p : Path) (n : Nat) (v : Word) : Shell.Statement (.ringConsWrite p n v) := .inl ⟨_, fun s => by rw [exec_ringConsWrite, execRingConsWrite]⟩
theorem Shell.ringConfigWrite (p : Path) (n : Nat) (size : Bool) (v : Word) : Shell.Statement (.ringConfigWrite p n size v) := .inl ⟨_, fun s => by rw [exec_ringConfigWrite, execRingConfigWrite]⟩
theorem Shell.imemWindowWrite (p : Path) (off : Nat) (v : Word) : Shell.Statement (.imemWindowWrite p off v) := .inl ⟨_, fun s => by rw [exec_imemWindowWrite, execImemWindowWrite]⟩
theorem Shell.hgStart (p : Path) : Shell.Statement (.hgStart p) := .inl ⟨_, fun s => by rw [exec_hgStart, execHgStart]⟩
theorem Shell.hgHaltReq (p : Path) : Shell.Statement (.hgHaltReq p) := .inl ⟨_, fun s => by rw [exec_hgHaltReq, execHgHaltReq]⟩
theorem Shell.hgStep (p : Path) (ue : Nat) : Shell.Statement (.hgStep p ue) := .inl ⟨_, fun s => by rw [exec_hgStep, execHgStep]⟩
theorem Shell.hgDoorbell (p : Path) (v : Word) : Shell.Statement (.hgDoorbell p v) := .inl ⟨_, fun s => by rw [exec_hgDoorbell, execHgDoorbell]⟩
theorem Shell.taskAbort (p : Path) (tag : Nat) : Shell.Statement (.taskAbort p tag) := .inl ⟨_, fun s => by rw [exec_taskAbort, execTaskAbort]⟩
theorem Shell.taskAbortAll (p : Path) : Shell.Statement (.taskAbortAll p) := .inl ⟨_, fun s => by rw [exec_taskAbortAll, execTaskAbortAll]⟩
theorem Shell.hgTimerFire (n : Nat) : Shell.Statement (.hgTimerFire n) := .inl ⟨_, fun s => by rw [exec_hgTimerFire, execHgTimerFire]⟩
theorem Shell.hgWaitEnd : Shell.Statement (.hgWaitEnd) := .inl ⟨_, fun s => by rw [exec_hgWaitEnd, execHgWaitEnd]⟩
theorem Shell.hgNop (ue : Nat) : Shell.Statement (.hgNop ue) := .inl ⟨_, fun s => by rw [exec_hgNop, execHgNop]⟩
theorem Shell.hgAlu (ue : Nat) : Shell.Statement (.hgAlu ue) := .inl ⟨_, fun s => by rw [exec_hgAlu, execHgAlu]⟩
theorem Shell.hgAlui (ue : Nat) : Shell.Statement (.hgAlui ue) := .inl ⟨_, fun s => by rw [exec_hgAlui, execHgAlui]⟩
theorem Shell.ext (ue : Nat) : Shell.Statement (.ext ue) := .inl ⟨_, fun s => by rw [exec_ext, execExt]⟩
theorem Shell.dep (ue : Nat) : Shell.Statement (.dep ue) := .inl ⟨_, fun s => by rw [exec_dep, execDep]⟩
theorem Shell.cnt (ue : Nat) : Shell.Statement (.cnt ue) := .inl ⟨_, fun s => by rw [exec_cnt, execCnt]⟩
theorem Shell.cmp (ue : Nat) : Shell.Statement (.cmp ue) := .inl ⟨_, fun s => by rw [exec_cmp, execCmp]⟩
theorem Shell.cmpi (ue : Nat) : Shell.Statement (.cmpi ue) := .inl ⟨_, fun s => by rw [exec_cmpi, execCmpi]⟩
theorem Shell.plog (ue : Nat) : Shell.Statement (.plog ue) := .inl ⟨_, fun s => by rw [exec_plog, execPlog]⟩
theorem Shell.sel (ue : Nat) : Shell.Statement (.sel ue) := .inl ⟨_, fun s => by rw [exec_sel, execSel]⟩
theorem Shell.mfp (ue : Nat) : Shell.Statement (.mfp ue) := .inl ⟨_, fun s => by rw [exec_mfp, execMfp]⟩
theorem Shell.mtp (ue : Nat) : Shell.Statement (.mtp ue) := .inl ⟨_, fun s => by rw [exec_mtp, execMtp]⟩
theorem Shell.mpeek (ue : Nat) : Shell.Statement (.mpeek ue) := .inl ⟨_, fun s => by rw [exec_mpeek, execMpeek]⟩
theorem Shell.mpop (ue : Nat) : Shell.Statement (.mpop ue) := .inl ⟨_, fun s => by rw [exec_mpop, execMpop]⟩
theorem Shell.mfev (ue : Nat) : Shell.Statement (.mfev ue) := .inl ⟨_, fun s => by rw [exec_mfev, execMfev]⟩
theorem Shell.mfh (ue : Nat) : Shell.Statement (.mfh ue) := .inl ⟨_, fun s => by rw [exec_mfh, execMfh]⟩
theorem Shell.hqry (ue : Nat) : Shell.Statement (.hqry ue) := .inl ⟨_, fun s => by rw [exec_hqry, execHqry]⟩
theorem Shell.aot (ue : Nat) : Shell.Statement (.aot ue) := .inl ⟨_, fun s => by rw [exec_aot, execAot]⟩
theorem Shell.br (ue : Nat) : Shell.Statement (.br ue) := .inl ⟨_, fun s => by rw [exec_br, execBr]⟩
theorem Shell.bl (ue : Nat) : Shell.Statement (.bl ue) := .inl ⟨_, fun s => by rw [exec_bl, execBl]⟩
theorem Shell.bx (ue : Nat) : Shell.Statement (.bx ue) := .inl ⟨_, fun s => by rw [exec_bx, execBx]⟩
theorem Shell.hgWait (ue : Nat) : Shell.Statement (.hgWait ue) := .inl ⟨_, fun s => by rw [exec_hgWait, execHgWait]⟩
theorem Shell.evclr (ue : Nat) : Shell.Statement (.evclr ue) := .inl ⟨_, fun s => by rw [exec_evclr, execEvclr]⟩
theorem Shell.tmrSet (ue : Nat) : Shell.Statement (.tmrSet ue) := .inl ⟨_, fun s => by rw [exec_tmrSet, execTmrSet]⟩
theorem Shell.tmrClr (ue : Nat) : Shell.Statement (.tmrClr ue) := .inl ⟨_, fun s => by rw [exec_tmrClr, execTmrClr]⟩
theorem Shell.signal (ue : Nat) : Shell.Statement (.signal ue) := .inl ⟨_, fun s => by rw [exec_signal, execSignal]⟩
theorem Shell.halt (ue : Nat) : Shell.Statement (.halt ue) := .inl ⟨_, fun s => by rw [exec_halt, execHalt]⟩
theorem Shell.sleep (ue : Nat) : Shell.Statement (.sleep ue) := .inl ⟨_, fun s => by rw [exec_sleep, execSleep]⟩
theorem Shell.sleepAnswer : Shell.Statement (.sleepAnswer) := .inl ⟨_, fun s => by rw [exec_sleepAnswer, execSleepAnswer]⟩
theorem Shell.habort (ue : Nat) : Shell.Statement (.habort ue) := .inl ⟨_, fun s => by rw [exec_habort, execHabort]⟩
theorem Shell.hclr (ue : Nat) : Shell.Statement (.hclr ue) := .inl ⟨_, fun s => by rw [exec_hclr, execHclr]⟩
theorem Shell.ld (ue : Nat) : Shell.Statement (.ld ue) := .inl ⟨_, fun s => by rw [exec_ld, execLd]⟩
theorem Shell.st (ue : Nat) : Shell.Statement (.st ue) := .inl ⟨_, fun s => by rw [exec_st, execSt]⟩
theorem Shell.ldv (ue : Nat) : Shell.Statement (.ldv ue) := .inl ⟨_, fun s => by rw [exec_ldv, execLdv]⟩
theorem Shell.ldvResponse : Shell.Statement (.ldvResponse) := .inl ⟨_, fun s => by rw [exec_ldvResponse, execLdvResponse]⟩
theorem Shell.stv (ue : Nat) : Shell.Statement (.stv ue) := .inl ⟨_, fun s => by rw [exec_stv, execStv]⟩
theorem Shell.movw (ue : Nat) : Shell.Statement (.movw ue) := .inl ⟨_, fun s => by rw [exec_movw, execMovw]⟩
theorem Shell.movp (ue : Nat) : Shell.Statement (.movp ue) := .inl ⟨_, fun s => by rw [exec_movp, execMovp]⟩
theorem Shell.fence (ue : Nat) : Shell.Statement (.fence ue) := .inl ⟨_, fun s => by rw [exec_fence, execFence]⟩
theorem Shell.fenceDone : Shell.Statement (.fenceDone) := .inl ⟨_, fun s => by rw [exec_fenceDone, execFenceDone]⟩
theorem Shell.admitPlan (img : Option (List Byte)) (parts : Nat) : Shell.Statement (.admitPlan img parts) := .inl ⟨_, fun s => by rw [exec_admitPlan, execAdmit]⟩
theorem Shell.unload : Shell.Statement (.unload) := .inl ⟨_, fun s => by rw [exec_unload, execUnload]⟩
theorem Shell.seal (tag : Nat) : Shell.Statement (.seal tag) := .inl ⟨_, fun s => by rw [exec_seal, execSeal]⟩
theorem Shell.openGate (tag : Nat) : Shell.Statement (.openGate tag) := .inl ⟨_, fun s => by rw [exec_openGate, execOpenGate]⟩
theorem Shell.drop (tag : Nat) : Shell.Statement (.drop tag) := .inl ⟨_, fun s => by rw [exec_drop, execDrop]⟩
theorem Shell.rearm (tag : Nat) : Shell.Statement (.rearm tag) := .inl ⟨_, fun s => by rw [exec_rearm, execRearm]⟩
theorem Shell.rearmApply (h : Nat) : Shell.Statement (.rearmApply h) := .inl ⟨_, fun s => by rw [exec_rearmApply, execRearmApply]⟩
theorem Shell.partnerWindowWrite (p addr : Nat) (data : List (Option Byte)) (poison : Bool) : Shell.Statement (.partnerWindowWrite p addr data poison) := .inl ⟨_, fun s => by rw [exec_partnerWindowWrite, execPartnerWindowWrite]⟩
theorem Shell.partnerWindowRead (p addr len tid : Nat) (ue : Bool) : Shell.Statement (.partnerWindowRead p addr len tid ue) := .inl ⟨_, fun s => by rw [exec_partnerWindowRead, execPartnerWindowRead]⟩
theorem Shell.heldReadRelease (p tid : Nat) : Shell.Statement (.heldReadRelease p tid) := .inl ⟨_, fun s => by rw [exec_heldReadRelease, execHeldReadRelease]⟩
theorem Shell.readExpired (p tid : Nat) : Shell.Statement (.readExpired p tid) := .inl ⟨_, fun s => by rw [exec_readExpired, execReadExpired]⟩
theorem Shell.deferredEvictionStart (h : Nat) : Shell.Statement (.deferredEvictionStart h) := .inl ⟨_, fun s => by rw [exec_deferredEvictionStart, execDeferredEvictionStart]⟩
theorem Shell.retiredRelease (h : Nat) : Shell.Statement (.retiredRelease h) := .inl ⟨_, fun s => by rw [exec_retiredRelease, execRetiredRelease]⟩
theorem Shell.evict (tag : Nat) : Shell.Statement (.evict tag) := .inl ⟨_, fun s => by rw [exec_evict, execEvict]⟩
theorem Shell.reserve (tag : Nat) : Shell.Statement (.reserve tag) := .inl ⟨_, fun s => by rw [exec_reserve, execReserve]⟩
theorem Shell.allocationGrant : Shell.Statement (.allocationGrant) := .inl ⟨_, fun s => by rw [exec_allocationGrant, execAllocationGrant]⟩
theorem Shell.arbitrationGrant (pt dir : Nat) : Shell.Statement (.arbitrationGrant pt dir) := .inl ⟨_, fun s => by rw [exec_arbitrationGrant, execArbitrationGrant]⟩
theorem Shell.ageLoopUpdate : Shell.Statement (.ageLoopUpdate) := .inl ⟨_, fun s => by rw [exec_ageLoopUpdate, execAgeLoopUpdate]⟩
theorem Shell.engineStallExpiry (w : Waiter) : Shell.Statement (.engineStallExpiry w) := .inl ⟨_, fun s => by rw [exec_engineStallExpiry, execEngineStallExpiry]⟩
theorem Shell.park (tag : Nat) : Shell.Statement (.park tag) := .inl ⟨_, fun s => by rw [exec_park, execPark]⟩
theorem Shell.lift (tag : Nat) : Shell.Statement (.lift tag) := .inl ⟨_, fun s => by rw [exec_lift, execLift]⟩
theorem Shell.compress (tag : Nat) : Shell.Statement (.compress tag) := .inl ⟨_, fun s => by rw [exec_compress, execCompress]⟩
theorem Shell.observe (tag : Nat) : Shell.Statement (.observe tag) := .inl ⟨_, fun s => by rw [exec_observe, execObserve]⟩
theorem Shell.turnout (tag : Nat) : Shell.Statement (.turnout tag) := .inl ⟨_, fun s => by rw [exec_turnout, execTurnout]⟩
theorem Shell.liftStart (f c : Nat) : Shell.Statement (.liftStart f c) := .inl ⟨_, fun s => by rw [exec_liftStart, execLiftStart]⟩
theorem Shell.transferComplete (f c slot : Nat) (write fault : Bool) : Shell.Statement (.transferComplete f c slot write fault) := .inl ⟨_, fun s => by rw [exec_transferComplete, execTransferComplete]⟩
theorem Shell.priResponse (f g pasid : Nat) (ok : Bool) : Shell.Statement (.priResponse f g pasid ok) := .inl ⟨_, fun s => by rw [exec_priResponse, execPriResponse]⟩
theorem Shell.streamHaltComplete (f c slot : Nat) : Shell.Statement (.streamHaltComplete f c slot) := .inl ⟨_, fun s => by rw [exec_streamHaltComplete, execStreamHaltComplete]⟩
theorem Shell.streamAbortComplete (f c slot : Nat) : Shell.Statement (.streamAbortComplete f c slot) := .inl ⟨_, fun s => by rw [exec_streamAbortComplete, execStreamAbortComplete]⟩
theorem Shell.flmCtxResume (p : Path) (f c tag : Nat) : Shell.Statement (.flmCtxResume p f c tag) := .inl ⟨_, fun s => by rw [exec_flmCtxResume, execFlmCtxResume]⟩
theorem Shell.flmCtxAbort (p : Path) (f c tag : Nat) : Shell.Statement (.flmCtxAbort p f c tag) := .inl ⟨_, fun s => by rw [exec_flmCtxAbort, execFlmCtxAbort]⟩
theorem Shell.flmCtxHalt (p : Path) (f c tag : Nat) : Shell.Statement (.flmCtxHalt p f c tag) := .inl ⟨_, fun s => by rw [exec_flmCtxHalt, execFlmCtxHalt]⟩
theorem Shell.turnoutProgramWrite (p : Path) (f ix : Nat) (v : Word) : Shell.Statement (.turnoutProgramWrite p f ix v) := .inl ⟨_, fun s => by rw [exec_turnoutProgramWrite, execTurnoutProgramWrite]⟩
theorem Shell.turnNop (f c : Nat) : Shell.Statement (.turnNop f c) := .inl ⟨_, fun s => by rw [exec_turnNop, execTurnNop]⟩
theorem Shell.turnEnd (f c : Nat) : Shell.Statement (.turnEnd f c) := .inl ⟨_, fun s => by rw [exec_turnEnd, execTurnEnd]⟩
theorem Shell.endRecord (f c : Nat) : Shell.Statement (.endRecord f c) := .inl ⟨_, fun s => by rw [exec_endRecord, execEndRecord]⟩
theorem Shell.turnB (f c : Nat) : Shell.Statement (.turnB f c) := .inl ⟨_, fun s => by rw [exec_turnB, execTurnB]⟩
theorem Shell.djnz (f c : Nat) : Shell.Statement (.djnz f c) := .inl ⟨_, fun s => by rw [exec_djnz, execDjnz]⟩
theorem Shell.turnAlu (f c : Nat) : Shell.Statement (.turnAlu f c) := .inl ⟨_, fun s => by rw [exec_turnAlu, execTurnAlu]⟩
theorem Shell.turnAddi (f c : Nat) : Shell.Statement (.turnAddi f c) := .inl ⟨_, fun s => by rw [exec_turnAddi, execTurnAddi]⟩
theorem Shell.movi (f c : Nat) : Shell.Statement (.movi f c) := .inl ⟨_, fun s => by rw [exec_movi, execMovi]⟩
theorem Shell.movhi (f c : Nat) : Shell.Statement (.movhi f c) := .inl ⟨_, fun s => by rw [exec_movhi, execMovhi]⟩
theorem Shell.bset (f c : Nat) : Shell.Statement (.bset f c) := .inl ⟨_, fun s => by rw [exec_bset, execBset]⟩
theorem Shell.badd (f c : Nat) : Shell.Statement (.badd f c) := .inl ⟨_, fun s => by rw [exec_badd, execBadd]⟩
theorem Shell.ldw (f c : Nat) : Shell.Statement (.ldw f c) := .inl ⟨_, fun s => by rw [exec_ldw, execLdw]⟩
theorem Shell.ldobj (f c : Nat) : Shell.Statement (.ldobj f c) := .inl ⟨_, fun s => by rw [exec_ldobj, execLdobj]⟩
theorem Shell.ldlead (f c : Nat) : Shell.Statement (.ldlead f c) := .inl ⟨_, fun s => by rw [exec_ldlead, execLdlead]⟩
theorem Shell.turnTnow (f c : Nat) : Shell.Statement (.turnTnow f c) := .inl ⟨_, fun s => by rw [exec_turnTnow, execTurnTnow]⟩
theorem Shell.waitt (f c : Nat) : Shell.Statement (.waitt f c) := .inl ⟨_, fun s => by rw [exec_waitt, execWaitt]⟩
theorem Shell.waittEnd (f c : Nat) : Shell.Statement (.waittEnd f c) := .inl ⟨_, fun s => by rw [exec_waittEnd, execWaittEnd]⟩
theorem Shell.waito (f c : Nat) : Shell.Statement (.waito f c) := .inl ⟨_, fun s => by rw [exec_waito, execWaito]⟩
theorem Shell.waitoEnd (f c : Nat) : Shell.Statement (.waitoEnd f c) := .inl ⟨_, fun s => by rw [exec_waitoEnd, execWaitoEnd]⟩
theorem Shell.waitoTimeout (f c : Nat) : Shell.Statement (.waitoTimeout f c) := .inl ⟨_, fun s => by rw [exec_waitoTimeout, execWaitoTimeout]⟩
theorem Shell.burst (f c : Nat) : Shell.Statement (.burst f c) := .inl ⟨_, fun s => by rw [exec_burst, execBurst]⟩
theorem Shell.burstSlotFree (f c : Nat) : Shell.Statement (.burstSlotFree f c) := .inl ⟨_, fun s => by rw [exec_burstSlotFree, execBurstSlotFree]⟩
theorem Shell.waitb (f c : Nat) : Shell.Statement (.waitb f c) := .inl ⟨_, fun s => by rw [exec_waitb, execWaitb]⟩
theorem Shell.waitbEnd (f c : Nat) : Shell.Statement (.waitbEnd f c) := .inl ⟨_, fun s => by rw [exec_waitbEnd, execWaitbEnd]⟩
theorem Shell.lanes (f c : Nat) : Shell.Statement (.lanes f c) := .inl ⟨_, fun s => by rw [exec_lanes, execLanes]⟩
theorem Shell.obsid (f c : Nat) : Shell.Statement (.obsid f c) := .inl ⟨_, fun s => by rw [exec_obsid, execObsid]⟩
theorem Shell.dline (f c : Nat) : Shell.Statement (.dline f c) := .inl ⟨_, fun s => by rw [exec_dline, execDline]⟩
theorem Shell.turnSig (f c : Nat) : Shell.Statement (.turnSig f c) := .inl ⟨_, fun s => by rw [exec_turnSig, execTurnSig]⟩
theorem Shell.blockCompress (n : Nat) : Shell.Statement (.blockCompress n) := .inl ⟨_, fun s => by rw [exec_blockCompress, execBlockCompress]⟩
theorem Shell.escapeDecision (n : Nat) : Shell.Statement (.escapeDecision n) := .inl ⟨_, fun s => by rw [exec_escapeDecision, execEscapeDecision]⟩
theorem Shell.blockExpand (n : Nat) : Shell.Statement (.blockExpand n) := .inl ⟨_, fun s => by rw [exec_blockExpand, execBlockExpand]⟩
theorem Shell.keyDataWrite (p : Path) (v : Word) : Shell.Statement (.keyDataWrite p v) := .inl ⟨_, fun s => by rw [exec_keyDataWrite, execKeyDataWrite]⟩
theorem Shell.keySelWrite (p : Path) (v : Word) : Shell.Statement (.keySelWrite p v) := .inl ⟨_, fun s => by rw [exec_keySelWrite, execKeySelWrite]⟩
theorem Shell.keyLoad (p : Path) : Shell.Statement (.keyLoad p) := .inl ⟨_, fun s => by rw [exec_keyLoad, execKeyLoad]⟩
theorem Shell.keyClear (p : Path) : Shell.Statement (.keyClear p) := .inl ⟨_, fun s => by rw [exec_keyClear, execKeyClear]⟩
theorem Shell.keyRetainWrite (p : Path) (v : Word) : Shell.Statement (.keyRetainWrite p v) := .inl ⟨_, fun s => by rw [exec_keyRetainWrite, execKeyRetainWrite]⟩
theorem Shell.runChain (tag : Nat) : Shell.Statement (.runChain tag) := .inl ⟨_, fun s => by rw [exec_runChain, execRunChain]⟩
theorem Shell.chainStart : Shell.Statement (.chainStart) := .inl ⟨_, fun s => by rw [exec_chainStart, execChainStart]⟩
theorem Shell.bindingReady (h : Nat) : Shell.Statement (.bindingReady h) := .inl ⟨_, fun s => by rw [exec_bindingReady, execBindingReady]⟩
theorem Shell.descriptorExecute (n : Nat) : Shell.Statement (.descriptorExecute n) := .inl ⟨_, fun s => by rw [exec_descriptorExecute, execDescriptorExecute]⟩
theorem Shell.observeBlock : Shell.Statement (.observeBlock) := .inl ⟨_, fun s => by rw [exec_observeBlock, execObserveBlock]⟩
theorem Shell.publish (tag : Nat) : Shell.Statement (.publish tag) := .inl ⟨_, fun s => by rw [exec_publish, execPublish]⟩
theorem Shell.vote (tag : Nat) : Shell.Statement (.vote tag) := .inl ⟨_, fun s => by rw [exec_vote, execVote]⟩
theorem Shell.voteMsg (l : Nat) : Shell.Statement (.voteMsg l) := .inl ⟨_, fun s => by rw [exec_voteMsg, execVoteMsg]⟩
theorem Shell.voteResult (l : Nat) : Shell.Statement (.voteResult l) := .inl ⟨_, fun s => by rw [exec_voteResult, execVoteResult]⟩
theorem Shell.voteWindowClose : Shell.Statement (.voteWindowClose) := .inl ⟨_, fun s => by rw [exec_voteWindowClose, execVoteWindowClose]⟩
theorem Shell.resultTimeout : Shell.Statement (.resultTimeout) := .inl ⟨_, fun s => by rw [exec_resultTimeout, execResultTimeout]⟩
theorem Shell.scaleCommit : Shell.Statement (.scaleCommit) := .inl ⟨_, fun s => by rw [exec_scaleCommit, execScaleCommit]⟩
theorem Shell.commit (tag : Nat) : Shell.Statement (.commit tag) := .inl ⟨_, fun s => by rw [exec_commit, execCommit]⟩
theorem Shell.trickle (tag : Nat) : Shell.Statement (.trickle tag) := .inl ⟨_, fun s => by rw [exec_trickle, execTrickle]⟩
theorem Shell.restore (tag : Nat) : Shell.Statement (.restore tag) := .inl ⟨_, fun s => by rw [exec_restore, execRestore]⟩
theorem Shell.leaseSendTimer (node : Nat) : Shell.Statement (.leaseSendTimer node) := .inl ⟨_, fun s => by rw [exec_leaseSendTimer, execLeaseSendTimer]⟩
theorem Shell.leaseLost (node : Nat) : Shell.Statement (.leaseLost node) := .inl ⟨_, fun s => by rw [exec_leaseLost, execLeaseLost]⟩
theorem Shell.hostLeaseExpiry (n : Nat) : Shell.Statement (.hostLeaseExpiry n) := .inl ⟨_, fun s => by rw [exec_hostLeaseExpiry, execHostLeaseExpiry]⟩
theorem Shell.reofferTimer (node : Nat) : Shell.Statement (.reofferTimer node) := .inl ⟨_, fun s => by rw [exec_reofferTimer, execReofferTimer]⟩
theorem Shell.hostSlotCtrlWrite (p : Path) (n : Nat) (v : Word) : Shell.Statement (.hostSlotCtrlWrite p n v) := .inl ⟨_, fun s => by rw [exec_hostSlotCtrlWrite, execHostSlotCtrlWrite]⟩
theorem Shell.ckRegionResume (p : Path) (v : Word) : Shell.Statement (.ckRegionResume p v) := .inl ⟨_, fun s => by rw [exec_ckRegionResume, execCkRegionResume]⟩
theorem Shell.partnerLinkDown (p : Nat) : Shell.Statement (.partnerLinkDown p) := .inl ⟨_, fun s => by rw [exec_partnerLinkDown, execPartnerLinkDown]⟩
theorem Shell.partnerLinkUp (p width rate : Nat) (cxl : Bool) : Shell.Statement (.partnerLinkUp p width rate cxl) := .inl ⟨_, fun s => by rw [exec_partnerLinkUp, execPartnerLinkUp]⟩
theorem Shell.partnerHoldExpiry (p : Nat) : Shell.Statement (.partnerHoldExpiry p) := .inl ⟨_, fun s => by rw [exec_partnerHoldExpiry, execPartnerHoldExpiry]⟩
theorem Shell.ppPerstNFall (p : Nat) : Shell.Statement (.ppPerstNFall p) := .inl ⟨_, fun s => by rw [exec_ppPerstNFall, execPpPerstNFall]⟩
theorem Shell.hdmDecoderCommit (p k base size ways skip : Nat) : Shell.Statement (.hdmDecoderCommit p k base size ways skip) := .inl ⟨_, fun s => by rw [exec_hdmDecoderCommit, execHdmDecoderCommit]⟩
theorem Shell.markDoorbell (p off size : Nat) (v : Word) : Shell.Statement (.markDoorbell p off size v) := .inl ⟨_, fun s => by rw [exec_markDoorbell, execMarkDoorbell]⟩
theorem Shell.hintWrite (p h : Nat) (v : Word) : Shell.Statement (.hintWrite p h v) := .inl ⟨_, fun s => by rw [exec_hintWrite, execHintWrite]⟩
theorem Shell.gateMirrorRead (p off size tid : Nat) : Shell.Statement (.gateMirrorRead p off size tid) := .inl ⟨_, fun s => by rw [exec_gateMirrorRead, execGateMirrorRead]⟩
theorem Shell.memspecrd (p addr : Nat) : Shell.Statement (.memspecrd p addr) := .inl ⟨_, fun s => by rw [exec_memspecrd, execMemspecrd]⟩
theorem Shell.memUnsupported (p addr tid : Nat) (rd : Bool) : Shell.Statement (.memUnsupported p addr tid rd) := .inl ⟨_, fun s => by rw [exec_memUnsupported, execMemUnsupported]⟩
theorem Shell.getEventRecords (p log : Nat) : Shell.Statement (.getEventRecords p log) := .inl ⟨_, fun s => by rw [exec_getEventRecords, execGetEventRecords]⟩
theorem Shell.clearEventRecords (p log n : Nat) : Shell.Statement (.clearEventRecords p log n) := .inl ⟨_, fun s => by rw [exec_clearEventRecords, execClearEventRecords]⟩
theorem Shell.getSupportedLogs (p : Nat) : Shell.Statement (.getSupportedLogs p) := .inl ⟨_, fun s => by rw [exec_getSupportedLogs, execGetSupportedLogs]⟩
theorem Shell.getLog (p : Nat) : Shell.Statement (.getLog p) := .inl ⟨_, fun s => by rw [exec_getLog, execGetLog]⟩
theorem Shell.identifyMemoryDevice (p : Nat) : Shell.Statement (.identifyMemoryDevice p) := .inl ⟨_, fun s => by rw [exec_identifyMemoryDevice, execIdentifyMemoryDevice]⟩
theorem Shell.getHealthInfo (p : Nat) : Shell.Statement (.getHealthInfo p) := .inl ⟨_, fun s => by rw [exec_getHealthInfo, execGetHealthInfo]⟩
theorem Shell.mailboxUnsupported (p op : Nat) : Shell.Statement (.mailboxUnsupported p op) := .inl ⟨_, fun s => by rw [exec_mailboxUnsupported, execMailboxUnsupported]⟩
theorem Shell.hostReset (k : HostRst) : Shell.Statement (.hostReset k) := .inl ⟨_, fun s => by rw [exec_hostReset, execHostReset]⟩
theorem Shell.hostPerstRelease : Shell.Statement (.hostPerstRelease) := .inl ⟨_, fun s => by rw [exec_hostPerstRelease, execHostPerstRelease]⟩
theorem Shell.bar4AliasWrite (off : Nat) (v : Word) : Shell.Statement (.bar4AliasWrite off v) := .inl ⟨_, fun s => by rw [exec_bar4AliasWrite, execBar4AliasWrite]⟩
theorem Shell.apertureRead (addr len tid : Nat) : Shell.Statement (.apertureRead addr len tid) := .inl ⟨_, fun s => by rw [exec_apertureRead, execApertureRead]⟩
theorem Shell.apertureWrite (addr : Nat) (data : List (Option Byte)) : Shell.Statement (.apertureWrite addr data) := .inl ⟨_, fun s => by rw [exec_apertureWrite, execApertureWrite]⟩
theorem Shell.atsInvalidation (itag addr len : Nat) : Shell.Statement (.atsInvalidation itag addr len) := .inl ⟨_, fun s => by rw [exec_atsInvalidation, execAtsInvalidation]⟩
theorem Shell.atsInvalidationComplete (itag : Nat) : Shell.Statement (.atsInvalidationComplete itag) := .inl ⟨_, fun s => by rw [exec_atsInvalidationComplete, execAtsInvalidationComplete]⟩
theorem Shell.tierCompletionError (f c slot : Nat) (e : CplErr) : Shell.Statement (.tierCompletionError f c slot e) := .inl ⟨_, fun s => by rw [exec_tierCompletionError, execTierCompletionError]⟩
theorem Shell.expanderLinkDown (e : Nat) : Shell.Statement (.expanderLinkDown e) := .inl ⟨_, fun s => by rw [exec_expanderLinkDown, execExpanderLinkDown]⟩
theorem Shell.expanderLinkUp (e width rate : Nat) (flit256 : Bool) : Shell.Statement (.expanderLinkUp e width rate flit256) := .inl ⟨_, fun s => by rw [exec_expanderLinkUp, execExpanderLinkUp]⟩
theorem Shell.expanderDownLimit (e : Nat) : Shell.Statement (.expanderDownLimit e) := .inl ⟨_, fun s => by rw [exec_expanderDownLimit, execExpanderDownLimit]⟩
theorem Shell.expanderEventPoll (e warn fail : Nat) : Shell.Statement (.expanderEventPoll e warn fail) := .inl ⟨_, fun s => by rw [exec_expanderEventPoll, execExpanderEventPoll]⟩
theorem Shell.fecGroupReceive (l : Nat) (lanes : List (List Nat)) : Shell.Statement (.fecGroupReceive l lanes) := .inl ⟨_, fun s => by rw [exec_fecGroupReceive, execFecGroupReceive]⟩
theorem Shell.nak (l : Nat) : Shell.Statement (.nak l) := .inl ⟨_, fun s => by rw [exec_nak, execNak]⟩
theorem Shell.credit (l : Nat) : Shell.Statement (.credit l) := .inl ⟨_, fun s => by rw [exec_credit, execCredit]⟩
theorem Shell.param (l : Nat) : Shell.Statement (.param l) := .inl ⟨_, fun s => by rw [exec_param, execParam]⟩
theorem Shell.paramAck (l : Nat) : Shell.Statement (.paramAck l) := .inl ⟨_, fun s => by rw [exec_paramAck, execParamAck]⟩
theorem Shell.laneDrop (l : Nat) : Shell.Statement (.laneDrop l) := .inl ⟨_, fun s => by rw [exec_laneDrop, execLaneDrop]⟩
theorem Shell.laneDropAck (l : Nat) : Shell.Statement (.laneDropAck l) := .inl ⟨_, fun s => by rw [exec_laneDropAck, execLaneDropAck]⟩
theorem Shell.lpReq (l : Nat) : Shell.Statement (.lpReq l) := .inl ⟨_, fun s => by rw [exec_lpReq, execLpReq]⟩
theorem Shell.lpAck (l : Nat) : Shell.Statement (.lpAck l) := .inl ⟨_, fun s => by rw [exec_lpAck, execLpAck]⟩
theorem Shell.linkResume (l : Nat) : Shell.Statement (.linkResume l) := .inl ⟨_, fun s => by rw [exec_linkResume, execLinkResume]⟩
theorem Shell.nakRepeatTimer (l : Nat) : Shell.Statement (.nakRepeatTimer l) := .inl ⟨_, fun s => by rw [exec_nakRepeatTimer, execNakRepeatTimer]⟩
theorem Shell.ackTimeout (l : Nat) : Shell.Statement (.ackTimeout l) := .inl ⟨_, fun s => by rw [exec_ackTimeout, execAckTimeout]⟩
theorem Shell.creditSend (l : Nat) : Shell.Statement (.creditSend l) := .inl ⟨_, fun s => by rw [exec_creditSend, execCreditSend]⟩
theorem Shell.energyDetect (l : Nat) : Shell.Statement (.energyDetect l) := .inl ⟨_, fun s => by rw [exec_energyDetect, execEnergyDetect]⟩
theorem Shell.tsFrame (l bits peer : Nat) (eq : Bool) : Shell.Statement (.tsFrame l bits peer eq) := .inl ⟨_, fun s => by rw [exec_tsFrame, execTsFrame]⟩
theorem Shell.trainTimeout (l : Nat) : Shell.Statement (.trainTimeout l) := .inl ⟨_, fun s => by rw [exec_trainTimeout, execTrainTimeout]⟩
theorem Shell.linkRetryTimer (l : Nat) : Shell.Statement (.linkRetryTimer l) := .inl ⟨_, fun s => by rw [exec_linkRetryTimer, execLinkRetryTimer]⟩
theorem Shell.fecWindow (l : Nat) : Shell.Statement (.fecWindow l) := .inl ⟨_, fun s => by rw [exec_fecWindow, execFecWindow]⟩
theorem Shell.promotePeriod (l : Nat) : Shell.Statement (.promotePeriod l) := .inl ⟨_, fun s => by rw [exec_promotePeriod, execPromotePeriod]⟩
theorem Shell.retrain (p : Path) (l : Nat) (v : Word) : Shell.Statement (.retrain p l v) := .inl ⟨_, fun s => by rw [exec_retrain, execRetrain]⟩
theorem Shell.linkWakeSignal (l : Nat) : Shell.Statement (.linkWakeSignal l) := .inl ⟨_, fun s => by rw [exec_linkWakeSignal, execLinkWakeSignal]⟩
theorem Shell.write (l : Nat) : Shell.Statement (.write l) := .inl ⟨_, fun s => by rw [exec_write, execWrite]⟩
theorem Shell.readReq (l : Nat) : Shell.Statement (.readReq l) := .inl ⟨_, fun s => by rw [exec_readReq, execReadReq]⟩
theorem Shell.flushAnswer (l : Nat) : Shell.Statement (.flushAnswer l) := .inl ⟨_, fun s => by rw [exec_flushAnswer, execFlushAnswer]⟩
theorem Shell.readRsp (l : Nat) : Shell.Statement (.readRsp l) := .inl ⟨_, fun s => by rw [exec_readRsp, execReadRsp]⟩
theorem Shell.barrier (tag : Nat) : Shell.Statement (.barrier tag) := .inl ⟨_, fun s => by rw [exec_barrier, execBarrier]⟩
theorem Shell.barrierArrive (l : Nat) : Shell.Statement (.barrierArrive l) := .inl ⟨_, fun s => by rw [exec_barrierArrive, execBarrierArrive]⟩
theorem Shell.barrierRelease (l : Nat) : Shell.Statement (.barrierRelease l) := .inl ⟨_, fun s => by rw [exec_barrierRelease, execBarrierRelease]⟩
theorem Shell.barrierRootTimeout (g step : Nat) : Shell.Statement (.barrierRootTimeout g step) := .inl ⟨_, fun s => by rw [exec_barrierRootTimeout, execBarrierRootTimeout]⟩
theorem Shell.barrierTimeout (g step : Nat) : Shell.Statement (.barrierTimeout g step) := .inl ⟨_, fun s => by rw [exec_barrierTimeout, execBarrierTimeout]⟩
theorem Shell.ckptOfferFirst (l : Nat) : Shell.Statement (.ckptOfferFirst l) := .inl ⟨_, fun s => by rw [exec_ckptOfferFirst, execCkptOfferFirst]⟩
theorem Shell.ckptOfferEpoch (l : Nat) : Shell.Statement (.ckptOfferEpoch l) := .inl ⟨_, fun s => by rw [exec_ckptOfferEpoch, execCkptOfferEpoch]⟩
theorem Shell.ckptOfferRejoin (l : Nat) : Shell.Statement (.ckptOfferRejoin l) := .inl ⟨_, fun s => by rw [exec_ckptOfferRejoin, execCkptOfferRejoin]⟩
theorem Shell.ckptOfferQuery (l : Nat) : Shell.Statement (.ckptOfferQuery l) := .inl ⟨_, fun s => by rw [exec_ckptOfferQuery, execCkptOfferQuery]⟩
theorem Shell.ckptOfferAccept (l : Nat) : Shell.Statement (.ckptOfferAccept l) := .inl ⟨_, fun s => by rw [exec_ckptOfferAccept, execCkptOfferAccept]⟩
theorem Shell.ckptOfferRefuse (l : Nat) : Shell.Statement (.ckptOfferRefuse l) := .inl ⟨_, fun s => by rw [exec_ckptOfferRefuse, execCkptOfferRefuse]⟩
theorem Shell.ckptData (l : Nat) : Shell.Statement (.ckptData l) := .inl ⟨_, fun s => by rw [exec_ckptData, execCkptData]⟩
theorem Shell.ckptCommitCommit (l : Nat) : Shell.Statement (.ckptCommitCommit l) := .inl ⟨_, fun s => by rw [exec_ckptCommitCommit, execCkptCommitCommit]⟩
theorem Shell.ckptCommitAck (l : Nat) : Shell.Statement (.ckptCommitAck l) := .inl ⟨_, fun s => by rw [exec_ckptCommitAck, execCkptCommitAck]⟩
theorem Shell.ckptCommitRecord (l : Nat) : Shell.Statement (.ckptCommitRecord l) := .inl ⟨_, fun s => by rw [exec_ckptCommitRecord, execCkptCommitRecord]⟩
theorem Shell.ckptCommitNoRecord (l : Nat) : Shell.Statement (.ckptCommitNoRecord l) := .inl ⟨_, fun s => by rw [exec_ckptCommitNoRecord, execCkptCommitNoRecord]⟩
theorem Shell.leaseRenew (l : Nat) : Shell.Statement (.leaseRenew l) := .inl ⟨_, fun s => by rw [exec_leaseRenew, execLeaseRenew]⟩
theorem Shell.leaseAnswer (l : Nat) : Shell.Statement (.leaseAnswer l) := .inl ⟨_, fun s => by rw [exec_leaseAnswer, execLeaseAnswer]⟩
theorem Shell.fenceFence (l : Nat) : Shell.Statement (.fenceFence l) := .inl ⟨_, fun s => by rw [exec_fenceFence, execFenceFence]⟩
theorem Shell.fenceAck (l : Nat) : Shell.Statement (.fenceAck l) := .inl ⟨_, fun s => by rw [exec_fenceAck, execFenceAck]⟩
theorem Shell.lrApply (p : Path) : Shell.Statement (.lrApply p) := .inl ⟨_, fun s => by rw [exec_lrApply, execLrApply]⟩
theorem Shell.lrQuarantine (l : Nat) : Shell.Statement (.lrQuarantine l) := .inl ⟨_, fun s => by rw [exec_lrQuarantine, execLrQuarantine]⟩
theorem Shell.lrRouteDataWrite (p : Path) (v : Word) : Shell.Statement (.lrRouteDataWrite p v) := .inl ⟨_, fun s => by rw [exec_lrRouteDataWrite, execLrRouteDataWrite]⟩
theorem Shell.lrHostCtrlWrite (p : Path) (n : Nat) (v : Word) : Shell.Statement (.lrHostCtrlWrite p n v) := .inl ⟨_, fun s => by rw [exec_lrHostCtrlWrite, execLrHostCtrlWrite]⟩
theorem Shell.refreshDue (n pc : Nat) (waits : Bool) : Shell.Statement (.refreshDue n pc waits) := .inl ⟨_, fun s => by rw [exec_refreshDue, execRefreshDue]⟩
theorem Shell.hbmTempRead (n : Nat) (t : Int) : Shell.Statement (.hbmTempRead n t) := .inl ⟨_, fun s => by rw [exec_hbmTempRead, execHbmTempRead]⟩
theorem Shell.hbmCalibration (n c : Nat) (ok : Bool) : Shell.Statement (.hbmCalibration n c ok) := .inl ⟨_, fun s => by rw [exec_hbmCalibration, execHbmCalibration]⟩
theorem Shell.caParityError (n k : Nat) : Shell.Statement (.caParityError n k) := .inl ⟨_, fun s => by rw [exec_caParityError, execCaParityError]⟩
theorem Shell.hbmIlvWrite (p : Path) (n : Nat) (v : Word) : Shell.Statement (.hbmIlvWrite p n v) := .inl ⟨_, fun s => by rw [exec_hbmIlvWrite, execHbmIlvWrite]⟩
theorem Shell.traceIdleFlush : Shell.Statement (.traceIdleFlush) := .inl ⟨_, fun s => by rw [exec_traceIdleFlush, execTraceIdleFlush]⟩
theorem Shell.trcFlush (p : Path) : Shell.Statement (.trcFlush p) := .inl ⟨_, fun s => by rw [exec_trcFlush, execTrcFlush]⟩
theorem Shell.syncPeriodic : Shell.Statement (.syncPeriodic) := .inl ⟨_, fun s => by rw [exec_syncPeriodic, execSyncPeriodic]⟩
theorem Shell.stopAfterDone : Shell.Statement (.stopAfterDone) := .inl ⟨_, fun s => by rw [exec_stopAfterDone, execStopAfterDone]⟩
theorem Shell.trcRecordWrite (p : Path) (v : Word) (hits : Nat) : Shell.Statement (.trcRecordWrite p v hits) := .inl ⟨_, fun s => by rw [exec_trcRecordWrite, execTrcRecordWrite]⟩
theorem Shell.trcRdWrite (p : Path) (v : Word) : Shell.Statement (.trcRdWrite p v) := .inl ⟨_, fun s => by rw [exec_trcRdWrite, execTrcRdWrite]⟩
theorem Shell.trcSwHiWrite (p : Path) (v : Word) : Shell.Statement (.trcSwHiWrite p v) := .inl ⟨_, fun s => by rw [exec_trcSwHiWrite, execTrcSwHiWrite]⟩
theorem Shell.ueFirstClear (p : Path) : Shell.Statement (.ueFirstClear p) := .inl ⟨_, fun s => by rw [exec_ueFirstClear, execUeFirstClear]⟩
theorem Shell.mgmtCtrlWrite (p : Path) (v : Word) : Shell.Statement (.mgmtCtrlWrite p v) := .inl ⟨_, fun s => by rw [exec_mgmtCtrlWrite, execMgmtCtrlWrite]⟩
theorem Shell.regRead (src : MSrc) (pec : Pec) (off : Nat) : Shell.Statement (.regRead src pec off) := .inr (.inl ⟨_, fun s => by rw [exec_regRead, execRegRead]⟩)
theorem Shell.regWrite (src : MSrc) (pec : Pec) (off : Nat) (v : Word) : Shell.Statement (.regWrite src pec off v) := .inr (.inl ⟨_, fun s => by rw [exec_regWrite, execRegWrite]⟩)
theorem Shell.regRead64 (src : MSrc) (pec : Pec) (off : Nat) : Shell.Statement (.regRead64 src pec off) := .inr (.inl ⟨_, fun s => by rw [exec_regRead64, execRegRead64]⟩)
theorem Shell.regWrite64 (src : MSrc) (pec : Pec) (off : Nat) (lo hi : Word) : Shell.Statement (.regWrite64 src pec off lo hi) := .inr (.inl ⟨_, fun s => by rw [exec_regWrite64, execRegWrite64]⟩)
theorem Shell.status (src : MSrc) (pec : Pec) : Shell.Statement (.status src pec) := .inr (.inl ⟨_, fun s => by rw [exec_status, execStatus]⟩)
theorem Shell.temp (src : MSrc) (pec : Pec) : Shell.Statement (.temp src pec) := .inr (.inl ⟨_, fun s => by rw [exec_temp, execTemp]⟩)
theorem Shell.ledgerRead (src : MSrc) (pec : Pec) (slot off count : Nat) : Shell.Statement (.ledgerRead src pec slot off count) := .inr (.inl ⟨_, fun s => by rw [exec_ledgerRead, execLedgerRead]⟩)
theorem Shell.verdictRead (src : MSrc) (pec : Pec) (ix : Nat) : Shell.Statement (.verdictRead src pec ix) := .inr (.inl ⟨_, fun s => by rw [exec_verdictRead, execVerdictRead]⟩)
theorem Shell.mgmtVerdictClear (src : MSrc) (pec : Pec) (ix : Nat) : Shell.Statement (.mgmtVerdictClear src pec ix) := .inr (.inl ⟨_, fun s => by rw [exec_mgmtVerdictClear, execMgmtVerdictClear]⟩)
theorem Shell.imagePrefWrite (src : MSrc) (pec : Pec) (v : Nat) : Shell.Statement (.imagePrefWrite src pec v) := .inr (.inl ⟨_, fun s => by rw [exec_imagePrefWrite, execImagePrefWrite]⟩)
theorem Shell.reboot (src : MSrc) (pec : Pec) (key : Nat) : Shell.Statement (.reboot src pec key) := .inr (.inl ⟨_, fun s => by rw [exec_reboot, execReboot]⟩)
theorem Shell.flashRead (src : MSrc) (pec : Pec) (addr len : Nat) : Shell.Statement (.flashRead src pec addr len) := .inr (.inl ⟨_, fun s => by rw [exec_flashRead, execFlashRead]⟩)
theorem Shell.flashProgram (src : MSrc) (pec : Pec) (addr : Nat) (data : List Byte) : Shell.Statement (.flashProgram src pec addr data) := .inr (.inl ⟨_, fun s => by rw [exec_flashProgram, execFlashProgram]⟩)
theorem Shell.flashErase (src : MSrc) (pec : Pec) (addr size : Nat) : Shell.Statement (.flashErase src pec addr size) := .inr (.inl ⟨_, fun s => by rw [exec_flashErase, execFlashErase]⟩)
theorem Shell.flashStatus (src : MSrc) (pec : Pec) : Shell.Statement (.flashStatus src pec) := .inr (.inl ⟨_, fun s => by rw [exec_flashStatus, execFlashStatus]⟩)
theorem Shell.flashCmdRead (p : Path) : Shell.Statement (.flashCmdRead p) := .inl ⟨_, fun s => by rw [exec_flashCmdRead, execFlashCmdRead]⟩
theorem Shell.flashCmdProgram (p : Path) : Shell.Statement (.flashCmdProgram p) := .inl ⟨_, fun s => by rw [exec_flashCmdProgram, execFlashCmdProgram]⟩
theorem Shell.flashCmdErase4k (p : Path) : Shell.Statement (.flashCmdErase4k p) := .inl ⟨_, fun s => by rw [exec_flashCmdErase4k, execFlashCmdErase4k]⟩
theorem Shell.flashCmdErase64k (p : Path) : Shell.Statement (.flashCmdErase64k p) := .inl ⟨_, fun s => by rw [exec_flashCmdErase64k, execFlashCmdErase64k]⟩
theorem Shell.flashCommandDone (bad : Bool) : Shell.Statement (.flashCommandDone bad) := .inl ⟨_, fun s => by rw [exec_flashCommandDone, execFlashCommandDone]⟩
theorem Shell.smbStretchTimeout : Shell.Statement (.smbStretchTimeout) := .inr (.inl ⟨_, fun s => by rw [exec_smbStretchTimeout, execSmbStretchTimeout]⟩)
theorem Shell.smbClockLowTimeout : Shell.Statement (.smbClockLowTimeout) := .inr (.inl ⟨_, fun s => by rw [exec_smbClockLowTimeout, execSmbClockLowTimeout]⟩)
theorem Shell.setEndpointId (src : MSrc) (eid : Nat) : Shell.Statement (.setEndpointId src eid) := .inr (.inl ⟨_, fun s => by rw [exec_setEndpointId, execSetEndpointId]⟩)
theorem Shell.getEndpointId (src : MSrc) : Shell.Statement (.getEndpointId src) := .inr (.inl ⟨_, fun s => by rw [exec_getEndpointId, execGetEndpointId]⟩)
theorem Shell.getEndpointUuid (src : MSrc) : Shell.Statement (.getEndpointUuid src) := .inr (.inl ⟨_, fun s => by rw [exec_getEndpointUuid, execGetEndpointUuid]⟩)
theorem Shell.getMctpVersionSupport (src : MSrc) (type : Nat) : Shell.Statement (.getMctpVersionSupport src type) := .inr (.inl ⟨_, fun s => by rw [exec_getMctpVersionSupport, execGetMctpVersionSupport]⟩)
theorem Shell.getMessageTypeSupport (src : MSrc) : Shell.Statement (.getMessageTypeSupport src) := .inr (.inl ⟨_, fun s => by rw [exec_getMessageTypeSupport, execGetMessageTypeSupport]⟩)
theorem Shell.getVendorDefinedMessageSupport (src : MSrc) : Shell.Statement (.getVendorDefinedMessageSupport src) := .inr (.inl ⟨_, fun s => by rw [exec_getVendorDefinedMessageSupport, execGetVendorDefinedMessageSupport]⟩)
theorem Shell.gettid (src : MSrc) : Shell.Statement (.gettid src) := .inr (.inl ⟨_, fun s => by rw [exec_gettid, execGettid]⟩)
theorem Shell.settid (src : MSrc) (tid : Nat) : Shell.Statement (.settid src tid) := .inr (.inl ⟨_, fun s => by rw [exec_settid, execSettid]⟩)
theorem Shell.getpldmversion (src : MSrc) (type : Nat) : Shell.Statement (.getpldmversion src type) := .inr (.inl ⟨_, fun s => by rw [exec_getpldmversion, execGetpldmversion]⟩)
theorem Shell.getpldmtypes (src : MSrc) : Shell.Statement (.getpldmtypes src) := .inr (.inl ⟨_, fun s => by rw [exec_getpldmtypes, execGetpldmtypes]⟩)
theorem Shell.getpldmcommands (src : MSrc) (type : Nat) : Shell.Statement (.getpldmcommands src type) := .inr (.inl ⟨_, fun s => by rw [exec_getpldmcommands, execGetpldmcommands]⟩)
theorem Shell.getsensorreading (src : MSrc) (id : Nat) : Shell.Statement (.getsensorreading src id) := .inr (.inl ⟨_, fun s => by rw [exec_getsensorreading, execGetsensorreading]⟩)
theorem Shell.getstatesensorreadings (src : MSrc) (id : Nat) : Shell.Statement (.getstatesensorreadings src id) := .inr (.inl ⟨_, fun s => by rw [exec_getstatesensorreadings, execGetstatesensorreadings]⟩)
theorem Shell.getpdrrepositoryinfo (src : MSrc) : Shell.Statement (.getpdrrepositoryinfo src) := .inr (.inl ⟨_, fun s => by rw [exec_getpdrrepositoryinfo, execGetpdrrepositoryinfo]⟩)
theorem Shell.getpdr (src : MSrc) (handle : Nat) : Shell.Statement (.getpdr src handle) := .inr (.inl ⟨_, fun s => by rw [exec_getpdr, execGetpdr]⟩)
theorem Shell.seteventreceiver (src : MSrc) (eid : Nat) : Shell.Statement (.seteventreceiver src eid) := .inr (.inl ⟨_, fun s => by rw [exec_seteventreceiver, execSeteventreceiver]⟩)
theorem Shell.extest : Shell.Statement (.extest) := .inr (.inl ⟨_, fun s => by rw [exec_extest, execExtest]⟩)
theorem Shell.idcode : Shell.Statement (.idcode) := .inr (.inl ⟨_, fun s => by rw [exec_idcode, execIdcode]⟩)
theorem Shell.samplePreload : Shell.Statement (.samplePreload) := .inr (.inl ⟨_, fun s => by rw [exec_samplePreload, execSamplePreload]⟩)
theorem Shell.highz : Shell.Statement (.highz) := .inr (.inl ⟨_, fun s => by rw [exec_highz, execHighz]⟩)
theorem Shell.clamp : Shell.Statement (.clamp) := .inr (.inl ⟨_, fun s => by rw [exec_clamp, execClamp]⟩)
theorem Shell.extestPulse : Shell.Statement (.extestPulse) := .inr (.inl ⟨_, fun s => by rw [exec_extestPulse, execExtestPulse]⟩)
theorem Shell.extestTrain : Shell.Statement (.extestTrain) := .inr (.inl ⟨_, fun s => by rw [exec_extestTrain, execExtestTrain]⟩)
theorem Shell.bypass : Shell.Statement (.bypass) := .inr (.inl ⟨_, fun s => by rw [exec_bypass, execBypass]⟩)
theorem Shell.mgmtAccess (wr : Bool) (off : Nat) (v : Word) : Shell.Statement (.mgmtAccess wr off v) := .inr (.inl ⟨_, fun s => by rw [exec_mgmtAccess, execMgmtAccess]⟩)
theorem Shell.trstNReset : Shell.Statement (.trstNReset) := .inr (.inl ⟨_, fun s => by rw [exec_trstNReset, execTrstNReset]⟩)
theorem Shell.gpioInputEdge (n : Nat) (high : Bool) : Shell.Statement (.gpioInputEdge n high) := .inr (.inl ⟨_, fun s => by rw [exec_gpioInputEdge, execGpioInputEdge]⟩)
theorem Shell.fleetAlertWire (low : Bool) : Shell.Statement (.fleetAlertWire low) := .inr (.inl ⟨_, fun s => by rw [exec_fleetAlertWire, execFleetAlertWire]⟩)
theorem Shell.registerRead (p : Path) (addr size : Nat) : Shell.Statement (.registerRead p addr size) := .inl ⟨_, fun s => by rw [exec_registerRead, execRegisterRead]⟩
theorem Shell.hostConfigRequest (c : CfgReq) (tid : Nat) : Shell.Statement (.hostConfigRequest c tid) := .inl ⟨_, fun s => by rw [exec_hostConfigRequest, execHostConfigRequest]⟩
theorem Shell.msiXTableWrite (v w : Nat) (x : Word) : Shell.Statement (.msiXTableWrite v w x) := .inl ⟨_, fun s => by rw [exec_msiXTableWrite, execMsiXTableWrite]⟩
theorem Shell.hostLinkUp (width rate : Nat) : Shell.Statement (.hostLinkUp width rate) := .inl ⟨_, fun s => by rw [exec_hostLinkUp, execHostLinkUp]⟩
theorem Shell.portRegisterBlockAccess (p off size : Nat) (v : Option Nat) (tid : Nat) : Shell.Statement (.portRegisterBlockAccess p off size v tid) := .inl ⟨_, fun s => by rw [exec_portRegisterBlockAccess, execPortRegisterBlockAccess]⟩
theorem Shell.illegalBundle (ue : Nat) : Shell.Statement (.illegalBundle ue) := .inl ⟨_, fun s => by rw [exec_illegalBundle, execIllegalBundle]⟩
theorem Shell.turnIllegal (f c : Nat) (ue : Bool) : Shell.Statement (.turnIllegal f c ue) := .inl ⟨_, fun s => by rw [exec_turnIllegal, execTurnIllegal]⟩
theorem Shell.unlistedSmbusCommand (code : Nat) : Shell.Statement (.unlistedSmbusCommand code) := .inr (.inl ⟨_, fun s => by rw [exec_unlistedSmbusCommand, execUnlistedSmbusCommand]⟩)
theorem Shell.referenceClockLoss : Shell.Statement (.referenceClockLoss) := .inr (.inr ⟨⟨_, fun s => by rw [exec_referenceClockLoss, execReferenceClockLoss]⟩, .inr (.inr (.inr (.inr rfl)))⟩)
theorem Shell.mainRailExcursion (core : Bool) : Shell.Statement (.mainRailExcursion core) := .inr (.inr ⟨⟨_, fun s => by rw [exec_mainRailExcursion, execMainRailExcursion]⟩, .inr (.inr (.inr (.inl ⟨_, rfl⟩)))⟩)
theorem Shell.partnerConfigRequest (p : Nat) (flr : Bool) : Shell.Statement (.partnerConfigRequest p flr) := .inl ⟨_, fun s => by rw [exec_partnerConfigRequest, execPartnerConfigRequest]⟩

end Sys2Proof.Laws

namespace Sys2Proof.Machine

/-- Every command, by its lemma. -/
theorem exec_shape (c : Instr) : Laws.Shell.Statement c :=
  match c with
  | .registerWrite p addr size v => Laws.Shell.registerWrite p addr size v
  | .unmappedAccess p addr wr => Laws.Shell.unmappedAccess p addr wr
  | .latchReadLow p b page off => Laws.Shell.latchReadLow p b page off
  | .highWordWrite p b page off v => Laws.Shell.highWordWrite p b page off v
  | .irqPendClear p b page v => Laws.Shell.irqPendClear p b page v
  | .irqMaskWrite p b page v => Laws.Shell.irqMaskWrite p b page v
  | .irqForce p b page v => Laws.Shell.irqForce p b page v
  | .errCodeClear p b page => Laws.Shell.errCodeClear p b page
  | .blockReset p b page => Laws.Shell.blockReset p b page
  | .resetComplete b => Laws.Shell.resetComplete b
  | .blkFreeze p b page => Laws.Shell.blkFreeze p b page
  | .thaw p b page => Laws.Shell.thaw p b page
  | .frozenReached b => Laws.Shell.frozenReached b
  | .blkQuiesce p b page => Laws.Shell.blkQuiesce p b page
  | .quiescedReached b => Laws.Shell.quiescedReached b
  | .blkEnable p b page => Laws.Shell.blkEnable p b page
  | .globalFreezeSet p => Laws.Shell.globalFreezeSet p
  | .globalFreezeClear p => Laws.Shell.globalFreezeClear p
  | .allFrozen => Laws.Shell.allFrozen
  | .stateDataRead p b page => Laws.Shell.stateDataRead p b page
  | .loopBoundsWrite p b page off v same => Laws.Shell.loopBoundsWrite p b page off v same
  | .loopPinWrite p b page off v same => Laws.Shell.loopPinWrite p b page off v same
  | .aoPowerUp straps => Laws.Shell.aoPowerUp straps
  | .aoDomainReset straps => Laws.Shell.aoDomainReset straps
  | .devResetAssert => Laws.Shell.devResetAssert
  | .vidStep => Laws.Shell.vidStep
  | .bootStart testHigh => Laws.Shell.bootStart testHigh
  | .stageAoStart => Laws.Shell.stageAoStart
  | .stageFuses bad absent => Laws.Shell.stageFuses bad absent
  | .stageImageVerify sfdp => Laws.Shell.stageImageVerify sfdp
  | .stagePllLock ok => Laws.Shell.stagePllLock ok
  | .stageHbmBringup trained pcs chs => Laws.Shell.stageHbmBringup trained pcs chs
  | .stageSramInit ok flumes => Laws.Shell.stageSramInit ok flumes
  | .stageFwLoad ok => Laws.Shell.stageFwLoad ok
  | .stageHostLink fail => Laws.Shell.stageHostLink fail
  | .stagePartnerPorts outs => Laws.Shell.stagePartnerPorts outs
  | .stageExpanderPorts outs mib => Laws.Shell.stageExpanderPorts outs mib
  | .stageLateralLinks => Laws.Shell.stageLateralLinks
  | .stageSelftest tiles lanes => Laws.Shell.stageSelftest tiles lanes
  | .stageMapPublish ok => Laws.Shell.stageMapPublish ok
  | .stageReady => Laws.Shell.stageReady
  | .stageTimeout => Laws.Shell.stageTimeout
  | .ledgerCopyDone ok => Laws.Shell.ledgerCopyDone ok
  | .verdictClear p v => Laws.Shell.verdictClear p v
  | .bootReboot p v => Laws.Shell.bootReboot p v
  | .imagePref p v => Laws.Shell.imagePref p v
  | .pwrReqDoze p => Laws.Shell.pwrReqDoze p
  | .pwrReqHold p => Laws.Shell.pwrReqHold p
  | .pwrReqCancel p => Laws.Shell.pwrReqCancel p
  | .holdDrainDone bad => Laws.Shell.holdDrainDone bad
  | .pendingRequestEnter => Laws.Shell.pendingRequestEnter
  | .pendingRequestDemote => Laws.Shell.pendingRequestDemote
  | .pendingRequestDrop => Laws.Shell.pendingRequestDrop
  | .idleEntry => Laws.Shell.idleEntry
  | .tc0Fire => Laws.Shell.tc0Fire
  | .dozeExitComplete => Laws.Shell.dozeExitComplete
  | .governorUpdate p => Laws.Shell.governorUpdate p
  | .tjSample tj sensor => Laws.Shell.tjSample tj sensor
  | .powerGate b => Laws.Shell.powerGate b
  | .ghProgRunSet p => Laws.Shell.ghProgRunSet p
  | .ghProgRunClear p => Laws.Shell.ghProgRunClear p
  | .ghDoorbell p v => Laws.Shell.ghDoorbell p v
  | .ghTimerFire n => Laws.Shell.ghTimerFire n
  | .ghWaitMatch => Laws.Shell.ghWaitMatch
  | .ghNop => Laws.Shell.ghNop
  | .ghStop => Laws.Shell.ghStop
  | .ghRet => Laws.Shell.ghRet
  | .ghWake => Laws.Shell.ghWake
  | .seqVret => Laws.Shell.seqVret
  | .seqSre => Laws.Shell.seqSre
  | .seqLinklp l1 => Laws.Shell.seqLinklp l1
  | .seqFastoff => Laws.Shell.seqFastoff
  | .seqFaston => Laws.Shell.seqFaston
  | .seqVopr => Laws.Shell.seqVopr
  | .seqSrx bad => Laws.Shell.seqSrx bad
  | .seqLinkup => Laws.Shell.seqLinkup
  | .seqResume ue => Laws.Shell.seqResume ue
  | .scrub ce ue => Laws.Shell.scrub ce ue
  | .scrubDone => Laws.Shell.scrubDone
  | .ghTemp => Laws.Shell.ghTemp
  | .gpin => Laws.Shell.gpin
  | .evt => Laws.Shell.evt
  | .ghWait => Laws.Shell.ghWait
  | .ghSig => Laws.Shell.ghSig
  | .ldi => Laws.Shell.ldi
  | .ghAlu => Laws.Shell.ghAlu
  | .ghAddi => Laws.Shell.ghAddi
  | .ghCmpi => Laws.Shell.ghCmpi
  | .ghB => Laws.Shell.ghB
  | .ghCall => Laws.Shell.ghCall
  | .ldc => Laws.Shell.ldc
  | .tcset => Laws.Shell.tcset
  | .tcclr => Laws.Shell.tcclr
  | .tcrd => Laws.Shell.tcrd
  | .ghTnow => Laws.Shell.ghTnow
  | .tnowh => Laws.Shell.tnowh
  | .ghLd => Laws.Shell.ghLd
  | .ghSt => Laws.Shell.ghSt
  | .btst => Laws.Shell.btst
  | .ghBudgetExceeded => Laws.Shell.ghBudgetExceeded
  | .issue ue => Laws.Shell.issue ue
  | .issueStallRelease => Laws.Shell.issueStallRelease
  | .taskDispatch tag ue => Laws.Shell.taskDispatch tag ue
  | .ringConsWrite p n v => Laws.Shell.ringConsWrite p n v
  | .ringConfigWrite p n size v => Laws.Shell.ringConfigWrite p n size v
  | .imemWindowWrite p off v => Laws.Shell.imemWindowWrite p off v
  | .hgStart p => Laws.Shell.hgStart p
  | .hgHaltReq p => Laws.Shell.hgHaltReq p
  | .hgStep p ue => Laws.Shell.hgStep p ue
  | .hgDoorbell p v => Laws.Shell.hgDoorbell p v
  | .taskAbort p tag => Laws.Shell.taskAbort p tag
  | .taskAbortAll p => Laws.Shell.taskAbortAll p
  | .hgTimerFire n => Laws.Shell.hgTimerFire n
  | .hgWaitEnd => Laws.Shell.hgWaitEnd
  | .hgNop ue => Laws.Shell.hgNop ue
  | .hgAlu ue => Laws.Shell.hgAlu ue
  | .hgAlui ue => Laws.Shell.hgAlui ue
  | .ext ue => Laws.Shell.ext ue
  | .dep ue => Laws.Shell.dep ue
  | .cnt ue => Laws.Shell.cnt ue
  | .cmp ue => Laws.Shell.cmp ue
  | .cmpi ue => Laws.Shell.cmpi ue
  | .plog ue => Laws.Shell.plog ue
  | .sel ue => Laws.Shell.sel ue
  | .mfp ue => Laws.Shell.mfp ue
  | .mtp ue => Laws.Shell.mtp ue
  | .mpeek ue => Laws.Shell.mpeek ue
  | .mpop ue => Laws.Shell.mpop ue
  | .mfev ue => Laws.Shell.mfev ue
  | .mfh ue => Laws.Shell.mfh ue
  | .hqry ue => Laws.Shell.hqry ue
  | .aot ue => Laws.Shell.aot ue
  | .br ue => Laws.Shell.br ue
  | .bl ue => Laws.Shell.bl ue
  | .bx ue => Laws.Shell.bx ue
  | .hgWait ue => Laws.Shell.hgWait ue
  | .evclr ue => Laws.Shell.evclr ue
  | .tmrSet ue => Laws.Shell.tmrSet ue
  | .tmrClr ue => Laws.Shell.tmrClr ue
  | .signal ue => Laws.Shell.signal ue
  | .halt ue => Laws.Shell.halt ue
  | .sleep ue => Laws.Shell.sleep ue
  | .sleepAnswer => Laws.Shell.sleepAnswer
  | .habort ue => Laws.Shell.habort ue
  | .hclr ue => Laws.Shell.hclr ue
  | .ld ue => Laws.Shell.ld ue
  | .st ue => Laws.Shell.st ue
  | .ldv ue => Laws.Shell.ldv ue
  | .ldvResponse => Laws.Shell.ldvResponse
  | .stv ue => Laws.Shell.stv ue
  | .movw ue => Laws.Shell.movw ue
  | .movp ue => Laws.Shell.movp ue
  | .fence ue => Laws.Shell.fence ue
  | .fenceDone => Laws.Shell.fenceDone
  | .admitPlan img parts => Laws.Shell.admitPlan img parts
  | .unload => Laws.Shell.unload
  | .seal tag => Laws.Shell.seal tag
  | .openGate tag => Laws.Shell.openGate tag
  | .drop tag => Laws.Shell.drop tag
  | .rearm tag => Laws.Shell.rearm tag
  | .rearmApply h => Laws.Shell.rearmApply h
  | .partnerWindowWrite p addr data poison => Laws.Shell.partnerWindowWrite p addr data poison
  | .partnerWindowRead p addr len tid ue => Laws.Shell.partnerWindowRead p addr len tid ue
  | .heldReadRelease p tid => Laws.Shell.heldReadRelease p tid
  | .readExpired p tid => Laws.Shell.readExpired p tid
  | .deferredEvictionStart h => Laws.Shell.deferredEvictionStart h
  | .retiredRelease h => Laws.Shell.retiredRelease h
  | .evict tag => Laws.Shell.evict tag
  | .reserve tag => Laws.Shell.reserve tag
  | .allocationGrant => Laws.Shell.allocationGrant
  | .arbitrationGrant pt dir => Laws.Shell.arbitrationGrant pt dir
  | .ageLoopUpdate => Laws.Shell.ageLoopUpdate
  | .engineStallExpiry w => Laws.Shell.engineStallExpiry w
  | .park tag => Laws.Shell.park tag
  | .lift tag => Laws.Shell.lift tag
  | .compress tag => Laws.Shell.compress tag
  | .observe tag => Laws.Shell.observe tag
  | .turnout tag => Laws.Shell.turnout tag
  | .liftStart f c => Laws.Shell.liftStart f c
  | .transferComplete f c slot write fault => Laws.Shell.transferComplete f c slot write fault
  | .priResponse f g pasid ok => Laws.Shell.priResponse f g pasid ok
  | .streamHaltComplete f c slot => Laws.Shell.streamHaltComplete f c slot
  | .streamAbortComplete f c slot => Laws.Shell.streamAbortComplete f c slot
  | .flmCtxResume p f c tag => Laws.Shell.flmCtxResume p f c tag
  | .flmCtxAbort p f c tag => Laws.Shell.flmCtxAbort p f c tag
  | .flmCtxHalt p f c tag => Laws.Shell.flmCtxHalt p f c tag
  | .turnoutProgramWrite p f ix v => Laws.Shell.turnoutProgramWrite p f ix v
  | .turnNop f c => Laws.Shell.turnNop f c
  | .turnEnd f c => Laws.Shell.turnEnd f c
  | .endRecord f c => Laws.Shell.endRecord f c
  | .turnB f c => Laws.Shell.turnB f c
  | .djnz f c => Laws.Shell.djnz f c
  | .turnAlu f c => Laws.Shell.turnAlu f c
  | .turnAddi f c => Laws.Shell.turnAddi f c
  | .movi f c => Laws.Shell.movi f c
  | .movhi f c => Laws.Shell.movhi f c
  | .bset f c => Laws.Shell.bset f c
  | .badd f c => Laws.Shell.badd f c
  | .ldw f c => Laws.Shell.ldw f c
  | .ldobj f c => Laws.Shell.ldobj f c
  | .ldlead f c => Laws.Shell.ldlead f c
  | .turnTnow f c => Laws.Shell.turnTnow f c
  | .waitt f c => Laws.Shell.waitt f c
  | .waittEnd f c => Laws.Shell.waittEnd f c
  | .waito f c => Laws.Shell.waito f c
  | .waitoEnd f c => Laws.Shell.waitoEnd f c
  | .waitoTimeout f c => Laws.Shell.waitoTimeout f c
  | .burst f c => Laws.Shell.burst f c
  | .burstSlotFree f c => Laws.Shell.burstSlotFree f c
  | .waitb f c => Laws.Shell.waitb f c
  | .waitbEnd f c => Laws.Shell.waitbEnd f c
  | .lanes f c => Laws.Shell.lanes f c
  | .obsid f c => Laws.Shell.obsid f c
  | .dline f c => Laws.Shell.dline f c
  | .turnSig f c => Laws.Shell.turnSig f c
  | .blockCompress n => Laws.Shell.blockCompress n
  | .escapeDecision n => Laws.Shell.escapeDecision n
  | .blockExpand n => Laws.Shell.blockExpand n
  | .keyDataWrite p v => Laws.Shell.keyDataWrite p v
  | .keySelWrite p v => Laws.Shell.keySelWrite p v
  | .keyLoad p => Laws.Shell.keyLoad p
  | .keyClear p => Laws.Shell.keyClear p
  | .keyRetainWrite p v => Laws.Shell.keyRetainWrite p v
  | .runChain tag => Laws.Shell.runChain tag
  | .chainStart => Laws.Shell.chainStart
  | .bindingReady h => Laws.Shell.bindingReady h
  | .descriptorExecute n => Laws.Shell.descriptorExecute n
  | .observeBlock => Laws.Shell.observeBlock
  | .publish tag => Laws.Shell.publish tag
  | .vote tag => Laws.Shell.vote tag
  | .voteMsg l => Laws.Shell.voteMsg l
  | .voteResult l => Laws.Shell.voteResult l
  | .voteWindowClose => Laws.Shell.voteWindowClose
  | .resultTimeout => Laws.Shell.resultTimeout
  | .scaleCommit => Laws.Shell.scaleCommit
  | .commit tag => Laws.Shell.commit tag
  | .trickle tag => Laws.Shell.trickle tag
  | .restore tag => Laws.Shell.restore tag
  | .leaseSendTimer node => Laws.Shell.leaseSendTimer node
  | .leaseLost node => Laws.Shell.leaseLost node
  | .hostLeaseExpiry n => Laws.Shell.hostLeaseExpiry n
  | .reofferTimer node => Laws.Shell.reofferTimer node
  | .hostSlotCtrlWrite p n v => Laws.Shell.hostSlotCtrlWrite p n v
  | .ckRegionResume p v => Laws.Shell.ckRegionResume p v
  | .partnerLinkDown p => Laws.Shell.partnerLinkDown p
  | .partnerLinkUp p width rate cxl => Laws.Shell.partnerLinkUp p width rate cxl
  | .partnerHoldExpiry p => Laws.Shell.partnerHoldExpiry p
  | .ppPerstNFall p => Laws.Shell.ppPerstNFall p
  | .hdmDecoderCommit p k base size ways skip => Laws.Shell.hdmDecoderCommit p k base size ways skip
  | .markDoorbell p off size v => Laws.Shell.markDoorbell p off size v
  | .hintWrite p h v => Laws.Shell.hintWrite p h v
  | .gateMirrorRead p off size tid => Laws.Shell.gateMirrorRead p off size tid
  | .memspecrd p addr => Laws.Shell.memspecrd p addr
  | .memUnsupported p addr tid rd => Laws.Shell.memUnsupported p addr tid rd
  | .getEventRecords p log => Laws.Shell.getEventRecords p log
  | .clearEventRecords p log n => Laws.Shell.clearEventRecords p log n
  | .getSupportedLogs p => Laws.Shell.getSupportedLogs p
  | .getLog p => Laws.Shell.getLog p
  | .identifyMemoryDevice p => Laws.Shell.identifyMemoryDevice p
  | .getHealthInfo p => Laws.Shell.getHealthInfo p
  | .mailboxUnsupported p op => Laws.Shell.mailboxUnsupported p op
  | .hostReset k => Laws.Shell.hostReset k
  | .hostPerstRelease => Laws.Shell.hostPerstRelease
  | .bar4AliasWrite off v => Laws.Shell.bar4AliasWrite off v
  | .apertureRead addr len tid => Laws.Shell.apertureRead addr len tid
  | .apertureWrite addr data => Laws.Shell.apertureWrite addr data
  | .atsInvalidation itag addr len => Laws.Shell.atsInvalidation itag addr len
  | .atsInvalidationComplete itag => Laws.Shell.atsInvalidationComplete itag
  | .tierCompletionError f c slot e => Laws.Shell.tierCompletionError f c slot e
  | .expanderLinkDown e => Laws.Shell.expanderLinkDown e
  | .expanderLinkUp e width rate flit256 => Laws.Shell.expanderLinkUp e width rate flit256
  | .expanderDownLimit e => Laws.Shell.expanderDownLimit e
  | .expanderEventPoll e warn fail => Laws.Shell.expanderEventPoll e warn fail
  | .fecGroupReceive l lanes => Laws.Shell.fecGroupReceive l lanes
  | .nak l => Laws.Shell.nak l
  | .credit l => Laws.Shell.credit l
  | .param l => Laws.Shell.param l
  | .paramAck l => Laws.Shell.paramAck l
  | .laneDrop l => Laws.Shell.laneDrop l
  | .laneDropAck l => Laws.Shell.laneDropAck l
  | .lpReq l => Laws.Shell.lpReq l
  | .lpAck l => Laws.Shell.lpAck l
  | .linkResume l => Laws.Shell.linkResume l
  | .nakRepeatTimer l => Laws.Shell.nakRepeatTimer l
  | .ackTimeout l => Laws.Shell.ackTimeout l
  | .creditSend l => Laws.Shell.creditSend l
  | .energyDetect l => Laws.Shell.energyDetect l
  | .tsFrame l bits peer eq => Laws.Shell.tsFrame l bits peer eq
  | .trainTimeout l => Laws.Shell.trainTimeout l
  | .linkRetryTimer l => Laws.Shell.linkRetryTimer l
  | .fecWindow l => Laws.Shell.fecWindow l
  | .promotePeriod l => Laws.Shell.promotePeriod l
  | .retrain p l v => Laws.Shell.retrain p l v
  | .linkWakeSignal l => Laws.Shell.linkWakeSignal l
  | .write l => Laws.Shell.write l
  | .readReq l => Laws.Shell.readReq l
  | .flushAnswer l => Laws.Shell.flushAnswer l
  | .readRsp l => Laws.Shell.readRsp l
  | .barrier tag => Laws.Shell.barrier tag
  | .barrierArrive l => Laws.Shell.barrierArrive l
  | .barrierRelease l => Laws.Shell.barrierRelease l
  | .barrierRootTimeout g step => Laws.Shell.barrierRootTimeout g step
  | .barrierTimeout g step => Laws.Shell.barrierTimeout g step
  | .ckptOfferFirst l => Laws.Shell.ckptOfferFirst l
  | .ckptOfferEpoch l => Laws.Shell.ckptOfferEpoch l
  | .ckptOfferRejoin l => Laws.Shell.ckptOfferRejoin l
  | .ckptOfferQuery l => Laws.Shell.ckptOfferQuery l
  | .ckptOfferAccept l => Laws.Shell.ckptOfferAccept l
  | .ckptOfferRefuse l => Laws.Shell.ckptOfferRefuse l
  | .ckptData l => Laws.Shell.ckptData l
  | .ckptCommitCommit l => Laws.Shell.ckptCommitCommit l
  | .ckptCommitAck l => Laws.Shell.ckptCommitAck l
  | .ckptCommitRecord l => Laws.Shell.ckptCommitRecord l
  | .ckptCommitNoRecord l => Laws.Shell.ckptCommitNoRecord l
  | .leaseRenew l => Laws.Shell.leaseRenew l
  | .leaseAnswer l => Laws.Shell.leaseAnswer l
  | .fenceFence l => Laws.Shell.fenceFence l
  | .fenceAck l => Laws.Shell.fenceAck l
  | .lrApply p => Laws.Shell.lrApply p
  | .lrQuarantine l => Laws.Shell.lrQuarantine l
  | .lrRouteDataWrite p v => Laws.Shell.lrRouteDataWrite p v
  | .lrHostCtrlWrite p n v => Laws.Shell.lrHostCtrlWrite p n v
  | .refreshDue n pc waits => Laws.Shell.refreshDue n pc waits
  | .hbmTempRead n t => Laws.Shell.hbmTempRead n t
  | .hbmCalibration n c ok => Laws.Shell.hbmCalibration n c ok
  | .caParityError n k => Laws.Shell.caParityError n k
  | .hbmIlvWrite p n v => Laws.Shell.hbmIlvWrite p n v
  | .traceIdleFlush => Laws.Shell.traceIdleFlush
  | .trcFlush p => Laws.Shell.trcFlush p
  | .syncPeriodic => Laws.Shell.syncPeriodic
  | .stopAfterDone => Laws.Shell.stopAfterDone
  | .trcRecordWrite p v hits => Laws.Shell.trcRecordWrite p v hits
  | .trcRdWrite p v => Laws.Shell.trcRdWrite p v
  | .trcSwHiWrite p v => Laws.Shell.trcSwHiWrite p v
  | .ueFirstClear p => Laws.Shell.ueFirstClear p
  | .mgmtCtrlWrite p v => Laws.Shell.mgmtCtrlWrite p v
  | .regRead src pec off => Laws.Shell.regRead src pec off
  | .regWrite src pec off v => Laws.Shell.regWrite src pec off v
  | .regRead64 src pec off => Laws.Shell.regRead64 src pec off
  | .regWrite64 src pec off lo hi => Laws.Shell.regWrite64 src pec off lo hi
  | .status src pec => Laws.Shell.status src pec
  | .temp src pec => Laws.Shell.temp src pec
  | .ledgerRead src pec slot off count => Laws.Shell.ledgerRead src pec slot off count
  | .verdictRead src pec ix => Laws.Shell.verdictRead src pec ix
  | .mgmtVerdictClear src pec ix => Laws.Shell.mgmtVerdictClear src pec ix
  | .imagePrefWrite src pec v => Laws.Shell.imagePrefWrite src pec v
  | .reboot src pec key => Laws.Shell.reboot src pec key
  | .flashRead src pec addr len => Laws.Shell.flashRead src pec addr len
  | .flashProgram src pec addr data => Laws.Shell.flashProgram src pec addr data
  | .flashErase src pec addr size => Laws.Shell.flashErase src pec addr size
  | .flashStatus src pec => Laws.Shell.flashStatus src pec
  | .flashCmdRead p => Laws.Shell.flashCmdRead p
  | .flashCmdProgram p => Laws.Shell.flashCmdProgram p
  | .flashCmdErase4k p => Laws.Shell.flashCmdErase4k p
  | .flashCmdErase64k p => Laws.Shell.flashCmdErase64k p
  | .flashCommandDone bad => Laws.Shell.flashCommandDone bad
  | .smbStretchTimeout => Laws.Shell.smbStretchTimeout
  | .smbClockLowTimeout => Laws.Shell.smbClockLowTimeout
  | .setEndpointId src eid => Laws.Shell.setEndpointId src eid
  | .getEndpointId src => Laws.Shell.getEndpointId src
  | .getEndpointUuid src => Laws.Shell.getEndpointUuid src
  | .getMctpVersionSupport src type => Laws.Shell.getMctpVersionSupport src type
  | .getMessageTypeSupport src => Laws.Shell.getMessageTypeSupport src
  | .getVendorDefinedMessageSupport src => Laws.Shell.getVendorDefinedMessageSupport src
  | .gettid src => Laws.Shell.gettid src
  | .settid src tid => Laws.Shell.settid src tid
  | .getpldmversion src type => Laws.Shell.getpldmversion src type
  | .getpldmtypes src => Laws.Shell.getpldmtypes src
  | .getpldmcommands src type => Laws.Shell.getpldmcommands src type
  | .getsensorreading src id => Laws.Shell.getsensorreading src id
  | .getstatesensorreadings src id => Laws.Shell.getstatesensorreadings src id
  | .getpdrrepositoryinfo src => Laws.Shell.getpdrrepositoryinfo src
  | .getpdr src handle => Laws.Shell.getpdr src handle
  | .seteventreceiver src eid => Laws.Shell.seteventreceiver src eid
  | .extest => Laws.Shell.extest
  | .idcode => Laws.Shell.idcode
  | .samplePreload => Laws.Shell.samplePreload
  | .highz => Laws.Shell.highz
  | .clamp => Laws.Shell.clamp
  | .extestPulse => Laws.Shell.extestPulse
  | .extestTrain => Laws.Shell.extestTrain
  | .bypass => Laws.Shell.bypass
  | .mgmtAccess wr off v => Laws.Shell.mgmtAccess wr off v
  | .trstNReset => Laws.Shell.trstNReset
  | .gpioInputEdge n high => Laws.Shell.gpioInputEdge n high
  | .fleetAlertWire low => Laws.Shell.fleetAlertWire low
  | .registerRead p addr size => Laws.Shell.registerRead p addr size
  | .hostConfigRequest c tid => Laws.Shell.hostConfigRequest c tid
  | .msiXTableWrite v w x => Laws.Shell.msiXTableWrite v w x
  | .hostLinkUp width rate => Laws.Shell.hostLinkUp width rate
  | .portRegisterBlockAccess p off size v tid => Laws.Shell.portRegisterBlockAccess p off size v tid
  | .illegalBundle ue => Laws.Shell.illegalBundle ue
  | .turnIllegal f c ue => Laws.Shell.turnIllegal f c ue
  | .unlistedSmbusCommand code => Laws.Shell.unlistedSmbusCommand code
  | .referenceClockLoss => Laws.Shell.referenceClockLoss
  | .mainRailExcursion core => Laws.Shell.mainRailExcursion core
  | .partnerConfigRequest p flr => Laws.Shell.partnerConfigRequest p flr

end Sys2Proof.Machine
end

