-- ==== Sys2Proof/Laws/Queue.lean ====
section
/-! SUPPORT. The queue: no command reads it or writes it, and a step takes the one at its front. -/
namespace Sys2Proof.Machine

/-- A command leaves the queue as it finds it. -/
theorem exec_pending (c : Instr) (s t : State) (h : exec c s = .next t) : t.pending = s.pending := by
  rcases exec_shape c with ⟨f, hf⟩ | ⟨f, hf⟩ | ⟨⟨f, hf⟩, _⟩
  · rw [hf] at h; exact State.run_pending h
  · rw [hf] at h; exact State.runOn_pending h
  · rw [hf] at h; exact State.runAo_pending h

/-- Nor does it depend on what waits. -/
theorem exec_withPending (c : Instr) (s : State) (p : List Instr) : exec c { s with pending := p } = match exec c s with
    | .next t => .next { t with pending := p }
    | .fault r => .fault r
    | .refused r => .refused r := by
  rcases exec_shape c with ⟨f, hf⟩ | ⟨f, hf⟩ | ⟨⟨f, hf⟩, _⟩
  · simp only [hf, State.run]; split <;> [rfl; (split <;> rfl)]
  · simp only [hf, State.runOn]; split <;> rfl
  · simp only [hf, State.runAo]

/-- No command is refused. -/
theorem exec_not_refused (c : Instr) (s : State) (r : Refusal) : exec c s ≠ .refused r := by
  rcases exec_shape c with ⟨f, hf⟩ | ⟨f, hf⟩ | ⟨⟨f, hf⟩, _⟩
  · rw [hf]; unfold State.run; split <;> [simp; (split <;> simp)]
  · rw [hf]; unfold State.runOn; split <;> simp
  · rw [hf]; simp [State.runAo]

end Sys2Proof.Machine
end

