-- ==== Sys2Proof/Laws/Turnout.lean ====
section
/-! SUPPORT. A turnout's instruction that is next and passes its checks: what the shells of its commands come to. -/
namespace Sys2Proof.Machine

theorem turn_name {d : Dev} {f c : Nat} {t : Turn} (h : d.turn? f c = some t) : t.flume = f ∧ t.ctx = c := by
  simpa using List.find?_some h

/-- Two updates of one context are one. -/
theorem turn_map_map (l : List Turn) (f c : Nat) (g k : Turn → Turn) (hg : ∀ x, (g x).flume = f ∧ (g x).ctx = c) :
    (l.map fun t => if t.flume == f && t.ctx == c then g t else t).map (fun t => if t.flume == f && t.ctx == c then k t else t) =
      l.map fun t => if t.flume == f && t.ctx == c then k (g t) else t := by
  induction l with
  | nil => rfl
  | cons a l ih =>
    rw [List.map_cons, List.map_cons, List.map_cons, ih]
    congr 1
    by_cases h : (a.flume == f && a.ctx == c) = true
    · rw [if_pos h, if_pos, if_pos h]
      simp [hg]
    · rw [if_neg h, if_neg h, if_neg h]

/-- A jump inside the program after an update. -/
theorem turnGoto_upd (d : Dev) (f c : Nat) (u : Turn) (w : Nat) (p : Int) (n : Nat) (hp : p = n) (h : n < 512) (hu : u.flume = f ∧ u.ctx = c) :
    (d.updTurn f c fun _ => u).turnGoto u p w = d.turnTo f c u n := by
  subst hp
  unfold Dev.turnGoto Dev.turnTo
  rw [if_neg (by omega)]
  simp only [Dev.updTurn, hu.1, hu.2]
  rw [turn_map_map _ _ _ _ _ fun _ => hu]
  obtain ⟨rfl, rfl⟩ := hu
  simp

/-- A use of groups none of which holds a bad word changes nothing. -/
theorem eccTouch_clean {d : Dev} {mem n k : Nat} (h : (d.eccGroups mem n).contains k = false) (r : Dev → Nat → Dev) :
    d.eccTouch mem n (fun g => g == k) r = d := by
  unfold Dev.eccTouch
  rw [List.filter_eq_nil_iff.mpr]
  · rfl
  · intro g hg e
    simp only [beq_iff_eq] at e
    subst e
    simp [hg] at h

theorem turnReady_of_next {d : Dev} {f c : Nat} {t : Turn} (h : d.turn? f c = some t) (n : d.turnNext f = some c) : d.turnReady t = true := by
  have := List.find?_some n
  simpa [h] using this

theorem ctxUse_clean {d : Dev} {f c : Nat} {t : Turn} (h : d.TurnNext f c t) : d.ctxUse f c = d := by
  have r := turnReady_of_next h.1 h.2.1
  have e : t.ending.isNone = true := by
    simp only [Dev.turnReady, Bool.and_eq_true] at r
    exact r.1.1.2
  have k : d.touchCtx f c = d := by
    unfold Dev.touchCtx
    rw [eccTouch_clean h.2.2, ite_self]
  simp only [Option.isNone_iff_eq_none] at e
  simp [Dev.ctxUse, k, Dev.turnSettle, h.1, e]

theorem turnExec_at {d : Dev} {f c opc : Nat} {t : Turn} {w : Nat} (h : d.TurnAt f c opc t w) (g : Dev → Turn → Nat → Dev) :
    d.turnExec f c opc g = g (d.turnBegun f c) t w := by
  obtain ⟨h0, h2, h3, h4, h5⟩ := h
  have b : (d.turnServe f c).turnBad t = false := h2
  simp [Dev.turnExec, Dev.turnBegun, ctxUse_clean h0, h0.1, h0.2.1, b, h3, h4, h5]

/-- An instruction that changes its context's registers and goes on. -/
theorem turnStep_at {d : Dev} {f c opc : Nat} {t : Turn} {w : Nat} (h : d.TurnAt f c opc t w) (g : Dev → Turn → Nat → Turn)
    (hg : ∀ e, (g e t w).flume = t.flume ∧ (g e t w).ctx = t.ctx ∧ (g e t w).pc = t.pc) (hp : t.pc < 511) :
    d.turnStep f c opc g = (d.turnBegun f c).turnTo f c (g (d.turnBegun f c) t w) (t.pc + 1) := by
  have h1 := turn_name h.1.1
  rw [Dev.turnStep, turnExec_at h]
  obtain ⟨a, b, e⟩ := hg (d.turnBegun f c)
  apply turnGoto_upd
  · simp [e]
  · omega
  · rw [a, b]; exact h1

/-- A context that waited goes on. -/
theorem turnGo_at {d e : Dev} {f c : Nat} {t : Turn} (h : d.turn? f c = some t) (g : Turn → Turn)
    (hg : (g { t with wait := .none }).flume = t.flume ∧ (g { t with wait := .none }).ctx = t.ctx ∧ (g { t with wait := .none }).pc = t.pc)
    (hp : t.pc < 511) : e.turnGo t g = e.turnTo f c (g { t with wait := .none }) (t.pc + 1) := by
  have h1 := turn_name h
  unfold Dev.turnGo
  obtain ⟨rfl, rfl⟩ := h1
  apply turnGoto_upd
  · simp [hg]
  · omega
  · rw [hg.1, hg.2.1]; exact ⟨rfl, rfl⟩

end Sys2Proof.Machine
end

