-- ==== Sys2Proof/Tests/Slice0.lean ====
section
/-! SUPPORT. The model's own tests. Witnesses: for each statement with hypotheses, a state and operands that meet them, clause by clause. Values:
figures of the spec's tables and walk-throughs. Well-formedness: an ill-formed term for each check. -/

section
open Sys2Proof Sys2Proof.Machine
set_option Elab.async false

/-! ### States -/

/-- Boot over, the host's link up. -/
def tUp : Dev := { Dev.reset with boot := { Boot.reset with next := 14 } }.set .HOST_LINK_STATE 3

/-- A state with nothing waiting. -/
def tSt (d : Dev) : State := { dev := d, pending := [] }

/-- Boot stage `n` in progress: recipe 0 of each stage, 100 ms, parameters 4096. -/
def tStage (n : Nat) : Dev := { Dev.reset with boot := { Boot.reset with
  running := true, next := n, recipe := (List.range 14).map fun k => [k * 2 ^ 24, 100, 4096, 4096] } }

/-- A queued task with tag `i`; the Headgate in state `st`. -/
def tTask (i : Nat) : Task :=
  { tag := i, st := 1, sent := false, hdr := 0x1000310000000000, w1 := 0, w2 := 0, w3 := 0, issued := 0, moved := 0, winner := 0, wait := none,
    waits := [], outcome := 0, cause := 0, orphan := false, full := false }
def tHgIn (st : Nat) : Dev := tUp.set .HG_STATE_STATE st

theorem test_reset_live : State.reset.Live := by decide
theorem test_up_reach : (tSt tUp).Live ∧ tUp.Reach .host ∧ tUp.Reach .mgmt := by decide +kernel

/-! ### Witnesses: accesses, blocks, resets, boot -/

/-- A device-fatal error is recorded. -/
def tFatal : Dev := tUp.set .DEV_FATAL_LEVEL 2

theorem wit_BarAccessesComplete : (tSt tUp).Live ∧ tUp.Reach .mgmt ∧ targetOf 0xC00000 = .hole ∧ (0x3FFFFFF : Nat) < 0x4000000 ∧
    (tSt tFatal).Live ∧ tFatal.Reach .mgmt ∧ 0x10000 ≤ regAddr 40 0 0x80 ∧ targetOf (regAddr 40 0 0x80) ≠ .hole ∧
    tFatal.targetShut (targetOf (regAddr 40 0 0x80)) = true := by decide +kernel

theorem wit_HeaderAccessesComplete : tUp.PageReach .host 40 0 ∧ tUp.PageReach .mgmt 110 0 ∧ wideOf 110 0 0x90 = 1 ∧ wideOf 110 0 0x94 = 2 ∧
    tUp.specialWrite .mgmt 110 0 0x94 7 = none ∧ ((rowAt (blkClass 110) 0 0x94).map RegRow.readOnly) = some false ∧
    boundsAt 110 0 0xD4 = true ∧ pinAt 110 0 0xDC = true ∧ tUp.get .DEV_FATAL_LEVEL ≠ 2 ∧ tUp.PageReach .host 5 0 ∧ boundsAt 5 0 0x8C = true ∧ pinAt 5 0 0x94 = true ∧ blkClass 5 ≠ 0xb0 ∧
    (({ tUp with errSeen := 0 } : Dev).regWriteCore .host 5 0 0x8C (tUp.hrd 5 0 0x8C)).errSeen = 0 ∧
    (({ tUp with errSeen := 0 } : Dev).regWriteCore .host 5 0 0x94 (tUp.hrd 5 0 0x94)).errSeen = 0 := by decide +kernel

theorem wit_CaptureAndAliasesComplete : tUp.InRun ∧ tUp.get .DEV_FATAL_LEVEL ≠ 2 ∧ tUp.pathUp .host = true ∧ tUp.hostUp = true ∧ (7 : Nat) < 8 := by decide +kernel

/-- Tile 0 frozen, quiesced and in reset; then every block frozen. -/
def tTile : Dev := ((tUp.setCtrl 47 3 true).setCtrl 47 1 true).setStat 47 3 true
def tFrozen : Dev := (List.range blkCount).foldl (fun d b => d.setStat b 2 true) (tUp.set .GLOBAL_CTRL_FREEZE 1)

theorem wit_BlockControlCompletes : tTile.Writes .host ∧ PageAt 47 0 ∧ PageAt 110 0 ∧ tTile.ctrlBit 47 2 = false ∧ tTile.frozen 47 = true ∧
    tTile.statBit 47 2 = false ∧ tTile.atBoundary 47 = true ∧ tTile.ctrlBit 47 1 = true ∧ tTile.statBit 47 1 = false ∧
    tTile.blockWork 47 = false ∧ tTile.statBit 47 3 = true ∧ tTile.flm.streams = [] ∧ tTile.flm.turns = [] ∧
    tFrozen.get .GLOBAL_CTRL_FREEZE = 1 ∧ tFrozen.get .GLOBAL_STATUS_ALL_FROZEN = 0 ∧
    ((List.range blkCount).all fun b => freezeExempt b || !tFrozen.present b || tFrozen.isFrozen b) = true := by decide +kernel

theorem wit_ResetsComplete : (tSt tUp).Live ∧ tUp.InRun ∧ tUp.pwr.tripped = false ∧
    ({ tUp with pwr := { tUp.pwr with tripped := true } } : Dev).pwr.tripped = true := by decide +kernel

/-- A boot that finds a valid ledger slot, and one that does not find an image. -/
def tSlot : Dev := { tStage 2 with
  mem := ([(0, 0x42), (1, 0x4C), (2, 0x44), (3, 0x47), (0x3C, 0xc3), (0x3D, 0x28), (0x3E, 0xbf), (0x3F, 0xa9)] : List Host.Cell).map
    fun e => (memKey spLedger e.1, e.2) }

/-- The cells of little-endian words of a space. -/
def tWords (sp : Nat) (ws : List (Nat × Nat)) : List Host.Cell :=
  ws.flatMap fun e => (List.range 4).map fun i => (memKey sp (e.1 + i), BitVec.ofNat 8 (e.2 / 256 ^ i))

/-- A staged image with an empty firmware section and a wake program whose vectors all name its first NOP. -/
def tImage : Dev := { tStage 6 with mem := tWords spStage [(0x14, 2), (0x100, 2), (0x104, 0x500), (0x108, 0), (0x110, 3), (0x114, 0x600), (0x118, 8),
  (0x600, 0x00040004), (0x604, 4)] }

/-- The clause on an image that passes rests on the fused key hash, of which nothing can be shown. -/
theorem wit_EarlyStagesComplete : (tSt (tStage 0)).Live ∧ (tStage 0).InStage 0 ∧ (tStage 1).InStage 1 ∧ (tStage 4).InStage 4 ∧ (tStage 5).InStage 5 ∧ tSlot.InStage 2 ∧
    Dev.reset.boot.again = 0 ∧ ({ Dev.reset with pins := { Pins.reset with devReset := true } } : Dev).pins.devReset = true ∧
    ({ Dev.reset with boot := { Boot.reset with again := 4 } } : Dev).boot.again = 4 ∧
    (List.range 8).any tSlot.slotValid = true ∧
    (tSlot.imageChoose.slotOpen.stageImage (tSlot.imageChoose.get .BOOT_STATUS_IMAGE)).imageCheck = some 0x0113 ∧
    (tStage 3).InStage 3 ∧ ({ tStage 3 with pins := { (tStage 3).pins with hostPerst := true } } : Dev).pins.hostPerst = true := by decide +kernel

theorem wit_EarlyStagesComplete_firmware : tImage.InStage 6 ∧ tImage.section_ 2 = some (0x500, 0) ∧ tImage.section_ 3 = some (0x600, 8) ∧
    (0 : Nat) ≤ 0x40000 ∧ (((tImage.fwStore 0x500 0).wr .HG_IMEM_LOCK 1).wakeLoad).get .GH_CTRL_PROG_RUN ≠ 0 := by decide +kernel

/-- Boot stage `n` in progress, its budget used up. -/
def tLate (n : Nat) : Dev := { tStage n with gh := { Gh.reset with timer := 2 ^ 40 } }

theorem wit_LateStagesComplete : ((tStage 7).set .HOST_LINK_STATE 3).InStage 7 ∧ ((tStage 7).set .HOST_LINK_STATE 3).hostUp = true ∧
    ((tStage 7).set .HOST_LINK_STATE 3).get .HOST_LINK_RATE ≤ ((tStage 7).set .HOST_LINK_STATE 3).bootParam 7 39 0 ∧
    ((tStage 7).set .HOST_LINK_STATE 3).get .HOST_LINK_WIDTH ≤ ((tStage 7).set .HOST_LINK_STATE 3).bootParam 7 39 1 ∧
    (tLate 7).AtStage 7 ∧ (tLate 7).hostUp = false ∧ (tLate 7).pins.hostPerst = false ∧ (tLate 7).overBudget = true ∧ (tStage 8).InStage 8 ∧ (tStage 9).InStage 9 ∧ (tStage 11).InStage 11 ∧
    (tStage 12).InStage 12 ∧ (tStage 13).InStage 13 ∧ (tLate 3).AtStage 3 ∧ (tLate 3).overBudget = true ∧ (tLate 1).AtStage 1 ∧
    (tLate 1).overBudget = true ∧ (tLate 11).AtStage 11 ∧ (tLate 11).overBudget = true := by decide +kernel

/-- Every lateral link disabled. -/
def tLinks : Dev := (List.range 24).foldl (fun d l => d.set .LL_STATUS_STATE 8 l) (tStage 10)

theorem wit_LateStagesComplete_links : tLinks.AtStage 10 ∧
    ∀ u ∈ (stageUnits 10).filter tLinks.attempted, tLinks.lstate u.1 = 6 ∨ tLinks.lstate u.1 = 8 := by decide +kernel

theorem wit_BootOperationsComplete : (tSt tUp).Live ∧ tUp.Reach .host ∧ (tUp.set .LEDGER_FLASH_COPY_PENDING 1).get .LEDGER_FLASH_COPY_PENDING ≠ 0 ∧
    (tStage 3).bootBusy = true ∧ tUp.bootBusy = false ∧ bitsOf 0x80000000 31 1 = 1 ∧ bitsOf 100 31 1 ≠ 1 ∧ bitsOf 100 0 7 < 101 ∧
    101 ≤ bitsOf 101 0 7 ∧ bitsOf 101 31 1 ≠ 1 ∧ (0xB007#32).toNat = 0xB007 ∧ (0#32).toNat ≠ 0xB007 ∧
    ({ (tStage 3).set .HOST_LINK_STATE 3 with boot := (tStage 3).boot } : Dev).Reach .host := by decide +kernel

/-! ### Witnesses: power, the Gauge House -/

/-- DOZE and HOLD permitted, with a wake time. -/
def tPow : Dev := ({ tUp with plan := { tUp.plan with power := 7 } }.wr .PWR_PERMIT_MASK 7).wr64 .PWR_WAKE_AT_LO (2 ^ 40)
def tPend (r : PwrReq) : Dev := { tPow with pwr := { tPow.pwr with pend := some r } }

theorem wit_PowerRequestsComplete : (tSt tPow).Live ∧ tPow.Writes .host ∧ ((tPow.wr .PWR_PERMIT_MASK 0).Writes .host ∧
    (tPow.wr .PWR_PERMIT_MASK 0).permits 2 = false) ∧ ((tPow.wr64 .PWR_WAKE_AT_LO 0).permits 3 = true ∧
    (tPow.wr64 .PWR_WAKE_AT_LO 0).rd64 .PWR_WAKE_AT_LO ≤ (tPow.wr64 .PWR_WAKE_AT_LO 0).gh.timer) ∧
    tPow.permits 2 = true ∧ tPow.permits 3 = true ∧ tPow.gh.timer < tPow.rd64 .PWR_WAKE_AT_LO ∧ tPow.pwr.pend = none ∧ tPow.pwr.cur = none ∧
    tPow.tooShort 3 (2 ^ 40) = false ∧ tPow.blockers = 0 ∧ (tPow.setCtrl 47 3 true).blockers ≠ 0 ∧
    (tPend ⟨3, 2 ^ 41, false⟩).pwr.pend = some ⟨3, 2 ^ 41, false⟩ ∧ (tPend ⟨3, 2 ^ 41, false⟩).Writes .host ∧
    (tPend ⟨3, 2 ^ 41, false⟩).pwr.exiting = false := by decide +kernel

/-- A request for HOLD whose wake time is 100 µs away, and one for DOZE whose wake time has come. -/
def tNear : Dev := { tPend ⟨3, 1920, false⟩ with gh := Gh.reset }

/-- HOLD entry with nothing left to drain. -/
def tDrained : Dev := { tUp with pwr := { tUp.pwr with entry := 1 } }

theorem wit_PendingRequestsComplete : (tSt (tPend ⟨3, 2 ^ 41, false⟩)).Live ∧ tNear.pwr.pend = some ⟨3, 1920, false⟩ ∧
    tNear.canDemote ⟨3, 1920, false⟩ = true ∧ (tPend ⟨2, 0, false⟩).mustDrop ⟨2, 0, false⟩ = true ∧
    (tPend ⟨3, 2 ^ 41, false⟩).blockers = 0 ∧ (tPend ⟨3, 2 ^ 41, false⟩).permits 3 = true ∧
    (tPend ⟨3, 2 ^ 41, false⟩).tooShort 3 (2 ^ 41) = false ∧ tNear.blockers = 0 ∧ tNear.permits 3 = true ∧
    tDrained.pwr.entry = 1 ∧ tDrained.hg.stall = none ∧ tDrained.hg.inD = false ∧
    tDrained.hg.ldv = [] ∧ tDrained.ckptInFlight = false ∧ tDrained.pool.drains.any Drain.keep = false ∧ tDrained.t0Waits = false := by decide +kernel

/-- The first timer channel due; a DOZE exit under way; power gating allowed. -/
def tEvents : Dev := { ((tPow.setBit .TC_ARMED 0 true).set .GATE_CTL_SLUICE_PG 1).set .GATE_CTL_SIPHON_PG 1 with
  gh := { Gh.reset with timer := 2 ^ 30 }, due := { tPow.due with quiet := 2 ^ 30 } }
def tVid (v : Nat) (ask : Option (Nat × Nat)) : Dev := { tEvents with pwr := { tEvents.pwr with vid := v, vidTarget := 20, ask := ask } }
def tExit (st : Nat) : Dev := { tUp.set .PWR_STATE_STATE st with pwr := { tUp.pwr with exiting := true } }

theorem wit_PowerEventsComplete : tEvents.InRun ∧ tEvents.permits 1 = true ∧ tEvents.get .HG_STATE_STATE ≠ 2 ∧ tEvents.activeWork = false ∧
    3 * tEvents.get .IDLE_ENTRY_DELAY_CYCLES ≤ 250 * tEvents.due.quiet ∧ Sparse.get (fun _ => 0) tEvents.due.busy 38 + 1920 ≤ tEvents.gh.timer ∧
    (tVid 24 none).pwr.vid ≠ (tVid 24 none).pwr.vidTarget ∧ (tVid 24 none).pwr.stepped + 10 ≤ (tVid 24 none).gh.timer ∧
    (tVid 20 (some (1200, 750))).pwr.vid = (tVid 20 (some (1200, 750))).pwr.vidTarget ∧
    (tVid 20 (some (1200, 750))).pwr.ask = some (1200, 750) ∧ (tVid 20 (some (1200, 750))).pwr.stepped + 96 ≤ (tVid 20 none).gh.timer ∧
    tEvents.bit .TC_ARMED 0 = true ∧ tEvents.rd64 (.TC_CMP_LO 0) ≤ tEvents.gh.timer ∧
    (tExit 2).pwr.exiting = true ∧ (tExit 2).get .PWR_STATE_STATE = 2 ∧ tEvents.get .GATE_CTL_SLUICE_PG ≠ 0 ∧
    tEvents.get .GATE_CTL_SIPHON_PG ≠ 0 ∧ tEvents.asleep = false ∧ tEvents.unitIdle 38 = true ∧ tEvents.unitIdle 62 = true ∧
    38 ∉ tEvents.pwr.gated ∧ 62 ∉ tEvents.pwr.gated ∧ tEvents.undef = false ∧
    (0 : Int) ≤ tEvents.pwr.tj ∧ tEvents.pwr.tj < signed 16 (tEvents.get .THROTTLE_THRESH_OFF) ∧
    (100 : Int) < signed 16 (tEvents.get .THROTTLE_THRESH_ON) ∧ (100 : Int) < signed 16 (tEvents.get .GH_TJ_ALARM_TJ) ∧
    (100 : Int) ≤ signed 16 ((tEvents.set .TJ_PEAK_TJ 200).get .TJ_PEAK_TJ) := by decide +kernel

/-- The Gauge House at the word `w`, in its program memory. -/
def tGh (w : Nat) : Dev := ((tUp.set .GH_STATUS_ROM_ACTIVE 0).set .GH_STATUS_PC 4).wr (.GH_PROG 2) w |>.set .GH_PROG_LEN_LEN 1024

theorem wit_GaugeHouseDataInstructions : ∀ w ∈ [0, 0xE0 * 8 + 3, 0x100 * 8 + 3, 0x1000, 0x2005, 0x2007, 0x3000, 0x4000, 0x7000,
    0x9000, 0x9100, 0xA000], (tGh w).undef = false ∧ (tGh w).GhAt w := by decide +kernel

theorem wit_GaugeHouseDataInstructions_forms : 0x2005 % 8 ≠ 7 ∧ 0x2007 % 8 = 7 ∧ (tGh 0x7000).ecc.contains (7, 0) = false ∧ ghScr 0 0x9000 = true ∧
    ghScr 1 0x9100 = true := by decide +kernel

def tStack (w n : Nat) : Dev := { tGh w with gh := { (tGh w).gh with stack := List.replicate n 5 } }
def tGhHold (w : Nat) : Dev := (tGh w).set .PWR_STATE_STATE 3

theorem wit_GaugeHouseControlInstructions : (∀ w ∈ [0x100, 0x200, 0x6005, 0x5000, 0x140 * 8 + 1, 0x300, 0x24 * 64 + 1, 0x0B05, 0x8088, 0x8080, 0x8208, 0x8408,
    0x8600, 0x8800, 0xA0 * 8], (tGh w).GhAt w) ∧ (tStack 0x200 1).GhAt 0x200 ∧ (tStack 0x200 1).gh.stack = [5] ∧ (tGh 0x200).gh.stack = [] ∧
    (tStack 0x6005 3).gh.stack.length < 4 ∧ (tStack 0x6005 4).GhAt 0x6005 ∧ 4 ≤ (tStack 0x6005 4).gh.stack.length := by decide +kernel

/-- A SCRUB met while one runs. -/
def tScrubbing : Dev := { tGhHold 0x500 with gh := { (tGhHold 0x500).gh with scrub := some ⟨1, 0, [], []⟩ } }

theorem wit_GaugeHouseControlInstructions_forms : ((tGh 0xA00).rd .GH_EVP &&& ((tGh 0xA00).kk 0 % 65536)) = 0 ∧
    ((((tGh 0xA01).setK 1 4096).wr .GH_EVP 4096).rd .GH_EVP &&& ((((tGh 0xA01).setK 1 4096).wr .GH_EVP 4096).kk 1 % 65536)) ≠ 0 ∧
    (((tGh 0xA01).setK 1 4096).wr .GH_EVP 4096).GhAt 0xA01 ∧ (tGhHold 0x300).ghNext.asleep = true ∧ (tGhHold 0x300).GhAt 0x300 ∧
    ghTimer 0 0x8088 = true ∧ bitsOf 0x8088 3 3 ≠ 0 ∧ ghTimer 0 0x8080 = true ∧ bitsOf 0x8080 3 3 = 0 ∧ ghTimer 1 0x8208 = true ∧
    bitsOf 0x8208 3 3 ≠ 0 ∧ ghTimer 2 0x8408 = true ∧ ghTimer 3 0x8600 = true ∧ ghTimer 4 0x8800 = true ∧ (tGhHold 0x500).GhAt 0x500 ∧
    (tGhHold 0x500).get .PWR_STATE_STATE = 3 ∧ (tGhHold 0x500).pwr.exiting = false ∧ (tGhHold 0x500).gh.scrub = none ∧
    (tGhHold 0x500).kk 0 < (tGhHold 0x500).param 1 8 ∧ tScrubbing.GhAt 0x500 ∧ tScrubbing.gh.scrub ≠ none ∧ tScrubbing.get .PWR_STATE_STATE = 3 ∧
    tScrubbing.pwr.exiting = false ∧ (tGh 0x500).get .PWR_STATE_STATE ≠ 3 := by decide +kernel

/-- The Gauge House at a SEQ step of a handler, after the step `prev`. -/
def tSeq (a h prev : Nat) : Dev :=
  { (tGh (0x400 + a)).set .GH_STATUS_SEQ_POS prev with gh := { (tGh 0).gh with handler := h }, pwr := { (tGh 0).pwr with srx := true } }

theorem wit_PowerSequenceSteps : ∀ x ∈ [(0x01, 1, 0), (0x02, 1, 1), (0x03, 1, 2), (0x04, 1, 3), (0x11, 2, 0), (0x12, 2, 9), (0x13, 2, 10),
    (0x14, 2, 11), (0x15, 2, 12)], let d := tSeq x.1 x.2.1 x.2.2
    (tSt d).Live ∧ d.GhAt (0x400 + x.1) ∧ d.gh.handler = x.2.1 ∧ d.get .GH_STATUS_SEQ_POS = x.2.2 ∧ d.linksAsleep = true ∧ d.resumeReady = true := by decide +kernel

def tGhEvents : Dev := { (tUp.setBit .TC_ARMED 1 true).setBit .TC_ARMED 7 true with
  gh := { Gh.reset with wait := some 1, scrub := some ⟨0, 0, [], []⟩, enterAt := some 0, exitAt := some 0, timer := 2 ^ 40 } }

theorem wit_GaugeHouseEventsComplete : (tSt tUp).Live ∧ tUp.Writes .host ∧ (tUp.set .GH_CTRL_PROG_RUN 0).get .GH_CTRL_PROG_RUN = 0 ∧
    (tUp.set .GH_CTRL_PROG_RUN 1).get .GH_CTRL_PROG_RUN ≠ 0 ∧ tUp.pwr.pend = none ∧
    tGhEvents.bit .TC_ARMED 1 = true ∧ tGhEvents.rd64 (.TC_CMP_LO 1) ≤ tGhEvents.gh.timer ∧ tGhEvents.bit .TC_ARMED 7 = true ∧
    tGhEvents.rd64 (.TC_CMP_LO 7) ≤ tGhEvents.gh.timer ∧ tGhEvents.gh.wait = some 1 ∧ ((tGhEvents.wr .GH_EVP 1).rd .GH_EVP &&& 1) ≠ 0 ∧
    tGhEvents.ctrlBit 1 3 = false ∧ tGhEvents.gh.scrub = some ⟨0, 0, [], []⟩ ∧ 0 + 2144 ≤ tGhEvents.gh.timer ∧ 5 ≤ ({ tGhEvents with pwr := { Pwr.reset with entry := 5 } } : Dev).pwr.entry ∧
    tGhEvents.gh.enterAt = some 0 ∧ 0 + tGhEvents.get .GH_BUDGET_ENTER < tGhEvents.gh.timer ∧ tGhEvents.gh.exitAt = some 0 ∧
    0 + tGhEvents.get .GH_BUDGET_EXIT < tGhEvents.gh.timer ∧ (tExit 3).pwr.entry = 0 ∧ (tExit 3).pwr.exiting = true ∧
    (tExit 3).get .PWR_STATE_STATE = 3 := by decide +kernel

/-! ### Witnesses: the Headgate -/

/-- An instruction word of format I (Table 8-2), its predicate p0. -/
def tW (opc d a b f imm : Nat) : Nat := opc * 2 ^ 56 + d * 2 ^ 47 + a * 2 ^ 42 + b * 2 ^ 37 + f * 2 ^ 32 + imm

/-- The Headgate running at pc 0, where the bundle has these words. -/
def tHg (q : List Nat) : Dev := { tUp.set .HG_STATE_STATE 2 with
  mem := (q.zipIdx).flatMap fun e => if e.1 = 0 then [] else tWords spImem [(8 * e.2, e.1 % 2 ^ 32), (8 * e.2 + 4, e.1 / 2 ^ 32)] }
def tA (w : Nat) : Dev := tHg [w, 0, 0, 0, 0, 0, 0, 0]
def tB (w : Nat) : Dev := tHg [0, w, 0, 0, 0, 0, 0, 0]
def tC (w c1 : Nat) : Dev := tHg [0, 0, w, c1, 0, 0, 0, 0]

/-- The words of slot A, among them CMPI, MPEEK and MPOP of Table 8-11. -/
def tWordsA : List Nat := [0, tW 0x10 1 2 3 0 0, tW 0x11 1 2 0 0 5, tW 0x14 1 2 0 0 0x0800, tW 0x15 1 2 3 0 0x0800, tW 0x16 1 2 0 0 0,
  tW 0x18 1 2 3 0 0, 0x1900940000000003, tW 0x1A 1 2 3 0 0, tW 0x1B 1 2 3 0 1, tW 0x1C 1 0 0 0 0, tW 0x1D 0 1 0 0 0, 0x2002800300000404,
  0x2102000300000000, tW 0x22 1 0 0 0 0, tW 0x23 1 0 0 0 2, tW 0x25 1 0 0 0 0]

theorem wit_HeadgateIntegerInstructions : ∀ w ∈ tWordsA, (tSt (tA w)).Live ∧ (tA w).HgAt (Bundle.onlyA w) ∧ (tA w).predOn ⟨w, 0⟩ = true := by
  decide +kernel

theorem wit_HeadgateIntegerInstructions_opcodes : tWordsA.map (fun w => (⟨w, 0⟩ : Slot).opc) =
    [0, 0x10, 0x11, 0x14, 0x15, 0x16, 0x18, 0x19, 0x1A, 0x1B, 0x1C, 0x1D, 0x20, 0x21, 0x22, 0x23, 0x25] := by decide +kernel

/-- MPOP finds its FIFO empty, or a mark in it; HQRY asks for the task that h2 names. -/
def tMark : Dev := { tA 0x2102000300000000 with hg := { (tA 0).hg with marks := (tA 0).hg.marks.set 3 [(5, 0)] } }
def tHqry : Dev := (tA (tW 0x24 1 0 0 0 2)).setH 2 0x80000005

theorem wit_HeadgateIntegerInstructions_values : (tA 0x2102000300000000).sample ⟨0x2102000300000000, 0⟩ = none ∧
    tMark.sample ⟨0x2102000300000000, 0⟩ = some (3, 5 + 3 * 2 ^ 32 + 2 ^ 35) ∧ tMark.HgAt (Bundle.onlyA 0x2102000300000000) ∧
    tHqry.HgAt (Bundle.onlyA (tW 0x24 1 0 0 0 2)) ∧
    ((tHqry.runOf (Bundle.onlyA (tW 0x24 1 0 0 0 2))).tag ⟨tW 0x24 1 0 0 0 2, 0⟩).isSome = true := by decide +kernel

/-- The words of slot B, among them WAIT and BR of Table 8-11 (BR with p0). -/
def tWordsB : List Nat := [0x4000000000001090, tW 0x41 1 0 0 0 9, tW 0x42 0 1 0 0 0, 0x4300000000000008, tW 0x44 0 0 0 0 0x10000,
  tW 0x45 0 1 0 0 2, tW 0x45 0 0 0 1 2, tW 0x46 0 1 0 0 0, tW 0x47 0 0 0 0 0, tW 0x48 1 2 3 0 0, tW 0x4A 0 0 0 0 2]

theorem wit_HeadgateControlInstructions : ∀ w ∈ tWordsB, (tSt (tB w)).Live ∧ (tB w).HgAt (Bundle.onlyB w) ∧ (tB w).predOn ⟨w, 0⟩ = true ∧
    (tB w).hg.haltReq = false := by decide +kernel

def tAbort : Dev := (tB (tW 0x49 0 0 0 0 2)).setH 2 0x80000005

theorem wit_HeadgateControlInstructions_opcodes : tWordsB.map (fun w => ((⟨w, 0⟩ : Slot).opc, (⟨w, 0⟩ : Slot).f)) =
    [(0x40, 0), (0x41, 0), (0x42, 0), (0x43, 0), (0x44, 0), (0x45, 0), (0x45, 1), (0x46, 0), (0x47, 0), (0x48, 0), (0x4A, 0)] ∧
    tAbort.HgAt (Bundle.onlyB (tW 0x49 0 0 0 0 2)) ∧
    ((tAbort.runOf (Bundle.onlyB (tW 0x49 0 0 0 0 2))).tag ⟨tW 0x49 0 0 0 0 2, 0⟩).isSome = true := by decide +kernel

/-- The words of slot C, among them LD of Table 8-11. -/
def tWordsC : List (Nat × Nat) := [(0x8003500400000000, 0x42000), (tW 0x80 1 0 0 10 0, 0x100), (tW 0x80 2 0 0 4 0, 0x100), (tW 0x81 0 0 2 0 0, 0x100),
  (tW 0x81 0 0 2 4 0, 0x100), (tW 0x82 1 0 0 2 0, 0x100000010), (tW 0x83 0 0 2 2 0, 0x100000010), (tW 0x84 1 0 0 0 0, 7), (tW 0x85 2 4 0 0 0, 0),
  (tW 0x86 0 0 0 0 0, 0)]

theorem wit_HeadgateMemoryInstructions : ∀ w ∈ tWordsC, (tSt (tC w.1 w.2)).Live ∧ (tC w.1 w.2).HgAt (Bundle.onlyC w.1 w.2) ∧
    (tC w.1 w.2).predOn ⟨w.1, w.2⟩ = true ∧ (tC w.1 w.2).eccIn 3 w.2 16 = none ∧ (tC w.1 w.2).hg.stv = 0 ∧
    (tC w.1 w.2).hg.stall = none := by decide +kernel

def tAnswers : Dev := { tUp with hg := { tUp.hg with ldv := [(1, 7)], sleep := some (1, 2, 0) } }

theorem wit_HeadgateMemoryInstructions_forms : tWordsC.map (fun w => ((⟨w.1, w.2⟩ : Slot).opc, (⟨w.1, w.2⟩ : Slot).size, (⟨w.1, w.2⟩ : Slot).f)) =
    [(0x80, 16, 4), (0x80, 4, 10), (0x80, 16, 4), (0x81, 1, 0), (0x81, 16, 4), (0x82, 4, 2), (0x83, 4, 2), (0x84, 1, 0), (0x85, 1, 0),
      (0x86, 1, 0)] ∧ targetOf (viewOff 0x100000010) ≠ .hole ∧ tAnswers.hg.ldv = [(1, 7)] ∧ tAnswers.pwr.exiting = false ∧
    tAnswers.hg.sleep = some (1, 2, 0) := by decide +kernel

/-- The task of Table 8-11 issued: its header and deadline word; the task table full; a bundle stalled for room. -/
def tIssue : Dev := tHg [0, 0, 0, 0, 0x10004005029231C0, 0, 0, 0x00003E8000000000]
def tFull : Dev := { tIssue with hg := { tIssue.hg with tasks := (List.range 256).map tTask } }
def tStalled : Dev := { tIssue with hg := { tIssue.hg with stall := some ⟨tIssue.bundleAt 0, 0, [none, none]⟩ } }

theorem wit_HeadgateIssueAndExceptions : (tSt tIssue).Live ∧ tIssue.HgAt (Bundle.onlyD 0x10004005029231C0 0 0 0x00003E8000000000) ∧
    (tIssue.runOf (Bundle.onlyD 0x10004005029231C0 0 0 0x00003E8000000000)).dOn = true ∧ tIssue.freeSlot = some 0 ∧
    tStalled.hg.stall = some ⟨tIssue.bundleAt 0, 0, [none, none]⟩ ∧ tStalled.freeSlot = some 0 := by decide +kernel

/-- A full table and the predicate of slot C off: slot C holds FENCE under NOT p0. -/
def tFullOff : Dev := { tHg [0, 0, tW 0x86 0 0 0 0 0 + 2 ^ 55, 0, 0x10004005029231C0, 0, 0, 0x00003E8000000000] with
  hg := { (tFull).hg with tasks := tFull.hg.tasks } }
def tFullBundle : Bundle := { Bundle.onlyD 0x10004005029231C0 0 0 0x00003E8000000000 with c := ⟨tW 0x86 0 0 0 0 0 + 2 ^ 55, 0⟩ }

theorem wit_HeadgateIssueAndExceptions_full : tFullOff.HgAt tFullBundle ∧ (tFullOff.runOf tFullBundle).dOn = true ∧ tFullOff.freeSlot = none ∧
    tFullOff.predOn tFullBundle.c = false := by decide +kernel

/-- A bundle whose slot A holds an unlisted opcode. -/
def tIllegal : Dev := tA (tW 0x12 0 0 0 0 0)

theorem wit_HeadgateIssueAndExceptions_illegal : tIllegal.canRun = true ∧
    (Bundle.ofWords (tIllegal.bundleAt (tIllegal.get .HG_PC_PC))).illegal = some 0 ∧ tIllegal.hg.ldv = [] ∧ tIllegal.eccIn 1 0 64 = none ∧
    tIllegal.breakAt 0 = false ∧ (tUp.set .HG_STATE_STATE 1).hgState = hgHALTED ∧ (tUp.set .HG_STATE_STATE 1).Writes .host ∧
    tIssue.hgState = hgRUNNING ∧ tIssue.Writes .host := by decide +kernel

def tHgWait : Dev := { tHgIn 3 with hg := { tUp.hg with ev := 2 ^ 36 } }.wr64 .HG_WAIT_MASK_LO (2 ^ 36)
def tHgTimer : Dev := (tUp.setBit .HG_TMR_ARMED 0 true).setBit .HG_TMR_ARMED 3 true
def tHgTask : Dev := { tUp with hg := { tUp.hg with tasks := [tTask 7] } }
def tHgAbsent : Dev := { tHgTask with map := { tHgTask.map with ents := [(5, { status := 0, cause := 0, origin := 0, stage := 0xFF })] } }

theorem wit_HeadgateControlsComplete : (∀ n ∈ [0, 1, 2, 3, 4], (tHgIn n).hgState = n ∧ (tHgIn n).Writes .host) ∧ (tHgIn 2).hg.stall = none ∧
    (tHgIn 2).hg.sleep = none ∧ (tHgIn 2).hg.sleepGd = none ∧ (tHgIn 2).hg.inD = false ∧
    ((tUp.set (.RING_SIZE_LOG2 7) 4).rd (.RING_PROD 7) + 65536 - 0) % 65536 ≤ (tUp.set (.RING_SIZE_LOG2 7) 4).ringEntries 7 ∧
    tUp.ringEntries 7 < (tUp.rd (.RING_PROD 7) + 65536 - 1) % 65536 ∧ tUp.get .HG_IMEM_LOCK_LOCK ≠ 1 ∧
    tHgTimer.bit .HG_TMR_ARMED 0 = true ∧ tHgTimer.bit .HG_TMR_ARMED 3 = true ∧ bitsOf tHgTimer.hg.fired 3 1 = 0 ∧
    tHgTimer.rd64 (.HG_TMR_LO 0) ≤ tHgTimer.gh.timer ∧ tHgTimer.rd64 (.HG_TMR_LO 3) ≤ tHgTimer.gh.timer ∧
    tHgWait.hgState = hgWAITING ∧ tHgWait.frozen hgb = false ∧ tHgWait.get .PWR_STATE_STATE ≠ 3 ∧ tHgWait.pwr.entry = 0 ∧
    tHgWait.evWord &&& tHgWait.rd64 .HG_WAIT_MASK_LO ≠ 0 ∧ tHgWait.hg.stepping = false := by decide +kernel

theorem wit_HeadgateControlsComplete_dispatch : tHgTask.task? 7 = some (tTask 7) ∧ (tTask 7).st = 1 ∧ (tTask 7).sent = false ∧
    tHgTask.frozen hgb = false ∧ tHgTask.asleep = false ∧
    (tHgTask.hg.tasks.find? fun u => u.st == 1 && !u.sent && u.cls == (tTask 7).cls && u.inst == (tTask 7).inst) = some (tTask 7) ∧
    tHgTask.present (engineBlk (tTask 7).cls (tTask 7).inst) = true ∧ (tTask 7).object = 0 ∧
    tHgAbsent.task? 7 = some (tTask 7) ∧ tHgAbsent.present (engineBlk (tTask 7).cls (tTask 7).inst) = false := by decide +kernel

/-! ### Witnesses: objects, tasks, the Pool Manager, the Flume -/

/-- Engines enabled. -/
def tOn : Dev := [4, 5, 6, 38, 47, 63, 64, 65, 103].foldl (fun d b => d.setCtrl b 0 true) tUp

/-- An object in a state, 4 raw blocks in T1. -/
def tObj (h st : Nat) : Obj :=
  { handle := h, state := st, partner := 1, kind := 0, fate := 1, codec := 0, format := 0, tier := 1, liftLock := false, drainLock := false,
    evictAfter := false, wetAll := false, poison := false, policy := 0, stateWin := false, enc := false, key := 0, blocks := 4, refs := 0,
    window := 0, winBlock := 0, loc := 0x100000, node := 0, consumed := false, mb := 0, step := 0, escBlocks := 0, chain := 0, region := 0,
    tensor := 0, touch := 0, home := some { tier := 1, node := 0, addr := 0x100000, size := 4 * 65536 }, leaving := [], rearm := none,
    rebuilt := false, evictedAt := none, relift := false, packed := false, slot := none, accept := false, ue := false }
def tWith (o : Obj) : Dev := { tOn with objs := [(hIndex o.handle, o)] }

/-- A task sent to its engine. -/
def tTk (cls op w1 w2 w3 : Nat) : Task :=
  { tTask 7 with hdr := cls * 2 ^ 40 + op * 2 ^ 24, w1 := w1, w2 := w2, w3 := w3, sent := true }
def tSent (d : Dev) (t : Task) : Dev := { d with hg := { d.hg with tasks := [t] } }

/-- An object with handle 5 in state `st`, and an Allotment task of it. -/
def tAl (op st : Nat) : Dev := tSent (tWith (tObj 5 st)) (tTk 0x30 op 5 0 0)
def tWait (f : Obj → Obj) (st : Nat) : Dev := tWith (f (tObj 5 st))
def tRearmed : Dev := tWait (fun o => { o with rearm := some (7, 1, 2) }) oREADY

theorem wit_AllotmentTasksComplete : (∀ x ∈ [(1, oDRY), (1, oFILLING), (1, oWET), (1, oREADY), (2, oSEALED), (2, oREADY), (3, oSEALED),
      (4, oCOMPRESSING), (4, oLIFTING), (4, oDRAINING), (4, oRECOMPUTING), (4, oREADY)],
      (tAl x.1 x.2).AllotReady (tTk 0x30 x.1 5 0 0) (tObj 5 x.2) x.1 ∧ (tSt (tAl x.1 x.2)).Live) ∧
    (((((tAl 4 oREADY).acceptTask 7).updObj 5 fun x => { x with rearm := some (7, 0, 0), evictAfter := false }).rearmHome
      (tObj 5 oREADY)).isSome = true) := by decide +kernel

/-- Room in T1 and T2: a stack and a port of 1,024 MiB, and a quota. -/
def tRoom (d : Dev) : Dev :=
  (((((d.setParam 104 8 1024).setParam 75 8 1024).wr64 (.CAPACITY_T_LO 1) (2 ^ 20)).wr64 (.CAPACITY_T_LO 2) (2 ^ 20)).wr (.QUOTA 1 1) 64).wr (.QUOTA 1 2) 64

/-- HOLD entry with an object in T0 that T1 has room for (R74). -/
def tHoldT0 : Dev :=
  let o : Obj := { tObj 5 oREADY with tier := 0, home := some { tier := 0, node := 0, addr := 0, size := 4 * 65536 } }
  { tRoom (tWith o) with pwr := { tUp.pwr with entry := 1 } }

theorem wit_PendingRequestsComplete_t0 : tHoldT0.pwr.entry = 1 ∧ tHoldT0.hg.stall = none ∧ tHoldT0.hg.inD = false ∧ tHoldT0.hg.ldv = [] ∧
    tHoldT0.ckptInFlight = false ∧ tHoldT0.pool.drains.any Drain.keep = false ∧ tHoldT0.t0Waits = true := by decide +kernel

theorem wit_AllotmentTasksComplete_events : tRearmed.frozen 4 = false ∧ (tRearmed.obj? 5).isSome = true ∧
    (tRearmed.obj? 5).map Obj.rearm = some (some (7, 1, 2)) ∧ (tRearmed.obj? 5).map Obj.busy = some false ∧ (tRearmed.obj? 5).map Obj.refs = some 0 ∧
    (let d := tWait (fun o => { o with rearm := some (7, 1, 2) }) oDRAINING
     d.frozen 4 = false ∧ (d.obj? 5).map (fun o => (o.rearm, o.busy)) = some (some (7, 1, 2), true)) ∧
    ((tRearmed.obj? 5).bind tRearmed.rearmHome).isSome = true ∧
    (let d := tWait (fun o => { o with evictAfter := true, consumed := true }) oREADY
     (d.obj? 5).map (fun o => (o.evictAfter, o.consumed, o.state, o.refs)) = some (true, true, oREADY, 0) ∧ d.pendingPromote 5 = false ∧
       d.frozen 4 = false ∧ d.frozen 5 = false) ∧
    (let d := tWait id oRETIRED
     (d.objAt (hIndex 5)) = some (tObj 5 oRETIRED) ∧ (tObj 5 oRETIRED).handle = 5 ∧ d.named 5 = false) := by decide +kernel

/-- The Headgate at bundle 0, boot over, with an admission command (Table 9-7): opcode, image address 0, 256 bytes. -/
def tAdm (op : Nat) (adm : Bool) : Dev :=
  let d := ((tHgIn 2).set .HOST_LINK_BME 1)
  { d with mem := tWords spDmem [(admBase, op * 2 ^ 24), (admBase + 0x10, 256)], plan := { d.plan with admitted := adm } }

/-- An image with two empty sections (Tables 9-1 to 9-3), its header's CRC in place. -/
def tImgWords : List Nat := [0x4E4C5056, 0x00010000, 256, 2, 1] ++ List.replicate 10 0
def tImgSecs : List Nat := [0x10001, 0, 0, 0, 128, 0, 0, 0, 0x20001, 0, 0, 0, 64, 0, 0, 0]
def tImgOf (c : Nat) : List Byte := (tImgWords ++ [c] ++ tImgSecs).flatMap (leBytes 4) ++ List.replicate 128 0

theorem wit_AdmissionCompletes : (∀ x ∈ [(3, false), (1, true), (1, false), (2, false), (2, true)],
      (tSt (tAdm x.1 x.2)).Live ∧ (tAdm x.1 x.2).admRuns = true ∧ (tAdm x.1 x.2).admOpcode = x.1 ∧ (tAdm x.1 x.2).plan.admitted = x.2 ∧
      (tAdm x.1 x.2).plan.job = none) ∧
    (tAdm 1 false).admBadCmd = false ∧ (tAdm 1 false).admReads = true ∧ (tAdm 1 false).adm 0x10 4 = 256 ∧ (tAdm 2 true).hg.tasks = [] ∧
    (tSent (tAdm 2 true) (tTask 7)).hg.tasks ≠ [] ∧ (tSent (tAdm 2 true) (tTask 7)).admRuns = true := by decide +kernel

/-- A command whose image is not aligned, and one met without host memory. -/
def tAdmOdd : Dev := { tAdm 1 false with mem := tWords spDmem [(admBase, 2 ^ 24), (admBase + 8, 64), (admBase + 0x10, 256)] }
def tAdmDeaf : Dev := (tAdm 1 false).set .HOST_LINK_BME 0

theorem wit_AdmissionCompletes_image : imgFault ((tImgOf 2881717101).take 256) 256 = none ∧ (imgFault ((tImgOf 0).take 256) 256).isSome = true ∧
    tAdmOdd.admRuns = true ∧ tAdmOdd.admOpcode = 1 ∧ tAdmOdd.plan.admitted = false ∧ tAdmOdd.admBadCmd = true ∧
    tAdmDeaf.admRuns = true ∧ tAdmDeaf.admOpcode = 1 ∧ tAdmDeaf.admBadCmd = false ∧ tAdmDeaf.admReads = false := by decide +kernel

/-- The service has judged the image, with PUBLISH_SEQ at `seq`, and installed the parts before `part`. -/
def tJudged (seq part measures : Nat) : Dev :=
  let d := tAdm 1 false
  { d with plan := { d.plan with job := some { img := [], seq := seq, reply := { Reply.bare 1 with measures := measures }, part := part } } }

theorem wit_AdmissionCompletes_job : ∀ x ∈ [(1, 0, 1), (1, 0, 3), (1, 0, 4), (0, 0, 1), (0, 1, 1), (0, 8, 1), (0, 9, 4)],
    let d := tJudged x.1 x.2.1 x.2.2
    (tSt d).Live ∧ d.admRuns = true ∧ d.plan.job.map AdmJob.part = some x.2.1 ∧
      d.plan.job.map (fun j => decide (d.map.seq = j.seq)) = some (x.1 == 0) ∧
      d.plan.job.map (fun j => j.reply.measures) = some x.2.2 := by decide +kernel

/-- A Pool Manager task of a tier (Table 8-8: 64 KiB, SVC 3). -/
def tPl (op tier svc : Nat) : Task := tTk 0x31 op (65536 + tier * 2 ^ 48) 0 (svc * 2 ^ 61)
def tPool (t : Task) : Dev := tSent tOn t

theorem wit_PoolCompletes_tasks : (∀ x ∈ [(1, 2, 3), (1, 1, 3), (2, 2, 3), (2, 2, 4)],
      (tPool (tPl x.1 x.2.1 x.2.2)).PoolReady (tPl x.1 x.2.1 x.2.2) x.1 ∧ (tPl x.1 x.2.1 x.2.2).poolTier = x.2.1 ∧
      (tPl x.1 x.2.1 x.2.2).svc = x.2.2 ∧ (tPl x.1 x.2.1 x.2.2).poolBytes = 65536) ∧ (tSt (tPool (tPl 1 2 3))).Live := by decide +kernel

/-- A stream of Flume 0, context 2, of the object with handle 5: T1 to T2. -/
def tStr (slot op st : Nat) : Stream :=
  { flume := 0, ctx := 2, slot := slot, tag := 7, st := st, cause := 0, op := op, handle := 5, first := 0, count := 4, abort := false,
    gate := false, obs := false, step := 0, mb := 0, tensor := 0, svc := 3, deadlineUs := 0, mask := 0, lanes := [], prior := 0,
    src := { tier := 1, node := 0, addr := 0x100000, size := 4 * 65536 }, dst := some { tier := 2, node := 0, addr := 0, size := 4 * 65536 },
    gSrc := 1, gDst := 1, rd := 1, rdDone := 0, rdq := [(0, 0)], ahead := [], cur := [], wq := [], wi := 0, wiq := [], pgR := [], pgW := [], full := [], low := 0, fin := [], gran := 0,
    esc := 0, escAt := [], seen := [], startAt := none, lead := none, entered := true, chained := false, dest := 2, keyIn := false,
    recCause := 0, queued := none, counted := false, refWait := false, lost := false, blocked := none }
/-- A page request of that stream's first read, group 9. -/
def tPri : Pri := { flume := 0, group := some 9, ctx := 2, slot := 0, write := false, piece := 0, addr := 0 }
def tFlow (x : Stream) : Dev :=
  let d := tWith (tObj 5 oDRAINING)
  { d with flm := { d.flm with streams := [x], pri := [tPri] } }
def tT3 : Stream := { tStr 0 1 2 with src := { tier := 3, node := 0, addr := 0x100000, size := 4 * 65536 } }

/-- A drain to a failed path; a chain that waits. -/
def tDrain : Dev :=
  let d := tOn.set .POOL_STATUS_T2_FAILED 1
  { d with
    gh := { d.gh with timer := 2 ^ 40 }
    pool := { d.pool with drains :=
      [{ handle := 5, svc := 3, dst := { tier := 2, node := 0, addr := 0, size := 65536 }, gSrc := 0, gDst := 0, moved := 0, tag := none,
         capacity := false, since := 0, prior := 0, counted := false, refWait := false, lost := false, blocked := some 0, keep := false }] } }
def tChain (st op : Nat) : Chain :=
  { tag := none, found := none, auto := true, handle := 5, index := 0, mask := 0, arith := 0, mb := 0, step := 0, gate := false, svc := 3,
    deadline := 0, issued := 0, st := st, tiles := [0], op := op, opened := false, left := [0], modes := [(0, 0)], res := [], scratch := [],
    users := [], flags := 0, need := [], lost := false, waitAt := none }
/-- The loop's millisecond is over, the Pool Manager frozen or not. -/
def tLoop (fz : Bool) : Dev :=
  let d := if fz then tOn.setCtrl 5 3 true else tOn
  { d with pool := { d.pool with ageRun := 19200 } }

/-- A RESERVE of class `svc`, of a partner whose quota of T2 is `q` 64 KiB blocks, with T2 of `cap` bytes. -/
def tReserve (svc q cap : Nat) : Dev :=
  ((tPool (tPl 2 2 svc)).wr64 (.CAPACITY_T_LO 2) cap).wr (.QUOTA (tPl 2 2 svc).poolPartner 2) q

theorem wit_PoolCompletes_reserve : (∀ x ∈ [(2, 0, 65536), (3, 0, 65536), (3, 16, 65536), (3, 16, 0), (2, 0, 0)],
      (tReserve x.1 x.2.1 x.2.2).PoolReady (tPl 2 2 x.1) 2) ∧
    (let t := tPl 2 2 3
     let e := fun q c => (tReserve 3 q c).acceptTask t.tag
     (e 0 65536).overQuota t.poolPartner t.poolTier t.poolBytes = true ∧ (e 16 65536).overQuota t.poolPartner t.poolTier t.poolBytes = false ∧
       (e 16 65536).rd64 (.RESERVED_T_LO 2) + t.poolBytes ≤ (e 16 65536).rd64 (.CAPACITY_T_LO 2) ∧
       (e 16 0).overQuota t.poolPartner t.poolTier t.poolBytes = false ∧
       ¬ (e 16 0).rd64 (.RESERVED_T_LO 2) + t.poolBytes ≤ (e 16 0).rd64 (.CAPACITY_T_LO 2)) := by decide +kernel

theorem wit_PoolCompletes_events : tOn.frozen 5 = false ∧
    (∀ fz ∈ [false, true], let d := tLoop fz
      d.asleep = false ∧ 19200 ≤ d.pool.ageRun ∧ d.isTied 0x31 0 = false ∧ d.get .AGE_PIN_PIN_EN = 0) ∧
    (let x := { tStr 0 1 2 with blocked := some 0 }
     let d := { tFlow x with gh := { tOn.gh with timer := 2 ^ 40 } }
     d.stream? (0, 2, 0) = some x ∧ d.streamStalled x = true ∧ d.asleep = false) ∧
    tDrain.drainStalled 5 = true ∧ tDrain.asleep = false ∧
    ({ tDrain with chains := [{ tChain 2 0 with waitAt := some 0 }] } : Dev).chainStalled { tChain 2 0 with waitAt := some 0 } = true := by
  decide +kernel

/-- A stream task (Table 8-8): its operation, DEST_TIER, SVC 3; the object and its state. -/
def tFlTask (op dest cnt : Nat) : Task := tTk 0x40 op (5 + cnt * 2 ^ 48) (dest * 2 ^ 48) (3 * 2 ^ 61)
def tFl (op dest cnt st fate : Nat) : Dev := tSent (tWait (fun o => { o with fate := fate }) st) (tFlTask op dest cnt)
def tFlRoom (op dest cnt st fate : Nat) : Dev := tRoom (tFl op dest cnt st fate)

theorem wit_StreamsComplete_accepted : (∀ x ∈ [(1, 2, oSEALED, 2), (2, 1, oPARKED, 2), (3, 1, oSEALED, 1), (4, 15, oREADY, 1)],
      let d := tFlRoom x.1 x.2.1 0 x.2.2.1 x.2.2.2
      let t := tFlTask x.1 x.2.1 0
      d.StreamReady t 0 x.1 ∧ (tSt d).Live ∧ d.checkSpec (t.spec 0) = none ∧ ((d.acceptTask t.tag).startStream (t.spec 0)).2 = none) ∧
    (∀ x ∈ [(1, 2, oPENDING, 2, cObjectState), (2, 1, oREADY, 2, cObjectState), (3, 1, oSEALED, 2, cDescParam), (4, 15, oDRY, 1, cObjectState)],
      let d := tFl x.1 x.2.1 0 x.2.2.1 x.2.2.2.1
      let t := tFlTask x.1 x.2.1 0
      d.StreamReady t 0 x.1 ∧ d.checkSpec (t.spec 0) = some x.2.2.2.2) ∧ cObjectState ≠ cHandleStale ∧ cDescParam ≠ cHandleStale ∧
    (let d := tFl 1 2 0 oSEALED 2
     let t := tFlTask 1 2 0
     d.StreamReady t 0 1 ∧ d.checkSpec (t.spec 0) = none ∧ ((d.acceptTask t.tag).startStream (t.spec 0)).2.isSome = true) := by decide +kernel

/-- A LIFT in WAIT_START whose time has come; a T3 write that is issued. -/
def tDue : Stream := { tStr 0 2 1 with startAt := some 0 }
def tT3w : Stream := { tStr 0 1 2 with dst := some { tier := 3, node := 0, addr := 0, size := 4 * 65536 }, wi := 1 }

theorem wit_StreamsComplete_events :
    (let d := (tFlow tDue).ctxUse 0 2
     (d.ctxStreams 0 2).filter (fun y => d.startDue y) = [tDue]) ∧
    (let d := (tFlow (tStr 0 1 2)).ctxUse 0 2
     d.stream? (0, 2, 0) = some (tStr 0 1 2) ∧ d.obj? 5 = some (tObj 5 oDRAINING)) ∧
    (tStr 0 1 2).nextRead.isSome = true ∧ (tStr 0 1 2).src.tier = 1 ∧ (tStr 0 1 2).dst.map Place.tier = some 2 ∧
    0 < ({ tStr 0 1 2 with wi := 1 } : Stream).wi ∧
    ((tFlow tT3).ctxUse 0 2).stream? (0, 2, 0) = some tT3 ∧ tT3.nextRead.isSome = true ∧ tT3.src.tier = 3 ∧
    ((tFlow tT3w).ctxUse 0 2).stream? (0, 2, 0) = some tT3w ∧ 0 < tT3w.wi ∧ tT3w.dst.map Place.tier = some 3 ∧
    (let d := tFlow (tStr 0 1 2)
     (d.flm.pri.find? fun e => e.flume == 0 && e.group == some 9) = some tPri ∧ (d.flm.pri.find? fun e => e.flume == 1 && e.group == some 9) = none ∧
       d.get .HOST_T3_PASID_PASID = 0) ∧
    (∀ n ∈ [4, 6], (tFlow (tStr 0 1 n)).stream? (0, 2, 0) = some (tStr 0 1 n) ∧
      (tFlow (tStr 0 1 n)).tagOpen ((tStr 0 1 n).owner true) = false ∧ (tFlow (tStr 0 1 n)).tagOpen ((tStr 0 1 n).owner false) = false) := by
  decide +kernel

theorem wit_FlumeContextCommandsComplete : (∀ n ∈ [5, 1, 2, 3], let e := tFlow (tStr 0 1 n)
      let d := e.ctxUse 0 2
      (tSt e).Live ∧ e.Writes .host ∧ d.ctxTag 0 2 = some 7 ∧ d.ctxState 0 2 = n ∧ d.turn? 0 2 = none) ∧
    (let d := (tFlow (tStr 0 1 5)).ctxUse 0 2
     d.badResumeMask (d.ctxStreams 0 2) (d.rd .FLM_RESUME_LANES 0) = false) ∧
    ((tFlow (tStr 0 1 5)).ctxUse 31 15).ctxTag 31 15 ≠ some 65535 ∧ ((tFlow (tStr 0 1 4)).ctxUse 0 2).ctxState 0 2 ≠ 5 := by decide +kernel

/-! ### Witnesses: turnout programs -/

/-- A turnout program (Table 13-1) at pc 3 of Flume 0, context 2, and the word there. -/
def tTurn (a0 a1 : Nat) (w : TWait) : Turn :=
  { flume := 0, ctx := 2, tag := 7, a := [a0, a1, 0, 0, 0, 0, 0, 0], b := [0x100, 0, 0, 2 ^ 32], z := true, n := false, t := false, pc := 3,
    lanes := 0, tid := 0, dl := 0, status := [0, 0, 0, 0], wait := w, halted := false, ending := none, failed := false, late := false,
    moved := 0, fault := 0, done := false }
def tTd (t : Turn) (w : Nat) : Dev :=
  let d := (tWith (tObj 5 oREADY)).wr (.FLM_PROG 3) w 0
  { d with flm := { d.flm with turns := [t] } }
/-- The fields of Table 13-2. -/
def tWd (opc d s t imm : Nat) : Nat := opc * 2 ^ 26 + d * 2 ^ 23 + s * 2 ^ 20 + t * 2 ^ 17 + imm

def tComputeWords : List Nat := [tWd 0 0 0 0 0, tWd 4 0 1 2 8, tWd 4 3 1 2 0, tWd 5 3 1 0 0xFFFF, tWd 6 3 0 0 9, tWd 7 3 0 0 9, 8 * 2 ^ 26 + 2 ^ 24,
  9 * 2 ^ 26 + 2 ^ 24 + 3, 10 * 2 ^ 26 + 3 * 2 ^ 23 + 2, tWd 11 3 1 0 2, tWd 12 3 1 0 0, tWd 13 3 0 0 0, tWd 18 0 0 0 5, tWd 19 0 0 0 5, tWd 20 0 1 0 0,
  tWd 21 0 1 0 0]

theorem wit_TurnoutComputeInstructions : (∀ w ∈ tComputeWords, (tSt (tTd (tTurn 0 5 .none) w)).Live ∧
      (tTd (tTurn 0 5 .none) w).TurnAt 0 2 (tOpc w) (tTurn 0 5 .none) w) ∧ (tTurn 0 5 .none).pc < 511 ∧
    tComputeWords.map tOpc = [0, 4, 4, 5, 6, 7, 8, 9, 10, 11, 12, 13, 18, 19, 20, 21] ∧ bitsOf (tWd 4 0 1 2 8) 0 4 = 8 ∧
    bitsOf (tWd 4 3 1 2 0) 0 4 ≠ 8 ∧
    ((tTurn 0 5 .none).rb (bitsOf (tComputeWords.getD 8 0) 21 2) + 4 * ((tTurn 0 5 .none).ra (bitsOf (tComputeWords.getD 8 0) 18 3) +
      bitsOf (tComputeWords.getD 8 0) 0 8)) % 2 ^ 64 = 0x108 := by decide +kernel

/-- B taken, B not taken, B out of the program, DJNZ, END, WAITT, WAITO (MATCH 0), BURST, WAITB. -/
def tControlWords : List Nat := [tWd 2 1 0 0 1, tWd 2 2 0 0 1, tWd 2 1 0 0 0x100, tWd 3 1 0 0 0x1FE, 1 * 2 ^ 26 + 1, tWd 14 0 0 0 0, tWd 14 0 1 0 0,
  tWd 15 0 1 0 oREADY, tWd 15 0 1 0 oDRY, tWd 16 0 1 0 0, tWd 17 0 0 0 1]
def tBusy (w : Nat) : Dev :=
  let d := tTd (tTurn 0 5 .none) w
  { d with flm := { d.flm with streams := [tStr 0 1 2] } }

theorem wit_TurnoutControlInstructions : (∀ w ∈ tControlWords, (tSt (tTd (tTurn 0 5 .none) w)).Live ∧
      (tTd (tTurn 0 5 .none) w).TurnAt 0 2 (tOpc w) (tTurn 0 5 .none) w) ∧ tControlWords.map tOpc = [2, 2, 2, 3, 1, 14, 14, 15, 15, 16, 17] ∧
    tCond (tTurn 0 5 .none) (tD (tWd 2 1 0 0 1)) = true ∧ tCond (tTurn 0 5 .none) (tD (tWd 2 2 0 0 1)) = false ∧
    (3 : Int) + signed 9 (bitsOf (tWd 2 1 0 0 1) 0 9) = (4 : Nat) ∧ (3 : Int) + signed 9 (bitsOf (tWd 2 1 0 0 0x100) 0 9) < 0 ∧
    ((tTurn 0 5 .none).ra 1 + (2 ^ 32 - 1)) % 2 ^ 32 ≠ 0 ∧ (3 : Int) + signed 9 (bitsOf (tWd 3 1 0 0 0x1FE) 0 9) = (1 : Nat) ∧
    (tTurn 0 1 .none).ra 1 = 1 ∧ (tTd (tTurn 0 1 .none) (tWd 3 1 0 0 0)).TurnAt 0 2 3 (tTurn 0 1 .none) (tWd 3 1 0 0 0) := by decide +kernel

theorem wit_TurnoutControlInstructions_waits : (let e := (tTd (tTurn 0 5 .none) (tWd 14 0 0 0 0)).turnBegun 0 2
     (tTurn 0 5 .none).ra 0 ≤ e.tnow (tTurn 0 5 .none) ∧ e.tnow (tTurn 0 5 .none) < (tTurn 0 5 .none).ra 1) ∧
    (let e := (tTd (tTurn 0 5 .none) (tWd 15 0 1 0 oREADY)).turnBegun 0 2
     e.obj? 5 = some (tObj 5 oREADY) ∧ waitoHits (tObj 5 oREADY) 0 oREADY false = true ∧ waitoHits (tObj 5 oREADY) 0 oDRY false = false) ∧
    (∀ w ∈ [tWd 1 0 0 0 1, tWd 16 0 1 0 0, tWd 17 0 0 0 1], (tBusy w).TurnAt 0 2 (tOpc w) (tTurn 0 5 .none) w ∧ (tBusy w).anyBusy 0 2 = true ∧
      (tTd (tTurn 0 5 .none) w).anyBusy 0 2 = false ∧ ((tBusy w).turnBegun 0 2).slotBusy 0 2 0 = true ∧
      ((tBusy w).turnBegun 0 2).waitbDone (tTurn 0 5 .none) 1 = false ∧
      ((tTd (tTurn 0 5 .none) w).turnBegun 0 2).waitbDone (tTurn 0 5 .none) 1 = true) := by decide +kernel

def tTw (w : TWait) : Dev := tTd (tTurn 0 5 w) 0

theorem wit_TurnoutEventsComplete : (∀ w ∈ [TWait.waitt 0, .waito 0 5 oREADY false none true, .waito 0 5 oREADY false (some 0) false,
      .burst (tWd 16 0 1 0 0), .waitb 0 1, .ending true], (tSt (tTw w)).Live ∧ (tTw w).TurnWaits 0 2 (tTurn 0 5 w) w) ∧
    0 ≤ (tTw (.waitt 0)).tnow (tTurn 0 5 (.waitt 0)) ∧ 0 ≤ (tTw (.waitt 0)).gh.timer ∧ (tTw (.burst (tWd 16 0 1 0 0))).slotBusy 0 2 0 = false ∧
    (tTw (.waitb 0 1)).waitbDone (tTurn 0 5 (.waitb 0 1)) 1 = true ∧ (tTw (.ending true)).anyBusy 0 2 = false ∧
    (let d := tTd (tTurn 0 5 .none) 0xFFFFFFFF
     d.TurnNext 0 2 (tTurn 0 5 .none) ∧ d.turnBad (tTurn 0 5 .none) = false ∧ tIllegal (d.rd (.FLM_PROG 3) 0) = true ∧
       { d with ecc := [(6, 3)] }.TurnNext 0 2 (tTurn 0 5 .none) ∧ { d with ecc := [(6, 3)] }.turnBad (tTurn 0 5 .none) = true) ∧
    (let k := tTk 0x40 5 0 0 (3 * 2 ^ 61)
     let d := tSent tOn k
     d.sentTask k.tag 0x40 5 = some k ∧ d.freeCtx k.inst = some 0 ∧ d.enabled (6 + k.inst) = true ∧ d.frozen (6 + k.inst) = false ∧
       k.badSvc = false ∧ bitsOf k.w3 60 1 = 0 ∧ bitsOf k.w3 9 27 = 0) ∧
    (tSt tOn).Live ∧ tOn.Writes .host ∧ (tOn.flm.turns.any fun t => t.flume == 31) = false ∧
    (tOn.hg.tasks.any fun t => t.st == 1 && t.cls == 0x40 && t.op == 5 && t.inst == 31) = false ∧
    (tTw (.waitt 0)).Writes .host ∧ ((tTw (.waitt 0)).flm.turns.any fun t => t.flume == 0) = true := by decide +kernel

/-! ### Witnesses: the Sluice, the Siphon, Freeboard -/

/-- A block of the object with handle 5 at the head of lane 0, its stream, and the object with a codec, encryption and OVER. -/
def tLb (dir : Nat) (data : List Byte) (esc : Bool) : LaneBlk :=
  { lane := 0, flume := 0, ctx := 2, slot := 0, tag := 7, handle := 5, rel := 0, dir := dir, data := data, policy := 0, escape := esc }
def tCo (codec : Nat) (enc : Bool) (fmt : Nat) : Obj :=
  { tObj 5 oDRAINING with codec := codec, enc := enc, format := fmt, escBlocks := 1, accept := true }
def tLane (b : LaneBlk) (o : Obj) : Dev :=
  let d := { tFlow (tStr 0 1 2) with objs := [(5, o)] }
  { d with slc := { d.slc with q := [b] } }
def tHdr (blk : Nat) : List Byte := slotHeader 0 16 0 false false false false 0 0 0 64 5 blk 0xFFFFFFFF 0

theorem wit_SluiceBlocksComplete : (∀ x ∈ [(0, 0, false), (0, 1, false), (0, 1, true), (1, 0, false), (1, 1, false)],
      let b := tLb x.1 (tHdr 0) x.2.2
      (tSt (tLane b (tCo x.2.1 false 0))).Live ∧ (tLane b (tCo x.2.1 false 0)).LaneAt 0 x.1 b (tStr 0 1 2) (tCo x.2.1 false 0) ∧ b.escape = x.2.2 ∧
      (tLane b (tCo x.2.1 false 0)).latchKey (tCo x.2.1 false 0) = some none) ∧
    (let b := tLb 0 [] false
     (tLane b (tCo 0 true 0)).LaneAt 0 0 b (tStr 0 1 2) (tCo 0 true 0) ∧ (tLane b (tCo 0 true 0)).latchKey (tCo 0 true 0) = none) ∧
    (tStr 0 1 2).esc < (tCo 1 false 0).escBlocks ∧ ((tLane (tLb 0 [] true) (tCo 1 false 0)).slc.q.any fun x =>
      x.flume == 0 && x.ctx == 2 && x.slot == 0 && decide (x.rel < 0)) = false ∧
    ((tStr 0 1 2).full.any fun e => decide (e.1 < 0)) = false ∧
    headerCheck (tHdr 0) (tCo 1 false 0) ((tStr 0 1 2).blk 0) = none ∧ bitsOf (hdrWord (tHdr 0) 4) 24 1 = 0 ∧ tHdr 0 ≠ [] ∧
    headerCheck (tHdr 1) (tCo 1 false 0) ((tStr 0 1 2).blk 0) = some 0x0606 := by decide +kernel

def tKey (n : Nat) : List Word := List.replicate 8 1 ++ List.replicate 8 (BitVec.ofNat 32 n)
def tStaged (l : List Word) : Dev := tUp.setKeyStage .host l

theorem wit_KeySlotsComplete : (tStaged (tKey 2)).Writes .host ∧ (tSt (tStaged (tKey 2))).Live ∧ ((tStaged (tKey 2)).keyStage .host).length = 16 ∧
    (tStaged (tKey 2)).keyOf ((tStaged (tKey 2)).get .KEY_SEL_SLOT) = none ∧
    (keyBytes (tKey 2)).take 32 ≠ (keyBytes (tKey 2)).drop 32 ∧ (keyBytes (tKey 1)).take 32 = (keyBytes (tKey 1)).drop 32 ∧
    ((tStaged (tKey 1)).keyStage .host).length = 16 ∧ ((tStaged [1]).keyStage .host).length < 16 ∧
    (((tStaged (tKey 2)).putKey 0 []).keyOf (((tStaged (tKey 2)).putKey 0 []).get .KEY_SEL_SLOT)).isSome = true ∧
    tUp.x5 0 tUp.holdPermitted = false ∧
    (let d := { tPow with plan := { tPow.plan with admitted := true }, objs := [(5, { tObj 5 oDRY with enc := true, key := 3 })] }
     d.Writes .host ∧ d.x5 7 d.holdPermitted = true) := by decide +kernel

/-- A RUN_CHAIN task (Table 8-10) of entry 0, whose object is PENDING; chains that are ready, waiting, running. -/
def tRun : Task := tTk 0x61 1 5 0 (3 * 2 ^ 61)
def tRunBad : Task := tTk 0x61 1 (5 + 9 * 2 ^ 32) 0 (3 * 2 ^ 61)
def tSiphon (t : Task) : Dev := tSent ((tWith (tObj 5 oPENDING)).wr .SPH_CHAIN_ENTRIES 4) t
def tChains (c : Chain) : Dev := { tWith (tObj 5 oPENDING) with chains := [c] }

theorem wit_SiphonCompletes : (let d := tSiphon tRun
     (tSt d).Live ∧ d.sentTask tRun.tag 0x61 1 = some tRun ∧ d.frozen 63 = false ∧ d.enabled 63 = true ∧ d.chains.length < 16 ∧
       tRun.badChain = false ∧ bitsOf tRun.w1 32 16 < d.rd .SPH_CHAIN_ENTRIES ∧ d.plan.homeLost = false ∧
       d.obj? tRun.object = some (tObj 5 oPENDING) ∧ (d.chains.any fun c => c.handle == 5) = false ∧
       (d.tilesOf (bitsOf tRun.w2 48 16)).isEmpty = false ∧ d.chainBytes (bitsOf tRun.w1 32 16) ≤ (tObj 5 oPENDING).blocks * 65536) ∧
    (let d := tSiphon tRunBad
     d.sentTask tRunBad.tag 0x61 1 = some tRunBad ∧ d.rd .SPH_CHAIN_ENTRIES ≤ bitsOf tRunBad.w1 32 16 ∧ d.enabled 63 = true) ∧
    (let c := { tChain 0 0 with svc := 0, tiles := [] }
     let d := tChains c
     d.frozen 63 = false ∧ d.enabled 63 = true ∧ d.auto = [] ∧ d.chains = [c] ∧ c.st = 0 ∧ (d.tilesOf c.mask).isEmpty = false ∧
       ((d.tilesOf c.mask).all fun t => !d.busyTiles.contains t) = true) ∧
    (let c := tChain 2 0
     let d := tChains c
     d.frozen 63 = false ∧ (d.chains.find? fun x => x.handle == c.handle) = some c ∧ c.tag = none) ∧
    (∀ o ∈ [true, false], let c := { tChain 1 0 with opened := o }
      let d := tChains c
      (d.chains.find? fun x => x.st == 1 && x.left.contains 0) = some c ∧ d.frozen 63 = false ∧ d.frozen (47 + 0) = false ∧
        d.enabled (47 + 0) = true ∧ c.opened = o ∧ c.need = []) ∧
    (let d := { tChains (tChain 1 0) with mem := tWords spT1 [(68, 1)] }
     (d.chains.find? fun x => x.st == 1 && x.left.contains 0) = some (tChain 1 0) ∧ d.frozen 63 = false ∧ d.frozen (47 + 0) = false ∧
       d.enabled (47 + 0) = true ∧ (d.openOp (tChain 1 0)).2 = false) := by decide +kernel

/-- Freeboard in step 9, with a block to observe and two tensors to commit; a PUBLISH or VOTE task of it. -/
def tFb : Dev := { tOn with
  obsQ := [{ handle := 5, tensor := 0, step := 9, fmt := 0, data := [] }], fb := { Fb.reset with step := some 9, commits := [(1, 0), (2, 0)] } }
def tFbTask (op w1 : Nat) : Task := tTk 0x70 op w1 0 0

theorem wit_FreeboardScalesComplete : (tSt tFb).Live ∧ tFb.fbFree = true ∧ tFb.obsQ = [{ handle := 5, tensor := 0, step := 9, fmt := 0, data := [] }] ∧
    tFb.fb.commits = [(1, 0), (2, 0)] ∧ tFb.enabled fbBlk = true ∧
    (∀ w ∈ [9, 10, 9 + 2 ^ 32], (tSent tFb (tFbTask 2 w)).sentTask (tFbTask 2 w).tag 0x70 2 = some (tFbTask 2 w) ∧
      (tSent tFb (tFbTask 2 w)).fbFree = true ∧ (tSent tFb (tFbTask 2 w)).enabled fbBlk = true) ∧
    bitsOf 9 32 12 + 4096 ≤ 4096 ∧ bitsOf 9 44 12 = 0 ∧ bitsOf 9 56 8 = 0 ∧ tFb.fb.step = some (bitsOf 9 0 32) ∧ (tFb.obsQ.any fun b => b.step == 10) = false ∧ (9 : Nat) ≠ bitsOf 10 0 32 ∧
    4096 < bitsOf (9 + 2 ^ 32) 32 12 + 4096 := by decide +kernel

/-- A link message from node 6 to this node 0 on link 0, of a type, with fields and a body; the peer's links up. -/
def tMsg (type a b : Nat) (body : List Byte) : Flit :=
  { type := type, vc := vcOf type, dst := 0, src := 6, seq := 0, ack := 0, hops := 0, msgA := a, msgB := b, body := body }
def tHear (d : Dev) (m : Flit) : Dev := d.updLink 0 fun x => { x with rxq := [m] }

/-- A vote on step 9 in progress; the device a child or a parent in the tree. -/
def tVote : Vote := { Vote.new 9 0 with sentAt := some 0 }
def tVoting (root : Nat) : Dev :=
  let d := ((tOn.set .VOTE_CFG_ENABLE 1).set .VOTE_CFG_ROOT root).set .VOTE_CFG_PARENT_SET 0
  { d with fb := { Fb.reset with step := some 9, vote := some tVote }, lr := { d.lr with sets := 0 :: List.replicate 23 7 }, gh := { d.gh with timer := 2 ^ 40 } }

def tVoteMsg : Flit := tMsg 4 0 0 (leBytes 4 9 ++ leBytes 2 1 ++ leBytes 2 0 ++ leBytes 4 0)
def tResultMsg : Flit := tMsg 5 0 0 (leBytes 4 9 ++ [1, 0] ++ leBytes 2 0 ++ leBytes 2 4 ++ leBytes 2 0 ++ leBytes 4 0)

theorem wit_VotesComplete : (tSt (tVoting 1)).Live ∧ (tVoting 1).fbFree = true ∧ (tVoting 1).enabled fbBlk = true ∧
    (let d := tSent { tVoting 1 with fb := { (tVoting 1).fb with vote := some (Vote.new 9 0) } } (tFbTask 1 9)
     d.sentTask 7 0x70 1 = some (tFbTask 1 9) ∧ bitsOf 9 33 31 = 0 ∧ d.fb.missedStep = none ∧ d.EccFree 9 ∧ d.votedStep 9 = false ∧ d.fb.step = some 9 ∧
       d.fb.vote = some (Vote.new 9 0) ∧ (Vote.new 9 0).step = bitsOf 9 0 32) ∧
    (let d := tSent { tVoting 1 with fb := { (tVoting 1).fb with voted := some 9 } } (tFbTask 1 9)
     d.sentTask 7 0x70 1 = some (tFbTask 1 9) ∧ d.EccFree 9 ∧ d.fb.missedStep = none ∧ d.votedStep 9 = true) ∧
    (tVoting 1).fb.vote = some tVote ∧ (tVoting 1).isRoot = true ∧
    tVote.first + usToTicks ((tVoting 1).get .VOTE_WINDOW_WINDOW_US) ≤ (tVoting 1).gh.timer ∧ (tVoting 0).isRoot = false ∧ (tVoting 0).decidedStep 9 = false ∧
    0 + usToTicks ((tVoting 0).get .VOTE_WINDOW_RESULT_TIMEOUT_US) ≤ (tVoting 0).gh.timer ∧ (tVoting 0).fb.vote = some tVote := by decide +kernel

def tVoteAt : Dev := tHear ((tVoting 1).set .VOTE_CFG_CHILD_SETS 1) tVoteMsg
def tResultAt : Dev := tHear (tVoting 0) tResultMsg

theorem wit_VotesComplete_vote : tVoteAt.voteBusy 0 = false ∧ tVoteAt.MsgAt 0 4 fbBlk tVoteMsg ∧ tVoteMsg.body.length = 12 ∧ tVoteMsg.fld 8 1 < 2 ∧ tVoteMsg.fld 9 3 = 0 ∧
       (tVoteAt.rxPop 0 tVoteMsg).get .VOTE_CFG_ENABLE = 1 ∧ (tVoteAt.rxPop 0 tVoteMsg).childOf 0 = some 0 ∧
       (tVoteAt.rxPop 0 tVoteMsg).EccFree 9 ∧ (tVoteAt.rxPop 0 tVoteMsg).decidedStep (tVoteMsg.fld 0 4) = false := by decide +kernel

theorem wit_VotesComplete_result : tResultAt.MsgAt 0 5 fbBlk tResultMsg ∧ tResultMsg.body.length = 16 ∧ tResultMsg.fld 5 1 = 0 ∧ tResultMsg.fld 14 2 = 0 ∧ tResultMsg.fld 4 1 = 1 ∧
       (tResultAt.rxPop 0 tResultMsg).get .VOTE_CFG_ENABLE = 1 ∧ (tResultAt.rxPop 0 tResultMsg).fromParent 0 = true ∧ (tResultAt.rxPop 0 tResultMsg).childSets = [] ∧
       (tResultAt.rxPop 0 tResultMsg).fb.vote = some tVote ∧ tVote.step = tResultMsg.fld 0 4 ∧ tVote.sentAt.isSome = true ∧
       (tResultAt.rxPop 0 tResultMsg).EccFree 9 ∧
       (tResultAt.rxPop 0 tResultMsg).localStep 9 = false ∧ (tResultAt.rxPop 0 tResultMsg).decidedStep 9 = false := by decide +kernel

/-! ### Witnesses: the Cistern -/

/-- A neighbour 6 in state `st`; region 2 with it; a live link 0 to node 6 of a fleet of 8. -/
def tNbr (st : Nat) : Nbr :=
  { node := 6, st := st, opened := some 4, offer := none, offerAt := 0, links := [], job := none, leased := true, ans := 0, sent := 0,
    asked := true, fence := false }
def tReg (ns : List Nbr) : Region :=
  { id := 2, ckpt := 1, paired := false, abort := false, train := false, partner := 1, mask := 0, objs := [5], blocks := 4, map := 0, off := false,
    epoch := 3, step := some 8, unprot := false, nextStep := 9, nbrs := ns, commit := none, queued := 0, still := false, halted := true,
    point := false, record := [] }
def tPeer : Dev :=
  let d := (tOn.set .LL_STATUS_STATE 6 0).updLink 0 fun x => { x with wired := true, cred := [9, 9, 9, 9] }
  { d with lr := { d.lr with sets := 0 :: List.replicate 23 7, dims := [8, 1, 1], table := [(6, 0)] }, gh := { d.gh with timer := 2 ^ 40 }, objs := [(5, tObj 5 oDRY)] }
def tCk (gs : List Region) (r : Option Restore) : Dev := { tPeer with ck := { tPeer.ck with regions := gs, restore := r } }

/-- A Cistern task (Table 8-10) of region 2. -/
def tCkTask (op w1 w2 : Nat) : Task := tTk 0x80 op w1 w2 0
def tCkDo (gs : List Region) (op w1 w2 : Nat) : Dev := tSent (tCk gs none) (tCkTask op w1 w2)
def tR2 : Nat := 2 * 2 ^ 32

theorem wit_CisternTasksComplete_tasks : (∀ x ∈ [(1, 9 + tR2), (2, tR2), (3, 6 + tR2)], (tSt (tCkDo [tReg []] x.1 x.2 0)).Live ∧
      (tCkDo [tReg []] x.1 x.2 0).CkReady (tCkTask x.1 x.2 0) x.1 ∧ (tCkDo [tReg []] x.1 x.2 0).regionOff (tCkTask x.1 x.2 0) = false ∧
      (tCkDo [{ tReg [] with off := true }] x.1 x.2 0).CkReady (tCkTask x.1 x.2 0) x.1 ∧
      (tCkDo [{ tReg [] with off := true }] x.1 x.2 0).regionOff (tCkTask x.1 x.2 0) = true) ∧
    bitsOf (9 + tR2) 40 24 = 0 ∧ bitsOf tR2 0 32 = 0 ∧ bitsOf tR2 41 23 = 0 ∧ bitsOf (6 + tR2) 12 20 = 0 ∧ bitsOf (6 + tR2) 41 23 = 0 ∧
    (let d := tCkDo [tReg []] 1 (9 + tR2) 0
     ((d.namedRegions (tCkTask 1 (9 + tR2) 0)).any fun g => (g.step.map fun x => decide (bitsOf (9 + tR2) 0 32 < x)).getD false) = false ∧
       ((d.namedRegions (tCkTask 1 (9 + tR2) 0)).any fun g => g.step == some (bitsOf (9 + tR2) 0 32) && g.unprot) = false) := by decide +kernel

theorem wit_CisternTasksComplete_restore : (let d := tCkDo [{ tReg [] with id := 3, off := true }] 3 (6 + 0xFF * 2 ^ 32) 0
     d.CkReady (tCkTask 3 (6 + 0xFF * 2 ^ 32) 0) 3 ∧ d.regionOff (tCkTask 3 (6 + 0xFF * 2 ^ 32) 0) = true) ∧
    (let d := tCkDo [] 3 (6 + 0xFF * 2 ^ 32) 0
     d.namedRegions (tCkTask 3 (6 + 0xFF * 2 ^ 32) 0) = []) ∧
    (let d := tCkDo [tReg []] 3 (6 + tR2) 0
     d.ck.restore = none ∧ d.namedRegions (tCkTask 3 (6 + tR2) 0) = [tReg []] ∧ (tReg []).point = false ∧
       ((tReg []).objs.any fun h => ((d.objAt (hIndex h)).map Obj.state).getD oFREE != oDRY) = false) := by decide +kernel

theorem wit_CisternTasksComplete_events : (let d := tCk [tReg [tNbr 1]] none
     d.asleep = false ∧ (d.ck.regions.any fun g => g.nbrs.any fun y => y.node == 6 && y.leased &&
       decide (y.sent + msToTicks d.plan.leaseMs / 4 ≤ d.gh.timer)) = true ∧ d.ck.regions = [tReg [tNbr 1]] ∧ (tReg [tNbr 1]).nbrIx = [0] ∧
       (tReg [tNbr 1]).nbrs[0]? = some (tNbr 1) ∧ d.silent (tNbr 1) = true ∧ d.ck.restore = none) ∧
    (let d := tCk [tReg [tNbr 3]] none
     d.nbr? 2 0 = some (tNbr 3) ∧ (tNbr 3).st = 3 ∧ (tReg [tNbr 3]).nbrIx = [0] ∧ (tReg [tNbr 3]).off = false ∧
       (tNbr 3).offerAt + msToTicks d.plan.leaseMs ≤ d.gh.timer ∧ d.asleep = false) ∧
    (let d := tPeer.updSlot 0 fun s => { s with lease := some (0, 1), bufs := [{ HBuf.reset with st := 2 }, { HBuf.reset with st := 1 }] }
     (d.slot 0).lease = some (0, 1) ∧ 0 + msToTicks 1 ≤ d.gh.timer ∧ 0 < d.ck.slots.length ∧ d.asleep = false) ∧
    tPeer.Writes .host ∧ tPeer.leaseLive (tPeer.slot 7) = false ∧
    (tPeer.updSlot 7 fun s => { s with lease := some (2 ^ 40, 10) }).leaseLive
      ((tPeer.updSlot 7 fun s => { s with lease := some (2 ^ 40, 10) }).slot 7) = true ∧
    (tCk [tReg []] none).region? (bitsOf 0x102 0 4) = some (tReg []) ∧ bitsOf 0x102 8 2 = 1 ∧ (tReg []).halted = true := by decide +kernel

/-- Answers of node 6 to this writer. -/
def tOfferMsg (op : Nat) (e g bytes : Nat) : Flit :=
  tMsg 7 (0x20 + op) 0 (leBytes 8 e ++ leBytes 2 g ++ leBytes 2 100 ++ leBytes 4 0 ++ leBytes 8 bytes ++ leBytes 8 0)
def tAckMsg : Flit := tMsg 9 0x22 0 (leBytes 8 4 ++ leBytes 8 0)
def tNoRec : Flit := tMsg 9 0x24 0x0902 []
def tLeaseMsg (op mask : Nat) : Flit := tMsg 10 op 0 (leBytes 2 mask ++ leBytes 2 1 ++ leBytes 2 100 ++ leBytes 2 0)
def tFenceMsg (op : Nat) : Flit := tMsg 11 (0x20 + op) 0 (leBytes 8 4 ++ leBytes 2 1 ++ leBytes 6 0)
def tOffered (n : Nat) : Nbr := { tNbr 1 with offer := some (n, 4) }
def tJob : Nbr := { tNbr 1 with job := some { epoch := 4, residue := [], wet := [], train := [], record := [], stage := 2 } }
def tPart : RPart := { region := 2, st := 0, record := [], wet := [], train := [], left := 0, todo := [] }
def tRest : Restore := { tag := 7, node := 6, epoch := 4, force := false, stage := 0, parts := [tPart] }

def tFen : Nbr := { tNbr 1 with fence := true }

theorem wit_CheckpointAnswersComplete_accept : ∀ n ∈ [1, 2], let d := tHear (tCk [tReg [tOffered n]] none) (tOfferMsg 8 4 1 0)
      (tSt d).Live ∧ d.CkMsgAt 0 7 8 (tOfferMsg 8 4 1 0) ∧ offerOk (tOfferMsg 8 4 1 0) = true ∧
      (d.rxPop 0 (tOfferMsg 8 4 1 0)).region? 2 = some (tReg [tOffered n]) ∧
      (d.rxPop 0 (tOfferMsg 8 4 1 0)).nbrOf 2 6 = some (0, tOffered n) ∧ (tOffered n).offer = some (n, (tOfferMsg 8 4 1 0).fld 0 8) := by decide +kernel

theorem wit_CheckpointAnswersComplete_refuse : let d := tHear (tCk [tReg [tNbr 1]] none) (tOfferMsg 9 4 1 0)
     d.CkMsgAt 0 7 9 (tOfferMsg 9 4 1 0) ∧ offerOk (tOfferMsg 9 4 1 0) = true ∧
       (d.rxPop 0 (tOfferMsg 9 4 1 0)).nbrOf 2 6 = some (0, tNbr 1) ∧ (tNbr 1).leased = true := by decide +kernel

theorem wit_CheckpointAnswersComplete_ack : let d := tHear (tCk [tReg [tJob]] none) tAckMsg
     d.CkMsgAt 0 9 2 tAckMsg ∧ tAckMsg.body.length = 16 ∧ bitsOf tAckMsg.msgA 8 16 = 0 ∧ tAckMsg.fld 10 6 = 0 ∧
       (d.rxPop 0 tAckMsg).nbrOf 2 6 = some (0, tJob) ∧ tJob.job.map (fun j => (j.stage, j.epoch)) = some (2, tAckMsg.fld 0 8) ∧ tJob.st ≠ 2 := by decide +kernel

theorem wit_CheckpointAnswersComplete_noRecord : let d := tHear (tCk [tReg [tNbr 1]] (some tRest)) tNoRec
     d.CkMsgAt 0 9 4 tNoRec ∧ bitsOf tNoRec.msgA 8 16 = 0 ∧ (d.rxPop 0 tNoRec).ck.restore = some tRest ∧
       (d.rxPop 0 tNoRec).part? 2 = some tPart ∧ tRest.node = tNoRec.src := by decide +kernel

theorem wit_CheckpointAnswersComplete_lease : let d := tHear (tCk [tReg [tNbr 1]] none) (tLeaseMsg 2 4)
     d.CkMsgAt 0 10 2 (tLeaseMsg 2 4) ∧ (tLeaseMsg 2 4).body.length = 8 ∧ (tLeaseMsg 2 4).fld 6 2 = 0 ∧
       (d.rxPop 0 (tLeaseMsg 2 4)).ck.regions = [tReg [tNbr 1]] ∧ (tNbr 1).asked = true ∧ bitsOf ((tLeaseMsg 2 4).fld 0 2) 2 1 = 1 := by decide +kernel

theorem wit_CheckpointAnswersComplete_fence : let d := tHear (tCk [tReg [tFen]] none) (tFenceMsg 2)
     d.CkMsgAt 0 11 2 (tFenceMsg 2) ∧ (tFenceMsg 2).body.length = 16 ∧ (tFenceMsg 2).fld 10 6 = 0 ∧
       (d.rxPop 0 (tFenceMsg 2)).region? 2 = some (tReg [tFen]) ∧
       ((tReg [tFen]).nbrs.findIdx? fun n => n.node == 6 && n.fence) = some 0 := by decide +kernel

/-- A record of 64 bytes, its CRC at 0x3C, for epoch 4 with GEN 1. -/
def tRecBody : List Byte := leBytes 8 0 ++ leBytes 2 0 ++ leBytes 2 1 ++ leBytes 4 0 ++ leBytes 8 4 ++ List.replicate 36 0
def tRec : Flit := tMsg 9 0x223 0 (tRecBody ++ leBytes 4 (crc32c tRecBody))
def tCommitMsg : Flit := tMsg 9 0x21 0 (tRecBody ++ leBytes 4 (crc32c tRecBody))

theorem wit_CheckpointAnswersComplete_record : (let d := tHear (tCk [tReg [tNbr 1]] (some tRest)) tRec
     d.CkMsgAt 0 9 3 tRec ∧ tRec.body.length = 64 ∧ bitsOf tRec.msgA 12 12 = 0 ∧ (d.rxPop 0 tRec).ck.restore = some tRest ∧
       (d.rxPop 0 tRec).region? 2 = some (tReg [tNbr 1]) ∧ (d.rxPop 0 tRec).part? 2 = some tPart ∧ tRest.node = tRec.src ∧
       bitsOf tRec.msgA 8 4 = 2 ∧ crc32c (tRec.body.take 0x3C) = recFld tRec.body 0x3C 4 ∧ recFld tRec.body 0x28 4 ≤ trainMax) := by
  decide +kernel

/-- A host slot for region 2 of node 6: epoch 4 in its buffer 0, epoch 3 in its buffer 1. -/
def tHosting (st reg : Nat) : Dev :=
  let d := ((tPeer.set (.HOST_SLOT_CTRL_EN 0) 1).set (.HOST_SLOT_CTRL_SOURCE 0) 6).set (.HOST_SLOT_CTRL_REGION 0) reg
  let bs := [{ HBuf.reset with st := st, epoch := 4, gen := 0 }, { HBuf.reset with st := 2, epoch := 3 }]
  d.updSlot 0 fun s => { s with bytes := 4 * 65536, place := some { tier := 5, node := 0, addr := 0, size := 2 ^ 20 }, bufs := bs }
def tDataMsg : Flit := tMsg 8 0 (2 * 2 ^ 12) (List.replicate 16 1)

theorem wit_HostingCompletes_offers : (∀ x ∈ [(1, 1), (2, 4), (3, 1)], let m := tOfferMsg x.1 x.2 1 1000
      let d := tHear (tHosting 0 2) m
      (tSt d).Live ∧ d.CkMsgAt 0 7 x.1 m ∧ d.canReply m.src 1 = true ∧ offerOk m = true ∧ (d.rxPop 0 m).slotFor m.src 2 = some 0 ∧
        ((d.rxPop 0 m).slot 0).gen ≤ m.fld 8 2 ∧ slotNeed (m.fld 16 8) ≤ (((d.rxPop 0 m).slot 0).place.map Place.size).getD 0 ∧
        ((d.rxPop 0 m).slot 0).last = none ∧
        (x.1 = 2 → (((d.rxPop 0 m).slot 0).buf ((m.fld 0 8 + 1) % 2)).st = 2 ∧
          (((d.rxPop 0 m).slot 0).buf ((m.fld 0 8 + 1) % 2)).epoch + 1 = m.fld 0 8) ∧
        (tHear (tHosting 0 3) m).CkMsgAt 0 7 x.1 m ∧ ((tHear (tHosting 0 3) m).rxPop 0 m).slotFor m.src 2 = none) := by decide +kernel

theorem wit_HostingCompletes_messages_query : let m := tOfferMsg 4 4 1 0
     let d := tHear (tHosting 2 2) m
     d.CkMsgAt 0 7 4 m ∧ d.canReply m.src 3 = true ∧ offerOk m = true ∧ (d.rxPop 0 m).slotFor m.src 2 = some 0 ∧
       (((d.rxPop 0 m).slot 0).buf (m.fld 0 8 % 2)).epoch = m.fld 0 8 ∧ (((d.rxPop 0 m).slot 0).buf (m.fld 0 8 % 2)).st = 2 := by decide +kernel

theorem wit_HostingCompletes_messages_data : let d := tHear (tHosting 1 2) tDataMsg
     d.CkMsgAt 0 8 0 tDataMsg ∧ tDataMsg.body ≠ [] ∧ tDataMsg.body.length % 16 = 0 ∧ (d.rxPop 0 tDataMsg).slotFor 6 2 = some 0 ∧
       ((d.rxPop 0 tDataMsg).slot 0).filling = some 0 ∧ bitsOf tDataMsg.msgB 10 2 = ((d.rxPop 0 tDataMsg).slot 0).gen % 4 ∧
       ((d.rxPop 0 tDataMsg).slot 0).area tDataMsg.off tDataMsg.body.length = some 0 := by decide +kernel

theorem wit_HostingCompletes_messages_commit : let d := tHear (tHosting 1 2) tCommitMsg
     d.CkMsgAt 0 9 1 tCommitMsg ∧ tCommitMsg.body.length = 64 ∧ (d.rxPop 0 tCommitMsg).slotFor 6 2 = some 0 ∧ recFld tCommitMsg.body 0x10 8 = 4 ∧
       ((d.rxPop 0 tCommitMsg).slot 0).gen ≤ recFld tCommitMsg.body 10 2 ∧ (((d.rxPop 0 tCommitMsg).slot 0).buf 0).st = 1 ∧
       (((d.rxPop 0 tCommitMsg).slot 0).buf 0).epoch = 4 := by decide +kernel

theorem wit_HostingCompletes_messages_lease : let d := tHear (tHosting 1 0) (tLeaseMsg 1 1)
     d.CkMsgAt 0 10 1 (tLeaseMsg 1 1) ∧ (tLeaseMsg 1 1).fld 0 2 = 1 ∧ (d.rxPop 0 (tLeaseMsg 1 1)).slotFor 6 0 = some 0 ∧
       ((d.rxPop 0 (tLeaseMsg 1 1)).slot 0).gen ≤ (tLeaseMsg 1 1).fld 2 2 := by decide +kernel

theorem wit_HostingCompletes_messages_fence : let d := tHear (tHosting 1 2) (tFenceMsg 1)
     d.CkMsgAt 0 11 1 (tFenceMsg 1) ∧ (d.rxPop 0 (tFenceMsg 1)).slotFor 6 2 = some 0 ∧
       ((d.rxPop 0 (tFenceMsg 1)).slot 0).gen ≤ (tFenceMsg 1).fld 8 2 := by decide +kernel

/-! ### Witnesses: partners, the host, expanders -/

/-- Partner 1's port up in CXL mode, its object 5 READY, and a read held for it. -/
def tHeld : HRead := { port := 1, addr := 0, len := 64, tid := 3, handle := 5, since := 0, cause := 1 }
def tPort : Dev :=
  let d := ((tWith (tObj 5 oREADY)).set .PORT_STATUS_LINK 2 1).set .PORT_STATUS_MODE 1 1
  { d with gh := { d.gh with timer := 2 ^ 40 }, reads := [tHeld] }

theorem wit_PartnerAccessesComplete : (tSt tPort).Live ∧ tPort.InRun ∧ tPort.portUp 1 = true ∧ (tPort.touchBlocks 1 0 64).waitsFor 1 0 64 = none ∧
    ((readParts 0 64).filterMap fun x => match (tPort.touchBlocks 1 0 64).readPart 1 (0 + x.1) with
      | .hold h => some (0 + x.1, h)
      | _ => none) = [] ∧ (tPort.touchBlocks 1 0 64).frozen (ppb 1) = false ∧ tPort.gateOf 1 (0x800000 + 40) = some (tObj 5 oREADY).gate ∧
    tPort.gateOf 1 (0x800000 + 48) = none ∧ tPort.portCxl 1 = true := by decide +kernel

theorem wit_PartnerAccessesComplete_held : (tPort.reads.find? fun r => r.port == 1 && r.tid == 3) = some tHeld ∧
    (tPort.stuckRelease.reads.filter fun r => r.port == 1 && r.tid == 3) = [tHeld] ∧
    ((tPort.stuckRelease.touchBlocks 1 0 64).reads.find? fun r => r.port == 1 && r.tid == 3) = some tHeld ∧
    (tPort.stuckRelease.touchBlocks 1 0 64).waitsFor 1 0 64 = none ∧ (tPort.stuckRelease.touchBlocks 1 0 64).frozen (ppb 1) = false ∧
    (tPort.stuckRelease.touchBlocks 1 0 64).asleep = false ∧ 0 + usToTicks (tPort.get .STALL_LIMIT_PARTNER) ≤ tPort.gh.timer ∧
    tPort.movePathFailed 5 = false := by decide +kernel

/-- Boot over, with the rates of the recipe of `tStage`. -/
def tRated (d : Dev) : Dev := { d with boot := { d.boot with recipe := (tStage 0).boot.recipe } }

def tDown : Dev := (tUp.set .PORT_STATUS_LINK 4 1).set .PORT_HOLD_HOLD_LEFT_MS 0 1

theorem wit_PartnerLinkCompletes : tPort.portUp 1 = true ∧ (tRated tUp).mayTrain 8 (1, (41, ppb 1)) 32 = true ∧ (tRated tUp).portUp 1 = false ∧ (tRated tUp).boot.next = 14 ∧ tUp.portUp 1 = false ∧ 8 ≤ tUp.boot.next ∧
    tUp.get .PORT_STATUS_LINK 1 ≠ 4 ∧ (tUp.port 1).last = 0 ∧ tDown.get .PORT_STATUS_LINK 1 = 4 ∧ tDown.holdLeft 1 = 0 ∧
    (tSt tDown).Live ∧ bitsOf ({ tUp with pins := { tUp.pins with ppPerst := 2 } } : Dev).pins.ppPerst 1 1 = 1 ∧ tUp.asleep = false ∧
    tPort.portCxl 1 = true ∧ (2 ^ 40 : Nat) % 2 ^ 28 = 0 ∧ (2 ^ 40 + 1 : Nat) % 2 ^ 28 ≠ 0 ∧ mailboxOps.contains 0x0102 = false := by
  decide +kernel

/-- The host side: the link down, PERST# released or not; an aperture on an object; an invalidation. -/
def tPerst (st : Nat) (rel : Bool) : Dev := { tUp.set .HOST_LINK_STATE st with pins := { tUp.pins with hostPerst := rel } }
def tAper (st : Nat) : Dev :=
  (((tWith (tObj 5 st)).set (.AP_CTRL_EN 0) 1).set (.AP_CTRL_WR_EN 0) 1).wr (.AP_BIND 0) 5
def tInval : Inval := { itag := 3, since := 0, waits := [] }

theorem wit_HostCommandsComplete : (tSt tUp).Live ∧ tUp.hostUp = true ∧ (tPerst 0 true).pins.hostPerst = true ∧ (tPerst 0 true).asleep = false ∧
    (tPerst 0 true).hostUp = false ∧ (tPerst 1 false).pins.hostPerst = false ∧ (tPerst 1 false).bootPast 3 = true ∧ (tPerst 1 false).hostless = false ∧
    (tPerst 1 true).get .HOST_LINK_STATE = 1 ∧ tUp.retryStatus = false ∧
    (let d := { tUp with boot := { tUp.boot with running := true, next := 9 } }
     d.hostUp = true ∧ d.retryStatus = true) ∧ tUp.InRun ∧
    (({ tUp with host := { tUp.host with inv := [tInval] } } : Dev).host.inv.find? fun x => x.itag == 3) = some tInval ∧
    tUp.invalHeld tInval = [] := by decide +kernel

def apErr : Except Nat (Obj × Nat) → Option Nat
  | .error c => some c
  | .ok _ => none

theorem wit_HostCommandsComplete_apertures : (tAper oREADY).hostUp = true ∧ (tAper oREADY).InRun ∧
    apErr ((tUp.touchEntry 0).apTarget 0 8) = some 0x0B02 ∧
    apErr ((((tAper oREADY).wr (.AP_BIND 0) 6).touchEntry (hIndex 6)).apTarget 0 8) = some 0x0B03 ∧
    (((tAper oPARKED).touchEntry 5).apTarget 0 8).toOption = some (tObj 5 oPARKED, 0) ∧ (tObj 5 oPARKED).state = oPARKED ∧
    (((tAper oDRY).touchEntry 5).apTarget 0 8).toOption = some (tObj 5 oDRY, 0) ∧ ((tAper oDRY).touchEntry 5).get (.AP_CTRL_WR_EN 0) ≠ 0 ∧
    (tObj 5 oDRY).writable = true := by decide +kernel

def tT2 : Stream := { tStr 0 2 2 with src := { tier := 2, node := 0, addr := 0, size := 4 * 65536 }, dst := none }
def tExp (st : Nat) : Dev := { (tUp.set .EXP_STATUS_STATE st 3) with
  exps := tUp.exps.set 3 { down := some 0 }, gh := { tUp.gh with timer := 2 ^ 40 } }

theorem wit_ExpanderEventsComplete : (tSt (tFlow tT2)).Live ∧ (tFlow tT2).stream? (0, 2, 0) = some tT2 ∧ tT2.nextRead = some 0 ∧ tT2.src.tier = 2 ∧
    (tFlow tT3).stream? (0, 2, 0) = some tT3 ∧ tT3.nextRead = some 0 ∧ tT3.src.tier = 3 ∧
    (∀ st ∈ [2, 4, 1, 6], (tExp st).present (expb 3) = true ∧ (tRated (tExp st)).mayTrain 9 (3, (51, expb 3)) 32 = true ∧ (tExp st).get .EXP_STATUS_STATE 3 = st) ∧ ((tExp 1).exp 3).down = some 0 ∧
    0 + msToTicks ((tExp 1).get .EXP_DOWN_LIMIT_MS 3) ≤ (tExp 1).gh.timer ∧ (tExp 2).asleep = false := by decide +kernel

/-! ### The standards (FIPS 180-4, FIPS 197) -/

/-- FIPS 180-4's first and last round constants and SHA-384's first initial hash word. -/
theorem test_sha_constants : shaK.head? = some 0x428a2f98d728ae22 ∧ shaK.getLast? = some 0x6c44198c4a475817 ∧
    shaH0.head? = some 0xcbbb9d5dc1059ed8 := by decide +kernel

/-- FIPS 197's example of SubBytes (5.1.1), the first column of its MixColumns example and the first new word of its 256-bit key
expansion (A.3). -/
theorem test_aes_parts : sboxTab.getD 0x53 0 = 0xed ∧ invSboxTab.getD 0xed 0 = 0x53 ∧
    (aesMix [2, 3, 1, 1] ([0xd4, 0xbf, 0x5d, 0x30] ++ List.replicate 12 0)).take 4 = [0x04, 0x66, 0x81, 0xe5] ∧
    ((aesKeys ([0x60, 0x3d, 0xeb, 0x10, 0x15, 0xca, 0x71, 0xbe, 0x2b, 0x73, 0xae, 0xf0, 0x85, 0x7d, 0x77, 0x81] ++
      [0x1f, 0x35, 0x2c, 0x07, 0x3b, 0x61, 0x08, 0xd7, 0x2d, 0x98, 0x10, 0xa3, 0x09, 0x14, 0xdf, 0xf4])).getD 2 []).take 4 =
      [0x9b, 0xa3, 0x54, 0x11] := by decide +kernel

/-! ### Witnesses: lateral links, the router, HBM -/

/-- Link 0 in a state, with a link-local flit first; a flit to replay. -/
def tFlit (type ctl : Nat) (body : List Byte) : Flit := { tMsg type (ctl * 2 ^ 16) 0 body with vc := 0, src := 0 }
def tLink (st : Nat) (g : Link → Link) : Dev :=
  (((tPeer.set .LL_STATUS_STATE st 0).set .LL_STATUS_LANES 2 0).set .LL_STATUS_RATE 224 0).updLink 0 g
def tLocal (f : Flit) : Dev :=
  tLink 6 fun x => { x with rxl := [f], replay := [{ tMsg 1 0 0 [] with seq := 0 }], dropTo := some 0, lpSent := true }
def tParam (v : Nat) : Flit :=
  tFlit 0xD 1 ([BitVec.ofNat 8 v] ++ leBytes 2 6 ++ [0] ++ leBytes 8 0 ++ [0x22] ++ leBytes 3 0)

theorem wit_LinkFlitsComplete : (∀ x ∈ [(tNAK, 0), (tCREDIT, 0), (tCTL, 2), (tCTL, 3), (tCTL, 4), (tCTL, 5), (tCTL, 6), (tCTL, 7)],
      (tSt (tLocal (tFlit x.1 x.2 []))).Live ∧ (tLocal (tFlit x.1 x.2 [])).LocalAt 0 x.1 x.2 (tFlit x.1 x.2 [])) ∧
    ((((tLocal (tFlit tNAK 0 [])).localPop 0).bump .NAK_RX_COUNT 0).link 0).replay.findIdx? (fun x => x.seq == bitsOf (tFlit tNAK 0 []).msgA 0 12)
      = some 0 ∧
    (((tLocal (tFlit tCTL 3 [])).localPop 0).linkCtl 0 4 0).lstate 0 = 6 ∧
    (((tLocal (tFlit tCTL 3 [])).localPop 0).linkCtl 0 4 0).get .LL_STATUS_LANES 0 = 2 ∧
    (((tLocal (tFlit tCTL 4 [])).localPop 0).link 0).dropTo = some 0 ∧ ((tLocal (tFlit tCTL 4 [])).localPop 0).get .LL_STATUS_LANES 0 = 2 ∧
    ((tLocal (tFlit tCTL 6 [])).localPop 0).lstate 0 = 6 ∧ (((tLocal (tFlit tCTL 6 [])).localPop 0).link 0).lpSent = true ∧
    ((((tLocal (tFlit tCTL 7 [])).localPop 0).link 0).replay.findIdx? fun g => g.seq == bitsOf (tFlit tCTL 7 []).msgA 0 12) = some 0 := by
  decide +kernel

theorem wit_LinkFlitsComplete_param : (tLocal (tParam 2)).LocalAt 0 tCTL 1 (tParam 2) ∧ leNat ((tParam 2).body.take 1) ≠ 1 ∧
    (tLocal (tParam 1)).LocalAt 0 tCTL 1 (tParam 1) ∧ leNat ((tParam 1).body.take 1) = 1 ∧
    leNat (((tParam 1).body.drop 1).take 2) % 4096 ≠ ((tLocal (tParam 1)).localPop 0).lr.node ∧
    leNat (((tParam 1).body.drop 12).take 1) % 4 = ((tLocal (tParam 1)).localPop 0).get .LL_STATUS_LANES 0 ∧
    leNat (((tParam 1).body.drop 12).take 1) / 16 = 2 ∧ ((tLocal (tParam 1)).localPop 0).get .LL_STATUS_RATE 0 = 224 := by decide +kernel

def tProm : Dev := ((tLink 6 id).set .LL_STATUS_RATE 112 0).set .LL_PROMOTE_EN 1 0

theorem wit_LinkEventsComplete : (∀ n ∈ [1, 2, 3, 4, 5, 6, 7, 8], (tSt (tLink n id)).Live ∧ (tLink n id).lstate 0 = n ∧ ((tLink n id).link 0).exit = false) ∧
    ((tLink 6 fun x => { x with nak := some 0 }).link 0).nak.isSome = true ∧
    (tLink 6 fun x => { x with nak := some 0 }).passed ((tLink 6 fun x => { x with nak := some 0 }).link 0).nakAt 1000 = true ∧
    (tLink 6 id).passed ((tLink 6 id).link 0).ackAt ((tLink 6 id).get .LL_ACK_TIMEOUT_NS 0) = true ∧ (tLink 6 id).creditDue ((tLink 6 id).link 0) = true ∧
    (∀ x ∈ [(2, 2000000), (3, 10000000), (4, 1000000)], (tLink x.1 id).passed ((tLink x.1 id).link 0).stAt x.2 = true) ∧
    (∀ n ∈ [2, 4], let d := tLink n fun x => { x with exit := true }
      d.lstate 0 = n ∧ (d.link 0).exit = true ∧ d.passed (d.link 0).exitAt 90000 = true) ∧
    (tLink 8 id).passed ((tLink 8 id).link 0).stAt (1000000 * (tLink 8 id).get .LL_RETRY_MS_MS 0) = true ∧
    ((tLink 6 id).link 0).winAt + usToTicks ((tLink 6 id).get .FEC_WINDOW_US 0) ≤ (tLink 6 id).gh.timer ∧ ((tLink 2 id).link 0).locked = 0 ∧
    ((tLink 4 fun x => { x with again := true }).link 0).again = true ∧ (tLink 8 id).present (lnk 0) = true ∧
    bitsOf ((tLink 8 id).get .LR_QUARANTINED_LINKS) 0 1 = 0 ∧ ((tLink 6 fun x => { x with win := [2 ^ 16, 2 ^ 16, 0] }).link 0).win = [2 ^ 16, 2 ^ 16, 0] ∧
    (tLink 6 id).get .FEC_THRESH_CORR 0 ≤ 2 ^ 16 + 2 ^ 16 ∧ tProm.lstate 0 = 6 ∧ tProm.get .LL_PROMOTE_EN 0 = 1 ∧
    (tProm.link 0).cleanSince + 19200000 * tProm.get .LL_PROMOTE_PERIOD_S 0 ≤ tProm.gh.timer ∧
    ((tProm.set .LL_RATE_SHADOW_RATE (min 224 (2 * 112)) 0).rateCheck 0 112).linkRate 0 ≠ tProm.get .LL_STATUS_RATE 0 ∧ (tLink 6 id).Writes .host ∧
    bitsOf ((3 : Word) ||| 4).toNat 0 2 ≠ 0 ∧ bitsOf ((3 : Word) ||| 4).toNat 2 1 = 1 ∧ 2 ≤ ((tLink 6 id).set .LL_CTRL_LANE_ALLOW 3 0).lstate 0 ∧
    ((tLink 6 id).set .LL_CTRL_LANE_ALLOW 3 0).lstate 0 ≤ 6 := by decide +kernel

/-- A hosting window for node 6, 4 blocks of T1, the peer of `tPeer`; a read that waits for node 6. -/
def tHost : Dev :=
  ((tPeer.set (.LR_HOST_CTRL_EN 0) 1).set (.LR_HOST_CTRL_SOURCE 0) 6).wr (.LR_HOST_BLOCKS 0) 4
def tWriteMsg : Flit := tMsg 1 0 0 (List.replicate 16 1)
def tReadMsg (len : Nat) : Flit := tMsg 2 0 0 (leBytes 2 9 ++ leBytes 2 len ++ leBytes 4 0)
def tRspMsg : Flit := tMsg 3 (9 * 2 ^ 12 + 2 * 2 ^ 8) 0 []
def tTag : RTag :=
  { req := tReadMsg 1, tag := 9, dst := 6, link := 0, len := 1, owner := .drain 5, got := [], status := none, since := 0, dead := false }
def tAsk : Dev := { tPeer with lr := { tPeer.lr with tags := [tTag] } }

theorem wit_RouterCompletes_messages : (let d := tHear tHost tWriteMsg
     (tSt d).Live ∧ d.MsgAt 0 1 0 tWriteMsg ∧ tWriteMsg.body ≠ [] ∧ tWriteMsg.body.length % 16 = 0 ∧ bitsOf tWriteMsg.msgB 10 6 = 0 ∧
       (d.rxPop 0 tWriteMsg).window 6 = some 0 ∧ tWriteMsg.off + tWriteMsg.body.length ≤ ((d.rxPop 0 tWriteMsg).windowPlace 0).size ∧
       (d.rxPop 0 tWriteMsg).pathFailed ((d.rxPop 0 tWriteMsg).windowPlace 0).tier ((d.rxPop 0 tWriteMsg).windowPlace 0).unit = false) ∧
    (∀ n ∈ [1, 0], let d := tHear tHost (tReadMsg n)
      d.MsgAt 0 2 0 (tReadMsg n) ∧ (d.link 0).rxq = [tReadMsg n] ∧ (tReadMsg n).dst = d.lr.node ∧ d.canReply 6 2 = true ∧ (tReadMsg n).reqOk = true ∧
        (tReadMsg n).rlen = n ∧ (tReadMsg n).space ≠ 1) := by decide +kernel

theorem wit_RouterCompletes_reads : ((tHear tHost (tReadMsg 1)).rxPop 0 (tReadMsg 1)).windowRead (tReadMsg 1) = (0, List.replicate 16 0, 0) ∧
    (tHear tAsk tRspMsg).MsgAt 0 3 0 tRspMsg ∧ bitsOf tRspMsg.msgA 5 3 = 0 ∧ bitsOf tRspMsg.msgA 8 4 = 2 ∧ tRspMsg.msgB = 0 ∧ bitsOf tRspMsg.msgA 0 5 < 18 ∧
    (((tHear tAsk tRspMsg).rxPop 0 tRspMsg).lr.tags.find? fun t => t.tag == bitsOf tRspMsg.msgA 12 12 && t.dst == tRspMsg.src) = some tTag ∧
    tTag.dead = false ∧ tTag.status = none ∧ (tTag.got.any fun p => p.1 == bitsOf tRspMsg.msgA 0 5) = false := by decide +kernel

def tBar : Barrier := { Barrier.new 3 9 0 with tag := some 7, sentAt := some 0 }
def tBars (root : Nat) : Dev := { tVoting root with lr := { (tVoting root).lr with bars := [tBar] } }
def tBarMsg (op : Nat) : Flit := tMsg 6 (0x300 + op) 0 (leBytes 4 9 ++ leBytes 2 1 ++ leBytes 2 0)
def tBarTask : Task := tTk 0xB1 1 (9 + 3 * 2 ^ 32) 0 0

theorem wit_RouterCompletes_barriers : (let d := tSent tOn tBarTask
     (tSt d).Live ∧ d.sentTask 7 0xB1 1 = some tBarTask ∧ d.frozen rtr = false ∧ d.enabled rtr = true ∧ bitsOf tBarTask.w1 32 8 < 16 ∧
       bitsOf tBarTask.w1 40 24 = 0) ∧
    (tBars 1).barrier? 3 9 = some tBar ∧ (tBars 1).isRoot = true ∧ (tBars 1).frozen rtr = false ∧
    tBar.first + usToTicks ((tBars 1).get .LR_BARRIER_TIMEOUT_US) ≤ (tBars 1).gh.timer ∧ (tBars 0).barrier? 3 9 = some tBar ∧
    (tBars 0).isRoot = false ∧ tBar.tag = some 7 ∧ tOn.barrier? 3 9 = none ∧ (Barrier.new 3 9 0).tag = none ∧ 0 + 2 * usToTicks ((tBars 0).get .LR_BARRIER_TIMEOUT_US) ≤ (tBars 0).gh.timer ∧ tBar.sentAt = some 0 := by
  decide +kernel

def tArrive : Dev := tHear ((tVoting 1).set .VOTE_CFG_CHILD_SETS 1) (tBarMsg 1)
def tRelease : Dev := tHear (tVoting 0) (tBarMsg 2)

theorem wit_RouterCompletes_tree : tArrive.MsgAt 0 6 0 (tBarMsg 1) ∧ bitsOf (tBarMsg 1).msgA 0 4 = 1 ∧ barrierOk (tBarMsg 1) = true ∧
    (tArrive.rxPop 0 (tBarMsg 1)).get .VOTE_CFG_ENABLE = 1 ∧ (tArrive.rxPop 0 (tBarMsg 1)).childOf 0 = some 0 ∧
    tRelease.MsgAt 0 6 0 (tBarMsg 2) ∧ bitsOf (tBarMsg 2).msgA 0 4 = 2 ∧ barrierOk (tBarMsg 2) = true ∧ (tBarMsg 2).fld 4 2 < 2 ∧
    (tRelease.rxPop 0 (tBarMsg 2)).get .VOTE_CFG_ENABLE = 1 ∧ (tRelease.rxPop 0 (tBarMsg 2)).fromParent 0 = true := by decide +kernel

/-- A ring of 2 on dimension X: links 0 to 7 on set 0, the others on none. -/
def tTopo : Dev := ((((tUp.set .LR_TOPO_KIND 1).set .LR_DIM_XY_X 2).wr (.LR_LINK_SET 0) 0).wr (.LR_LINK_SET 1) 0xFFFFFF).wr (.LR_LINK_SET 2) 0xFFFFFF

theorem wit_RouterCompletes_registers : tUp.Writes .host ∧ tUp.topoOk = false ∧ tTopo.topoOk = true ∧ tTopo.Writes .host ∧
    bitsOf (tUp.get .LR_QUARANTINED_LINKS) 23 1 = 0 ∧ (14 : Word).toNat % 16 = 14 ∧ bitsOf (tUp.rd (.LR_HOST_CTRL 7)) 31 1 = 0 ∧
    bitsOf ((5 : Word).toNat &&& 0xC0000FFF) 31 1 = 0 := by decide +kernel

def tHbm (adm : Bool) : Dev :=
  { ((tUp.set .HBM_STATUS_STATE 2 3).wr .HBM_PC_MASK 0xFFFFFFFF 3) with plan := { tUp.plan with admitted := adm } }

theorem wit_HbmCompletes : (∀ b ∈ [true, false], (tSt (tHbm b)).Live ∧ (tHbm b).stackActive 3 = true ∧ (tHbm b).Writes .host ∧
      (tHbm b).plan.admitted = b) ∧ bitsOf ((tHbm true).rd .HBM_PC_MASK 3) 31 1 = 1 ∧ (tHbm true).frozen (hbmb 3) = false ∧
    (tHbm true).get (.PC_STATUS_CAL_AGE_MS 30) 3 ≤ 256 ∧ (tHbm true).get (.PC_STATUS_CAL_AGE_MS 31) 3 ≤ 256 ∧ (2 : Word).toNat % 4 ≠ 3 := by
  decide +kernel

/-! ### Witnesses: trace, management, flash, pins -/

def tTrc : Dev := (tUp.set .TRC_CTRL_RECORD 1).set .TRC_FLUSH_IDLE_CYCLES 0
def tTrcAt : Dev := { tTrc with trc := { tTrc.trc with held := some (2 ^ 40), post := some 0 } }

theorem wit_TraceCompletes : (tSt tTrcAt).Live ∧ tTrcAt.Writes .host ∧ tTrcAt.trc.last + tTrcAt.get .TRC_FLUSH_IDLE_CYCLES ≤ tTrcAt.trcNow ∧
    tTrcAt.get .TRC_CTRL_RECORD = 1 ∧ tTrcAt.trc.lastSync + tTrcAt.get .TRC_SYNC_PERIOD_CYCLES ≤ tTrcAt.trcNow ∧ tTrcAt.trc.post = some 0 ∧
    bitsOf (2 : Word).toNat 2 1 = 0 ∧ bitsOf (2 : Word).toNat 1 1 = 1 ∧ bitsOf (2 : Word).toNat 4 2 = (tUp.trcHitsOnly 0).get .TRC_CTRL_MODE ∧ (tUp.trcHitsOnly 0).get .TRC_CTRL_RECORD = 0 ∧
    tUp.rd64 .TRC_VALID_FROM_LO ≤ 0 * 2 ^ 32 + tUp.stagedLow .host 108 0 0x98 ∧
    0 * 2 ^ 32 + tUp.stagedLow .host 108 0 0x98 ≤ tUp.rd64 .TRC_WRITTEN_LO ∧
    tUp.rd64 .TRC_WRITTEN_LO < 1 * 2 ^ 32 + tUp.stagedLow .host 108 0 0x98 := by decide +kernel

/-- Writes over the management path enabled or not. -/
def tMg (on : Nat) : Dev := (tUp.set .MGMT_CTRL_REG_WR_EN on).set .MGMT_CTRL_FLASH_WR_EN on

theorem wit_ManagementCommandsComplete : (∀ n ∈ [0, 1], (tSt (tMg n)).Live ∧ (tMg n).InRun ∧ (tMg n).MgmtUp .smb .good true ∧ (tMg n).bootPast 3 = true ∧
      (tMg n).get .MGMT_CTRL_REG_WR_EN = n ∧ (tMg n).get .MGMT_CTRL_FLASH_WR_EN = n) ∧ tUp.bootBusy = false ∧ tUp.rebootOk = true := by
  decide +kernel

def tJobOf (src : Option MSrc) : FJob := { mgmt := false, src := src, cmd := 1, addr := 0, len := 16 }
def tFlash (src : Option MSrc) : Dev := { tMg 1 with mgmt := { (tMg 1).mgmt with flash := some (tJobOf src) } }

/-- A command inside 64 MiB, outside the protected regions. -/
theorem flash_accepts (d : Dev) (cmd addr len : Nat) (hp : cmd = 1 ∨ d.flashProtected addr (flashSize cmd len) = false)
    (hb : d.boot.running = false) (hn : addr + flashSize cmd len ≤ 2 ^ 26) (ha : cmd < 3 ∨ addr % flashSize cmd len = 0) :
    d.flashRefusal cmd addr len = 0 := by
  have h64 : 64 ≤ flashMib := Nat.le_max_left _ _
  unfold Dev.flashRefusal
  rw [if_neg (by rcases hp with h | h <;> simp [h]), if_neg (by simp [hb]), if_neg (by omega)]

theorem flash_starts (d : Dev) (p : Path) (src : Option MSrc) (cmd : Nat) (hf : d.mgmt.flash = none)
    (hr : d.flashRefusal cmd (d.flashAddr p) (d.flashLen p) = 0) : (d.flashStart p src cmd).2 = 0 := by
  simp [Dev.flashStart, hf, hr]

def tBlk (p : Path) (a n : Nat) (b : List Byte) : Dev :=
  ((({ tMg 1 with errSeen := 0 } : Dev).setFlashAddr p a).setFlashLen p n).setFlashBuf p 0 b

theorem wit_FlashCommandsComplete : (tMg 1).MgmtUp .smb .absent false ∧ (tMg 1).MgmtUp .smb .good true ∧ (tMg 1).mgmt.flash = none ∧
    smbListed 0x05 = false ∧ (tFlash (some .smb)).waits .smb = true ∧
    (let d := { tFlash (some .smb) with gh := { tUp.gh with timer := 2 ^ 40 } }
     d.waits .smb = true ∧ d.mgmt.smbAt + msToTicks 20 ≤ d.gh.timer) ∧ (tMg 1).Writes .host ∧ (tMg 1).Writes .mgmt ∧
    ((tMg 1).setFlashAddr .host 0x10004).flashRefusal 2 (((tMg 1).setFlashAddr .host 0x10004).flashAddr .host)
      (((tMg 1).setFlashAddr .host 0x10004).flashLen .host) = 0x1103 ∧
    (tFlash none).mgmt.flash = some (tJobOf none) ∧ (tFlash none).get .LEDGER_FLASH_COPY_PENDING ≠ 1 ∧
    bitsOf (tUp.rd .MGMT_CTRL) 31 1 = 0 := by decide +kernel

theorem wit_FlashCommandsComplete_read : ((tBlk .mgmt 0 16 []).flashStart .mgmt (some .smb) 1).2 = 0 :=
  flash_starts _ _ _ _ (by decide +kernel) (flash_accepts _ _ _ _ (.inl rfl) (by decide +kernel) (by decide +kernel) (.inl (by decide)))

theorem wit_FlashCommandsComplete_program : ((tBlk .mgmt 0x40000 1 [7]).flashStart .mgmt none 2).2 = 0 :=
  flash_starts _ _ _ _ (by decide +kernel) (flash_accepts _ _ _ _ (.inr (by decide +kernel)) (by decide +kernel) (by decide +kernel)
    (.inl (by decide)))

theorem wit_FlashCommandsComplete_erase : ((tBlk .mgmt 0x40000 1 []).flashStart .mgmt none 3).2 = 0 :=
  flash_starts _ _ _ _ (by decide +kernel) (flash_accepts _ _ _ _ (.inr (by decide +kernel)) (by decide +kernel) (by decide +kernel)
    (.inr (by decide +kernel)))

theorem wit_FlashCommandsComplete_registers : ∀ n ∈ [1, 2, 3, 4],
    (tBlk .host 0x40000 1 []).flashRefusal n ((tBlk .host 0x40000 1 []).flashAddr .host) ((tBlk .host 0x40000 1 []).flashLen .host) = 0 := by
  intro n hn
  simp only [List.mem_cons, List.not_mem_nil, or_false] at hn
  rcases hn with rfl | rfl | rfl | rfl <;>
    exact flash_accepts _ _ _ _ (.inr (by decide +kernel)) (by decide +kernel) (by decide +kernel) (.inr (by decide +kernel))

def tEid : Dev := tUp.set .MCTP_EID_SMB 9

theorem wit_MctpRequestsComplete : (tSt tUp).Live ∧ tUp.MctpUp .mctpSmb ∧ tUp.MctpUp .mctpVdm ∧ tEid.MctpUp .mctpSmb ∧ tEid.eid .mctpSmb ≠ 0 ∧
    tEid.bootPast 3 = true ∧ tEid.sensor 0x01 = some (tEid.get .TJ_NOW_TJ, true) ∧ (tEid.sensor 0x40).isSome = true ∧
    tEid.get .PWR_STATE_STATE ≠ 3 ∧ tEid.stateSensor 0x30 = some 0 := by decide +kernel

/-- DEV_RESET_N released or held; a halted boot. -/
def tDevReset (b : Bool) : Dev := { tUp with pins := { tUp.pins with devReset := b } }
def tGpio : Dev := ((tUp.wr .GPIO_FUNC 0).setBit .GPIO_EDGE_EN 7 true).setBit .GPIO_EDGE_EN 15 true
def tGpioHigh : Dev := { tGpio with gh := { tGpio.gh with gpio := 255 } }

theorem wit_PinsComplete : tUp.undef = false ∧ tUp.boot.held = false ∧ (tDevReset true).pins.devReset = true ∧
    (tDevReset false).get .BOOT_STATUS_RESULT ≠ 2 ∧ (tDevReset false).pins.devReset = false ∧ (tDevReset false).boot.held = false ∧
    (let e := (((tMg 1).set .MGMT_CTRL_JTAG_ACCESS_EN 1).setIr 0x20).accessCapture
     e.get .MGMT_CTRL_JTAG_ACCESS_EN ≠ 0 ∧ e.get .MGMT_CTRL_REG_WR_EN = 1 ∧ e.pathUp .mgmt = true) ∧
    bitsOf tGpio.gh.gpio 7 1 ≠ bit01 true ∧ bitsOf tGpioHigh.gh.gpio 7 1 ≠ bit01 false ∧
    (∀ d ∈ [tGpio, tGpioHigh], bitsOf (d.rd .GPIO_FUNC) 21 3 = 0 ∧ d.bit .GH_GPIO_WAKE 7 = false ∧ d.bit .GPIO_EDGE_EN 7 = true ∧
      d.bit .GPIO_EDGE_EN 15 = true) ∧
    ((({ tGpio with gh := { tGpio.gh with gpio := putBits tGpio.gh.gpio 7 1 (bit01 true) } } : Dev).setBit .GPIO_EDGE 7 true).raise 109 0 7).bit
      .GH_GPIO_WAKE 7 = false := by decide +kernel

/-! ### Witnesses: properties -/

theorem wit_GovernorUpdateCompletes : (tSt tUp).Live ∧ tUp.due.run < 1920 ∧
    (let d := { tUp with due := { tUp.due with run := 1920 } }
     (tSt d).Live ∧ d.get .PWR_STATE_STATE = 0 ∧ d.bootPast 3 = true ∧ 1920 ≤ d.due.run) := by decide +kernel

theorem wit_FusedTableReads : (tSt tUp).Live ∧ tUp.PageWrites .host 110 0 ∧ (29 : Nat) < 32 := by decide +kernel

theorem wit_EventSetsPendingBit : (tSt tUp).Live ∧ tUp.PageWrites .mgmt 103 1 ∧ (31 : Nat) < 32 := by decide +kernel

theorem wit_FirstErrorStays : bitsOf (tUp.hrd 40 0 offErr) 31 1 = 0 ∧ (tSt tUp).Live ∧ tUp.PageWrites .host 40 0 := by decide +kernel

/-- An instruction of each of slots A, B and C under NOT p0. -/
def tNot : Nat := 2 ^ 55

theorem wit_PredicateDecides : (∀ opc ∈ [0x10, 0x11, 0x14, 0x15, 0x16, 0x18, 0x19, 0x1A, 0x1B, 0x1C, 0x1D, 0x20, 0x21, 0x22, 0x23, 0x24, 0x25],
      (tA (tW opc 0 0 0 0 0 + tNot)).HgAt (Bundle.onlyA (tW opc 0 0 0 0 0 + tNot)) ∧
        (tA (tW opc 0 0 0 0 0 + tNot)).predOn ⟨tW opc 0 0 0 0 0 + tNot, 0⟩ = false) ∧
    (∀ opc ∈ [0x40, 0x41, 0x42, 0x43, 0x44, 0x46, 0x47, 0x48, 0x49, 0x4A],
      (tB (tW opc 0 0 0 0 0 + tNot)).HgAt (Bundle.onlyB (tW opc 0 0 0 0 0 + tNot)) ∧
        (tB (tW opc 0 0 0 0 0 + tNot)).predOn ⟨tW opc 0 0 0 0 0 + tNot, 0⟩ = false) ∧
    (∀ opc ∈ [0x80, 0x81], (tC (tW opc 0 0 0 0 0 + tNot) 0).HgAt (Bundle.onlyC (tW opc 0 0 0 0 0 + tNot) 0) ∧
        (tC (tW opc 0 0 0 0 0 + tNot) 0).predOn ⟨tW opc 0 0 0 0 0 + tNot, 0⟩ = false) := by decide +kernel

theorem wit_MemoryReadsBack : (2 ^ 64 - 4 : Nat) + 4 ≤ 2 ^ 64 ∧ (8 : Nat) < 2 ^ 64 ∧ ((6 : Nat) ≠ 5 ∨ (8 : Nat) < 16 ∨ 16 + 4 ≤ (8 : Nat)) ∧
    Memory.wf State.reset.dev = true := by decide +kernel

theorem wit_QueueIsFifo : (1 : Nat) ≤ ({ tSt tUp with pending := [.bypass, .trstNReset] } : State).pending.length ∧
    Sys2Proof.core.run 1 { tSt tUp with pending := [.bypass, .trstNReset] } =
      .next (({ tSt tUp with pending := [.trstNReset] } : State).on ((tUp.setIr 0xFF).emit (.tdo 0xFF 0))) := ⟨by decide, rfl⟩

theorem wit_UndefinedStops : ({ tUp with undef := true } : Dev).undef = true ∧ Instr.bypass ≠ .devResetAssert ∧ Instr.bypass ≠ .referenceClockLoss ∧
    (∀ n, Instr.bypass ≠ .aoPowerUp n) ∧ (∀ n, Instr.bypass ≠ .aoDomainReset n) ∧ (∀ b, Instr.bypass ≠ .mainRailExcursion b) :=
  ⟨rfl, by decide, by decide, by simp, by simp, by simp⟩

def tTripped : State := { tSt { tUp with pwr := { tUp.pwr with tripped := true } } with pending := [.bypass] }

theorem wit_TripIsLatched : tTripped.dev.pwr.tripped = true ∧ (∀ c ∈ tTripped.pending, (∀ n, c ≠ .aoPowerUp n) ∧ ∀ n, c ≠ .aoDomainReset n) ∧
    Sys2Proof.core.run 1 tTripped = .next (({ tTripped with pending := [] } : State).on ((tTripped.dev.setIr 0xFF).emit (.tdo 0xFF 0))) :=
  ⟨rfl, by simp [tTripped], rfl⟩

/-! ### Values: the spec's tables, walk-throughs and edges -/

/-- Table 15-5: 3.25 in every format, and −3 as INT4. -/
theorem test_encode_3_25 : [0, 1, 2, 3, 4, 5, 6].map (fun c => (convert c true (f32 0x40500000)).1) =
    [0x4050, 0x4280, 0x45, 0x42, 0x40500000, 0x03, 0x3] ∧ decodeFmt 6 0xD = .fin true 3 0 := by decide +kernel
/-- Edges 15-1, 15-2, 15-5 and 15-6. -/
theorem test_convert_e4m3 : convert 2 false (f32 0x43E80000) = (0x7E, false, false) ∧ convert 2 false (f32 0x43EB0000) = (0x7E, true, false) ∧
    convert 2 false (f32 0x7F800000) = (0x7E, true, false) ∧ (convert 2 true (f32 0x43EB0000)).1 = 0x7F ∧
    convert 2 false (f32 0xBA000000) = (0x80, false, false) := by decide +kernel
theorem test_convert_nan : convert 0 false (f32 0x7FA00001) = (0x7FE0, false, true) ∧ convert 1 false (f32 0x7FA00001) = (0x7F00, false, true) ∧
    convert 3 false (f32 0x7FA00001) = (0x7F, false, true) ∧ toF32 (decodeFmt 0 0x7F81) = 0x7FC10000 := by decide +kernel
/-- Table 15-6: the words of a histogram. -/
theorem test_histogram : [0x4050, 0xC050, 0x3F80, 0x0000, 0x8000, 0x0001, 0x7F80, 0x7FC0].map (histWord 0) =
    [(128, false), (128, false), (127, false), (256, false), (256, false), (0, true), (258, false), (259, false)] ∧
    histWord 1 0x0001 = (103, true) := by decide +kernel

def bf (l : List Nat) : List Val := l.map (decodeFmt 0)
/-- Table 16-4 with the NaN, and with 1.0 in its place. -/
theorem test_dot_nan : (dotF32 1 none (bf [0x7F00, 0x3F80, 0x7F81, 0x4000]) (bf [0x4000, 0x3F80, 0x3F80, 0x4040])) =
    (0x7FC10000, { ElFlags.none with ovf := true, inv := true }) ∧
    (dotF32 4 none (bf [0x7F00, 0x3F80, 0x7F81, 0x4000]) (bf [0x4000, 0x3F80, 0x3F80, 0x4040])) =
    (0x7FC10000, { ElFlags.none with inv := true }) := by decide +kernel
theorem test_dot_overflow : (dotF32 1 none (bf [0x7F00, 0x3F80, 0x3F80, 0x4000]) (bf [0x4000, 0x3F80, 0x3F80, 0x4040])) =
    (0x7F7FFFFF, { ElFlags.none with ovf := true }) ∧
    (dotF32 4 none (bf [0x7F00, 0x3F80, 0x3F80, 0x4000]) (bf [0x4000, 0x3F80, 0x3F80, 0x4040])) =
    (0x7F800000, { ElFlags.none with ovf := true }) := by decide +kernel
/-- Table 16-5 (guard bits), the FP32 product, Edge 16-6. -/
theorem test_dot_guard : [1, 3, 4, 8].map (fun g => (dotF32 g none (bf [0x4B80, 0x3EC0, 0x3EC0, 0x3EC0]) (bf [0x3F80, 0x3F80, 0x3F80, 0x3F80])).1) =
    [0x4B800000, 0x4B800000, 0x4B800001, 0x4B800001] := by decide +kernel
theorem test_dot_fp32 : (dotF32 1 none [f32 0x3FC00001] [f32 0x3FC00001]).1 = 0x40100001 ∧
    [3, 8].map (fun g => (dotF32 g none [f32 0x3FC00001] [f32 0x3FC00001]).1) = [0x40100002, 0x40100002] ∧
    (dotF32 1 none (bf [0x8000]) (bf [0x3F80])).1 = 0x80000000 := by decide +kernel
/-- INT32 saturation (section "INT32 saturation"). -/
theorem test_dot_int : (dotInt (some (decodeFmt 7 0x7FFFFF00)) [decodeFmt 5 0x7F] [decodeFmt 5 0x7F]) =
    (0x7FFFFFFF, { ElFlags.none with sat := true }) ∧ (dotInt (some (decodeFmt 7 0x7FFFFFFF)) [decodeFmt 5 0x9C] [decodeFmt 5 1]).1 = 0x7FFFFF9B := by
  decide +kernel
/-- Table 14-4: the header as stored; "One element expanded". -/
theorem test_slot_header : (cutEvery 4 8 (slotHeader 0 24 16 false false false false 2 1 0 12352 0x00140A01 5 0xFFFFFFFF 0x3BA00000)).map leNat =
    [0x42434C53, 0x10001810, 0x00021000, 0x3040, 0x00140A01, 5, 0xFFFFFFFF, 0x3BA00000] ∧ slotBytes 24 256 = 18688 := by decide +kernel
theorem test_expand_element : (expandElem 0 0 [0x3F800000, 0x3D800000] [0x3F800000, 0x3D800000]).1 = 0x3F80 ∧
    (expandElem 1 0 [0x3F800000, 0x3D800000] [0x3F800000, 0x3D800000]).1 = 0x3C04 := by decide +kernel
/-- The tweak of block 5 of handle 0x00140A01 (Table 14-4). -/
theorem test_tweak : tweak 0x00140A01 5 = 0x00140A0100000005 := by decide +kernel
/-- Tables 9-12 and 9-14. -/
theorem test_manifest_demand : mStored [0x00140A01, 0x60000400, 0x24000000, 0x00100031, 0x03000800, 0x000FF000, 0x01E00000, 0] = 20185088 := by
  decide +kernel
def recA : VRec := { VRec.notTried with result := 5, short := [0, 6442450944, 0, 0, 0] }
def recB : VRec := { VRec.notTried with result := 1 }
def replyOf : Reply := { Reply.bare 2 with admitted := 1, mode := 2, measures := 1, recs := [recA, recB, VRec.notTried, VRec.notTried] }
theorem test_reply : (replyOf.words 7).take 2 = [0x00020007, 0x0102FF01] ∧ (replyOf.words 7).getD 32 0 = 0x05000000 ∧
    (replyOf.words 7).getD 48 0 + 2 ^ 32 * (replyOf.words 7).getD 49 0 = 6442450944 ∧ (replyOf.words 7).getD 64 0 = 0x01000000 := by decide +kernel
/-- Table 6-11: link 17's verdict (recipe 0: RETRY_SAME, ALT_COUNT 2, FINAL SKIP_AND_DEGRADE). -/
theorem test_verdicts : verdictFail 0x2200 0 0x0120 = 0x01200001 ∧ verdictFail 0x2200 0x01200001 0x0120 = 0x01200050 ∧ vRecipe 0x01200050 = 1 := by
  decide +kernel
/-- Table 12-4 and Edge 12-5: lead slots. -/
def leads (v m : Nat) (slack : Int) : Nat × Nat :=
  let d := { tUp with flm := { tUp.flm with lead := { tUp.flm.lead with tab := [(9, (v, v))] } } }
  (d.set .LEAD_MARGIN_US m |>.leadUpdate 9 slack).leadOf 9
theorem test_lead : leads 900 50 500 = (675, 675) ∧ leads 675 50 275 = (563, 563) ∧ leads 563 50 163 = (507, 507) ∧ leads 507 50 107 = (479, 479) ∧
    leads 479 50 79 = (479, 479) ∧ leads 4900 50 (-300) = (5000, 5250) := by decide +kernel
/-- Scales and norms of chapter 18's walk-through. -/
theorem test_scale_and_clip : scaleExp 0x3F500000 448 = -9 ∧ normOf 0x51100000 16 = 0x40400000 ∧
    groupClip [0x51100000, 0x51800000] 16 0x3F800000 = (0x40A00000, 0x3E4CCCCD) := by decide +kernel
/-- CRC-32C of the digits 1 to 9, the check value that the polynomial's name stands for (notes/assumptions/9.md). -/
theorem test_crc32c : crc32c ((List.range 9).map fun i => BitVec.ofNat 8 (0x31 + i)) = 0xE3069283 := by decide +kernel

/-- The two addresses of chapter 24's walk-through: stack 1 without pseudo-channels 6 and 7. -/
def tStacks : Dev :=
  (((tUp.wr .HBM_PC_MASK 0xFFFFFFFF 0).wr .HBM_PC_MASK 0xFFFFFF3F 1).setParam 104 8 49152).setParam 105 8 46080
theorem test_hbm_map : tStacks.hbmMap 0x09C0000000 = some (0, 0, 0x4E000000) ∧ tStacks.hbmMap 0x1000001300 = some (1, 21, 0) := by decide +kernel

/-! ### Single steps -/

/-- The device after a command that is alone in the queue. -/
def after (c : Instr) (d : Dev) : Dev := match step { dev := d, pending := [c] } with
  | .next s => s.dev
  | _ => Dev.reset

/-- Table 13-5: words of the strided parking program, W1 in a0 and a1. -/
def tPark (w a2 : Nat) : Dev := tTd { tTurn 0x00160100 0x00060020 .none with a := [0x00160100, 0x00060020, a2, 0x20, 0xFFFF, 16, 0, 0] } w
def turnA (d : Dev) (n : Nat) : Nat := ((d.turn? 0 2).map fun t => t.ra n).getD 0
def turnAt (d : Dev) : Nat := ((d.turn? 0 2).map Turn.pc).getD 0
theorem test_turnout_movi : turnA (after (.movi 0 2) (tPark 0x1A00FFFF 0)) 4 = 0xFFFF ∧ turnA (after (.movi 0 2) (tPark 0x1A800010 0)) 5 = 16 := by
  decide +kernel
theorem test_turnout_alu : turnA (after (.turnAlu 0 2) (tPark 0x11980002 0)) 3 = 0x20 ∧ turnA (after (.turnAlu 0 2) (tPark 0x111A0006 0)) 2 = 6 ∧
    turnA (after (.turnAlu 0 2) (tPark 0x10060000 0)) 0 = 0x00160120 := by decide +kernel
theorem test_turnout_djnz : turnAt (after (.djnz 0 2) (tPark 0x0D0001FF 2)) = 2 ∧ turnA (after (.djnz 0 2) (tPark 0x0D0001FF 2)) 2 = 1 ∧
    turnAt (after (.djnz 0 2) (tPark 0x0D0001FF 1)) = 4 := by decide +kernel
theorem test_turnout_sig : (after (.turnSig 0 2) (tPark 0x54600000 0)).rd .TSIG_VALUE 0 = 0 ∧
    bitsOf (after (.turnSig 0 2) (tPark 0x54600000 0)).hg.ev 38 1 = 1 := by decide +kernel
/-- R59: a write of 0x0D sets RESET, and discards FREEZE and ENABLE. -/
theorem test_blk_ctrl : (let d := after (.registerWrite .host (regAddr 40 0 offCtrl) 4 0xD) (tUp.setCtrl 40 1 true)
    (d.ctrlBit 40 0, d.ctrlBit 40 1, d.ctrlBit 40 3)) = (false, false, false) := by decide +kernel
/-- Table 27-11: REG_READ of TJ_NOW answers OK with its four bytes. -/
theorem test_smb_reg_read : ((after (.regRead .smb .good 0x190C0) (tUp.wr .TJ_NOW 0x00030140)).out.contains
    (.mgmt .smb 0 0 [0x40, 0x01, 0x03, 0x00])) = true := by decide +kernel
/-- The ROM's jump to its main loop leaves TCSET 0x8088 a timer word of tc1. -/
theorem test_tcset : ghTimer 0 0x8088 = true ∧ bitsOf 0x8088 3 3 = 1 ∧ bitsOf 0x8088 6 3 = 2 := by decide +kernel
/-- The trip (R91) sets the latch; a wake takes the exit. -/
theorem test_trip : (after (.tjSample 440 2) tUp).pwr.tripped = true ∧ (after (.tjSample 439 2) tUp).pwr.tripped = false := by decide +kernel

/-! ### Well-formedness: a term in range at the ends of its fields, and an ill-formed term for each check -/

theorem test_wf_accepts : ∀ i ∈ [Instr.registerWrite .host 0x3FFFFFF 8 (2 ^ 64 - 1), .registerRead .mgmt 0 64, .latchReadLow .host 110 7 4092,
    .irqForce .host 110 7 1, .aoPowerUp 7, .stageFuses 0 [110], .seal 65535, .rearmApply (2 ^ 32 - 1), .flmCtxHalt .host 31 15 65535,
    .engineStallExpiry (.stream 31 15 3), .turnoutProgramWrite .mgmt 31 511 0, .leaseLost 4095, .partnerLinkUp 7 16 6 true, .hintWrite 7 3 0,
    .gateMirrorRead 7 (2 ^ 23 - 1) 8 0, .apertureWrite (2 ^ 36 - 1) [], .refreshDue 3 31 true, .caParityError 3 4, .setEndpointId .mctpSmb 255],
    i.wf = true := by decide +kernel

/-- Addresses, sizes, values, places of registers, blocks, pages. -/
theorem test_wf_refuses_access : ∀ i ∈ ([.registerWrite .host 0x4000000 4 0, .registerWrite .host 0 0 0, .registerWrite .host 0 65 0, .registerWrite .host 0 4 (2 ^ 32),
  .registerRead .host 0x4000000 4, .registerRead .host 0 0, .unmappedAccess .host 0x4000000 none, .latchReadLow .host 111 0 0, .latchReadLow .host 0 8 0,
  .latchReadLow .host 0 0 4096, .latchReadLow .host 0 0 2, .highWordWrite .host 111 0 0 0, .loopBoundsWrite .host 111 0 0 0 true, .loopPinWrite .host 0 0 1 0 false,
  .irqPendClear .host 111 0 0, .irqMaskWrite .host 0 8 0, .blockReset .host 111 0, .resetComplete 111, .blkFreeze .host 111 0, .thaw .host 0 8,
  .frozenReached 111, .blkQuiesce .host 0 8, .quiescedReached 111, .blkEnable .host 111 0, .stateDataRead .host 0 8, .powerGate 111,
  .bar4AliasWrite (2 ^ 20) 0, .imemWindowWrite .host (2 ^ 20) 0, .imemWindowWrite .host 2 0, .msiXTableWrite 256 0 0, .msiXTableWrite 0 4 0] : List Instr), i.wf = false := by decide +kernel

/-- Boot, power, the Gauge House, the Headgate. -/
theorem test_wf_refuses_boot : ∀ i ∈ ([.aoPowerUp 8, .aoDomainReset 8, .stageFuses 0 [111], .stageHbmBringup 16 [] [], .stageHbmBringup 0 [128] [],
  .stageHbmBringup 0 [] [64], .stageSramInit true (2 ^ 32), .stagePartnerPorts [], .stageExpanderPorts [] [0, 0, 0, 0], .stageExpanderPorts [.pass, .pass,
  .pass, .pass] [], .stageSelftest (2 ^ 16) 0, .stageSelftest 0 256, .governorUpdate (2 ^ 32), .tjSample 0 16, .ghTimerFire 0, .ghTimerFire 8,
  .seqLinklp 32, .seqSrx 16, .seqResume 65536, .holdDrainDone 65536, .scrub [16384] [], .scrub [] [16384], .taskDispatch 65536 true, .ringConsWrite .host 8 0, .ringConfigWrite .host 8 true 0,
  .taskAbort .host 65536, .hgTimerFire 4] : List Instr), i.wf = false := by decide +kernel

/-- Tasks, objects, Flumes, lanes, tiles, partners, the host, expanders. -/
theorem test_wf_refuses_data : ∀ i ∈ ([.seal 65536, .rearmApply 0, .rearmApply (2 ^ 32), .partnerWindowWrite 8 0 [] true, .partnerWindowWrite 0 (2 ^ 64) [] true,
  .partnerWindowRead 0 0 0 0 true, .heldReadRelease 8 0, .retiredRelease 0, .evict 65536, .arbitrationGrant 14 0, .arbitrationGrant 0 2,
  .engineStallExpiry (.stream 32 0 0), .engineStallExpiry (.stream 0 0 4), .engineStallExpiry (.chain 0), .engineStallExpiry (.tag 4096 0),
  .engineStallExpiry (.tag 0 4096), .engineStallExpiry (.drain 0), .park 65536, .liftStart 0 16, .transferComplete 32 0 0 true true,
  .transferComplete 0 0 4 true true, .priResponse 32 0 0 true, .priResponse 0 512 0 true, .priResponse 0 0 (2 ^ 20) true, .streamHaltComplete 0 0 4,
  .flmCtxResume .host 0 16 0, .flmCtxResume .host 0 0 65536, .turnoutProgramWrite .host 32 0 0, .turnoutProgramWrite .host 0 512 0, .turnNop 0 16,
  .turnIllegal 32 0 true, .blockCompress 8, .runChain 65536, .bindingReady 0, .descriptorExecute 16, .publish 65536, .partnerLinkDown 8,
  .partnerLinkUp 0 3 1 true, .partnerLinkUp 0 16 0 true, .partnerLinkUp 0 16 7 true, .partnerHoldExpiry 8, .hdmDecoderCommit 8 0 0 0 0 0,
  .hdmDecoderCommit 0 0 (2 ^ 64) 0 0 0, .hdmDecoderCommit 0 0 0 (2 ^ 64) 0 0, .hdmDecoderCommit 0 0 0 0 0 (2 ^ 64), .markDoorbell 0 (2 ^ 24) 4 0,
  .hintWrite 0 4 0, .gateMirrorRead 0 (2 ^ 23) 8 0, .memspecrd 0 (2 ^ 64), .memUnsupported 8 0 0 true, .getEventRecords 0 4, .clearEventRecords 0 4 0,
  .getSupportedLogs 8, .mailboxUnsupported 0 65536, .portRegisterBlockAccess 0 (2 ^ 24) 4 none 0, .portRegisterBlockAccess 0 0 0 none 0,
  .partnerConfigRequest 8 true, .apertureRead (2 ^ 36) 4 0, .apertureRead 0 0 0, .apertureWrite (2 ^ 36) [], .atsInvalidation 0 (2 ^ 64) 0,
  .hostLinkUp 3 1, .hostLinkUp 16 7, .tierCompletionError 0 0 4 .poison, .expanderLinkDown 4, .expanderLinkUp 4 16 1 true,
  .expanderLinkUp 0 3 1 true, .expanderDownLimit 4] : List Instr), i.wf = false := by decide +kernel

/-- Votes, the Cistern, links, HBM, management, pins. -/
theorem test_wf_refuses_fleet : ∀ i ∈ ([.vote 65536, .voteMsg 24, .commit 65536, .leaseSendTimer 4096, .reofferTimer 4096, .hostLeaseExpiry 8,
  .hostSlotCtrlWrite .host 8 0, .nak 24, .tsFrame 24 0 0 true, .tsFrame 0 (2 ^ 128) 0 true, .tsFrame 0 0 65536 true, .trainTimeout 24, .barrier 65536,
  .barrierArrive 24, .barrierRootTimeout 16 0, .ckptData 24, .lrQuarantine 24, .lrHostCtrlWrite .host 8 0, .refreshDue 4 0 true, .refreshDue 0 32 true,
  .hbmTempRead 4 0, .hbmCalibration 4 0 true, .hbmCalibration 0 16 true, .caParityError 4 0, .caParityError 0 5, .hbmIlvWrite .host 4 0,
  .regRead .smb .good (2 ^ 32), .ledgerRead .smb .good 256 0 0, .ledgerRead .smb .good 0 65536 0, .ledgerRead .smb .good 0 0 256,
  .verdictRead .smb .good 256, .imagePrefWrite .smb .good 256, .reboot .smb .good (2 ^ 32), .flashRead .smb .good (2 ^ 32) 0,
  .flashRead .smb .good 0 256, .flashProgram .smb .good (2 ^ 32) [], .flashProgram .smb .good 0 (List.replicate 256 0),
  .flashErase .smb .good (2 ^ 32) 0, .flashErase .smb .good 0 256, .setEndpointId .mctpSmb 256, .getMctpVersionSupport .mctpSmb 256,
  .settid .mctpSmb 256, .getpldmversion .mctpSmb 256, .getpldmcommands .mctpSmb 256, .getsensorreading .mctpSmb 65536, .getpdr .mctpSmb (2 ^ 32),
  .seteventreceiver .mctpSmb 256, .mgmtAccess true (2 ^ 26) 0, .gpioInputEdge 8 true, .unlistedSmbusCommand 256] : List Instr), i.wf = false := by decide +kernel

theorem test_no_row_has_bits : ∀ n w : Nat, decodeTableWord n w = none := fun _ _ => rfl

end
end

/-! What a hardware event and an IRQ_FORCE do to a page's interrupt registers (R53). -/
namespace Sys2Proof.Machine

/-! ### IRQ_FORCE -/

/-- Messages sent again are MSI-X state and outputs, no registers. -/
@[simp] theorem Dev.resend_regs (d : Dev) (b page : Nat) : (d.resend b page).regs = d.regs := by
  unfold Dev.resend
  induction pageVecs b page generalizing d with
  | nil => rfl
  | cons v vs ih =>
    rw [List.foldl_cons, ih]
    split
    · exact Dev.sendVec_regs d v
    · rfl

@[simp] theorem Dev.resend_hrd (d : Dev) (b page b' page' off : Nat) :
    (d.resend b page).hrd b' page' off = d.hrd b' page' off :=
  Dev.rdk_congr (Dev.resend_regs d b page) _

/-- A forced page has its old pending bits and, of the written word, those of its events. -/
theorem Dev.forceWrite_hrd_pend (d : Dev) (b page : Nat) {v : Nat} (hv : v < 2 ^ 32) :
    (d.forceWrite b page v).hrd b page offPend = d.hrd b page offPend ||| v % 2 ^ eventCount (blkClass b) page := by
  have hlt : d.hrd b page offPend ||| v % 2 ^ eventCount (blkClass b) page < 2 ^ 32 :=
    Nat.or_lt_two_pow (Dev.hrd_lt ..) ((Nat.mod_le ..).trans_lt hv)
  rw [Dev.forceWrite, Dev.resend_hrd, Dev.hrd_hwr_same, Nat.mod_eq_of_lt hlt]

/-- Of the page's registers, IRQ_FORCE changes IRQ_PEND alone. -/
theorem Dev.forceWrite_hrd_off (d : Dev) (b page v : Nat) {off : Nat} (h : off ≠ offPend) :
    (d.forceWrite b page v).hrd b page off = d.hrd b page off := by
  rw [Dev.forceWrite, Dev.resend_hrd, Dev.hrd_hwr_off _ _ _ _ _ h]

/-- Offset 0x20 of every page is IRQ_FORCE (Table 3-6). -/
theorem Dev.regWriteCore_irqForce (d : Dev) (p : Path) (b page v : Nat) :
    d.regWriteCore p b page 0x20 v = d.forceWrite b page v := by
  simp [Dev.regWriteCore, Dev.headerWrite, offMask, offPend]

/-- In RUN, on a page that takes writes, the command is the register's write and no more. -/
theorem exec_irqForce_writes {s : State} {p : Path} {b page : Nat} (v : Word) (hl : s.Live) (hw : s.dev.PageWrites p b page) :
    exec (.irqForce p b page v) s = .next (s.on (s.dev.forceWrite b page v.toNat)) := by
  have hv : v.toNat % 2 ^ 32 = v.toNat := Nat.mod_eq_of_lt v.isLt
  rw [exec_irqForce, execIrqForce, State.run_live hl, Dev.writeAt_writes _ hw (by decide) (by decide), hv,
    Dev.regWrite_core _ hw.1 (by decide) (by simp), Dev.regWriteCore_irqForce]

/-! ### The obligation -/

/-- Settles O52: a hardware event by what `Dev.irqSet` leaves in the registers, IRQ_FORCE by what its write does. -/
theorem eventSetsPendingBit : Obligations.EventSetsPendingBit := by
  unfold Obligations.EventSetsPendingBit
  refine ⟨fun d b page bit hbit => Dev.irqSet_spec d b page bit hbit, fun s p b page v hl hw => ?_⟩
  exact ⟨_, exec_irqForce_writes v hl hw, Dev.forceWrite_hrd_pend _ _ _ v.isLt, Dev.forceWrite_hrd_off _ _ _ _ (by decide)⟩

end Sys2Proof.Machine

/-! The fused table of the Thermal and power page: GOV_VF_SEL selects a step, GOV_VF_MV answers its vfused (R87). -/
namespace Sys2Proof.Machine

/-! ### Register accesses of a page -/

/-- In RUN, a 4-byte write of a page's register is that register's write and no more. -/
theorem exec_registerWrite_page {s : State} {p : Path} {b page off : Nat} (v : Nat) (hl : s.Live) (hw : s.dev.PageWrites p b page)
    (ho : off < 4096) (h4 : off % 4 = 0) :
    exec (.registerWrite p (regAddr b page off) 4 v) s = .next (s.on (s.dev.regWrite p b page off (v % 2 ^ 32))) := by
  have ha : regAddr b page off < 0x4000000 := (regAddr_lt hw.1.2.1 ho).trans (by decide)
  rw [exec_registerWrite, execRegisterWrite, State.run_live hl, Dev.arrive_reach hw.1.1 ha,
    Dev.busWrite_page p v hw.1.2.1 ho h4 (Dev.fatalShut_open hw.2 ..)]

/-- In RUN, a 4-byte read of a page's register answers what the register reads. -/
theorem exec_registerRead_page {s : State} {p : Path} {b page off : Nat} (hl : s.Live) (hr : s.dev.PageReach p b page)
    (ho : off < 4096) (h4 : off % 4 = 0) :
    exec (.registerRead p (regAddr b page off) 4) s =
      .next (s.on ((s.dev.regRead p b page off).2.emit (.readData p (regAddr b page off) (s.dev.regRead p b page off).1))) := by
  have ha : regAddr b page off < 0x4000000 := (regAddr_lt hr.2.1 ho).trans (by decide)
  rw [exec_registerRead, execRegisterRead, State.run_live hl, Dev.arrive_reach hr.1 ha, Dev.busAnswer, Dev.busRead_page _ _ hr.2.1 ho h4]

/-! ### GOV_VF_SEL -/

/-- Of the 32 encodings of STEP, 0 to 28 are listed. -/
theorem fieldOk_govVfSel (x : Nat) : fieldOk 0xe1 0 0xFC 0 x = decide (x ≤ 28) := by
  simp [fieldOk, fieldRanges]

/-- GOV_VF_SEL is a plain register with the one field STEP. -/
theorem Dev.regWriteCore_govVfSel (d : Dev) (p : Path) (v : Nat) :
    d.regWriteCore p 110 0 0xFC v = d.fieldWrite p 110 0 0xFC v ⟨4, 0, .rw, 0⟩ := by
  have hrow : rowAt (blkClass 110) 0 0xFC = some ⟨0, 0xFC, 1, 0, 0, [⟨4, 0, .rw, 0⟩]⟩ := by decide
  have hspecial : d.specialWrite p 110 0 0xFC v = none := rfl
  simp [Dev.regWriteCore, hspecial, Dev.plainWrite, hrow, RegRow.readOnly]

theorem Dev.regWriteCore_govVfSel_listed (d : Dev) (p : Path) {i : Nat} (hi : i < 29) :
    d.regWriteCore p 110 0 0xFC i = d.set .GOV_VF_SEL_STEP i := by
  have hx : bitsOf i 0 5 = i := by simp [bitsOf]; omega
  have hok : fieldOk (blkClass 110) 0 0xFC 0 i = true := (fieldOk_govVfSel i).trans (by simp; omega)
  rw [Dev.regWriteCore_govVfSel]
  simp only [Dev.fieldWrite, Nat.reduceAdd, Nat.reduceSub, hx, hok, if_true]
  rfl

/-- The handling of R6. -/
theorem Dev.regWriteCore_govVfSel_reserved (d : Dev) (p : Path) {i : Nat} (hi : 28 < i) (h32 : i < 32) :
    d.regWriteCore p 110 0 0xFC i = d.errWr p 110 0 0xFC 0x0001 i := by
  have hx : bitsOf i 0 5 = i := by simp [bitsOf]; omega
  have hok : fieldOk (blkClass 110) 0 0xFC 0 i = false := (fieldOk_govVfSel i).trans (by simp; omega)
  rw [Dev.regWriteCore_govVfSel]
  simp [Dev.fieldWrite, hx, hok]

theorem exec_registerWrite_govVfSel {s : State} {p : Path} {i : Nat} (hl : s.Live) (hw : s.dev.PageWrites p 110 0) (hi : i < 2 ^ 32) :
    exec (.registerWrite p (regAddr 110 0 0xFC) 4 i) s = .next (s.on (s.dev.regWriteCore p 110 0 0xFC i)) := by
  rw [exec_registerWrite_page i hl hw (by decide) (by decide), Nat.mod_eq_of_lt hi, Dev.regWrite_core _ hw.1 (by decide) (by decide)]

/-- A listed step is read back. -/
theorem Dev.get_setVfSel_step (d : Dev) {i : Nat} (hi : i < 29) : (d.set .GOV_VF_SEL_STEP i).get .GOV_VF_SEL_STEP = i :=
  (Dev.get_set_same _ _ _ _ (by decide)).trans (Nat.mod_eq_of_lt (hi.trans (by decide)))

/-- A field of any other register keeps its value. -/
theorem Dev.get_setVfSel {f : Fld} (d : Dev) (i : Nat) (h : f.reg.key 0 ≠ Reg.GOV_VF_SEL.key 0) :
    (d.set .GOV_VF_SEL_STEP i).get f = d.get f := Dev.get_set_other _ _ _ _ _ _ (by decide) (.inl h)

/-- The selected step opens and shuts no path to the page. -/
theorem Dev.pageReach_setVfSel {d : Dev} {p : Path} (i : Nat) (h : d.PageReach p 110 0) :
    (d.set .GOV_VF_SEL_STEP i).PageReach p 110 0 := by
  have hlink := d.get_setVfSel (f := .HOST_LINK_STATE) i (by decide)
  have hstate := d.get_setVfSel (f := .PWR_STATE_STATE) i (by decide)
  obtain ⟨⟨hup, hrun⟩, hpage, -⟩ := h
  refine ⟨⟨?_, ?_⟩, hpage, fun h => absurd h (by decide)⟩
  · unfold Dev.pathUp Dev.hostUp Dev.bootPast at hup ⊢
    rwa [hlink, Dev.set_pwr, Dev.set_boot]
  · rwa [Dev.InRun, hstate, Dev.set_pwr, Dev.set_gh]

/-! ### GOV_VF_MV -/

/-- R86: no step needs more than the rail's 850 mV. -/
theorem vfused_le (i : Nat) : Config.vfused i ≤ 850 := by
  induction i with
  | zero => simp only [Config.vfused]; omega
  | succ i ih => simp only [Config.vfused]; omega

/-- A read of GOV_VF_MV answers vfused of the selected step and leaves the device as it was. -/
theorem Dev.regRead_govVfMv (d : Dev) (p : Path) :
    d.regRead p 110 0 0x100 = (Config.vfused (d.get .GOV_VF_SEL_STEP), d) := by
  have hwide : wideOf 110 0 0x100 = 0 := by decide
  have hderived : d.derived p 110 0 0x100 = some (Config.vfused (d.get .GOV_VF_SEL_STEP)) := rfl
  have hlt : Config.vfused (d.get .GOV_VF_SEL_STEP) < 4294967296 := (vfused_le _).trans_lt (by decide)
  simp [Dev.regRead, blkClass, hwide, Dev.regVal, freeReg, hderived, hlt]

theorem exec_registerRead_govVfMv {s : State} {p : Path} (hl : s.Live) (hr : s.dev.PageReach p 110 0) :
    exec (.registerRead p (regAddr 110 0 0x100) 4) s =
      .next (s.on (s.dev.emit (.readData p (regAddr 110 0 0x100) (Config.vfused (s.dev.get .GOV_VF_SEL_STEP))))) := by
  rw [exec_registerRead_page hl hr (by decide) (by decide), Dev.regRead_govVfMv]

/-! ### The obligation -/

/-- Settles O51: a listed step is stored by the plain field write and keeps the page in reach, so that GOV_VF_MV's derived value is read at that
step; any other index takes the field write's R6 branch. -/
theorem fusedTableReads : Obligations.FusedTableReads := by
  unfold Obligations.FusedTableReads
  refine fun s p hl hw => ⟨fun i hi => ?listed, fun i hi h32 => ?reserved⟩
  case listed =>
    refine ⟨s.on (s.dev.set .GOV_VF_SEL_STEP i), ?write, Dev.get_setVfSel_step _ hi, ?read⟩
    case write => rw [exec_registerWrite_govVfSel hl hw (by omega), Dev.regWriteCore_govVfSel_listed _ _ hi]
    case read =>
      have hlive : (s.on (s.dev.set .GOV_VF_SEL_STEP i)).Live := by
        rwa [State.Live, State.on_dev, Dev.set_undef, Dev.set_pwr]
      rw [exec_registerRead_govVfMv hlive (Dev.pageReach_setVfSel i hw.1), State.on, Dev.get_setVfSel_step _ hi]
  case reserved => rw [exec_registerWrite_govVfSel hl hw (by omega), Dev.regWriteCore_govVfSel_reserved _ _ hi h32]

end Sys2Proof.Machine

/-! The qualifying predicate of a Headgate slot: when it lets the slot execute (R174), and what a bundle of one slot comes to when it does not
(R144). -/
namespace Sys2Proof.Machine

/-! ### The predicate -/

/-- XOR: the predicate register and the QN bit differ. -/
theorem Dev.predOn_iff (d : Dev) (x : Slot) : d.predOn x = true ↔ ((d.pReg x.qp = true) ≠ (x.qn = 1)) := by
  rw [Dev.predOn, bne_iff_ne, Ne, Bool.eq_iff_iff, beq_iff_eq, Ne, eq_iff_iff]

/-- p0 always reads 1 (Table 7-1). -/
theorem Dev.pReg_zero (d : Dev) : d.pReg 0 = true := rfl

/-- NOT p0 turns a slot off for good. -/
theorem Dev.predOn_not_p0 (d : Dev) {x : Slot} (hp : x.qp = 0) (hn : x.qn = 1) : d.predOn x = false := by
  rw [Dev.predOn, hp, hn, Dev.pReg_zero]; rfl

/-! ### The commands of a slot

The command of an instruction runs the bundle at the pc, provided that the bundle has the instruction's opcode in a slot that may hold it. -/

/-- The instructions of Table 8-3 that slot A or B may hold, with their opcodes, NOP apart. -/
def slotACommands : List (Nat × Instr) := [(0x10, .hgAlu 0), (0x11, .hgAlui 0), (0x14, .ext 0), (0x15, .dep 0), (0x16, .cnt 0), (0x18, .cmp 0),
  (0x19, .cmpi 0), (0x1A, .plog 0), (0x1B, .sel 0), (0x1C, .mfp 0), (0x1D, .mtp 0), (0x20, .mpeek 0), (0x21, .mpop 0), (0x22, .mfev 0),
  (0x23, .mfh 0), (0x24, .hqry 0), (0x25, .aot 0)]

/-- The instructions of slot B alone with their opcodes (Table 8-4), TMR apart, which has a command per value of F. -/
def slotBCommands : List (Nat × Instr) := [(0x40, .br 0), (0x41, .bl 0), (0x42, .bx 0), (0x43, .hgWait 0), (0x44, .evclr 0), (0x46, .signal 0),
  (0x47, .halt 0), (0x48, .sleep 0), (0x49, .habort 0), (0x4A, .hclr 0)]

/-- LD and ST of slot C with their opcodes (Table 8-5). -/
def slotCCommands : List (Nat × Instr) := [(0x80, .ld 0), (0x81, .st 0)]

theorem exec_slotACommand (s : State) : ∀ oc ∈ slotACommands, exec oc.2 s = s.run fun d => d.bundle 0 fun x => x.ab oc.1 := by
  simp only [slotACommands, List.forall_mem_cons]
  exact ⟨exec_hgAlu s 0, exec_hgAlui s 0, exec_ext s 0, exec_dep s 0, exec_cnt s 0, exec_cmp s 0, exec_cmpi s 0, exec_plog s 0, exec_sel s 0,
    exec_mfp s 0, exec_mtp s 0, exec_mpeek s 0, exec_mpop s 0, exec_mfev s 0, exec_mfh s 0, exec_hqry s 0, exec_aot s 0,
    List.forall_mem_nil _⟩

theorem exec_slotBCommand (s : State) : ∀ oc ∈ slotBCommands, exec oc.2 s = s.run fun d => d.bundle 0 fun x => x.inB oc.1 := by
  simp only [slotBCommands, List.forall_mem_cons]
  exact ⟨exec_br s 0, exec_bl s 0, exec_bx s 0, exec_hgWait s 0, exec_evclr s 0, exec_signal s 0, exec_halt s 0, exec_sleep s 0,
    exec_habort s 0, exec_hclr s 0, List.forall_mem_nil _⟩

theorem exec_slotCCommand (s : State) : ∀ oc ∈ slotCCommands, exec oc.2 s = s.run fun d => d.bundle 0 fun x => x.inC oc.1 := by
  simp only [slotCCommands, List.forall_mem_cons]
  exact ⟨exec_ld s 0, exec_st s 0, List.forall_mem_nil _⟩

/-- The opcode of the word in slot A is one that the bundle has in slot A or B. -/
theorem Bundle.ab_onlyA {w opc : Nat} (h : (⟨w, 0⟩ : Slot).opc = opc) : (Bundle.onlyA w).ab opc = true := by
  simp [Bundle.ab, Bundle.onlyA, h]

theorem Bundle.inB_onlyB {w opc : Nat} (h : (⟨w, 0⟩ : Slot).opc = opc) : (Bundle.onlyB w).inB opc = true := beq_iff_eq.mpr h

theorem Bundle.inC_onlyC {w c1 opc : Nat} (h : (⟨w, c1⟩ : Slot).opc = opc) : (Bundle.onlyC w c1).inC opc = true := beq_iff_eq.mpr h

/-! ### The obligation -/

/-- Settles O54: the predicate by its definition; a command of slot A, B or C is a run of the bundle at the pc, which with its one predicate off
only counts and moves on. -/
theorem predicateDecides : Obligations.PredicateDecides := by
  unfold Obligations.PredicateDecides
  refine ⟨fun d x => ⟨d.predOn_iff x, fun hp hn => d.predOn_not_p0 hp hn⟩, fun s w hl => ⟨?slotA, ?slotB, ?slotC⟩⟩
  case slotA =>
    intro hat hoff oc hoc hopc
    rw [exec_slotACommand s oc hoc, State.run_live hl, bundle_offA hat hoff _ (Bundle.ab_onlyA hopc)]
  case slotB =>
    intro hat hoff oc hoc hopc
    rw [exec_slotBCommand s oc hoc, State.run_live hl, bundle_offB hat hoff _ (Bundle.inB_onlyB hopc)]
  case slotC =>
    intro c1 hat hoff oc hoc hopc
    rw [exec_slotCCommand s oc hoc, State.run_live hl, bundle_offC hat hoff _ (Bundle.inC_onlyC hopc)]

end Sys2Proof.Machine

/-! The trip's latch (R91, R621, R632): nothing but a power-up of the AO domain and its reset clears `pwr.tripped`. -/
namespace Sys2Proof.Machine

/-! ### What leaves the latch as it is

Two forms: an update that never writes the power state keeps all of `pwr`; one that does still keeps the latch. -/

@[simp] theorem Dev.ite_pwr (c : Prop) [Decidable c] (d e : Dev) : (if c then d else e).pwr = if c then d.pwr else e.pwr :=
  apply_ite Dev.pwr c d e

/-- A loop of updates that each keep the power state keeps it. -/
@[simp] theorem Dev.foldl_pwr {α : Type} (f : Dev → α → Dev) (l : List α) (d : Dev) (hf : ∀ e x, (f e x).pwr = e.pwr) :
    (l.foldl f d).pwr = d.pwr := by
  induction l generalizing d with
  | nil => rfl
  | cons x xs ih => rw [List.foldl_cons, ih, hf]

@[simp] theorem Dev.bump_pwr (d : Dev) (r : Reg) (i : Nat) : (d.bump r i).pwr = d.pwr := (Dev.Kin.bump ..).pwr
@[simp] theorem Dev.wr64_pwr (d : Dev) (r : Reg) (v i : Nat) : (d.wr64 r v i).pwr = d.pwr := (Dev.Kin.wr64 ..).pwr
@[simp] theorem Dev.bumpF_pwr (d : Dev) (f : Fld) (i : Nat) : (d.bumpF f i).pwr = d.pwr := Dev.set_pwr ..
@[simp] theorem Dev.bumpBy_pwr (d : Dev) (r : Reg) (n i : Nat) : (d.bumpBy r n i).pwr = d.pwr := Dev.wr_pwr ..
@[simp] theorem Dev.add64_pwr (d : Dev) (r : Reg) (n i : Nat) : (d.add64 r n i).pwr = d.pwr := Dev.wr64_pwr ..
@[simp] theorem Dev.setBit_pwr (d : Dev) (r : Reg) (n : Nat) (v : Bool) (i : Nat) : (d.setBit r n v i).pwr = d.pwr := Dev.wr_pwr ..
@[simp] theorem Dev.evpSet_pwr (d : Dev) (n : Nat) : (d.evpSet n).pwr = d.pwr := Dev.setBit_pwr ..
@[simp] theorem Dev.eccBad_pwr (d : Dev) (mem word : Nat) : (d.eccBad mem word).pwr = d.pwr := rfl
@[simp] theorem Dev.eccWrite_pwr (d : Dev) (mem word : Nat) : (d.eccWrite mem word).pwr = d.pwr := rfl
@[simp] theorem Dev.trcEvents_pwr (r : Dev × List Aux) : (Dev.trcEvents r).pwr = r.1.pwr := (Dev.Kin.trcEvents r).pwr
@[simp] theorem Dev.trcLost_pwr (d : Dev) : d.trcLost.1.pwr = d.pwr := (Dev.Kin.trcLost d).pwr

/-! ### Errors, the alert and the ledger -/

@[simp] theorem Dev.pldmEvent_pwr (d : Dev) (sensor level : Nat) : (d.pldmEvent sensor level).pwr = d.pwr := by
  unfold Dev.pldmEvent; split <;> simp

@[simp] theorem Dev.sensorLevel_pwr (d : Dev) (sensor level : Nat) : (d.sensorLevel sensor level).pwr = d.pwr := by
  simp [Dev.sensorLevel]

@[simp] theorem Dev.alertDrive_pwr (d : Dev) : d.alertDrive.pwr = d.pwr := by
  unfold Dev.alertDrive
  extract_lets held drive m e wire was g
  have he : e.pwr = d.pwr := by unfold e; split <;> rfl
  have hg : g.pwr = d.pwr := by rw [Dev.set_pwr, Dev.set_pwr, he]
  split
  · rw [Dev.raise_pwr, hg]
  · exact hg

@[simp] theorem Dev.alert_pwr (d : Dev) (n : Nat) : (d.alert n).pwr = d.pwr := by simp [Dev.alert]

@[simp] theorem Dev.fatal_pwr (d : Dev) (level cause : Nat) : (d.fatal level cause).pwr = d.pwr := by simp [Dev.fatal]

@[simp] theorem Dev.ueSeen_pwr (d : Dev) (b mem word : Nat) : (d.ueSeen b mem word).pwr = d.pwr := by simp [Dev.ueSeen]

@[simp] theorem Dev.controlUe_pwr (d : Dev) (b page mem word : Nat) : (d.controlUe b page mem word).pwr = d.pwr := by
  simp [Dev.controlUe]

@[simp] theorem Dev.slotWr_pwr (d : Dev) (s off v : Nat) : (d.slotWr s off v).pwr = d.pwr := Dev.st_pwr ..
@[simp] theorem Dev.slotSeal_pwr (d : Dev) (s : Nat) : (d.slotSeal s).pwr = d.pwr := Dev.slotWr_pwr ..

@[simp] theorem Dev.ledgerPut_pwr (d : Dev) (w0 w1 detail : Nat) (trip : Bool) : (d.ledgerPut w0 w1 detail trip).pwr = d.pwr := by
  simp [Dev.ledgerPut]

@[simp] theorem Dev.ledgerEvent_pwr (d : Dev) (code detail w1 : Nat) : (d.ledgerEvent code detail w1).pwr = d.pwr := by
  simp [Dev.ledgerEvent, Dev.bootRec]

@[simp] theorem Dev.slotSet_pwr (d : Dev) (lo w v : Nat) : (d.slotSet lo w v).pwr = d.pwr := by simp [Dev.slotSet]

@[simp] theorem Dev.bootAbort_pwr (d : Dev) : d.bootAbort.pwr = d.pwr := by simp [Dev.bootAbort]

/-! ### The Gauge House (its commands act after a trip, R91) -/

@[simp] theorem Dev.ghPut_pwr (d : Dev) (h a : Nat) : (d.ghPut h a).pwr = d.pwr := Dev.set_pwr ..
@[simp] theorem Dev.ghFault_pwr (d : Dev) (code : Nat) : (d.ghFault code).pwr = d.pwr := by simp [Dev.ghFault]
@[simp] theorem Dev.ghGoto_pwr (d : Dev) (a : Nat) : (d.ghGoto a).pwr = d.pwr := Dev.set_pwr ..
@[simp] theorem Dev.ghNext_pwr (d : Dev) : d.ghNext.pwr = d.pwr := Dev.ghGoto_pwr ..
@[simp] theorem Dev.ghJump_pwr (d : Dev) (h : Nat) : (d.ghJump h).pwr = d.pwr := Dev.set_pwr ..
@[simp] theorem Dev.setK_pwr (d : Dev) (n v : Nat) : (d.setK n v).pwr = d.pwr := rfl
@[simp] theorem Dev.setZ_pwr (d : Dev) (z : Bool) : (d.setZ z).pwr = d.pwr := rfl
@[simp] theorem Dev.ghFlags_pwr (d : Dev) (r : Nat × Option Bool) : (d.ghFlags r).pwr = d.pwr := by
  unfold Dev.ghFlags; split <;> rfl

@[simp] theorem Dev.scrubFound_pwr (d : Dev) (seg : Nat) (ce ue : List Nat) : (d.scrubFound seg ce ue).pwr = d.pwr := by
  unfold Dev.scrubFound
  cases ue with
  | nil => simp
  | cons w ws =>
    simp only
    rw [Dev.raise_pwr, Dev.foldl_pwr _ _ _ fun e x => Dev.eccBad_pwr ..]
    split_ifs <;> simp

/-- A command of the sequencer keeps the latch when its instruction does. -/
theorem Dev.ghExec_tripped {d : Dev} (m : Nat → Bool) {f : Dev → Nat → Dev} (hf : ∀ w, (f d w).pwr.tripped = d.pwr.tripped) :
    (d.ghExec m f).pwr.tripped = d.pwr.tripped := by
  unfold Dev.ghExec
  simp only
  split_ifs
  · rfl
  · exact hf _
  · rfl
  · rw [Dev.ghFault_pwr]
  · rw [Dev.ghFault_pwr, Dev.controlUe_pwr]
  · exact hf _
  · rfl

theorem Dev.ghStep_tripped {d : Dev} (m : Nat → Bool) {f : Dev → Nat → Dev} (hf : ∀ w, (f d w).pwr = d.pwr) :
    (d.ghStep m f).pwr.tripped = d.pwr.tripped := Dev.ghExec_tripped m fun w => by rw [Dev.ghNext_pwr, hf]

/-- A trip stops what a wake source would start. -/
theorem Dev.wake_tripped {d : Dev} (h : d.pwr.tripped = true) (src : Nat) : d.wake src = d := by simp [Dev.wake, h]

/-! ### The management sources (the Management Block acts after a trip) -/

@[simp] theorem Dev.mgmtAnswer_pwr (d : Dev) (src : Option MSrc) (status code : Nat) (data : List Byte) :
    (d.mgmtAnswer src status code data).pwr = d.pwr := by unfold Dev.mgmtAnswer; split <;> rfl

@[simp] theorem Dev.mgmtOk_pwr (d : Dev) (src : Option MSrc) (data : List Byte) : (d.mgmtOk src data).pwr = d.pwr := Dev.mgmtAnswer_pwr ..

@[simp] theorem Dev.mgmtDenied_pwr (d : Dev) (src : MSrc) : (d.mgmtDenied src).pwr = d.pwr := by simp [Dev.mgmtDenied]

theorem Dev.mgmtArrive_pwr {d : Dev} (src : MSrc) (pec : Pec) (w : Bool) {f : Dev → Dev} (hf : (f d).pwr = d.pwr) :
    (d.mgmtArrive src pec w f).pwr = d.pwr := by simp [Dev.mgmtArrive, hf]

/-- A command that only reads is served. -/
theorem Dev.mgmtServe_pwr (d : Dev) (src : MSrc) (pec : Pec) (w ok : Bool) (data : Dev → List Byte) :
    (d.mgmtServe src pec w ok data).pwr = d.pwr := Dev.mgmtArrive_pwr _ _ _ (by simp)

/-- Any other answers NOT_READY after a trip. -/
theorem Dev.mgmtCmd_pwr {d : Dev} (h : d.pwr.tripped = true) (src : MSrc) (pec : Pec) (k : Early) (ok : Bool) (al : Dev → Bool) (c : MCmd) :
    (d.mgmtCmd src pec k ok al c).pwr = d.pwr := Dev.mgmtArrive_pwr _ _ _ (by simp [Dev.notReady, h])

theorem Dev.mctp_pwr {d : Dev} (src : MSrc) (control : Bool) {f : Dev → Dev} (hf : (f d).pwr = d.pwr) :
    (d.mctp src control f).pwr = d.pwr := by simp [Dev.mctp, hf]

theorem Dev.pldmSet_pwr {d : Dev} (src : MSrc) {f : Dev → Dev} (hf : (f d).pwr = d.pwr) : (d.pldmSet src f).pwr = d.pwr :=
  Dev.mctp_pwr _ _ (by simp [hf])

@[simp] theorem Dev.loseSource_pwr (d : Dev) (src : MSrc) : (d.loseSource src).pwr = d.pwr := rfl
@[simp] theorem Dev.accessCapture_pwr (d : Dev) : d.accessCapture.pwr = d.pwr := rfl
@[simp] theorem Dev.setIr_pwr (d : Dev) (ir : Nat) : (d.setIr ir).pwr = d.pwr := rfl
@[simp] theorem Dev.tapCapture_pwr (d : Dev) (ir : Nat) : (d.tapCapture ir).pwr = d.pwr := by simp [Dev.tapCapture]
@[simp] theorem Dev.tapUpdate_pwr (d : Dev) (ir : Nat) : (d.tapUpdate ir).pwr = d.pwr := by simp [Dev.tapUpdate]
@[simp] theorem Dev.tapTest_pwr (d : Dev) (ir : Nat) : (d.tapTest ir).pwr = d.pwr := by simp [Dev.tapTest]

/-! ### The tick -/

@[simp] theorem Dev.notifyWaito_pwr (d : Dev) (o : Obj) : (d.notifyWaito o).pwr = d.pwr := rfl
@[simp] theorem Dev.setState_pwr (d : Dev) (h st : Nat) : (d.setState h st).pwr = d.pwr := by
  unfold Dev.setState
  split
  · rfl
  · split
    · rfl
    · rw [Dev.trace_pwr]; rfl
@[simp] theorem Dev.updObj_pwr (d : Dev) (h : Nat) (f : Obj → Obj) : (d.updObj h f).pwr = d.pwr := by
  unfold Dev.updObj
  split
  · split <;> rfl
  · rfl
@[simp] theorem Dev.touchEntry_pwr (d : Dev) (i : Nat) : (d.touchEntry i).pwr = d.pwr := by
  unfold Dev.touchEntry
  cases hbad : d.ecc.filter (fun e => e.1 == 4 && e.2 / 8 == i) with
  | nil => rfl
  | cons x xs =>
    simp only
    split <;> simp

@[simp] theorem Dev.waitTick_pwr (d : Dev) (tag cause : Option Nat) : (d.waitTick tag cause).pwr = d.pwr := by
  unfold Dev.waitTick; split <;> rfl

@[simp] theorem Dev.linkGroup_pwr (d : Dev) (l : Nat) (fs : List Flit) : (d.linkGroup l fs).pwr = d.pwr := rfl
@[simp] theorem Dev.linkEmit_pwr (l : Nat) : ∀ (n : Nat) (fs : List Flit) (d : Dev), (d.linkEmit l n fs).pwr = d.pwr
  | 0, _, _ => rfl
  | n + 1, fs, d => by simp [Dev.linkEmit, Dev.linkEmit_pwr l n]
@[simp] theorem Dev.paramSend_pwr (d : Dev) (l : Nat) : (d.paramSend l).pwr = d.pwr := Dev.linkEmit_pwr ..

@[simp] theorem Dev.timeTick_pwr (d : Dev) : d.timeTick.pwr = d.pwr := by simp [Dev.timeTick]
@[simp] theorem Dev.heldTick_pwr (d : Dev) : d.heldTick.pwr = d.pwr := by simp [Dev.heldTick]
@[simp] theorem Dev.waitTicks_pwr (d : Dev) : d.waitTicks.pwr = d.pwr := by simp [Dev.waitTicks]
@[simp] theorem Dev.blockTick_pwr (d : Dev) : d.blockTick.pwr = d.pwr := rfl
@[simp] theorem Dev.dueTick_pwr (d : Dev) : d.dueTick.pwr = d.pwr := rfl
@[simp] theorem Dev.paramTick_pwr (d : Dev) : d.paramTick.pwr = d.pwr := by simp [Dev.paramTick]

@[simp] theorem Dev.alertTick_pwr (d : Dev) : d.alertTick.pwr = d.pwr := by simp [Dev.alertTick]

theorem Dev.tick_pwr (d : Dev) : d.tick.pwr = d.pwr := by
  unfold Dev.tick
  extract_lets e g
  have hg : g.pwr = d.pwr := by unfold g e; split <;> simp
  split <;> simp [hg]

/-! ### Every command -/

/-- A command that, where it comes to a next state at all, leaves a latch that is set. -/
def KeepsLatch (c : Instr) : Prop := ∀ s t : State, s.dev.pwr.tripped = true → exec c s = .next t → t.dev.pwr.tripped = true

/-- A command of the main domains does nothing after a trip (R91). -/
theorem KeepsLatch.run {c : Instr} (f : Dev → Dev) (hc : ∀ s, exec c s = s.run f) : KeepsLatch c := by
  intro s t hs h
  rw [hc, State.run, hs] at h
  split at h
  · cases h
  · cases h; exact hs

theorem KeepsLatch.runOn {c : Instr} (f : Dev → Dev) (hc : ∀ s, exec c s = s.runOn f)
    (hf : ∀ d, d.pwr.tripped = true → (f d).pwr.tripped = d.pwr.tripped) : KeepsLatch c := by
  intro s t hs h
  rw [hc, State.runOn] at h
  split at h
  · cases h
  · cases h; exact (hf _ hs).trans hs

theorem KeepsLatch.runAo {c : Instr} (f : Dev → Dev) (hc : ∀ s, exec c s = s.runAo f)
    (hf : ∀ d, d.pwr.tripped = true → (f d).pwr.tripped = d.pwr.tripped) : KeepsLatch c := by
  intro s t hs h
  rw [hc, State.runAo] at h
  cases h; exact (hf _ hs).trans hs

/-- A command that runs one word of the Gauge House's program and steps on. -/
theorem KeepsLatch.ghStep {c : Instr} (m : Nat → Bool) (f : Dev → Nat → Dev) (hc : ∀ s, exec c s = s.runOn fun d => d.ghStep m f)
    (hf : ∀ d w, (f d w).pwr = d.pwr) : KeepsLatch c := .runOn _ hc fun d _ => Dev.ghStep_tripped m (hf d)

theorem KeepsLatch.ghExec {c : Instr} (m : Nat → Bool) (f : Dev → Nat → Dev) (hc : ∀ s, exec c s = s.runOn fun d => d.ghExec m f)
    (hf : ∀ d w, (f d w).pwr = d.pwr) : KeepsLatch c := .runOn _ hc fun d _ => Dev.ghExec_tripped m fun w => by rw [hf]

theorem KeepsLatch.mgmtServe {c : Instr} (src : MSrc) (pec : Pec) (w ok : Bool) (data : Dev → List Byte)
    (hc : ∀ s, exec c s = s.runOn fun d => d.mgmtServe src pec w ok data) : KeepsLatch c :=
  .runOn _ hc fun d _ => by rw [Dev.mgmtServe_pwr]

theorem KeepsLatch.mgmtCmd {c : Instr} (src : MSrc) (pec : Pec) (k : Early) (ok : Bool) (al : Dev → Bool) (x : MCmd)
    (hc : ∀ s, exec c s = s.runOn fun d => d.mgmtCmd src pec k ok al x) : KeepsLatch c :=
  .runOn _ hc fun d h => by rw [Dev.mgmtCmd_pwr h]

theorem KeepsLatch.mctp {c : Instr} (src : MSrc) (control : Bool) (f : Dev → Dev)
    (hc : ∀ s, exec c s = s.runOn fun d => d.mctp src control f) (hf : ∀ d, (f d).pwr = d.pwr) : KeepsLatch c :=
  .runOn _ hc fun d _ => by rw [Dev.mctp_pwr src control (hf d)]

theorem KeepsLatch.pldmSet {c : Instr} (src : MSrc) (f : Dev → Dev)
    (hc : ∀ s, exec c s = s.runOn fun d => d.pldmSet src f) (hf : ∀ d, (f d).pwr = d.pwr) : KeepsLatch c :=
  .runOn _ hc fun d _ => by rw [Dev.pldmSet_pwr src (hf d)]

theorem KeepsLatch.tapTest {c : Instr} (ir : Nat) (hc : ∀ s, exec c s = s.runOn fun d => d.tapTest ir) : KeepsLatch c :=
  .runOn _ hc fun d _ => by rw [Dev.tapTest_pwr]

theorem KeepsLatch.tapUpdate {c : Instr} (ir : Nat) (hc : ∀ s, exec c s = s.runOn fun d => d.tapUpdate ir) : KeepsLatch c :=
  .runOn _ hc fun d _ => by rw [Dev.tapUpdate_pwr]

theorem exec_keepsLatch (c : Instr) (hp : ∀ n, c ≠ .aoPowerUp n) (hr : ∀ n, c ≠ .aoDomainReset n) : KeepsLatch c := by
  cases c
  case aoPowerUp n => exact absurd rfl (hp n)
  case aoDomainReset n => exact absurd rfl (hr n)
  case devResetAssert => exact .runAo _ (exec_devResetAssert · ..) fun d h => by simp [h]
  case mainRailExcursion => exact .runAo _ (exec_mainRailExcursion · ..) fun _ _ => rfl
  case referenceClockLoss => exact .runAo _ (exec_referenceClockLoss · ..) fun _ _ => rfl
  case vidStep => exact .runOn _ (exec_vidStep · ..) fun d h => by simp [h]
  case tjSample => exact .runOn _ (exec_tjSample · ..) fun d h => by simp [h]
  case ghNop => exact .ghStep _ _ (exec_ghNop · ..) fun _ _ => rfl
  case ghTemp => exact .ghStep _ _ (exec_ghTemp · ..) fun _ _ => rfl
  case gpin => exact .ghStep _ _ (exec_gpin · ..) fun _ _ => rfl
  case evt => exact .ghStep _ _ (exec_evt · ..) fun _ _ => by simp
  case ghSig => exact .ghStep _ _ (exec_ghSig · ..) fun _ _ => by simp
  case ldi => exact .ghStep _ _ (exec_ldi · ..) fun _ _ => rfl
  case ghAlu => exact .ghStep _ _ (exec_ghAlu · ..) fun _ _ => by simp
  case ghAddi => exact .ghStep _ _ (exec_ghAddi · ..) fun _ _ => by simp
  case ghCmpi => exact .ghStep _ _ (exec_ghCmpi · ..) fun _ _ => by simp
  case tcrd => exact .ghStep _ _ (exec_tcrd · ..) fun _ _ => rfl
  case ghTnow => exact .ghStep _ _ (exec_ghTnow · ..) fun _ _ => rfl
  case tnowh => exact .ghStep _ _ (exec_tnowh · ..) fun _ _ => rfl
  case ghLd => exact .ghStep _ _ (exec_ghLd · ..) fun _ _ => rfl
  case ghSt => exact .ghStep _ _ (exec_ghSt · ..) fun _ _ => by simp
  case btst => exact .ghStep _ _ (exec_btst · ..) fun _ _ => rfl
  case ghStop => exact .ghExec _ _ (exec_ghStop · ..) fun _ _ => by simp
  case ghRet => exact .ghExec _ _ (exec_ghRet · ..) fun d _ => by cases d.gh.stack <;> simp
  case ghCall => exact .ghExec _ _ (exec_ghCall · ..) fun _ _ => by simp
  case ghB => exact .ghExec _ _ (exec_ghB · ..) fun _ _ => by simp
  case ghWait => exact .ghExec _ _ (exec_ghWait · ..) fun _ _ => by simp
  case ldc => exact .ghExec _ _ (exec_ldc · ..) fun _ _ => by simp
  case tcset => exact .ghExec _ _ (exec_tcset · ..) fun _ _ => by simp
  case tcclr => exact .ghExec _ _ (exec_tcclr · ..) fun _ _ => by simp
  case scrub => exact .ghExec _ _ (exec_scrub · ..) fun _ _ => by simp
  case ghWake =>
    exact .runOn _ exec_ghWake fun d h => Dev.ghExec_tripped _ fun w => by
      simp [Dev.wake_tripped (d := d.ghNext) (by rw [Dev.ghNext_pwr, h])]
  case ghWaitMatch => exact .runOn _ (exec_ghWaitMatch · ..) fun d _ => by cases d.gh.wait <;> simp
  case scrubDone => exact .runOn _ (exec_scrubDone · ..) fun d _ => by cases d.gh.scrub <;> simp
  case ghTimerFire => exact .runOn _ (exec_ghTimerFire · ..) fun d _ => by simp
  case ghBudgetExceeded => exact .runOn _ (exec_ghBudgetExceeded · ..) fun d _ => by simp
  case regRead => exact .mgmtCmd _ _ _ _ _ _ (exec_regRead · ..)
  case regWrite => exact .mgmtCmd _ _ _ _ _ _ (exec_regWrite · ..)
  case regRead64 => exact .mgmtCmd _ _ _ _ _ _ (exec_regRead64 · ..)
  case regWrite64 => exact .mgmtCmd _ _ _ _ _ _ (exec_regWrite64 · ..)
  case mgmtVerdictClear => exact .mgmtCmd _ _ _ _ _ _ (exec_mgmtVerdictClear · ..)
  case imagePrefWrite => exact .mgmtCmd _ _ _ _ _ _ (exec_imagePrefWrite · ..)
  case reboot => exact .mgmtCmd _ _ _ _ _ _ (exec_reboot · ..)
  case flashRead => exact .mgmtCmd _ _ _ _ _ _ (exec_flashRead · ..)
  case flashProgram => exact .mgmtCmd _ _ _ _ _ _ (exec_flashProgram · ..)
  case flashErase => exact .mgmtCmd _ _ _ _ _ _ (exec_flashErase · ..)
  case status => exact .mgmtServe _ _ _ _ _ (exec_status · ..)
  case temp => exact .mgmtServe _ _ _ _ _ (exec_temp · ..)
  case ledgerRead => exact .mgmtServe _ _ _ _ _ (exec_ledgerRead · ..)
  case verdictRead => exact .mgmtServe _ _ _ _ _ (exec_verdictRead · ..)
  case flashStatus => exact .mgmtServe _ _ _ _ _ (exec_flashStatus · ..)
  case unlistedSmbusCommand => exact .runOn _ (exec_unlistedSmbusCommand · ..) fun d _ => by simp
  case smbStretchTimeout => exact .runOn _ (exec_smbStretchTimeout · ..) fun d _ => by simp
  case smbClockLowTimeout => exact .runOn _ (exec_smbClockLowTimeout · ..) fun d _ => by simp
  case setEndpointId => exact .mctp _ _ _ (exec_setEndpointId · ..) fun _ => by simp
  case getEndpointId => exact .mctp _ _ _ (exec_getEndpointId · ..) fun _ => rfl
  case getEndpointUuid => exact .mctp _ _ _ (exec_getEndpointUuid · ..) fun _ => rfl
  case getMctpVersionSupport => exact .mctp _ _ _ (exec_getMctpVersionSupport · ..) fun _ => rfl
  case getMessageTypeSupport => exact .mctp _ _ _ (exec_getMessageTypeSupport · ..) fun _ => rfl
  case getVendorDefinedMessageSupport => exact .mctp _ _ _ (exec_getVendorDefinedMessageSupport · ..) fun _ => rfl
  case gettid => exact .mctp _ _ _ (exec_gettid · ..) fun _ => rfl
  case getpldmversion => exact .mctp _ _ _ (exec_getpldmversion · ..) fun _ => rfl
  case getpldmtypes => exact .mctp _ _ _ (exec_getpldmtypes · ..) fun _ => rfl
  case getpldmcommands => exact .mctp _ _ _ (exec_getpldmcommands · ..) fun _ => rfl
  case getsensorreading src id => exact .mctp _ _ _ (exec_getsensorreading · ..) fun d => by cases d.sensor id <;> simp
  case getstatesensorreadings src id => exact .mctp _ _ _ (exec_getstatesensorreadings · ..) fun d => by cases d.stateSensor id <;> simp
  case getpdrrepositoryinfo => exact .mctp _ _ _ (exec_getpdrrepositoryinfo · ..) fun _ => rfl
  case getpdr => exact .mctp _ _ _ (exec_getpdr · ..) fun _ => rfl
  case settid => exact .pldmSet _ _ (exec_settid · ..) fun _ => rfl
  case seteventreceiver => exact .pldmSet _ _ (exec_seteventreceiver · ..) fun _ => rfl
  case extest => exact .tapTest _ (exec_extest · ..)
  case highz => exact .tapTest _ (exec_highz · ..)
  case clamp => exact .tapTest _ (exec_clamp · ..)
  case extestPulse => exact .tapTest _ (exec_extestPulse · ..)
  case extestTrain => exact .tapTest _ (exec_extestTrain · ..)
  case idcode => exact .tapUpdate _ (exec_idcode · ..)
  case samplePreload => exact .tapUpdate _ (exec_samplePreload · ..)
  case bypass => exact .tapUpdate _ (exec_bypass · ..)
  case mgmtAccess => exact .runOn _ (exec_mgmtAccess · ..) fun d h => by simp [Dev.pathUp, h]
  case trstNReset => exact .runOn _ (exec_trstNReset · ..) fun d _ => rfl
  case gpioInputEdge => exact .runOn _ (exec_gpioInputEdge · ..) fun d h => by simp [h]
  case fleetAlertWire => exact .runOn _ (exec_fleetAlertWire · ..) fun d _ => by simp
  all_goals exact .run _ fun _ => by unfold exec; rfl

/-! ### Runs -/

/-- A run of one step more is that step and then the rest. -/
theorem core_run_succ {M : Host.Core} {k : Nat} {s t : M.State} :
    M.run (k + 1) s = .next t ↔ ∃ s', M.step s = .next s' ∧ M.run k s' = .next t := by
  rw [Host.Core.run]
  cases M.step s <;> simp

theorem step_keepsLatch {s t : State} (hs : s.dev.pwr.tripped = true)
    (hq : ∀ c ∈ s.pending, (∀ n, c ≠ .aoPowerUp n) ∧ ∀ n, c ≠ .aoDomainReset n) (h : step s = .next t) :
    t.dev.pwr.tripped = true ∧ ∀ c ∈ t.pending, c ∈ s.pending := by
  unfold step at h
  split at h
  next hnil =>
    cases h
    exact ⟨by rw [State.on_dev, Dev.tick_pwr, hs], fun c hc => hc⟩
  next c rest hcons =>
    have hc : c ∈ s.pending := hcons ▸ List.mem_cons_self
    have hpend := exec_pending c _ t h
    refine ⟨exec_keepsLatch c (hq c hc).1 (hq c hc).2 { s with pending := rest } t hs h, fun x hx => ?_⟩
    rw [hpend] at hx
    exact hcons ▸ List.mem_cons_of_mem c hx

/-- Settles O60, by induction on the steps: a step keeps the latch and adds no command to the queue. -/
theorem tripIsLatched : Obligations.TripIsLatched := by
  unfold Obligations.TripIsLatched
  intro k
  induction k with
  | zero => intro s t hs _ h; cases h; exact hs
  | succ k ih =>
    intro s t hs hq h
    obtain ⟨s', hstep, hrun⟩ := core_run_succ.mp h
    obtain ⟨hs', hsub⟩ := step_keepsLatch (t := s') hs hq hstep
    exact ih s' t hs' (fun c hc => hq c (hsub c hc)) hrun

end Sys2Proof.Machine

/-! The step and its queue, what an undefined device does, memory, and what reset leaves. -/
namespace Sys2Proof.Machine

/-! ### The queue -/

/-- Settles O56: `step` by its two cases. -/
theorem stepRunsTheFrontCommand : Obligations.StepRunsTheFrontCommand := by
  unfold Obligations.StepRunsTheFrontCommand
  exact ⟨fun c rest s h => by rw [step, h], fun ⟨_, _⟩ h => by cases h; rfl⟩

theorem step_cons {c : Instr} {rest : List Instr} {s : State} (h : s.pending = c :: rest) : step s = exec c { s with pending := rest } :=
  stepRunsTheFrontCommand.1 c rest s h

/-- A step takes the front of a queue that is not empty. -/
theorem step_pending {s t : State} (hs : s.pending ≠ []) (h : step s = .next t) : t.pending = s.pending.drop 1 := by
  cases hp : s.pending with
  | nil => exact absurd hp hs
  | cons c rest =>
    rw [step_cons hp] at h
    exact exec_pending c _ t h

/-- What waits behind the front does not change what a step does. -/
theorem step_append {s t : State} (hs : s.pending ≠ []) (h : step s = .next t) (c : Instr) :
    step { s with pending := s.pending ++ [c] } = .next { t with pending := t.pending ++ [c] } := by
  cases hp : s.pending with
  | nil => exact absurd hp hs
  | cons a rest =>
    have hstep := h
    rw [step_cons hp] at hstep
    have hrest : t.pending = rest := exec_pending a _ t hstep
    rw [step_cons (s := { s with pending := a :: rest ++ [c] }) (rest := rest ++ [c]) rfl, hrest]
    have hshift := exec_withPending a { s with pending := rest } (rest ++ [c])
    rwa [hstep] at hshift

/-- Settles O57, by induction on the steps. -/
theorem queueIsFifo : Obligations.QueueIsFifo := by
  unfold Obligations.QueueIsFifo
  intro k
  induction k with
  | zero =>
    intro s t _ h
    cases h
    exact ⟨rfl, fun c => rfl⟩
  | succ k ih =>
    intro s t hk h
    obtain ⟨s', hstep, hrun⟩ := core_run_succ.mp h
    have hne : s.pending ≠ [] := fun hnil => by simp [hnil] at hk
    have hpend := step_pending (t := s') hne hstep
    obtain ⟨hdrop, happ⟩ := ih s' t (by rw [hpend, List.length_drop]; omega) hrun
    refine ⟨by rw [hdrop, hpend, List.drop_drop, Nat.add_comm], fun c => ?_⟩
    exact core_run_succ.mpr ⟨_, step_append hne hstep c, happ c⟩

/-! ### An undefined device -/

/-- Settles O59: every command is one of the three shells, and the third is for the commands that the statement names. -/
theorem undefinedStops : Obligations.UndefinedStops := by
  unfold Obligations.UndefinedStops
  intro c s hu hup hreset hassert hrail hclock
  rcases exec_shape c with ⟨f, hf⟩ | ⟨f, hf⟩ | ⟨-, halways⟩
  · rw [hf, State.run_undef hu]
  · rw [hf, State.runOn_undef hu]
  · rcases halways with ⟨n, h⟩ | ⟨n, h⟩ | h | ⟨b, h⟩ | h
    · exact absurd h (hup n)
    · exact absurd h (hreset n)
    · exact absurd h hassert
    · exact absurd h (hrail b)
    · exact absurd h hclock

/-! ### Memory -/

/-- Settles O55, by the laws of the sparse memory. -/
theorem memoryReadsBack : Obligations.MemoryReadsBack := by
  unfold Obligations.MemoryReadsBack
  intro d sp a n v ha
  refine ⟨Dev.ld_st d sp a n v, fun i hi => ?_, fun sp' b hb hout => ?_, Memory.wf_st d sp a n v⟩
  · have hlen : i < (leBytes n v).length := by rwa [leBytes_length]
    rw [Dev.st, Dev.rb_wbs_in d sp a _ i hlen, leBytes_get]
  · rw [Dev.st, Dev.rb_wbs_out _ _ _ _ _ _ (by rwa [leBytes_length]) hb (by rwa [leBytes_length])]

/-! ### Reset -/

/-- Settles O58: each field and register of the reset state, evaluated. -/
theorem resetLeaves : Obligations.ResetLeaves := by
  unfold Obligations.ResetLeaves
  refine ⟨rfl, rfl, rfl, rfl, rfl, rfl, rfl, rfl, rfl, ?_, ?_, ?_, ?_, ?_, ?_, ?_⟩ <;> decide +kernel

end Sys2Proof.Machine

/-! Register accesses that reach a page in RUN: the BAR's own, the common page header, the capture of the first uncorrectable error, and the
controls of a block. -/
namespace Sys2Proof.Machine

/-! ### Accesses of the BAR -/

theorem exec_registerRead_reach {s : State} {p : Path} {a : Nat} (size : Nat) (hl : s.Live) (hr : s.dev.Reach p) (ha : a < 0x4000000) :
    exec (.registerRead p a size) s = .next (s.on (s.dev.busAnswer p a size)) := by
  rw [exec_registerRead, execRegisterRead, State.run_live hl, Dev.arrive_reach hr ha]

theorem exec_registerWrite_reach {s : State} {p : Path} {a : Nat} (size v : Nat) (hl : s.Live) (hr : s.dev.Reach p) (ha : a < 0x4000000) :
    exec (.registerWrite p a size v) s = .next (s.on (s.dev.busWrite p a size v)) := by
  rw [exec_registerWrite, execRegisterWrite, State.run_live hl, Dev.arrive_reach hr ha]

/-- An offset that no page or window covers takes a write of any size the same way (R48). -/
theorem Dev.busWrite_hole (d : Dev) (p : Path) {a : Nat} (ha : targetOf a = .hole) (size v : Nat) :
    d.busWrite p a size v = d.unmapped a (v % 2 ^ 32) := by simp [Dev.busWrite, ha]

theorem Dev.busAnswer_hole (d : Dev) (p : Path) {a : Nat} (ha : targetOf a = .hole) (size : Nat) :
    d.busAnswer p a size = (d.unmapped a 0).emit (.readData p a 0) := by simp [Dev.busAnswer, Dev.busRead, ha]

/-- The Ditch Map covers the first 64 KiB of the BAR. -/
theorem targetOf_ne_map {a : Nat} (ha : 0x10000 ≤ a) (off : Nat) : targetOf a ≠ .map off := by
  unfold targetOf
  rw [if_neg (by omega)]
  split_ifs
  iterate 6 · nofun
  split <;> nofun

/-- A target that a DEVICE_FATAL device has shut discards what is written. -/
theorem Dev.busWrite_shut (d : Dev) (p : Path) {a : Nat} (ha : 0x10000 ≤ a) (hh : targetOf a ≠ .hole)
    (hs : d.targetShut (targetOf a) = true) (size v : Nat) : d.busWrite p a size v = d := by
  cases ht : targetOf a with
  | map off => exact absurd ht (targetOf_ne_map ha off)
  | hole => exact absurd ht hh
  | page b g off => rw [ht] at hs; simp [Dev.busWrite, ht, hs]
  | win w off => rw [ht] at hs; simp [Dev.busWrite, ht, hs]

/-- Settles O1: an access that arrives in RUN is the bus's own read or write. -/
theorem barAccessesComplete : Obligations.BarAccessesComplete := by
  unfold Obligations.BarAccessesComplete
  intro s p a size hl hr ha
  refine ⟨exec_registerRead_reach size hl hr ha, fun v => exec_registerWrite_reach size v hl hr ha, fun v h64 hh hs => ?shut,
    fun hh v => ?holeWrite, fun hh => ?holeRead⟩
  case shut => rw [exec_registerWrite_reach size v hl hr ha, Dev.busWrite_shut _ p h64 hh hs]
  case holeWrite =>
    rw [exec_unmappedAccess, execUnmappedAccess, State.run_live hl, if_neg (not_not.mpr hh)]
    simp only
    rw [Dev.arrive_reach hr ha, Dev.busWrite_hole _ p hh, Nat.mod_eq_of_lt v.isLt]
    rfl
  case holeRead =>
    rw [exec_unmappedAccess, execUnmappedAccess, State.run_live hl, if_neg (not_not.mpr hh)]
    simp only
    rw [Dev.arrive_reach hr ha, Dev.busAnswer_hole _ p hh]
    rfl

/-! ### The common page header -/

/-- A write that arrives at a page's common header, BLK_CTRL apart. -/
theorem Dev.writeAt_header {d : Dev} {p : Path} {b page off : Nat} (v : Nat) (h : d.PageWrites p b page) (ho : off < 0x80)
    (h4 : off % 4 = 0) (hc : off ≠ offCtrl) : d.writeAt p b page off v = d.headerWrite p b page off (v % 2 ^ 32) := by
  rw [Dev.writeAt_writes _ h (by omega) h4, Dev.regWrite_core _ h.1 hc (by omega), Dev.regWriteCore, if_pos ho]

theorem exec_irqMaskWrite_writes {s : State} {p : Path} {b page : Nat} (v : Word) (hl : s.Live) (hw : s.dev.PageWrites p b page) :
    exec (.irqMaskWrite p b page v) s = .next (s.on (s.dev.maskWrite b page v.toNat)) := by
  rw [exec_irqMaskWrite, execIrqMaskWrite, State.run_live hl, Dev.writeAt_header _ hw (by decide) (by decide) (by decide),
    Nat.mod_eq_of_lt v.isLt]
  rfl

theorem exec_irqPendClear_writes {s : State} {p : Path} {b page : Nat} (v : Word) (hl : s.Live) (hw : s.dev.PageWrites p b page) :
    exec (.irqPendClear p b page v) s = .next (s.on (s.dev.pendWrite b page v.toNat)) := by
  rw [exec_irqPendClear, execIrqPendClear, State.run_live hl, Dev.writeAt_header _ hw (by decide) (by decide) (by decide),
    Nat.mod_eq_of_lt v.isLt]
  rfl

/-- The capture as a write of VALID leaves it (R58). -/
theorem exec_errCodeClear_writes {s : State} {p : Path} {b page : Nat} (hl : s.Live) (hw : s.dev.PageWrites p b page) :
    exec (.errCodeClear p b page) s =
      .next (s.on (((s.dev.hwr b page offErr 0).hwr b page offInfoLo 0).hwr b page offInfoHi 0)) := by
  rw [exec_errCodeClear, execErrCodeClear, State.run_live hl, Dev.writeAt_header _ hw (by decide) (by decide) (by decide)]
  rfl

theorem exec_stateDataRead_reach {s : State} {p : Path} {b page : Nat} (hl : s.Live) (hr : s.dev.PageReach p b page) :
    exec (.stateDataRead p b page) s =
      .next (s.on ((s.dev.stateData p b page).2.emit (.readData p (regAddr b page 0x3C) (s.dev.stateData p b page).1))) := by
  have hreg : s.dev.regRead p b page 0x3C = s.dev.stateData p b page := by rw [Dev.regRead, if_pos rfl]
  rw [exec_stateDataRead, execStateDataRead, State.run_live hl, Dev.readAt_reach hr (by decide) (by decide), hreg]

/-! ### Registers of 64 bits -/

/-- The header holds no half of a 64-bit register. -/
theorem off_of_wideOf {b page off : Nat} (h : wideOf b page off ≠ 0) : 0x80 ≤ off := by
  by_contra hlt
  exact h (by rw [wideOf, if_pos (by omega)])

/-- The row of a register's high or low word. -/
theorem wideOf_row {b page off : Nat} {r : RegRow} (hr : rowAt (blkClass b) page off = some r) (ho : 0x80 ≤ off) :
    wideOf b page off = r.wide := by rw [wideOf, if_neg (by omega), hr]; rfl

theorem rowAt_mem {c page off : Nat} {r : RegRow} (h : rowAt c page off = some r) : r ∈ rowsOf c ∧ r.holds page off = true := by
  rw [rowAt] at h
  exact ⟨List.mem_of_find?_eq_some h, by simpa using List.find?_some h⟩

/-- An offset of a row lies in the row's own range. -/
theorem RegRow.holds_range {r : RegRow} {page off : Nat} (h : r.holds page off = true) :
    r.page = page ∧ r.off ≤ off ∧ (off = r.off ∨ off < r.off + r.stride * r.count) := by
  simp only [RegRow.holds, Bool.and_eq_true, beq_iff_eq, decide_eq_true_eq] at h
  obtain ⟨⟨hp, hle⟩, hin⟩ := h
  refine ⟨hp, hle, ?_⟩
  split at hin
  · exact .inl (by simpa using hin)
  · simp only [Bool.and_eq_true, decide_eq_true_eq] at hin
    rcases Nat.eq_zero_or_pos r.stride with h0 | hpos
    · rw [h0, Nat.mod_zero] at hin
      exact .inl (by omega)
    · have hlt := (Nat.div_lt_iff_lt_mul hpos).mp hin.2
      rw [Nat.mul_comm] at hlt
      exact .inr (by omega)

/-- Page 1 of the Gauge House and of a Flume holds program words from 0x800 on, and no 64-bit register there. -/
theorem wide_programs {c off : Nat} (hc : c = 0x10 ∨ c = 0x40) (ho : 0x800 ≤ off) {r : RegRow} (h : rowAt c 1 off = some r) :
    r.wide = 0 := by
  obtain ⟨hmem, hold⟩ := rowAt_mem h
  obtain ⟨hpage, hle, hin⟩ := RegRow.holds_range hold
  have hend : ∀ r ∈ rowsGH ++ rowsFLM, r.page = 1 → r.wide = 0 ∨ (r.off < 0x800 ∧ r.off + r.stride * r.count ≤ 0x800) := by decide
  have hrows : r ∈ rowsGH ++ rowsFLM := by
    rcases hc with rfl | rfl
    · exact List.mem_append_left _ hmem
    · exact List.mem_append_right _ hmem
  rcases hend r hrows hpage with h0 | hlow
  · exact h0
  · omega

theorem wideOf_programs {b off : Nat} (hc : blkClass b = 0x10 ∨ blkClass b = 0x40) (ho : 0x800 ≤ off) : wideOf b 1 off = 0 := by
  rw [wideOf, if_neg (by omega)]
  cases hr : rowAt (blkClass b) 1 off with
  | none => rfl
  | some r => exact wide_programs hc ho hr

/-- A read of the low word latches the high one (R62). -/
theorem Dev.regRead_low (d : Dev) (p : Path) {b page off : Nat} (hw : wideOf b page off = 1) :
    d.regRead p b page off = ((d.regVal p b page off).1,
      ((d.regVal p b page off).2.regVal p b page (off + 4)).2.setLatch p b page
        ((d.regVal p b page off).2.regVal p b page (off + 4)).1) := by
  have ho := off_of_wideOf (b := b) (page := page) (off := off) (by omega)
  have hprog : ∀ c, (c = 0x10 ∨ c = 0x40) → ¬ (blkClass b = c ∧ page = 1 ∧ 0x800 ≤ off) := by
    rintro c hc ⟨hb, rfl, hoff⟩
    rw [wideOf_programs (hb ▸ hc) hoff] at hw
    cases hw
  have hroute : ¬ (blkClass b = 0xb1 ∧ page = 0 ∧ off = 0x98) := by
    rintro ⟨hb, rfl, rfl⟩
    rw [wideOf, hb] at hw
    exact absurd hw (by decide)
  rw [Dev.regRead, if_neg (by omega), if_neg (hprog 0x10 (.inl rfl)), if_neg (hprog 0x40 (.inr rfl)), if_neg hroute, if_neg (by omega)]
  simp only [hw, if_true]

theorem exec_latchReadLow_reach {s : State} {p : Path} {b page off : Nat} (hl : s.Live) (hr : s.dev.PageReach p b page)
    (ho : off < 4096) (h4 : off % 4 = 0) (hw : wideOf b page off = 1) :
    exec (.latchReadLow p b page off) s =
      .next (s.on ((s.dev.regRead p b page off).2.emit (.readData p (regAddr b page off) (s.dev.regRead p b page off).1))) := by
  rw [exec_latchReadLow, execLatchReadLow, State.run_live hl, if_pos hw, Dev.readAt_reach hr ho h4]

/-- A write of the high word takes the staged low word with it (R62). -/
theorem Dev.regWriteCore_high (d : Dev) (p : Path) {b page off : Nat} (v : Nat) {r : RegRow} (hw : wideOf b page off = 2)
    (hspecial : d.specialWrite p b page off v = none) (hrow : rowAt (blkClass b) page off = some r) (hro : r.readOnly = false) :
    d.regWriteCore p b page off v = ((d.hwr b page (off - 4) (d.stagedLow p b page (off - 4))).hwr b page off v).unstage p b page
      (off - 4) := by
  have ho := off_of_wideOf (b := b) (page := page) (off := off) (by omega)
  have hwide : r.wide = 2 := (wideOf_row hrow ho).symm.trans hw
  rw [Dev.regWriteCore, if_neg (by omega), hspecial]
  simp [Dev.plainWrite, hrow, hro, hwide]

/-- No high word is BLK_CTRL or GLOBAL_CTRL. -/
theorem Dev.regWrite_high {d : Dev} {p : Path} {b page off : Nat} (v : Nat) (h : d.PageReach p b page) (hw : wideOf b page off = 2) :
    d.regWrite p b page off v = d.regWriteCore p b page off v := by
  have ho := off_of_wideOf (b := b) (page := page) (off := off) (by omega)
  refine Dev.regWrite_core v h (fun hc => absurd ho (by rw [hc]; decide)) ?_
  rintro ⟨rfl, rfl⟩
  have hp : page < pageCount 109 := h.2.1.2.2
  have hall : ∀ g, g < pageCount 109 → wideOf 109 g 0x80 ≠ 2 := by decide
  exact hall page hp hw

/-! ### The adaptive loops (R23) -/

/-- A loop's bounds and its pin lie on no page of the Management Block and clear of the common header. -/
theorem loop_clear {b page off : Nat} (h : boundsAt b page off = true ∨ pinAt b page off = true) : b ≠ 109 ∧ 0x80 ≤ off := by
  constructor
  · rintro rfl
    have hc : blkClass 109 = 0xe0 := by decide
    rcases h with h | h <;> simp [boundsAt, pinAt, hc] at h
  · by_contra hlt
    rcases h with h | h <;> simp [boundsAt, pinAt] at h <;> omega

theorem Dev.writeAt_loop {d : Dev} {p : Path} {b page off : Nat} (v : Word) (h : d.PageWrites p b page) (ho : off < 4096)
    (h4 : off % 4 = 0) (hb : boundsAt b page off = true ∨ pinAt b page off = true) :
    d.writeAt p b page off v.toNat = d.regWriteCore p b page off v.toNat := by
  obtain ⟨hne, hoff⟩ := loop_clear hb
  rw [Dev.writeAt_writes _ h ho h4, Nat.mod_eq_of_lt v.isLt]
  exact Dev.regWrite_core _ h.1 (fun hc => absurd hoff (by rw [hc]; decide)) fun hg => hne hg.1

/-- No update coincides with the write. -/
theorem Dev.loopWrite_apart {d : Dev} {p : Path} {b page off : Nat} (v : Word) (h : d.PageWrites p b page) (ho : off < 4096)
    (h4 : off % 4 = 0) (hb : boundsAt b page off = true ∨ pinAt b page off = true) :
    d.loopWrite p b page off v.toNat false = d.regWriteCore p b page off v.toNat := by
  rw [Dev.loopWrite, Bool.false_and, Bool.false_and]
  exact Dev.writeAt_loop v h ho h4 hb

/-- An update coincides with a write that is not refused: it is marked. -/
theorem Dev.loopWrite_tied {d : Dev} {p : Path} {b page off : Nat} (v : Word) (h : d.PageWrites p b page) (ho : off < 4096)
    (h4 : off % 4 = 0) (hb : boundsAt b page off = true ∨ pinAt b page off = true) (hc : blkClass b ≠ 0xb0)
    (hok : (({ d with errSeen := 0 } : Dev).regWriteCore p b page off v.toNat).errSeen = 0) :
    d.loopWrite p b page off v.toNat true = { ({ d with errSeen := 0 } : Dev).regWriteCore p b page off v.toNat with
      tied := (({ d with errSeen := 0 } : Dev).regWriteCore p b page off v.toNat).tied ++ [d.loopAt b page off] } := by
  have hwrite : ({ d with errSeen := 0 } : Dev).writeAt p b page off v.toNat = ({ d with errSeen := 0 } : Dev).regWriteCore p b page off v.toNat :=
    Dev.writeAt_loop v h ho h4 hb
  rw [Dev.loopWrite, if_pos (by simp [Dev.asleep_inRun h.1.1.2, hc]), hwrite]
  simp only [hok, beq_self_eq_true, Bool.true_or, if_true]

theorem exec_loopBoundsWrite_live {s : State} {p : Path} {b page off : Nat} (v : Word) (same : Bool) (hl : s.Live)
    (hb : boundsAt b page off = true) :
    exec (.loopBoundsWrite p b page off v same) s = .next (s.on (s.dev.loopWrite p b page off v.toNat same)) := by
  rw [exec_loopBoundsWrite, execLoopBoundsWrite, State.run_live hl, if_pos hb]

theorem exec_loopPinWrite_live {s : State} {p : Path} {b page off : Nat} (v : Word) (same : Bool) (hl : s.Live)
    (hb : pinAt b page off = true) :
    exec (.loopPinWrite p b page off v same) s = .next (s.on (s.dev.loopWrite p b page off v.toNat same)) := by
  rw [exec_loopPinWrite, execLoopPinWrite, State.run_live hl, if_pos hb]

/-! ### The obligations of the header -/

/-- Settles O2: each access arrives at its page and is the header's, the pair's or the loop's own. -/
theorem headerAccessesComplete : Obligations.HeaderAccessesComplete := by
  unfold Obligations.HeaderAccessesComplete
  intro s p b page hl hr
  refine ⟨fun hf v => exec_irqMaskWrite_writes v hl ⟨hr, hf⟩, fun hf v => exec_irqPendClear_writes v hl ⟨hr, hf⟩,
    fun hf v => exec_irqForce_writes v hl ⟨hr, hf⟩, fun hf => exec_errCodeClear_writes hl ⟨hr, hf⟩, exec_stateDataRead_reach hl hr,
    fun off ho h4 hw => ?latch, fun hf off v r ho h4 hw hspecial hrow hro => ?high, fun hf off v ho h4 => ?loop⟩
  case latch => rw [exec_latchReadLow_reach hl hr ho h4 hw, Dev.regRead_low _ p hw]
  case high =>
    rw [exec_highWordWrite, execHighWordWrite, State.run_live hl, if_pos hw, Dev.writeAt_writes _ ⟨hr, hf⟩ ho h4,
      Nat.mod_eq_of_lt v.isLt, Dev.regWrite_high _ hr hw, Dev.regWriteCore_high _ p _ hw hspecial hrow hro]
  case loop =>
    refine ⟨fun hb => ?_, fun hb => ?_, fun hok hc => ⟨fun hb => ?_, fun hb => ?_⟩⟩
    · rw [exec_loopBoundsWrite_live v _ hl hb, Dev.loopWrite_apart v ⟨hr, hf⟩ ho h4 (.inl hb)]
    · rw [exec_loopPinWrite_live v _ hl hb, Dev.loopWrite_apart v ⟨hr, hf⟩ ho h4 (.inr hb)]
    · rw [exec_loopBoundsWrite_live v _ hl hb, Dev.loopWrite_tied v ⟨hr, hf⟩ ho h4 (.inl hb) hc hok]
    · rw [exec_loopPinWrite_live v _ hl hb, Dev.loopWrite_tied v ⟨hr, hf⟩ ho h4 (.inr hb) hc hok]

/-- After a capture whose VALID is set the capture stays as it is, and every further error counts. -/
theorem Dev.errCaptures_later (es : List (Nat × Nat × Nat)) {d : Dev} {b page : Nat} (hv : bitsOf (d.hrd b page offErr) 31 1 = 1) :
    (∀ off, off ≠ offErrCount → (es.foldl (fun x y => x.errCapture b page y.1 y.2.1 y.2.2) d).hrd b page off = d.hrd b page off) ∧
    (es ≠ [] → (es.foldl (fun x y => x.errCapture b page y.1 y.2.1 y.2.2) d).hrd b page offErrCount =
      min 0xFFFFFFFF (d.hrd b page offErrCount + es.length)) := by
  induction es generalizing d with
  | nil => exact ⟨fun _ _ => rfl, fun h => absurd rfl h⟩
  | cons y ys ih =>
    obtain ⟨hoff, hcount⟩ := Dev.errCapture_later d b page y.1 y.2.1 y.2.2 hv
    obtain ⟨hoffs, hcounts⟩ := ih (d := d.errCapture b page y.1 y.2.1 y.2.2) (by rw [hoff _ (by decide), hv])
    refine ⟨fun off ho => (hoffs off ho).trans (hoff off ho), fun _ => ?_⟩
    rw [List.foldl_cons]
    rcases List.eq_nil_or_concat ys with rfl | ⟨_, _, hys⟩
    · exact hcount
    · rw [hcounts (by rw [hys]; simp), hcount, List.length_cons]
      omega

/-- Settles O53: the first error by its capture, the later ones by induction on their list. -/
theorem firstErrorStays : Obligations.FirstErrorStays := by
  unfold Obligations.FirstErrorStays
  refine ⟨fun d b page code lo hi es hv hc hlo hhi => ?captured, fun s p b page hl hw => ?cleared⟩
  case captured =>
    obtain ⟨herr, hinfoLo, hinfoHi, hcount⟩ := Dev.errCapture_first d b page code lo hi hv hc hlo hhi
    have hvalid : bitsOf ((d.errCapture b page code lo hi).hrd b page offErr) 31 1 = 1 := by
      rw [herr]; simp only [bitsOf]; omega
    obtain ⟨hoff, hcounts⟩ := Dev.errCaptures_later es hvalid
    refine ⟨(hoff _ (by decide)).trans herr, (hoff _ (by decide)).trans hinfoLo, (hoff _ (by decide)).trans hinfoHi, ?_⟩
    cases es with
    | nil => exact hcount
    | cons y ys =>
      rw [hcounts (by simp), hcount]
      omega
  case cleared =>
    refine ⟨_, exec_errCodeClear_writes hl hw, ?_, ?_, ?_, ?_⟩
    · rw [State.on_dev, Dev.hrd_hwr_off _ _ _ _ _ (by decide), Dev.hrd_hwr_off _ _ _ _ _ (by decide), Dev.hrd_hwr_same]
      rfl
    · rw [State.on_dev, Dev.hrd_hwr_off _ _ _ _ _ (by decide), Dev.hrd_hwr_same]
      rfl
    · rw [State.on_dev, Dev.hrd_hwr_same]
      rfl
    · rw [State.on_dev, Dev.hrd_hwr_off _ _ _ _ _ (by decide), Dev.hrd_hwr_off _ _ _ _ _ (by decide),
        Dev.hrd_hwr_off _ _ _ _ _ (by decide)]

end Sys2Proof.Machine

/-! The release of the UE capture, the aliases of BAR-4, the controls of a block and the resets. -/
namespace Sys2Proof.Machine

/-! ### The capture and the aliases (R472, R580) -/

/-- A cleared write-1-to-clear bit is 0, whatever it was. -/
theorem sub_and_one {o : Nat} (h : o < 2) : o - (o &&& 1) = 0 := by
  rcases Nat.lt_or_ge o 1 with h0 | h1
  · obtain rfl : o = 0 := by omega
    rfl
  · obtain rfl : o = 1 := by omega
    rfl

/-- UE_FIRST_ADDR is a plain register whose VALID a 1 clears. -/
theorem Dev.regWriteCore_ueFirst (d : Dev) (p : Path) :
    d.regWriteCore p 109 0 0xB0 (2 ^ 31) = d.wr .UE_FIRST_ADDR (putBits (d.rd .UE_FIRST_ADDR) 31 1 0) := by
  have hspecial : d.specialWrite p 109 0 0xB0 (2 ^ 31) = none := rfl
  have hrow : rowAt (blkClass 109) 0 0xB0 = some ⟨0, 0xB0, 1, 0, 0, [⟨31, 31, .w1c, 0⟩, ⟨23, 0, .ro, 0⟩]⟩ := by decide
  have hone : bitsOf (2 ^ 31) 31 1 = 1 := by decide
  have hbit : bitsOf (d.hrd 109 0 0xB0) 31 1 - (bitsOf (d.hrd 109 0 0xB0) 31 1 &&& 1) = 0 := sub_and_one (bitsOf_lt ..)
  rw [Dev.regWriteCore, if_neg (by decide), hspecial]
  simp only [Dev.plainWrite, hrow, RegRow.readOnly, List.all_cons, List.foldl_cons, List.foldl_nil, Dev.fieldWrite, hone, hbit]
  rfl

theorem Dev.pageReach_of_hostUp {d : Dev} (hup : d.hostUp = true) (ht : d.pwr.tripped = false) (hr : d.InRun) {b page : Nat}
    (hp : PageAt b page) (hb : b ≠ 74) : d.PageReach .host b page :=
  ⟨⟨by simp [Dev.pathUp, ht, hup], hr⟩, hp, fun h => absurd h hb⟩

/-- In RUN an alias acts at once. -/
theorem exec_bar4AliasWrite_inRun {s : State} (off : Nat) (v : Word) (hl : s.Live) (hr : s.dev.InRun) (hup : s.dev.hostUp = true) :
    exec (.bar4AliasWrite off v) s = .next (s.on (s.dev.aliasWrite off v.toNat)) := by
  rw [exec_bar4AliasWrite, execBar4AliasWrite, State.run_live hl, if_neg (by simp [hup]), Dev.idleExit_inRun hr, Dev.heldAccess_inRun hr,
    ite_self]

/-- The aliases of Table 21-3 and the registers that they stand for. -/
theorem Dev.aliasWrite_register {d : Dev} (hf : d.get .DEV_FATAL_LEVEL ≠ 2) (v : Nat) :
    d.aliasWrite 0x10000 v = d.regWrite .host 3 0 0xAC v ∧ d.aliasWrite 0x10004 v = d.regWrite .host 1 0 0xC8 v ∧
      ∀ n, n < 8 → d.aliasWrite (0x10100 + 4 * n) v = d.regWrite .host 3 1 (0x8C + 16 * n) v := by
  refine ⟨?_, ?_, fun n hn => ?_⟩
  · rw [Dev.aliasWrite, if_neg hf, if_pos rfl]
  · rw [Dev.aliasWrite, if_neg hf, if_neg (by decide), if_pos rfl]
  · rw [Dev.aliasWrite, if_neg hf, if_neg (by omega), if_neg (by omega), if_pos (by omega)]
    have hoff : 0x8C + 4 * (0x10100 + 4 * n - 0x10100) = 0x8C + 16 * n := by omega
    rw [hoff]

/-- HG_DOORBELL, GH_DOORBELL and the consumer register of a ring. -/
theorem Dev.regWriteCore_doorbells (d : Dev) (p : Path) (v : Nat) :
    d.regWriteCore p 3 0 0xAC v = d.evSet 36 ∧ d.regWriteCore p 1 0 0xC8 v = d.evpSet 12 := ⟨rfl, rfl⟩

theorem Dev.regWriteCore_ringCons (d : Dev) (p : Path) (v : Nat) : ∀ n, n < 8 →
    d.regWriteCore p 3 1 (0x8C + 16 * n) v = d.ringConsWrite p n v := by
  intro n hn
  have hoff : ¬ 0x8C + 16 * n < 0x80 := by omega
  have hclass : blkClass 3 = 0x20 := by decide
  have hmod : (0x8C + 16 * n) % 16 = 12 := by omega
  have hn' : (0x8C + 16 * n - 0x80) / 16 = n := by omega
  have hpage : d.hgPageWrite p 1 (0x8C + 16 * n) v = some (d.ringConsWrite p n v) := by
    rw [Dev.hgPageWrite, if_neg (by decide), if_pos (by omega)]
    simp only [hmod, hn', Nat.reduceEqDiff, if_true, if_false]
  have hspecial : d.specialWrite p 3 1 (0x8C + 16 * n) v = some (d.ringConsWrite p n v) := by
    simp only [Dev.specialWrite, hclass, Nat.reduceEqDiff, if_true, if_false, hpage]
  rw [Dev.regWriteCore, if_neg hoff, hspecial]

/-- Settles O3: VALID by its plain register, the aliases by the registers they stand for. -/
theorem captureAndAliasesComplete : Obligations.CaptureAndAliasesComplete := by
  unfold Obligations.CaptureAndAliasesComplete
  intro s p hl hr hf
  refine ⟨fun hup => ?ueFirst, fun hup v => ?aliases⟩
  case ueFirst =>
    have hw : s.dev.PageWrites p 109 0 := ⟨⟨⟨hup, hr⟩, by decide, fun h => absurd h (by decide)⟩, hf⟩
    rw [exec_ueFirstClear, execUeFirstClear, State.run_live hl, Dev.writeAt_writes _ hw (by decide) (by decide),
      Dev.regWrite_core _ hw.1 (by decide) (by decide), Nat.mod_eq_of_lt (by decide), Dev.regWriteCore_ueFirst]
  case aliases =>
    obtain ⟨hhg, hgh, hring⟩ := Dev.aliasWrite_register hf v.toNat
    obtain ⟨hdoorHg, hdoorGh⟩ := Dev.regWriteCore_doorbells s.dev .host v.toNat
    have hreach : ∀ b page, PageAt b page → b ≠ 74 → s.dev.PageReach .host b page := fun b page =>
      Dev.pageReach_of_hostUp hup hl.2 hr
    refine ⟨?_, ?_, fun n hn => ?_⟩
    · rw [exec_bar4AliasWrite_inRun _ v hl hr hup, hhg, Dev.regWrite_core _ (hreach 3 0 (by decide) (by decide)) (by decide) (by decide),
        hdoorHg]
    · rw [exec_bar4AliasWrite_inRun _ v hl hr hup, hgh, Dev.regWrite_core _ (hreach 1 0 (by decide) (by decide)) (by decide) (by decide),
        hdoorGh]
    · rw [exec_bar4AliasWrite_inRun _ v hl hr hup, hring n hn,
        Dev.regWrite_core _ (hreach 3 1 (by decide) (by decide)) (by simp only [offCtrl]; omega) fun h => absurd h.1 (by decide),
        Dev.regWriteCore_ringCons _ _ _ n hn]

/-! ### The controls of a block (R59 to R63) -/

/-- A control command writes back the bits of BLK_CTRL that it does not name. -/
theorem Dev.ctrlWith_bit (d : Dev) (b n m : Nat) (on : Bool) :
    (bitsOf (d.ctrlWith b n on) m 1 == 1) = if m = n then on else d.ctrlBit b m := by
  rw [Dev.ctrlWith]
  split
  next h =>
    rw [h, bitsOf_putBits_same]
    cases on <;> rfl
  next h => rw [bitsOf_putBits_other _ _ _ _ _ _ (by omega), Dev.ctrlBit]

theorem Dev.viaCtrl_writes {d : Dev} {p : Path} {b page : Nat} (h : d.Writes p) (hp : PageAt b page) (n : Nat) (on : Bool) :
    d.viaCtrl p b page n on = d.ctrlWrite b (d.ctrlWith b n on) := by
  obtain ⟨h0, hlt, -⟩ := hp
  rw [Dev.viaCtrl, if_neg (by omega)]
  exact Dev.viaBus_writes h ..

/-- A write of BLK_CTRL without RESET sets freeze, quiesce and enable. -/
theorem Dev.ctrlWrite_ctrlWith {d : Dev} {b n : Nat} (on : Bool) (hn : n ≠ 2) (hreset : d.ctrlBit b 2 = false) :
    d.ctrlWrite b (d.ctrlWith b n on) = ((d.blkFreeze b (if 3 = n then on else d.ctrlBit b 3)).blkQuiesce b
      (if 1 = n then on else d.ctrlBit b 1)).blkEnable b (if 0 = n then on else d.ctrlBit b 0) := by
  have hr := d.ctrlWith_bit b n 2 on
  rw [if_neg (Ne.symm hn), hreset] at hr
  rw [Dev.ctrlWrite, if_neg (by simpa using hr), Dev.ctrlWith_bit, Dev.ctrlWith_bit, Dev.ctrlWith_bit]

/-- RESET goes before the other bits. -/
theorem Dev.ctrlWrite_reset (d : Dev) (b : Nat) : d.ctrlWrite b (d.ctrlWith b 2 true) = d.blockReset b := by
  have hr := d.ctrlWith_bit b 2 2 true
  rw [if_pos rfl] at hr
  rw [Dev.ctrlWrite, if_pos (by simpa using hr)]

/-- Settles O4: a control command is a write of BLK_CTRL or GLOBAL_CTRL, and what is reached later has its conditions. -/
theorem blockControlCompletes : Obligations.BlockControlCompletes := by
  unfold Obligations.BlockControlCompletes
  intro s p b page hl
  refine ⟨fun hw hp => ⟨?reset, fun hreset => ⟨?freeze, ?thaw, ?quiesce, ?enable⟩⟩, fun hw => ⟨?globalSet, ?globalClear⟩,
    fun hp hfr hst hat => ?frozen, fun hb hq hst hwork => ?quiesced, fun hb hst hstreams hturns => ?resetDone, fun hg ha hall => ?allFrozen⟩
  case reset => rw [exec_blockReset, execBlockReset, State.run_live hl, Dev.viaCtrl_writes hw hp, Dev.ctrlWrite_reset]
  case freeze =>
    rw [exec_blkFreeze, execBlkFreeze, State.run_live hl, Dev.viaCtrl_writes hw hp, Dev.ctrlWrite_ctrlWith _ (by decide) hreset]
    rfl
  case thaw =>
    rw [exec_thaw, execThaw, State.run_live hl, Dev.viaCtrl_writes hw hp, Dev.ctrlWrite_ctrlWith _ (by decide) hreset]
    rfl
  case quiesce =>
    rw [exec_blkQuiesce, execBlkQuiesce, State.run_live hl, Dev.viaCtrl_writes hw hp, Dev.ctrlWrite_ctrlWith _ (by decide) hreset]
    rfl
  case enable =>
    rw [exec_blkEnable, execBlkEnable, State.run_live hl, Dev.viaCtrl_writes hw hp, Dev.ctrlWrite_ctrlWith _ (by decide) hreset]
    rfl
  case globalSet => rw [exec_globalFreezeSet, execGlobalFreezeSet, State.run_live hl, Dev.viaReg_writes hw]
  case globalClear => rw [exec_globalFreezeClear, execGlobalFreezeClear, State.run_live hl, Dev.viaReg_writes hw]
  case frozen =>
    obtain ⟨h0, hlt, -⟩ := hp
    rw [exec_frozenReached, execFrozenReached, State.run_live hl, if_neg (by simp [hfr, hst, hat, h0]; omega)]
  case quiesced => rw [exec_quiescedReached, execQuiescedReached, State.run_live hl, if_neg (by simp [hq, hst, hwork]; omega)]
  case resetDone =>
    have hnone : (s.dev.flm.streams.any fun x => x.flume + 6 == b) = false := by simpa using hstreams
    have hdone : (s.dev.flm.turns.any fun t => t.flume + 6 == b && !t.done) = false := by simpa using hturns
    rw [exec_resetComplete, execResetComplete, State.run_live hl]
    simp only [hnone, hdone]
    rw [if_neg (by simp [hst]; omega)]
  case allFrozen => rw [exec_allFrozen, execAllFrozen, State.run_live hl, if_pos ⟨hg, ha, hall⟩]

/-! ### Power-up and the resets (R93, R632, R646, R649) -/

/-- Settles O5: each reset by its own shell, which acts whatever the device does. -/
theorem resetsComplete : Obligations.ResetsComplete := by
  unfold Obligations.ResetsComplete
  intro s straps
  refine ⟨?powerUp, fun ht => ?tripped, fun ht => ?reset, fun hl hr => ?domain, fun core => ?rail, ?clock⟩
  case powerUp => rw [exec_aoPowerUp, execAoPowerUp, State.runAo_next]
  case tripped => rw [exec_devResetAssert, execDevResetAssert, State.runAo_next, if_pos ht]
  case reset => rw [exec_devResetAssert, execDevResetAssert, State.runAo_next, if_neg (by simp [ht])]
  case domain =>
    have hlost : (s.dev.asleep || s.dev.pwr.exiting || decide (s.dev.pwr.entry ≠ 0)) = false := by
      simp [Dev.asleep_inRun hr, hr.2.1, hr.2.2.1]
    rw [exec_aoDomainReset, execAoDomainReset, State.runAo_next]
    simp only [hl.2, hlost, Bool.false_eq_true, if_false, Bool.not_false, Bool.true_and, Bool.or_false]
  case rail => rw [exec_mainRailExcursion, execMainRailExcursion, State.runAo_next]
  case clock => rw [exec_referenceClockLoss, execReferenceClockLoss, State.runAo_next]

end Sys2Proof.Machine

/-! The boot: its stages, each when it is in progress, and the operations of the Boot Sequencer's page (chapter 06). -/
namespace Sys2Proof.Machine

/-! ### A stage in progress -/

theorem Dev.inStage_of {d : Dev} {n : Nat} (h : d.InStage n) (f : Dev → Dev) : d.inStage n f = f d := by
  obtain ⟨⟨hrun, hnext⟩, hbudget⟩ := h
  simp [Dev.inStage, hrun, hnext, hbudget]

/-- A stage that also takes its unit's completion after the budget. -/
theorem Dev.inStage_late {d : Dev} {n : Nat} (h : d.AtStage n) (f : Dev → Dev) : d.inStage n f true = f d := by
  obtain ⟨hrun, hnext⟩ := h
  simp [Dev.inStage, hrun, hnext]

/-! ### Stages 0 to 6 -/

/-- Settles O6: the boot's start by what began it, each stage by its own command in its stage. -/
theorem earlyStagesComplete : Obligations.EarlyStagesComplete := by
  unfold Obligations.EarlyStagesComplete
  intro s hl
  refine ⟨fun ha hp => ?startHigh, fun ha hp => ?startLow, fun ha hi => ?again, fun h => ?ao, fun h absent => ?fuses,
    fun h absent => ?fuseFail, fun h => ⟨fun hc => ?imageUse, fun c hc => ?imageFail, ?noFlash⟩, fun h hp => ?pll, fun h => ?pllFail,
    fun h trained pcs chs => ?hbm, fun h flumes => ⟨?sram, ?sramFail⟩, fun h o len w ho hw hlen hrun => ?fw⟩
  case startHigh => rw [exec_bootStart, execBootStart, State.run_live hl, if_neg (not_not.mpr ha), if_pos hp, if_pos rfl]
  case startLow => rw [exec_bootStart, execBootStart, State.run_live hl, if_neg (not_not.mpr ha), if_pos hp, if_neg (by decide)]
  case again =>
    rw [exec_bootStart, execBootStart, State.run_live hl, if_pos (by omega)]
    simp only [ha, Nat.reduceEqDiff, if_false]
  case ao => rw [exec_stageAoStart, execStageAoStart, State.run_live hl, Dev.inStage_of h]
  case fuses => rw [exec_stageFuses, execStageFuses, State.run_live hl, Dev.inStage_of h, if_neg (by decide)]
  case fuseFail => rw [exec_stageFuses, execStageFuses, State.run_live hl, Dev.inStage_of h, if_pos (by decide), if_pos rfl]
  case imageUse =>
    rw [exec_stageImageVerify, execStageImageVerify, State.run_live hl, Dev.inStage_of h]
    simp only [Bool.not_true, Bool.false_eq_true, if_false, hc]
  case imageFail =>
    rw [exec_stageImageVerify, execStageImageVerify, State.run_live hl, Dev.inStage_of h]
    simp only [Bool.not_true, Bool.false_eq_true, if_false, hc]
  case noFlash =>
    rw [exec_stageImageVerify, execStageImageVerify, State.run_live hl, Dev.inStage_of h]
    simp only [Bool.not_false, if_true]
  case pll =>
    rw [exec_stagePllLock, execStagePllLock, State.run_live hl, Dev.inStage_of h, if_neg (by decide)]
    have hperst : ((s.dev.set .GOV_APPLIED_MHZ (s.dev.bootParam 3 0 0)).set .GOV_APPLIED_MV 750).pins.hostPerst = true := by
      rw [Dev.set_pins, Dev.set_pins, hp]
    dsimp only
    rw [if_pos hperst, Dev.set_trc, Dev.set_trc]
  case pllFail => rw [exec_stagePllLock, execStagePllLock, State.run_live hl, Dev.inStage_of h, if_pos (by decide)]
  case hbm => rw [exec_stageHbmBringup, execStageHbmBringup, State.run_live hl, Dev.inStage_of h]
  case sram =>
    rw [exec_stageSramInit, execStageSramInit, State.run_live hl, Dev.inStage_of h]
    rfl
  case sramFail =>
    rw [exec_stageSramInit, execStageSramInit, State.run_live hl, Dev.inStage_of h]
    rfl
  case fw =>
    rw [exec_stageFwLoad, execStageFwLoad, State.run_live hl, Dev.inStage_of h]
    simp only [ho, hw]
    rw [if_neg (by simp; omega), if_neg hrun]

/-! ### Stages 7 to 13 -/

/-- Settles O7: each stage by its own command, an overrun by the stage's class. -/
theorem lateStagesComplete : Obligations.LateStagesComplete := by
  unfold Obligations.LateStagesComplete
  intro s hl
  refine ⟨fun h hup hrate hwidth fail => ?host, fun h hup hp hover fail => ?hostLate, fun h outs => ?partner, fun h outs mib => ?expander,
    fun h hst => ?lateral, fun h tiles lanes => ?selftest, fun h => ⟨?publish, ?publishFail⟩, fun h => ?ready, fun h hover => ?late3,
    fun h hover => ?late1, fun h hover => ?late11⟩
  case host =>
    rw [exec_stageHostLink, execStageHostLink, State.run_live hl, Dev.inStage_late h.1, if_neg (by simp [h.2]), if_pos hup,
      if_pos ⟨hrate, hwidth⟩]
  case hostLate =>
    rw [exec_stageHostLink, execStageHostLink, State.run_live hl, Dev.inStage_late h, if_pos hover, if_pos (by simp [hup, hp])]
  case partner =>
    rw [exec_stagePartnerPorts, execStagePartnerPorts, State.run_live hl]
    exact congrArg (fun d : Dev => Host.Outcome.next (s.on d)) (Dev.inStage_of h ..)
  case expander =>
    rw [exec_stageExpanderPorts, execStageExpanderPorts, State.run_live hl]
    exact congrArg (fun d : Dev => Host.Outcome.next (s.on d)) (Dev.inStage_of h ..)
  case lateral =>
    have hall : (((stageUnits 10).filter s.dev.attempted).map fun u => s.dev.lstate u.1).all (fun x => x == 6 || x == 8) = true := by
      rw [List.all_map, List.all_eq_true]
      intro u hu
      simpa using hst u hu
    rw [exec_stageLateralLinks, execStageLateralLinks, State.run_live hl, Dev.inStage_late h]
    simp only [hall, Bool.true_or, if_true]
  case selftest => rw [exec_stageSelftest, execStageSelftest, State.run_live hl, Dev.inStage_of h]
  case publish => rw [exec_stageMapPublish, execStageMapPublish, State.run_live hl, Dev.inStage_of h, if_pos rfl]
  case publishFail => rw [exec_stageMapPublish, execStageMapPublish, State.run_live hl, Dev.inStage_of h, if_neg (by decide)]
  case ready => rw [exec_stageReady, execStageReady, State.run_live hl, Dev.inStage_of h]
  case late3 =>
    obtain ⟨hrun, hnext⟩ := h
    rw [exec_stageTimeout, execStageTimeout, State.run_live hl]
    simp only [hrun, hnext, hover]
    rfl
  case late1 =>
    obtain ⟨hrun, hnext⟩ := h
    rw [exec_stageTimeout, execStageTimeout, State.run_live hl]
    simp only [hrun, hnext, hover]
    rfl
  case late11 =>
    obtain ⟨hrun, hnext⟩ := h
    rw [exec_stageTimeout, execStageTimeout, State.run_live hl]
    simp only [hrun, hnext, hover]
    rfl

/-! ### The operations of the Boot Sequencer's page -/

/-- A DEVICE_FATAL device still takes the writes of the Boot Sequencer's page (R596). -/
theorem Dev.viaReg_boot {d : Dev} {p : Path} (h : d.Reach p) {r : Reg} (hr : blkBase r.cls = 2) (v : Nat) (f : Dev → Dev) :
    d.viaReg p r 0 v f = f d := Dev.viaReg_reach h (by simp [Dev.fatalShut, hr]) v f

theorem exec_verdictClear_reach {s : State} {p : Path} (v : Word) (hl : s.Live) (hr : s.dev.Reach p) :
    exec (.verdictClear p v) s = .next (s.on (s.dev.verdictClearWrite p v.toNat)) := by
  rw [exec_verdictClear, execVerdictClear, State.run_live hl, Dev.viaReg_boot hr (by decide)]

theorem exec_bootReboot_reach {s : State} {p : Path} (v : Word) (hl : s.Live) (hr : s.dev.Reach p) :
    exec (.bootReboot p v) s = .next (s.on (s.dev.rebootWrite p v.toNat)) := by
  rw [exec_bootReboot, execBootReboot, State.run_live hl, Dev.viaReg_boot hr (by decide)]

/-- Settles O8: the copy by its outcome, the page's writes by their tests. -/
theorem bootOperationsComplete : Obligations.BootOperationsComplete := by
  unfold Obligations.BootOperationsComplete
  intro s p v hl
  refine ⟨fun hpend => ⟨?copied, ?copyFailed⟩, fun hr => ⟨fun hb => ?busy, fun hb hall => ?clearAll, fun hb hone hix => ?noVerdict,
    fun hb hone hix => ?clearOne, fun hkey => ?badKey, fun hkey hb => ?rebootBusy, fun hkey hb => ?reboot, ?pref⟩⟩
  case copied => rw [exec_ledgerCopyDone, execLedgerCopyDone, State.run_live hl, if_neg hpend]; rfl
  case copyFailed => rw [exec_ledgerCopyDone, execLedgerCopyDone, State.run_live hl, if_neg hpend]; rfl
  case busy => rw [exec_verdictClear_reach v hl hr, Dev.verdictClearWrite, if_pos hb]
  case clearAll => rw [exec_verdictClear_reach v hl hr, Dev.verdictClearWrite, if_neg (by simp [hb]), if_pos hall]
  case noVerdict => rw [exec_verdictClear_reach v hl hr, Dev.verdictClearWrite, if_neg (by simp [hb]), if_neg hone, if_pos hix]
  case clearOne =>
    rw [exec_verdictClear_reach v hl hr, Dev.verdictClearWrite, if_neg (by simp [hb]), if_neg hone, if_neg (by omega)]
    rfl
  case badKey => rw [exec_bootReboot_reach v hl hr, Dev.rebootWrite, if_pos hkey]
  case rebootBusy =>
    rw [exec_bootReboot_reach v hl hr, Dev.rebootWrite, if_neg (not_not.mpr hkey), if_pos (by simp [Dev.rebootOk, hb])]
  case reboot =>
    have hok : s.dev.rebootOk = true := by simp [Dev.rebootOk, hb, Dev.asleep_inRun hr.2, hr.2.2.1, hr.2.2.2.1]
    rw [exec_bootReboot_reach v hl hr, Dev.rebootWrite, if_neg (not_not.mpr hkey), if_neg (by simp [hok])]
    rfl
  case pref => rw [exec_imagePref, execImagePref, State.run_live hl, Dev.viaReg_boot hr (by decide)]; rfl

end Sys2Proof.Machine

/-! Power states: requests, their entry and their end, the events of the power block and the governor (chapter 04). -/
namespace Sys2Proof.Machine

/-! ### Requests (R69 to R73) -/

/-- A request made in RUN whose state is permitted and whose wake time lies ahead. -/
theorem Dev.pwrRequest_ahead {d : Dev} (hr : d.InRun) {t w : Nat} (hp : d.permits t = true) (hw : d.gh.timer < w) :
    (∀ q, d.pwr.pend = some q → d.pwrRequest t w = d.pwrPend { target := min q.target t, wake := min q.wake w, demoted := q.demoted } t) ∧
    (d.pwr.pend = none → d.pwr.cur = none → d.pwrRequest t w = d.pwrNew { target := t, wake := w, demoted := false }) := by
  obtain ⟨-, -, hexit, -⟩ := hr
  have hpre : ¬ (!d.permits t) = true ∧ ¬ w ≤ d.gh.timer ∧ ¬ d.pwr.exiting = true := ⟨by simp [hp], by omega, by simp [hexit]⟩
  refine ⟨fun q hq => ?_, fun hq hc => ?_⟩
  · rw [Dev.pwrRequest, if_neg hpre.1, if_neg hpre.2.1, if_neg hpre.2.2, hq]
  · rw [Dev.pwrRequest, if_neg hpre.1, if_neg hpre.2.1, if_neg hpre.2.2, hq, hc]

/-- Enough residency is left for the state that was asked for. -/
theorem Dev.pwrNew_asked {d : Dev} {t w : Nat} (ht : 2 ≤ t) (hs : d.tooShort t w = false) :
    d.pwrNew { target := t, wake := w, demoted := false } =
      if d.blockers ≠ 0 then d.pwrPend { target := t, wake := w, demoted := false } t else d.pwrEnter { target := t, wake := w, demoted := false } := by
  have hst : d.stateFor { target := t, wake := w, demoted := false } = t := by simp [Dev.stateFor, hs]
  rw [Dev.pwrNew]
  simp only [hst, bne_self_eq_false, Bool.or_false]
  rw [if_neg (by omega)]

theorem exec_pwrReq_writes {s : State} {p : Path} {t : Nat} {c : Instr} (hl : s.Live) (hw : s.dev.Writes p)
    (hc : t = 2 ∧ c = Instr.pwrReqDoze p ∨ t = 3 ∧ c = Instr.pwrReqHold p) :
    exec c s = .next (s.on (s.dev.pwrRequest t (s.dev.rd64 .PWR_WAKE_AT_LO))) := by
  rcases hc with ⟨rfl, rfl⟩ | ⟨rfl, rfl⟩
  · rw [exec_pwrReqDoze, execPwrReqDoze, State.run_live hl, Dev.viaReg_writes hw]; rfl
  · rw [exec_pwrReqHold, execPwrReqHold, State.run_live hl, Dev.viaReg_writes hw]; rfl

/-- Settles O9: a request by its tests in their order, the cancel by what it drops. -/
theorem powerRequestsComplete : Obligations.PowerRequestsComplete := by
  unfold Obligations.PowerRequestsComplete
  intro s p hl hw
  have hrun := hw.1.2
  have hstate : s.dev.get .PWR_STATE_STATE = 0 := hrun.1
  refine ⟨fun t c hc => ?request, ?cancel⟩
  case request =>
    have ht : 2 ≤ t := by rcases hc with ⟨rfl, -⟩ | ⟨rfl, -⟩ <;> decide
    rw [exec_pwrReq_writes hl hw hc]
    refine ⟨fun hp => ?_, fun hp hpast => ?_, fun hp hahead hq hcur hs hb => ?_, fun hp hahead hq hcur hs hb => ?_, fun hp hahead q hq _ => ?_⟩
    · rw [Dev.pwrRequest, if_pos (by simp [hp]), hstate]
    · rw [Dev.pwrRequest, if_neg (by simp [hp]), if_pos hpast, hstate]
    · rw [(Dev.pwrRequest_ahead hrun hp hahead).2 hq hcur, Dev.pwrNew_asked ht hs, if_pos hb]
    · rw [(Dev.pwrRequest_ahead hrun hp hahead).2 hq hcur, Dev.pwrNew_asked ht hs, if_neg (not_not.mpr hb)]
    · rw [(Dev.pwrRequest_ahead hrun hp hahead).1 q hq]
  case cancel =>
    have hwrite : s.dev.pwrReqWrite p 0 = s.dev.pwrCancel := rfl
    rw [exec_pwrReqCancel, execPwrReqCancel, State.run_live hl, Dev.viaReg_writes hw, hwrite, Dev.pwrCancel, hstate]

/-! ### A pending request (R70, R71, R74) -/

/-- Settles O10: the pending request by its tests, HOLD's entry by what its drain waits for. -/
theorem pendingRequestsComplete : Obligations.PendingRequestsComplete := by
  unfold Obligations.PendingRequestsComplete
  intro s hl
  refine ⟨fun r hr => ⟨fun hd => ?demote, fun hd => ?drop, fun hb hp hs => ?enter, fun hb hp hd => ?demoted⟩,
    fun he hstall hin hldv hck hkeep => ⟨fun ht bad => ?t0, fun ht bad => ?entry⟩⟩
  case demote =>
    rw [exec_pendingRequestDemote, execPendingRequestDemote, State.run_live hl]
    simp only [hr, hd, if_true]
  case drop =>
    rw [exec_pendingRequestDrop, execPendingRequestDrop, State.run_live hl]
    simp only [hr, hd, if_true]
    rfl
  case enter =>
    have hkeepIt : s.dev.canDemote r = false ∧ s.dev.mustDrop r = false := by
      refine ⟨?_, by simp [Dev.mustDrop, hs]⟩
      by_contra hc
      simp only [Dev.canDemote, Bool.not_eq_false, Bool.and_eq_true, beq_iff_eq] at hc
      rw [hc.1.1.1] at hs
      simp [hs] at hc
    rw [exec_pendingRequestEnter, execPendingRequestEnter, State.run_live hl]
    simp only [hr, hb, hp, hkeepIt.1, hkeepIt.2, ne_eq, not_true_eq_false, Bool.not_true, Bool.false_eq_true, if_false]
  case demoted =>
    have hdrop : s.dev.mustDrop r = false := by simp [Dev.mustDrop, hd]
    rw [exec_pendingRequestEnter, execPendingRequestEnter, State.run_live hl]
    simp only [hr, hb, hp, hd, hdrop, ne_eq, not_true_eq_false, Bool.not_true, Bool.false_eq_true, if_false, if_true]
    rfl
  case t0 =>
    rw [exec_holdDrainDone, execHoldDrainDone, State.run_live hl, if_neg (by simp [he, hstall, hin, hldv, hck, hkeep]), if_pos ht]
  case entry =>
    rw [exec_holdDrainDone, execHoldDrainDone, State.run_live hl, if_neg (by simp [he, hstall, hin, hldv, hck, hkeep]),
      if_neg (by simp [ht])]
    generalize s.dev.trcHold.keyHold.hgSave = d
    rfl

/-! ### The events of the power block (R90, R666) -/

/-- RUN with every threshold of the junction at 500, 125 degrees, above CATTRIP_IN's 105. -/
def highThresholds : State :=
  { pending := []
    dev := (((Dev.reset.set .THROTTLE_THRESH_ON 500).set .THROTTLE_THRESH_OFF 500).set .GH_TJ_ALARM_TJ 500).set .TJ_PEAK_TJ 500 }

/-- The level that the junction's sensor of PLDM has after a command. -/
def junctionLevel : Out → Option Nat
  | .next t => some (Sparse.get (fun _ => 0) t.dev.mgmt.levels 1)
  | _ => none

/-- Refutes O11: its last clause admits 420 (105 degrees) with thresholds above it, where the sensor's level is 2 and not the 0 that the clause
names. The clause says what happens below 420 only. -/
theorem not_powerEventsComplete : ¬ Obligations.PowerEventsComplete := by
  unfold Obligations.PowerEventsComplete
  intro h
  obtain ⟨-, -, -, -, -, -, hjunction⟩ := h highThresholds
  have hout := congrArg junctionLevel (hjunction (by decide +kernel) 420 0 (by decide +kernel) (by decide) (by decide +kernel)
    (by decide +kernel) (by decide) (by decide +kernel) (by decide +kernel))
  have hlevel : junctionLevel (exec (.tjSample 420 0) highThresholds) = some 2 := by decide +kernel
  rw [hlevel] at hout
  exact absurd hout (by decide +kernel)

end Sys2Proof.Machine

/-! The governor: its update in RUN, and the step that it may apply (chapter 04). -/
namespace Sys2Proof.Machine

theorem clamped_iff (lo hi sh old : Nat) (pinned : Bool) :
    clamped lo hi sh old pinned = true ↔ sh < lo ∨ hi < sh ∨ (¬ pinned = true ∧ (old < lo ∨ hi < old)) := by
  simp [clamped, or_assoc]

theorem Dev.govApply_eq (d : Dev) (mhz mv : Nat) :
    d.govApply mhz mv =
      let e : Dev := { d with pwr := { d.pwr with vidTarget := (mv - 650) / 5 } }
      if d.get .GOV_APPLIED_MHZ < mhz ∧ d.pwr.vid < (mv - 650) / 5 then { e with pwr := { e.pwr with ask := some (mhz, mv) } }
      else e.govSet mhz mv := by
  unfold Dev.govApply
  simp only [Bool.and_eq_true, decide_eq_true_eq]

/-- The clamp count moves when the shadow or, with no pin, the applied pair lies outside its bounds; the shadow's voltage is at least the low
bound by its making. -/
theorem clamped_shadow_iff (lo hi vlo vhi sh v f was : Nat) (pinned : Bool) :
    (clamped lo hi sh f pinned || clamped vlo vhi ((max v vlo : Nat) : Int) was pinned) = true ↔
      sh < lo ∨ hi < sh ∨ vhi < max v vlo ∨ (¬ pinned = true ∧ (f < lo ∨ hi < f ∨ was < vlo ∨ vhi < was)) := by
  rw [Bool.or_eq_true, clamped_iff, clamped_iff]
  have hlow : ¬ max v vlo < vlo := by omega
  tauto

/-! ### The highest step (R84) -/

theorem govStep_bounds (v n : Nat) : (govStep v n = 200 ∨ vOf (govStep v n) ≤ v) ∧ govStep v n ≤ 200 + 50 * n := by
  induction n with
  | zero => exact ⟨.inl rfl, le_refl _⟩
  | succ n ih =>
    rw [govStep]
    split
    next h => exact ⟨.inr h, le_refl _⟩
    next => exact ⟨ih.1, by omega⟩

theorem govStep_highest (v n k : Nat) (hk : k ≤ n) (hv : vOf (200 + 50 * k) ≤ v) : 200 + 50 * k ≤ govStep v n := by
  induction n with
  | zero => rw [Nat.le_zero.mp hk]; exact le_refl _
  | succ n ih =>
    rw [govStep]
    split
    next => omega
    next h =>
      rcases Nat.lt_or_eq_of_le hk with hlt | rfl
      · exact ih (by omega)
      · exact absurd hv h

/-- Settles O50: the update's branches with their tests as propositions, and the step by induction on its index. -/
theorem governorUpdateCompletes : Obligations.GovernorUpdateCompletes := by
  unfold Obligations.GovernorUpdateCompletes
  have hstate : ∀ (d : Dev) p, (d.set .POWER_NOW_POWER p).get .PWR_STATE_STATE = d.get .PWR_STATE_STATE := fun d p =>
    Dev.get_set_other _ _ _ _ _ _ (by decide) (.inl (by decide))
  have hpast : ∀ (d : Dev) p, (d.set .POWER_NOW_POWER p).bootPast 3 = d.bootPast 3 := fun d p => by rw [Dev.bootPast, Dev.set_boot, Dev.bootPast]
  have hdue : ∀ (d : Dev) p, (d.set .POWER_NOW_POWER p).due = d.due := fun d p => by rw [Dev.set_due]
  refine ⟨fun s p hl hc => ?idle, fun s p hl hrun hboot hrunTime => ?update, fun v n => ?step⟩
  case idle =>
    rw [exec_governorUpdate, execGovernorUpdate, State.run_live hl]
    dsimp only
    rw [if_pos]
    rw [hstate, hpast, hdue, Bool.not_eq_true']
    exact hc
  case update =>
    intro o q d cap f hot cool lo hi vlo vhi pin sh t ap mv hsh ht hap hmv a b c out e
    have hdo : ¬ (o.get .PWR_STATE_STATE ≠ 0 ∨ (!o.bootPast 3) = true ∨ o.due.run < 1920) := by
      rw [hstate, hpast, hdue, hrun, hboot]
      simpa using hrunTime
    rw [exec_governorUpdate, execGovernorUpdate, State.run_live hl]
    dsimp only
    rw [if_neg hdo]
    have hif : ∀ x y z : Nat, (if (decide (signed 16 (d.get .THROTTLE_THRESH_ON) ≤ d.pwr.tj) || decide (8 * cap < p)) = true then x
        else if (decide (d.pwr.tj < signed 16 (d.get .THROTTLE_THRESH_OFF)) && decide (p ≤ 8 * (cap - 10))) = true then y else z) =
        if hot then x else if cool then y else z := fun x y z => by
      simp only [Bool.or_eq_true, Bool.and_eq_true, decide_eq_true_eq, hot, cool]
    have hpin : (d.get .GOV_PIN_PIN_EN == 1) = true ↔ pin := beq_iff_eq
    have htarget : (if (d.get .GOV_PIN_PIN_EN == 1) = true then d.get .GOV_PIN_FREQ
        else max (d.get .GOV_FREQ_BOUNDS_LOW) (min (d.get .GOV_FREQ_BOUNDS_HIGH) sh)) = t := by rw [ht]; exact if_congr hpin rfl rfl
    have hvolt : max (vOf ap) (d.get .GOV_VOLT_BOUNDS_LOW) = mv := hmv.symm
    have hshadow : (d.set .GOV_SHADOW_MHZ sh).set .GOV_SHADOW_MV (max (vOf sh) (d.get .GOV_VOLT_BOUNDS_LOW)) = a := rfl
    have happly : a.govApply ap mv = c := by rw [Dev.govApply_eq]
    have hout := clamped_shadow_iff lo hi vlo vhi sh (vOf sh) f (d.get .GOV_APPLIED_MV) (d.get .GOV_PIN_PIN_EN == 1)
    rw [hpin] at hout
    have hlevel : ∀ x : Dev, (if 8 * d.get .POWER_CAP_WATTS < p then x.raise pwrBlk 0 5 else x).sensorLevel 0x20
        (bit01 (decide (8 * d.get .POWER_CAP_WATTS < p))) =
        if 8 * cap < p then (x.raise pwrBlk 0 5).sensorLevel 0x20 1 else x.sensorLevel 0x20 0 := fun x => by
      by_cases hover : 8 * d.get .POWER_CAP_WATTS < p
      · rw [if_pos hover, if_pos hover, decide_eq_true hover, bit01, if_pos rfl]
      · rw [if_neg hover, if_neg hover, decide_eq_false hover, bit01, if_neg Bool.false_ne_true]
    have hq : ({ s.dev.set .POWER_NOW_POWER p with due := { (s.dev.set .POWER_NOW_POWER p).due with run := 0 } } : Dev).govRise = q := rfl
    have hd : q.untie 0xE1 0 = d := rfl
    rw [hq, hd, hif, ← hsh, htarget, ← hap, hvolt, hshadow, happly, hlevel]
    have he : (if q.isTied 0xE1 0 = true then a else if (clamped lo hi sh f (d.get .GOV_PIN_PIN_EN == 1) ||
        clamped vlo vhi ((max (vOf sh) vlo : Nat) : Int) (d.get .GOV_APPLIED_MV) (d.get .GOV_PIN_PIN_EN == 1)) = true then
        (c.bump .GOV_CLAMP_COUNT).raise pwrBlk 0 4 else c) = e := if_congr Iff.rfl rfl (if_congr hout rfl rfl)
    rw [Nat.cast_max] at he
    rw [he]
  case step => exact ⟨(govStep_bounds v n).1, (govStep_bounds v n).2, govStep_highest v n⟩

end Sys2Proof.Machine

/-! The Gauge House's instructions, SEQ steps, events and controls (chapter 05). -/
namespace Sys2Proof.Machine

/-! ### The word that the sequencer is at -/

/-- A command of the Gauge House that is the word at its pc runs that word. -/
theorem State.runOn_ghExec {s : State} {w : Nat} (hu : s.dev.undef = false) (h : s.dev.GhAt w) (m : Nat → Bool) (f : Dev → Nat → Dev)
    (hm : m w = true) : (s.runOn fun d => d.ghExec m f) = .next (s.on (f s.dev w)) := by
  rw [State.runOn_defined hu, ghExec_at h m f hm]

theorem State.runOn_ghStep {s : State} {w : Nat} (hu : s.dev.undef = false) (h : s.dev.GhAt w) (m : Nat → Bool) (f : Dev → Nat → Dev)
    (hm : m w = true) : (s.runOn fun d => d.ghStep m f) = .next (s.on (f s.dev w).ghNext) :=
  State.runOn_ghExec hu h m (fun e v => (f e v).ghNext) hm

/-- A SEQ step in its handler, after the step before it. -/
theorem State.run_seqStepWhen {s : State} {a h prev pos : Nat} (hl : s.Live) (hat : s.dev.GhAt (0x400 + a)) (hh : s.dev.gh.handler = h)
    (hp : s.dev.get .GH_STATUS_SEQ_POS = prev) (ready : Dev → Bool) (hr : ready s.dev = true) (f : Dev → Dev) :
    (s.run fun d => d.seqStepWhen a h prev pos ready f) = .next (s.on (f (s.dev.set .GH_STATUS_SEQ_POS pos).ghNext)) := by
  have hin : ¬ (s.dev.gh.handler ≠ h ∨ s.dev.get .GH_STATUS_SEQ_POS ≠ prev) := by simp [hh, hp]
  rw [State.run_live hl, Dev.seqStepWhen, ghExec_at hat _ _ (by simp), if_neg hin, if_pos hr]

theorem State.run_seqStep {s : State} {a h prev pos : Nat} (hl : s.Live) (hat : s.dev.GhAt (0x400 + a)) (hh : s.dev.gh.handler = h)
    (hp : s.dev.get .GH_STATUS_SEQ_POS = prev) (f : Dev → Dev) :
    (s.run fun d => d.seqStep a h prev pos f) = .next (s.on (f (s.dev.set .GH_STATUS_SEQ_POS pos).ghNext)) := by
  have hin : ¬ (s.dev.gh.handler ≠ h ∨ s.dev.get .GH_STATUS_SEQ_POS ≠ prev) := by simp [hh, hp]
  rw [State.run_live hl, Dev.seqStep, ghExec_at hat _ _ (by simp), if_neg hin]

/-! ### Instructions (Table 5-2) -/

/-- Settles O12: each instruction is the word at the pc. -/
theorem gaugeHouseDataInstructions : Obligations.GaugeHouseDataInstructions := by
  unfold Obligations.GaugeHouseDataInstructions
  intro s w hu hat
  refine ⟨fun h => ?nop, fun h => ?temp, fun h => ?gpin, fun h => ?ldi, fun h hf => ?alu, fun h hf => ?cmp, fun h => ?addi, fun h => ?cmpi,
    fun h he => ?ldc, fun h => ?ld, fun h => ?st, fun h => ?btst⟩
  case nop => exact State.runOn_ghStep hu hat _ _ (by simp [h])
  case temp => exact State.runOn_ghStep hu hat _ _ (by simp [h])
  case gpin => exact State.runOn_ghStep hu hat _ _ (by simp [h])
  case ldi => exact State.runOn_ghStep hu hat _ _ (by simp [ghOp, h])
  case alu =>
    rw [exec_ghAlu, execGhAlu, State.runOn_ghStep hu hat (ghOp 2) _ (by simp [ghOp, h])]
    dsimp only
    rw [if_neg hf]
  case cmp =>
    rw [exec_ghAlu, execGhAlu, State.runOn_ghStep hu hat (ghOp 2) _ (by simp [ghOp, h])]
    dsimp only
    rw [if_pos hf, hf]
  case addi => exact State.runOn_ghStep hu hat _ _ (by simp [ghOp, h])
  case cmpi => exact State.runOn_ghStep hu hat _ _ (by simp [ghOp, h])
  case ldc =>
    have hclean : ¬ (!s.dev.ghRom && s.dev.ecc.contains (7, w % 512)) = true := by rcases he with he | he <;> rw [he] <;> simp
    rw [exec_ldc, execLdc, State.runOn_ghExec hu hat (ghOp 7) _ (by simp [ghOp, h]), if_neg hclean]
  case ld => exact State.runOn_ghStep hu hat _ _ h
  case st => exact State.runOn_ghStep hu hat _ _ h
  case btst => exact State.runOn_ghStep hu hat _ _ (by simp [ghOp, h])

/-- Settles O13: each instruction is the word at the pc; the stack, the events, the channel or the scrub decides its branch. -/
theorem gaugeHouseControlInstructions : Obligations.GaugeHouseControlInstructions := by
  unfold Obligations.GaugeHouseControlInstructions
  intro s w hu hat
  refine ⟨fun h => ?stop, fun h a t hs => ?ret, fun h hs => ?retEmpty, fun h hs => ?call, fun h hs => ?callFull, fun h => ?branch,
    fun h he => ?waitNow, fun h he => ?wait, fun h ha => ?wake, fun h => ?evt, fun h => ?sig, fun h hn => ?tcset, fun h hn => ?tcset0,
    fun h hn => ?tcclr, fun h => ?tcrd, fun h => ?tnow, fun h => ?tnowh, fun h hst hx hj hseg ce ue => ?scrub,
    fun h hst hx hj ce ue => ?scrubBusy, fun h hst ce ue => ?scrubAwake⟩
  case stop => exact State.runOn_ghExec hu hat _ _ (by simp [h])
  case ret =>
    rw [exec_ghRet, execGhRet, State.runOn_ghExec hu hat (· == 0x200) _ (by simp [h]), hs]
  case retEmpty =>
    rw [exec_ghRet, execGhRet, State.runOn_ghExec hu hat (· == 0x200) _ (by simp [h]), hs]
  case call =>
    rw [exec_ghCall, execGhCall, State.runOn_ghExec hu hat (ghOp 6) _ (by simp [ghOp, h]), if_neg (by omega)]
  case callFull =>
    rw [exec_ghCall, execGhCall, State.runOn_ghExec hu hat (ghOp 6) _ (by simp [ghOp, h]), if_pos hs]
  case branch => exact State.runOn_ghExec hu hat _ _ (by simp [ghOp, h])
  case waitNow =>
    rw [exec_ghWait, execGhWait, State.runOn_ghExec hu hat (fun w => w / 8 == 0x140) _ (by simp [h]), if_pos he]
  case wait =>
    rw [exec_ghWait, execGhWait, State.runOn_ghExec hu hat (fun w => w / 8 == 0x140) _ (by simp [h]), if_neg (not_not.mpr he)]
  case wake =>
    rw [exec_ghWake, execGhWake, State.runOn_ghExec hu hat (· == 0x300) _ (by simp [h]), if_pos ha]
  case evt => exact State.runOn_ghStep hu hat _ _ (by simp [h])
  case sig => exact State.runOn_ghStep hu hat _ _ (by simp [h])
  case tcset =>
    rw [exec_tcset, execTcset, State.runOn_ghExec hu hat (ghTimer 0) _ h, if_neg hn]
  case tcset0 =>
    rw [exec_tcset, execTcset, State.runOn_ghExec hu hat (ghTimer 0) _ h, if_pos hn]
  case tcclr =>
    rw [exec_tcclr, execTcclr, State.runOn_ghExec hu hat (ghTimer 1) _ h, if_neg hn]
  case tcrd => exact State.runOn_ghStep hu hat _ _ h
  case tnow => exact State.runOn_ghStep hu hat _ _ h
  case tnowh => exact State.runOn_ghStep hu hat _ _ h
  case scrub =>
    rw [exec_scrub, execScrub, State.runOn_ghExec hu hat (fun w => w / 8 == 0xA0) _ (by simp [h]),
      if_neg (by simp [hst, hx]), if_neg (by simp [hj]), if_neg (Nat.not_le.mpr hseg)]
  case scrubBusy =>
    rw [exec_scrub, execScrub, State.runOn_ghExec hu hat (fun w => w / 8 == 0xA0) _ (by simp [h]),
      if_neg (by simp [hst, hx]), if_pos (Option.isSome_iff_ne_none.mpr hj)]
  case scrubAwake =>
    rw [exec_scrub, execScrub, State.runOn_ghExec hu hat (fun w => w / 8 == 0xA0) _ (by simp [h]), if_pos (.inl hst)]

/-! ### The power sequences (Table 5-3) -/

/-- Settles O14: each SEQ step stands in its handler at its place. -/
theorem powerSequenceSteps : Obligations.PowerSequenceSteps := by
  unfold Obligations.PowerSequenceSteps
  intro s a h prev pos hl hat hh hp e
  refine ⟨?vret, ?sre, ?linklp, ?fastoff, ?faston, ?vopr, ?srx, ?linkup, ?resume⟩
  case vret => rintro ⟨⟩; exact State.run_seqStep hl hat hh hp _
  case sre => rintro ⟨⟩; exact State.run_seqStep hl hat hh hp _
  case linklp => rintro ⟨⟩ l1; exact State.run_seqStep hl hat hh hp _
  case fastoff => rintro ⟨⟩ hr; exact State.run_seqStepWhen hl hat hh hp _ hr _
  case faston => rintro ⟨⟩; exact State.run_seqStep hl hat hh hp _
  case vopr => rintro ⟨⟩; exact State.run_seqStep hl hat hh hp _
  case srx => rintro ⟨⟩ bad; exact State.run_seqStep hl hat hh hp _
  case linkup => rintro ⟨⟩; exact State.run_seqStep hl hat hh hp _
  case resume => rintro ⟨⟩ hr ue; exact State.run_seqStepWhen hl hat hh hp _ hr _

/-! ### Events and controls (R94 to R101, R109) -/

theorem Dev.ghBusy_inRun {d : Dev} (h : d.InRun) (hp : d.pwr.pend = none) : d.ghBusy = false := by
  obtain ⟨hst, hentry, hexit, -⟩ := h
  simp [Dev.ghBusy, Dev.asleep, hst, hentry, hexit, hp]

/-- Settles O15: each event by its condition, the writes of GH_CTRL where it is not busy. -/
theorem gaugeHouseEventsComplete : Obligations.GaugeHouseEventsComplete := by
  unfold Obligations.GaugeHouseEventsComplete
  intro s hl
  refine ⟨fun p hw => ⟨fun v => ?doorbell, fun hrun hp => ?runSet, fun hrun hp => ?runClear⟩, fun n h1 h7 ha ht => ?timer,
    fun m hm hv hf => ?waitMatch, fun j hj ht => ?scrubDone, fun t he hat hb => ?lateEntry, fun t he hx hst hat hb => ?lateExit⟩
  case doorbell => rw [exec_ghDoorbell, execGhDoorbell, State.run_live hl, Dev.viaReg_writes hw]
  case runSet =>
    rw [exec_ghProgRunSet, execGhProgRunSet, State.run_live hl, Dev.viaReg_writes hw, Dev.ghCtrlWrite,
      if_neg (by simp [Dev.ghBusy_inRun hw.1.2 hp]), if_neg (by simp [hrun]), if_pos rfl]
  case runClear =>
    rw [exec_ghProgRunClear, execGhProgRunClear, State.run_live hl, Dev.viaReg_writes hw, Dev.ghCtrlWrite,
      if_neg (by simp [Dev.ghBusy_inRun hw.1.2 hp]), if_neg (Ne.symm hrun), if_neg (by decide)]
  case timer => rw [exec_ghTimerFire, execGhTimerFire, State.runOn_defined hl.1, if_pos ⟨h1, h7, ha, ht⟩]
  case waitMatch =>
    rw [exec_ghWaitMatch, execGhWaitMatch, State.runOn_defined hl.1]
    simp only [hm]
    rw [if_neg (by simp [hv, hf])]
  case scrubDone =>
    rw [exec_scrubDone, execScrubDone, State.runOn_defined hl.1]
    simp only [hj]
    rw [if_neg (by omega)]
  case lateEntry => rw [exec_ghBudgetExceeded, execGhBudgetExceeded, State.runOn_defined hl.1, if_pos ⟨he, by simp [hat, hb]⟩]
  case lateExit =>
    rw [exec_ghBudgetExceeded, execGhBudgetExceeded, State.runOn_defined hl.1, if_neg (by omega), if_pos ⟨hx, hst, by simp [hat, hb]⟩]

end Sys2Proof.Machine

/-! The Headgate's instructions, alone in their slots, its issue and its controls (chapters 07 and 08). -/
namespace Sys2Proof.Machine

/-! ### Slot A (Table 8-3) -/

/-- A command that is the opcode in slot A of a bundle with nothing else runs that instruction and commits. -/
theorem State.run_onlyA {s : State} {w opc : Nat} (hl : s.Live) (hat : s.dev.HgAt (Bundle.onlyA w)) (hon : s.dev.predOn ⟨w, 0⟩ = true)
    (hop : (⟨w, 0⟩ : Slot).opc = opc) :
    (s.run fun d => d.bundle 0 fun x => x.ab opc) =
      .next (s.on (((s.dev.runOf (Bundle.onlyA w)).int ⟨w, 0⟩ 0 s.dev).hgDone (s.dev.get .HG_PC_PC + 1))) := by
  rw [State.run_live hl, bundle_onlyA hat hon _ (by simp [Bundle.ab, Bundle.onlyA, hop])]

/-- Settles O16: slot A alone, by its opcode. -/
theorem headgateIntegerInstructions : Obligations.HeadgateIntegerInstructions := by
  unfold Obligations.HeadgateIntegerInstructions
  intro s w hl hat hon a d g done
  have hsmp : (s.dev.runOf (Bundle.onlyA w)).smp.getD 0 none = s.dev.sample a := rfl
  refine ⟨fun hop => ?nop, fun hop => ?alu, fun hop => ?alui, fun hop => ?ext, fun hop => ?dep, fun hop => ?cnt, fun hop => ?cmp,
    fun hop => ?cmpi, fun hop => ?plog, fun hop => ?sel, fun hop => ?mfp, fun hop => ?mtp, fun hop => ?mpeek, fun hop hs => ?mpopEmpty,
    fun hop f v hs => ?mpop, fun hop => ?mfev, fun hop => ?mfh, fun hop t ht => ?hqry, fun hop => ?aot⟩
  case nop =>
    have hopc : (⟨w, 0⟩ : Slot).opc = 0 := by rw [hop]; exact opc_nop 0
    have hsel : ((Bundle.onlyA w).ab 0 || (Bundle.onlyA w).inC 0) = true := by simp [Bundle.ab, Bundle.onlyA, hopc]
    rw [exec_hgNop, execHgNop, State.run_live hl, bundle_onlyA hat hon _ hsel, hop, int_nop]
  case alu => exact (State.run_onlyA hl hat hon hop).trans (by simp only [Run.int, a, hop, if_true, if_false, Nat.reduceEqDiff]; rfl)
  case alui => exact (State.run_onlyA hl hat hon hop).trans (by simp only [Run.int, a, hop, if_true, if_false, Nat.reduceEqDiff]; rfl)
  case ext => exact (State.run_onlyA hl hat hon hop).trans (by simp only [Run.int, a, hop, if_true, if_false, Nat.reduceEqDiff]; rfl)
  case dep => exact (State.run_onlyA hl hat hon hop).trans (by simp only [Run.int, a, hop, if_true, if_false, Nat.reduceEqDiff]; rfl)
  case cnt => exact (State.run_onlyA hl hat hon hop).trans (by simp only [Run.int, a, hop, if_true, if_false, Nat.reduceEqDiff]; rfl)
  case cmp => exact (State.run_onlyA hl hat hon hop).trans (by simp only [Run.int, a, hop, if_true, if_false, Nat.reduceEqDiff]; rfl)
  case cmpi => exact (State.run_onlyA hl hat hon hop).trans (by simp only [Run.int, a, hop, if_true, if_false, Nat.reduceEqDiff]; rfl)
  case plog => exact (State.run_onlyA hl hat hon hop).trans (by simp only [Run.int, a, hop, if_true, if_false, Nat.reduceEqDiff]; rfl)
  case sel => exact (State.run_onlyA hl hat hon hop).trans (by simp only [Run.int, a, hop, if_true, if_false, Nat.reduceEqDiff]; rfl)
  case mfp => exact (State.run_onlyA hl hat hon hop).trans (by simp only [Run.int, a, hop, if_true, if_false, Nat.reduceEqDiff]; rfl)
  case mtp => exact (State.run_onlyA hl hat hon hop).trans (by simp only [Run.int, a, hop, if_true, if_false, Nat.reduceEqDiff]; rfl)
  case mpeek => exact (State.run_onlyA hl hat hon hop).trans (by simp only [Run.int, a, hop, if_true, if_false, Nat.reduceEqDiff]; rfl)
  case mpopEmpty =>
    refine (State.run_onlyA hl hat hon hop).trans ?_
    change s.dev.sample ⟨w, 0⟩ = _ at hs
    simp only [Run.int, a, hop, if_true, if_false, Nat.reduceEqDiff, Run.mpop, hsmp, hs]
    rfl
  case mpop =>
    refine (State.run_onlyA hl hat hon hop).trans ?_
    change s.dev.sample ⟨w, 0⟩ = _ at hs
    simp only [Run.int, a, hop, if_true, if_false, Nat.reduceEqDiff, Run.mpop, hsmp, hs]
    rfl
  case mfev => exact (State.run_onlyA hl hat hon hop).trans (by simp only [Run.int, a, hop, if_true, if_false, Nat.reduceEqDiff]; rfl)
  case mfh => exact (State.run_onlyA hl hat hon hop).trans (by simp only [Run.int, a, hop, if_true, if_false, Nat.reduceEqDiff]; rfl)
  case hqry =>
    refine (State.run_onlyA hl hat hon hop).trans ?_
    change (s.dev.runOf (Bundle.onlyA w)).tag ⟨w, 0⟩ = some t at ht
    simp only [Run.int, a, hop, if_true, if_false, Nat.reduceEqDiff, Run.hqry, ht, Option.bind_some]
    rfl
  case aot => exact (State.run_onlyA hl hat hon hop).trans (by simp only [Run.int, a, hop, if_true, if_false, Nat.reduceEqDiff]; rfl)

/-! ### Slot B (Table 8-4) -/

/-- A command that is slot B's instruction, in a bundle with nothing else, and neither WAIT nor HALT: it runs, and the pc goes to its target or
one further. -/
theorem State.run_onlyB {s : State} {w : Nat} (hl : s.Live) (hat : s.dev.HgAt (Bundle.onlyB w)) (hon : s.dev.predOn ⟨w, 0⟩ = true)
    (sel : Bundle → Bool) (hsel : sel (Bundle.onlyB w) = true) (h43 : (⟨w, 0⟩ : Slot).opc ≠ 0x43) (h47 : (⟨w, 0⟩ : Slot).opc ≠ 0x47) :
    (s.run fun d => d.bundle 0 sel) = .next (s.on (((s.dev.runOf (Bundle.onlyB w)).ctl ⟨w, 0⟩ s.dev).hgDone
      ((s.dev.runOf (Bundle.onlyB w)).target.getD (s.dev.get .HG_PC_PC + 1)))) := by
  rw [State.run_live hl, bundle_onlyB hat hon sel hsel, if_neg h43, if_neg h47]

/-- A branch is one of three opcodes (R179). -/
theorem Dev.target_onlyB {d : Dev} {w : Nat} (hon : d.predOn ⟨w, 0⟩ = true) :
    (d.runOf (Bundle.onlyB w)).target =
      if (⟨w, 0⟩ : Slot).opc = 0x40 ∨ (⟨w, 0⟩ : Slot).opc = 0x41 then some ((⟨w, 0⟩ : Slot).imm % 16384)
      else if (⟨w, 0⟩ : Slot).opc = 0x42 then some (d.gReg (⟨w, 0⟩ : Slot).a).toNat
      else none := by
  have hslot : (d.runOf (Bundle.onlyB w)).slotOn ⟨w, 0⟩ = true := hon
  have hb : (d.runOf (Bundle.onlyB w)).x.b = ⟨w, 0⟩ := rfl
  rw [Run.target, hb, if_neg (by simp [hslot])]
  rfl

/-- Slot B's instruction that is no branch: the pc goes one further. -/
theorem State.run_onlyB_next {s : State} {w opc : Nat} (hl : s.Live) (hat : s.dev.HgAt (Bundle.onlyB w)) (hon : s.dev.predOn ⟨w, 0⟩ = true)
    (hop : (⟨w, 0⟩ : Slot).opc = opc) (hno : opc ∉ [0x40, 0x41, 0x42, 0x43, 0x47]) (sel : Bundle → Bool)
    (hsel : sel (Bundle.onlyB w) = true) :
    (s.run fun d => d.bundle 0 sel) =
      .next (s.on (((s.dev.runOf (Bundle.onlyB w)).ctl ⟨w, 0⟩ s.dev).hgDone (s.dev.get .HG_PC_PC + 1))) := by
  simp only [List.mem_cons, List.not_mem_nil, or_false, not_or] at hno
  obtain ⟨h40, h41, h42, h43, h47⟩ := hno
  rw [State.run_onlyB hl hat hon sel hsel (by rwa [hop]) (by rwa [hop]), Dev.target_onlyB hon, hop, if_neg (by simp [h40, h41]), if_neg h42,
    Option.getD_none]

theorem inB_onlyB {w opc : Nat} (h : (⟨w, 0⟩ : Slot).opc = opc) : (Bundle.onlyB w).inB opc = true := by
  simp [Bundle.inB, Bundle.onlyB, h]

@[simp] theorem Dev.wr64_hg (d : Dev) (r : Reg) (v i : Nat) : (d.wr64 r v i).hg = d.hg := by rw [Dev.wr64, Dev.wr_hg, Dev.wr_hg]
@[simp] theorem Dev.wr64_gh (d : Dev) (r : Reg) (v i : Nat) : (d.wr64 r v i).gh = d.gh := by rw [Dev.wr64, Dev.wr_gh, Dev.wr_gh]
@[simp] theorem Dev.setBit_gh (d : Dev) (r : Reg) (n : Nat) (v : Bool) (i : Nat) : (d.setBit r n v i).gh = d.gh := by
  rw [Dev.setBit, Dev.wr_gh]

@[simp] theorem Dev.hgCount_hg (d : Dev) (pc : Nat) : (d.hgCount pc).hg = d.hg := by rw [Dev.hgCount, Dev.set_hg, Dev.add64, Dev.wr64_hg]

@[simp] theorem Dev.tmrClear_gh (d : Dev) (n : Nat) : (d.tmrClear n).gh = d.gh := rfl

/-- Settles O17: slot B alone, by its opcode; a branch by its target, WAIT and HALT by what they do after the commit. -/
theorem headgateControlInstructions : Obligations.HeadgateControlInstructions := by
  unfold Obligations.HeadgateControlInstructions
  intro s w hl hat hon b d g pc n done
  refine ⟨fun hop => ?br, fun hop => ?bl, fun hop => ?bx, fun hop hhalt => ?wait, fun hop => ?evclr, fun hop hf => ?tmrSet,
    fun hop hf => ?tmrClr, fun hop => ?signal, fun hop => ?halt, fun hop => ?sleep, fun hop t ht => ?habort, fun hop => ?hclr⟩
  case br =>
    refine (State.run_onlyB hl hat hon _ (inB_onlyB hop) (by rw [hop]; decide) (by rw [hop]; decide)).trans ?_
    rw [Dev.target_onlyB hon]
    simp only [Run.ctl, Run.int, b, hop, if_true, if_false, Nat.reduceEqDiff, true_or]
    rfl
  case bl =>
    refine (State.run_onlyB hl hat hon _ (inB_onlyB hop) (by rw [hop]; decide) (by rw [hop]; decide)).trans ?_
    rw [Dev.target_onlyB hon]
    simp only [Run.ctl, Run.int, b, hop, if_true, if_false, Nat.reduceEqDiff, or_true]
    rfl
  case bx =>
    refine (State.run_onlyB hl hat hon _ (inB_onlyB hop) (by rw [hop]; decide) (by rw [hop]; decide)).trans ?_
    rw [Dev.target_onlyB hon]
    simp only [Run.ctl, Run.int, b, hop, if_true, if_false, Nat.reduceEqDiff, or_self]
    rfl
  case wait =>
    have hkept : ∀ m, (((s.dev.hgCount (s.dev.get .HG_PC_PC + 1)).wr64 .HG_WAIT_MASK_LO m).setHg hgWAITING).hg = s.dev.hg := fun m => by
      rw [Dev.setHg, Dev.set_hg, Dev.wr64_hg, Dev.hgCount_hg]
    rw [exec_hgWait, execHgWait, State.run_live hl, bundle_onlyB hat hon _ (inB_onlyB hop), if_pos hop, Run.wait]
    rw [hkept, if_neg (fun h => Bool.false_ne_true (hhalt.symm.trans h))]
    rfl
  case evclr =>
    exact (State.run_onlyB_next hl hat hon hop (by decide) _ (inB_onlyB hop)).trans (by
      simp only [Run.ctl, Run.int, b, hop, if_true, if_false, Nat.reduceEqDiff]; rfl)
  case tmrSet =>
    have hsel : ((Bundle.onlyB w).inB 0x45 && (Bundle.onlyB w).b.f == 0) = true := by
      rw [inB_onlyB hop, Bool.true_and, beq_iff_eq]; exact hf
    have hnow : (((d.wr64 (.HG_TMR_LO n) (g b.a).toNat).setBit .HG_TMR_ARMED n true).tmrClear n).gh = d.gh := by
      rw [Dev.tmrClear_gh, Dev.setBit_gh, Dev.wr64_gh]
    change (⟨w, 0⟩ : Slot).f = 0 at hf
    refine (State.run_onlyB_next hl hat hon hop (by decide) _ hsel).trans ?_
    simp only [Run.ctl, Run.int, b, hop, if_true, if_false, Nat.reduceEqDiff, hf, Run.tmrSet]
    change done (if (g b.a).toNat ≤ (((d.wr64 (.HG_TMR_LO n) (g b.a).toNat).setBit .HG_TMR_ARMED n true).tmrClear n).gh.timer then _ else _) = _
    rw [hnow]
    rfl
  case tmrClr =>
    have hsel : ((Bundle.onlyB w).inB 0x45 && (Bundle.onlyB w).b.f == 1) = true := by
      rw [inB_onlyB hop, Bool.true_and, beq_iff_eq]; exact hf
    change (⟨w, 0⟩ : Slot).f = 1 at hf
    refine (State.run_onlyB_next hl hat hon hop (by decide) _ hsel).trans ?_
    simp only [Run.ctl, Run.int, b, hop, if_true, if_false, Nat.reduceEqDiff, hf, one_ne_zero]
    rfl
  case signal =>
    exact (State.run_onlyB_next hl hat hon hop (by decide) _ (inB_onlyB hop)).trans (by
      simp only [Run.ctl, Run.int, b, hop, if_true, if_false, Nat.reduceEqDiff]; rfl)
  case halt =>
    rw [exec_halt, execHalt, State.run_live hl, bundle_onlyB hat hon _ (inB_onlyB hop), if_neg (by rw [hop]; decide), if_pos hop]
  case sleep =>
    refine (State.run_onlyB_next hl hat hon hop (by decide) _ (inB_onlyB hop)).trans ?_
    simp only [Run.ctl, Run.int, b, hop, if_true, if_false, Nat.reduceEqDiff, Run.sleep]
    rw [Dev.hgDone, if_pos]
    · rfl
    · rw [Dev.hgCount_hg]; rfl
  case habort =>
    refine (State.run_onlyB_next hl hat hon hop (by decide) _ (inB_onlyB hop)).trans ?_
    change (s.dev.runOf (Bundle.onlyB w)).tag ⟨w, 0⟩ = some t at ht
    simp only [Run.ctl, Run.int, b, hop, if_true, if_false, Nat.reduceEqDiff, Run.habort, ht]
    rfl
  case hclr =>
    exact (State.run_onlyB_next hl hat hon hop (by decide) _ (inB_onlyB hop)).trans (by
      simp only [Run.ctl, Run.int, b, hop, if_true, if_false, Nat.reduceEqDiff]; rfl)

/-! ### Slot C (Table 8-5) -/

/-- The memory stage lets a load with no error in its words, and an access of the register view that finds a register, go on. -/
theorem Run.stageM_onlyC {d : Dev} {w c1 : Nat} (ws : List Nat) (hon : d.predOn ⟨w, c1⟩ = true)
    (hld : (⟨w, c1⟩ : Slot).opc = 0x80 →
      d.eccIn 3 (((d.gReg (⟨w, c1⟩ : Slot).a).toNat + c1) % 2 ^ 64) (⟨w, c1⟩ : Slot).size = none)
    (hview : (⟨w, c1⟩ : Slot).opc = 0x82 ∨ (⟨w, c1⟩ : Slot).opc = 0x83 →
      targetOf (viewOff (((d.gReg (⟨w, c1⟩ : Slot).a).toNat + c1) % 2 ^ 64)) ≠ .hole) :
    (d.runOf (Bundle.onlyC w c1)).stageM ws false = (d.runOf (Bundle.onlyC w c1)).finish ws := by
  have hslot : (d.runOf (Bundle.onlyC w c1)).slotOn ⟨w, c1⟩ = true := hon
  have hc : (d.runOf (Bundle.onlyC w c1)).x.c = ⟨w, c1⟩ := rfl
  have hd : (d.runOf (Bundle.onlyC w c1)).d = d := rfl
  have ha : (d.runOf (Bundle.onlyC w c1)).addr ⟨w, c1⟩ = ((d.gReg (⟨w, c1⟩ : Slot).a).toNat + c1) % 2 ^ 64 := rfl
  simp only [Run.stageM, hc, hd, ha, hslot, Bool.not_true, Bool.false_eq_true, if_false]
  split
  next h80 => rw [hld h80]
  next => rw [if_neg fun h => hview (.inl h.1) h.2, if_neg fun h => hview (.inr h.1) h.2]

/-- A command that is slot C's instruction, in a bundle with nothing else, and not a store into the register view. -/
theorem State.run_onlyC {s : State} {w c1 opc : Nat} (hl : s.Live) (hat : s.dev.HgAt (Bundle.onlyC w c1))
    (hon : s.dev.predOn ⟨w, c1⟩ = true) (hop : (⟨w, c1⟩ : Slot).opc = opc)
    (hld : opc = 0x80 →
      s.dev.eccIn 3 (((s.dev.gReg (⟨w, c1⟩ : Slot).a).toNat + c1) % 2 ^ 64) (⟨w, c1⟩ : Slot).size = none)
    (hview : opc = 0x82 → targetOf (viewOff (((s.dev.gReg (⟨w, c1⟩ : Slot).a).toNat + c1) % 2 ^ 64)) ≠ .hole)
    (hfence : opc = 0x86 → s.dev.hg.stv = 0) (hstv : opc ≠ 0x83) :
    (s.run fun d => d.bundle 0 fun x => x.inC opc) =
      .next (s.on (((s.dev.runOf (Bundle.onlyC w c1)).mem ⟨w, c1⟩ s.dev).hgDone (s.dev.get .HG_PC_PC + 1))) := by
  subst hop
  have hsel : (Bundle.onlyC w c1).inC (⟨w, c1⟩ : Slot).opc = true := by simp [Bundle.inC, Bundle.onlyC]
  rw [State.run_live hl, bundle_at hat _ hsel, Run.stageM_onlyC _ hon hld (fun h => hview (h.resolve_right hstv)),
    finish_onlyC hat hon _ hfence hstv]

/-- The same for an instruction that meets nothing of the memory stage. -/
theorem State.run_onlyC_free {s : State} {w c1 opc : Nat} (hl : s.Live) (hat : s.dev.HgAt (Bundle.onlyC w c1))
    (hon : s.dev.predOn ⟨w, c1⟩ = true) (hop : (⟨w, c1⟩ : Slot).opc = opc) (hno : opc ∉ [0x80, 0x82, 0x83, 0x86]) :
    (s.run fun d => d.bundle 0 fun x => x.inC opc) =
      .next (s.on (((s.dev.runOf (Bundle.onlyC w c1)).mem ⟨w, c1⟩ s.dev).hgDone (s.dev.get .HG_PC_PC + 1))) := by
  simp only [List.mem_cons, List.not_mem_nil, or_false, not_or] at hno
  obtain ⟨h80, h82, h83, h86⟩ := hno
  exact State.run_onlyC hl hat hon hop (fun h => absurd h h80) (fun h => absurd h h82) (fun h => absurd h h86) h83

/-- Settles O18: slot C alone, by its opcode and the size of its access; the answers by what waits for them. -/
theorem headgateMemoryInstructions : Obligations.HeadgateMemoryInstructions := by
  unfold Obligations.HeadgateMemoryInstructions
  intro s hl
  refine ⟨fun w c1 hat hon => ?slotC, fun hs => ?fenceDone, fun gd v rest hq hx => ?ldvResponse, fun gd t wake hs => ?sleepAnswer⟩
  case slotC =>
    intro c d g a v done
    refine ⟨fun hop he h16 hf => ?ldZero, fun hop he h16 hf => ?ldSign, fun hop he h16 => ?ldPair, fun hop h16 => ?st, fun hop h16 => ?stPair,
      fun hop hv hd => ?ldv, fun hop hv => ?stv, fun hop => ?movw, fun hop => ?movp, fun hop hz => ?fence⟩
    case ldZero =>
      refine (State.run_onlyC hl hat hon hop (fun _ => he) nofun nofun (by decide)).trans ?_
      have hf' : ¬ 8 ≤ (⟨w, c1⟩ : Slot).f := Nat.not_le.mpr hf
      change (⟨w, c1⟩ : Slot).size ≠ 16 at h16
      simp only [Run.mem, c, hop, if_true, Run.ld, h16, hf', if_false]
      rfl
    case ldSign =>
      refine (State.run_onlyC hl hat hon hop (fun _ => he) nofun nofun (by decide)).trans ?_
      change 8 ≤ (⟨w, c1⟩ : Slot).f at hf
      change (⟨w, c1⟩ : Slot).size ≠ 16 at h16
      simp only [Run.mem, c, hop, if_true, Run.ld, h16, hf, if_false]
      rfl
    case ldPair =>
      refine (State.run_onlyC hl hat hon hop (fun _ => he) nofun nofun (by decide)).trans ?_
      change (⟨w, c1⟩ : Slot).size = 16 at h16
      simp only [Run.mem, c, hop, if_true, Run.ld, h16]
      rfl
    case st =>
      refine (State.run_onlyC_free hl hat hon hop (by decide)).trans ?_
      change (⟨w, c1⟩ : Slot).size ≠ 16 at h16
      simp only [Run.mem, c, hop, Nat.reduceEqDiff, if_true, if_false, Run.st, h16]
      rfl
    case stPair =>
      refine (State.run_onlyC_free hl hat hon hop (by decide)).trans ?_
      change (⟨w, c1⟩ : Slot).size = 16 at h16
      simp only [Run.mem, c, hop, Nat.reduceEqDiff, if_true, if_false, Run.st, h16]
      rfl
    case ldv =>
      intro r
      refine (State.run_onlyC hl hat hon hop nofun (fun _ => hv) nofun (by decide)).trans ?_
      change (⟨w, c1⟩ : Slot).d ≠ 0 at hd
      have haddr : (s.dev.runOf (Bundle.onlyC w c1)).addr ⟨w, c1⟩ = a := rfl
      have hr : (s.dev.viewWake (viewOff a)).busRead .host (viewOff a) (⟨w, c1⟩ : Slot).size = r := rfl
      simp only [Run.mem, c, hop, Nat.reduceEqDiff, if_true, if_false]
      rw [Run.ldv, haddr, hr, if_neg hd]
    case stv =>
      intro e m
      change (⟨w, c1⟩ : Slot).opc = 0x83 at hop
      have hsel : (Bundle.onlyC w c1).inC 0x83 = true := by simp [Bundle.inC, Bundle.onlyC, hop]
      have hmem : (s.dev.runOf (Bundle.onlyC w c1)).mem ⟨w, c1⟩ (s.dev.setD true) = m := by
        have haddr : (s.dev.runOf (Bundle.onlyC w c1)).addr ⟨w, c1⟩ = a := rfl
        have hval : ((s.dev.runOf (Bundle.onlyC w c1)).gb ⟨w, c1⟩).toNat = v := rfl
        have he : ((s.dev.setD true).viewWake (viewOff a)).busWrite .host (viewOff a) (⟨w, c1⟩ : Slot).size
            (v % 2 ^ (8 * (⟨w, c1⟩ : Slot).size)) = e := rfl
        simp only [Run.mem, hop, Nat.reduceEqDiff, if_true, if_false]
        rw [Run.stv, haddr, hval, he]
      rw [exec_stv, execStv, State.run_live hl, bundle_at hat _ hsel,
        Run.stageM_onlyC _ hon (fun h => absurd (hop.symm.trans h) (by decide)) (fun _ => hv), finish_store hat hon _ hop, hmem]
      split <;> rfl
    case movw =>
      exact (State.run_onlyC_free hl hat hon hop (by decide)).trans (by
        simp only [Run.mem, c, hop, Nat.reduceEqDiff, if_true, if_false]; rfl)
    case movp =>
      exact (State.run_onlyC_free hl hat hon hop (by decide)).trans (by
        simp only [Run.mem, c, hop, Nat.reduceEqDiff, if_true, if_false]; rfl)
    case fence =>
      exact (State.run_onlyC hl hat hon hop nofun nofun (fun _ => hz) (by decide)).trans (by
        simp only [Run.mem, c, hop, Nat.reduceEqDiff, if_false]; rfl)
  case fenceDone =>
    have hidle : ({ s.dev with hg := { s.dev.hg with stv := 0 } } : Dev).hg.stall = none := hs
    rw [exec_fenceDone, execFenceDone, State.run_live hl, Dev.unstall, hidle]
  case ldvResponse =>
    rw [exec_ldvResponse, execLdvResponse, State.run_live hl]
    simp only [hq, hx, Bool.false_eq_true, if_false]
  case sleepAnswer =>
    rw [exec_sleepAnswer, execSleepAnswer, State.run_live hl]
    simp only [hs]

end Sys2Proof.Machine

/-! The Headgate's issue, exceptions, controls, rings and tasks (chapters 07 and 08). -/
namespace Sys2Proof.Machine

/-! ### Issue, the illegal bundle and STEP -/

/-- A fault of decode is the bundle's own where its words are clean and no breakpoint stands at it. -/
theorem Dev.faultD_illegal {d : Dev} {pc n : Nat} {x : Bundle} (he : d.eccIn (if pc < 4096 then 1 else 2) (64 * pc) 64 = none)
    (hb : d.breakAt pc = false) (hx : x.illegal = some n) : d.faultD pc x = some (⟨n, 0x0200, none⟩, none) := by
  rw [Dev.faultD, he]
  simp only [hb, Bool.false_eq_true, if_false, hx, Option.map_some]

/-- A command that selects no bundle leaves the core as it is. -/
theorem Dev.bundle_unselected (d : Dev) (ue : Nat) : (d.bundle ue fun _ => false) = d := by
  rw [Dev.bundle]
  exact if_pos (by rw [Bool.not_false, Bool.or_true])

/-- Settles O19: the issue by the room in the task table, the illegal bundle by its fault at decode, STEP by the core's state. -/
theorem headgateIssueAndExceptions : Obligations.HeadgateIssueAndExceptions := by
  unfold Obligations.HeadgateIssueAndExceptions
  intro s hl d pc
  refine ⟨fun hdr w1 w2 w3 i hat hon hi => ?issue, fun x hat hon hi hc => ?stall, fun q i hq hwhy hi => ?release,
    fun x n hrun hx hldv he hb hill => ?illegal, fun p ue hw hst => ?step, fun p ue hw hst => ?stepRefused⟩
  case issue =>
    have hsel : (Bundle.onlyD hdr w1 w2 w3).issues = true := by
      rw [Run.dOn, Bool.and_eq_true] at hon
      exact hon.1
    intro p
    rw [exec_issue, execIssue, State.run_live hl, bundle_onlyD hat hon hi _ hsel]
    rfl
  case stall =>
    have hsel : x.issues = true := by
      rw [Run.dOn, Bool.and_eq_true] at hon
      exact hon.1
    have hslot : (d.runOf x).slotOn (d.runOf x).x.c = false := hc
    have hfull : (d.runOf x).d.freeSlot.isNone = true := by rw [Option.isNone_iff_eq_none]; exact hi
    rw [exec_issue, execIssue, State.run_live hl, bundle_at hat _ hsel, Run.stageM, if_pos (by rw [hslot]; rfl), Run.finish,
      if_neg (by rw [hslot]; simp), if_pos (by rw [hon, hfull]; rfl)]
    rfl
  case release =>
    have hroom : ¬ s.dev.freeSlot.isNone = true := by rw [hi]; simp
    rw [exec_issueStallRelease, execIssueStallRelease, State.run_live hl, if_neg hroom, Dev.unstall, hq]
    dsimp only
    rw [if_neg (not_not.mpr hwhy)]
  case illegal =>
    change Bundle.ofWords (s.dev.bundleAt (s.dev.get .HG_PC_PC)) = x at hx
    change (s.dev.hg.ldv.any fun e => x.names.contains e.1) = false at hldv
    have hsel : (!s.dev.canRun || !x.illegal.isSome) = false := by rw [hrun, hill]; rfl
    have hbit : ¬ bitsOf 0 0 1 = 1 := by decide
    have hbad : s.dev.noStall.faultD (s.dev.get .HG_PC_PC) x = some (⟨n, 0x0200, none⟩, none) := Dev.faultD_illegal he hb hill
    rw [exec_illegalBundle, execIllegalBundle, State.run_live hl, Dev.bundle]
    simp only [hx, hsel, hldv, hbit, Bool.false_eq_true, if_false, hbad]
    rfl
  case step =>
    have hgo : s.dev.hgCtrlWrite p 4 = s.dev.hgGo pc true := by
      rw [Dev.hgCtrlWrite, if_pos (by decide), if_neg (by decide), if_neg (by decide), Dev.hgStep, if_pos hst]
    have hsel : (s.dev.hgState != hgRUNNING) = true := by rw [hst]; decide
    rw [exec_hgStep, execHgStep, State.run_live hl, Dev.viaReg_writes hw, hgo, hsel]
  case stepRefused =>
    have hgo : s.dev.hgCtrlWrite p 4 = s.dev.errWr p hgb 0 0x80 0x0211 4 := by
      rw [Dev.hgCtrlWrite, if_pos (by decide), if_neg (by decide), if_neg (by decide), Dev.hgStep, hst, if_neg (by decide), if_neg (by decide)]
    have hsel : (s.dev.hgState != hgRUNNING) = false := by rw [hst]; decide
    rw [exec_hgStep, execHgStep, State.run_live hl, Dev.viaReg_writes hw, hgo, hsel, Dev.bundle_unselected]

/-! ### Controls, rings, tasks -/

/-- HG_CTRL with its START bit alone, and with its HALT_REQ bit alone. -/
theorem Dev.hgCtrlWrite_start (d : Dev) (p : Path) : d.hgCtrlWrite p 1 = d.hgStart p 1 := by
  rw [Dev.hgCtrlWrite, if_neg (by decide), if_neg (by decide), if_pos (by decide)]

theorem Dev.hgCtrlWrite_halt (d : Dev) (p : Path) : d.hgCtrlWrite p 2 = d.hgHaltReq := by
  rw [Dev.hgCtrlWrite, if_neg (by decide), if_pos (by decide), if_neg (by decide)]

/-- Settles O20: each control by the core's state, each ring by its space, the tasks' dispatch by their engine. -/
theorem headgateControlsComplete : Obligations.HeadgateControlsComplete := by
  unfold Obligations.HeadgateControlsComplete
  intro s hl
  dsimp only
  refine ⟨fun p hw => ⟨fun hst => ?start, fun hst => ?startRefused, fun hst => ?haltWaiting, fun hst h1 h2 h3 h4 => ?haltRunning, fun v => ?doorbell,
      fun n v hn hroom => ?cons, fun n v hn hover => ?consRefused, fun n size v hn => ?config, fun off v hst hlock hoff hal => ?imem,
      fun tag htag => ?abort, ?abortAll⟩,
    fun n hn ha hf ht => ?timer, fun hst hfr hp he hm hstep => ?waitEnd,
    fun t ht hst hsent hfr hsl hfirst => ⟨fun hpres hobj => ?dispatch, fun hpres ue => ?dispatchAbsent⟩⟩
  case start =>
    rw [exec_hgStart, execHgStart, State.run_live hl, Dev.viaReg_writes hw, Dev.hgCtrlWrite_start, Dev.hgStart, if_pos hst]
  case startRefused =>
    have hno : ¬ (s.dev.hgState = hgRESET ∨ s.dev.hgState = hgHALTED ∨ s.dev.hgState = hgFAULTED) := by
      rcases hst with h | h <;> rw [h] <;> decide
    rw [exec_hgStart, execHgStart, State.run_live hl, Dev.viaReg_writes hw, Dev.hgCtrlWrite_start, Dev.hgStart, if_neg hno]
  case haltWaiting =>
    rw [exec_hgHaltReq, execHgHaltReq, State.run_live hl, Dev.viaReg_writes hw, Dev.hgCtrlWrite_halt, Dev.hgHaltReq, if_pos hst]
    rfl
  case haltRunning =>
    have hno : ¬ s.dev.hgState = hgWAITING := by rw [hst]; decide
    have hend : s.dev.atBundleEnd = true := by simp [Dev.atBundleEnd, h1, h2, h3, h4]
    rw [exec_hgHaltReq, execHgHaltReq, State.run_live hl, Dev.viaReg_writes hw, Dev.hgCtrlWrite_halt, Dev.hgHaltReq, if_neg hno,
      if_pos ⟨hst, hend⟩]
  case doorbell => rw [exec_hgDoorbell, execHgDoorbell, State.run_live hl, Dev.viaReg_writes hw, Dev.hgDoorbell]
  case cons =>
    rw [exec_ringConsWrite, execRingConsWrite, State.run_live hl, if_neg (by omega), Dev.viaReg_writes hw, Dev.ringConsWrite,
      if_neg (Nat.not_lt.mpr hroom)]
  case consRefused =>
    rw [exec_ringConsWrite, execRingConsWrite, State.run_live hl, if_neg (by omega), Dev.viaReg_writes hw, Dev.ringConsWrite, if_pos hover]
  case config => rw [exec_ringConfigWrite, execRingConfigWrite, State.run_live hl, if_neg (by omega), Dev.viaReg_writes hw]
  case imem =>
    have haddr : off / 4 * 4 % 0x100000 = off := by omega
    have hup : ¬ (!s.dev.pathUp p || s.dev.get .DEV_FATAL_LEVEL == 2) = true := by simp [hw.1.1, hw.2]
    have hcode : s.dev.imemWrite p off v.toNat = (s.dev.st spImem off 4 v.toNat).eccWrite (if off < 0x40000 then 1 else 2) (off / 4) := by
      have hhalted : ¬ (!(s.dev.hgState == hgRESET || s.dev.hgState == hgHALTED || s.dev.hgState == hgFAULTED)) = true := by
        simp [hst]
      have hopen : ¬ (off < 0x40000 ∧ s.dev.get .HG_IMEM_LOCK_LOCK = 1) := fun h => hlock.elim (by omega) fun hl' => hl' h.2
      rw [Dev.imemWrite, if_neg hhalted, if_neg hopen, if_neg (by decide)]
    rw [exec_imemWindowWrite, execImemWindowWrite, State.run_live hl]
    dsimp only
    rw [if_neg hup, haddr, Dev.heldAccess_inRun hw.1.2, hcode]
  case abort =>
    have hbit : ¬ bitsOf tag 31 1 = 1 := by
      rw [bitsOf, Nat.div_eq_of_lt (by omega)]
      decide
    rw [exec_taskAbort, execTaskAbort, State.run_live hl, Dev.viaReg_writes hw, Nat.mod_eq_of_lt htag, Dev.taskAbortWrite, if_neg hbit,
      Nat.mod_eq_of_lt htag]
  case abortAll =>
    rw [exec_taskAbortAll, execTaskAbortAll, State.run_live hl, Dev.viaReg_writes hw, Dev.taskAbortWrite, if_pos (by decide)]
  case timer =>
    have hno : ¬ (3 < n ∨ (!s.dev.bit .HG_TMR_ARMED n) = true ∨ bitsOf s.dev.hg.fired n 1 = 1 ∨ s.dev.gh.timer < s.dev.rd64 (.HG_TMR_LO n)) := by
      rw [ha, hf]
      simpa [hn] using ht
    rw [exec_hgTimerFire, execHgTimerFire, State.run_live hl, if_neg hno, Dev.tmrFire]
  case waitEnd =>
    have hno : ¬ (s.dev.hgState ≠ hgWAITING ∨ s.dev.frozen hgb = true ∨ s.dev.get .PWR_STATE_STATE = 3 ∨ s.dev.pwr.entry ≠ 0 ∨
        s.dev.evWord &&& s.dev.waitMask = 0) := by
      rintro (h | h | h | h | h)
      · exact h hst
      · exact Bool.false_ne_true (hfr.symm.trans h)
      · exact hp h
      · exact h he
      · exact hm h
    have hstep' : ¬ (s.dev.hg.stepping && s.dev.hg.kept.isNone) = true := by rw [hstep]; simp
    rw [exec_hgWaitEnd, execHgWaitEnd, State.run_live hl, if_neg hno, if_neg hstep']
  case dispatch =>
    rw [exec_taskDispatch, execTaskDispatch, State.run_live hl, ht]
    dsimp only
    rw [if_neg (by simp [hst, hsent, hfr, hsl, hfirst]), if_neg (by simp [hpres]), if_pos hobj]
  case dispatchAbsent =>
    rw [exec_taskDispatch, execTaskDispatch, State.run_live hl, ht]
    dsimp only
    rw [if_neg (by simp [hst, hsent, hfr, hsl, hfirst]), if_pos (by simp [hpres])]

end Sys2Proof.Machine

/-! The Allotment tasks, admission and the Pool Manager (chapters 09 to 11). -/
namespace Sys2Proof.Machine

/-! ### Allotment tasks (Table 10-3) -/

/-- An Allotment task that is ready runs on its object. -/
theorem Dev.allotTask_ready {d : Dev} {t : Task} {o : Obj} {op : Nat} (h : d.AllotReady t o op) (g : Dev → Task → Obj → Dev) :
    d.allotTask t.tag op g = g (d.acceptTask t.tag) t o := by
  obtain ⟨hsent, hfr, hen, hw1, hw2, hw3, hhome, hobj⟩ := h
  have hw2bad : (if op = 2 ∨ op = 4 then bitsOf t.w2 48 16 != 0 else t.w2 != 0) = false := by
    split at hw2
    next hop => rw [if_pos hop, hw2]; rfl
    next hop => rw [if_neg hop, hw2]; rfl
  rw [Dev.allotTask, hsent]
  dsimp only
  rw [if_neg (by simp [hfr, hen]), if_neg (by simp [hw1, hw2bad, hw3]), if_neg (by simp [hhome]), hobj]

theorem Obj.busy_iff (o : Obj) :
    o.busy = true ↔ o.state = oCOMPRESSING ∨ o.state = oLIFTING ∨ o.state = oDRAINING ∨ o.state = oRECOMPUTING := by
  simp [Obj.busy, or_assoc]

/-- Settles O21: each task by its object's state, a waiting REARM by what it still waits for. -/
theorem allotmentTasksComplete : Obligations.AllotmentTasksComplete := by
  unfold Obligations.AllotmentTasksComplete
  intro s hl
  dsimp only
  refine ⟨fun t o hr hst => ?toSealed, fun t o hr hst => ?sealRefused, fun t o hr hst => ?openGate, fun t o hr hst => ?openRefused,
    fun t o hr hst => ?drop, fun t o hr hst => ?rearmBusy, fun t o hr h1 h2 h3 h4 hhome => ?rearm,
    fun h o tag mb step hfr ho hre hbusy => ?applyBusy, fun h o tag mb step e hfr ho hre hbusy hrefs hhome => ?apply,
    fun h o ho hev hst hc hrefs hp hf4 hf5 => ?evict, fun h o ho hh hst hrefs hlift hdrain hnamed => ?release⟩
  case toSealed => rw [exec_seal, execSeal, State.run_live hl, Dev.allotTask_ready hr, if_pos hst]
  case sealRefused => rw [exec_seal, execSeal, State.run_live hl, Dev.allotTask_ready hr, if_neg hst]
  case openGate => rw [exec_openGate, execOpenGate, State.run_live hl, Dev.allotTask_ready hr, if_pos hst]
  case openRefused => rw [exec_openGate, execOpenGate, State.run_live hl, Dev.allotTask_ready hr, if_neg hst]
  case drop => rw [exec_drop, execDrop, State.run_live hl, Dev.allotTask_ready hr, if_pos hst]
  case rearmBusy => rw [exec_rearm, execRearm, State.run_live hl, Dev.allotTask_ready hr, if_pos ((Obj.busy_iff o).mpr hst)]
  case rearm =>
    have hidle : ¬ o.busy = true := fun h => (Obj.busy_iff o).mp h |>.elim h1 fun h => h.elim h2 fun h => h.elim h3 h4
    rw [exec_rearm, execRearm, State.run_live hl, Dev.allotTask_ready hr, if_neg hidle]
    dsimp only
    rw [if_neg (by rw [Option.isNone_iff_eq_none, ← Ne, ← Option.isSome_iff_ne_none]; exact hhome)]
  case applyBusy =>
    rw [exec_rearmApply, execRearmApply, State.run_live hl, if_neg (by simp [hfr]), Dev.rearmApply, ho]
    dsimp only
    rw [hre]
    exact congrArg (fun x => Host.Outcome.next (s.on x)) (if_pos hbusy)
  case apply =>
    rw [exec_rearmApply, execRearmApply, State.run_live hl, if_neg (by simp [hfr]), Dev.rearmApply, ho]
    dsimp only
    rw [hre]
    dsimp only
    rw [if_neg (by simp [hbusy]), if_neg (by simp [hrefs]), hhome]
  case evict =>
    rw [exec_deferredEvictionStart, execDeferredEvictionStart, State.run_live hl, ho]
    dsimp only
    rw [if_pos (by simp [hev, hst, hc, hrefs, hp, hf4, hf5])]
  case release =>
    rw [exec_retiredRelease, execRetiredRelease, State.run_live hl, Dev.retiredRelease, ho]
    dsimp only
    rw [if_pos (by simp [hh, hst, hrefs, hlift, hdrain, hnamed])]

/-! ### Admission (R201 to R215) -/

/-- The service at its start: its checks, and then the parts that it comes to. -/
theorem exec_admitPlan_start {s : State} (hl : s.Live) (hruns : s.dev.admRuns = true) (hjob : s.dev.plan.job = none)
    (hop : s.dev.admOpcode ≠ 2) (img : Option (List Byte)) (parts : Nat) :
    exec (.admitPlan img parts) s = .next (s.on ((s.dev.admStart img).admGo parts)) := by
  rw [exec_admitPlan, execAdmit, State.run_live hl, if_neg (by simp [hruns]), hjob]
  dsimp only
  rw [if_neg hop]

/-- One part of the service's work. -/
theorem exec_admitPlan_part {s : State} (hl : s.Live) (hruns : s.dev.admRuns = true) {j : AdmJob} (hjob : s.dev.plan.job = some j)
    (img : Option (List Byte)) : exec (.admitPlan img 1) s = .next (s.on (s.dev.admPart j)) := by
  have hgo : s.dev.admGo 1 = s.dev.admPart j := by
    rw [Dev.admGo, hjob]
    dsimp only
    rw [Dev.admGo]
  rw [exec_admitPlan, execAdmit, State.run_live hl, if_neg (by simp [hruns]), hjob]
  dsimp only
  rw [hgo]

/-- A service that has ended goes no further. -/
theorem Dev.admEnd_admGo {d : Dev} (hjob : d.plan.job = none) (r : Reply) (entry n : Nat) : (d.admEnd r entry).admGo n = d.admEnd r entry :=
  admGo_idle n (by rw [admEnd_plan, hjob])

theorem Dev.admFetch_plan (d : Dev) : d.admFetch.plan = d.plan := by rw [Dev.admFetch, Dev.emit_plan]

/-- ADMIT whose image is asked for: all the checks before it have passed. -/
theorem Dev.admStart_reads {d : Dev} (h1 : d.admOpcode = 1) (ha : d.plan.admitted = false) (hb : d.admBadCmd = false) (hr : d.admReads = true)
    (img : Option (List Byte)) : d.admStart img = match img with
      | none => d.admFetch.admEnd (Reply.bare 0x12) 0
      | some b => match imgFault (b.take (d.adm 0x10 4)) (d.adm 0x10 4) with
        | some (cause, sect) => d.admFetch.admEnd { Reply.bare 0x11 with cause := cause, sect := sect } 0
        | none => d.admFetch.admJudged (b.take (d.adm 0x10 4)) (d.admFetch.admJudge (b.take (d.adm 0x10 4)) [] 1) := by
  rw [Dev.admStart, if_neg (not_not.mpr h1), if_neg (by simp [ha]), if_neg (by simp [hb]), if_neg (by simp [hr])]
  rfl

/-- Settles O22: the service's start by its checks in their order, its parts by where it stands. -/
theorem admissionCompletes : Obligations.AdmissionCompletes := by
  unfold Obligations.AdmissionCompletes
  intro s hl hruns
  dsimp only
  refine ⟨fun hjob parts => ⟨fun img h1 h2 => ?opcode, fun img h1 ha => ?admitted, fun img h1 ha hb => ?badCmd, fun img h1 ha hb hr => ?link,
    fun h1 ha hb hr => ?readFault, fun b cause sect h1 ha hb hr hf => ?imageFault, fun b h1 ha hb hr hf => ?judged, fun h2 ha => ?unloadNone,
    fun h2 ha ht => ?unloadBusy, fun h2 ha ht => ?unload⟩,
    fun img j hjob => ⟨fun h0 hseq hm => ?again, fun h0 hseq hm => ?unstable, fun h8 h0 => ?part, fun h8 => ?done⟩⟩
  case opcode => rw [exec_admitPlan_start hl hruns hjob h2, Dev.admStart, if_pos h1, Dev.admEnd_admGo hjob]
  case admitted =>
    rw [exec_admitPlan_start hl hruns hjob (by omega), Dev.admStart, if_neg (not_not.mpr h1), if_pos ha, Dev.admEnd_admGo hjob]
  case badCmd =>
    rw [exec_admitPlan_start hl hruns hjob (by omega), Dev.admStart, if_neg (not_not.mpr h1), if_neg (by simp [ha]), if_pos hb,
      Dev.admEnd_admGo hjob]
  case link =>
    rw [exec_admitPlan_start hl hruns hjob (by omega), Dev.admStart, if_neg (not_not.mpr h1), if_neg (by simp [ha]), if_neg (by simp [hb]),
      if_pos (by simp [hr]), Dev.admEnd_admGo hjob]
  case readFault =>
    rw [exec_admitPlan_start hl hruns hjob (by omega), Dev.admStart_reads h1 ha hb hr]
    dsimp only
    rw [Dev.admEnd_admGo (by rw [Dev.admFetch_plan, hjob])]
  case imageFault =>
    rw [exec_admitPlan_start hl hruns hjob (by omega), Dev.admStart_reads h1 ha hb hr]
    dsimp only
    rw [hf]
    dsimp only
    rw [Dev.admEnd_admGo (by rw [Dev.admFetch_plan, hjob])]
  case judged =>
    rw [exec_admitPlan_start hl hruns hjob (by omega), Dev.admStart_reads h1 ha hb hr]
    dsimp only
    rw [hf]
    dsimp only
    rw [Dev.admGo]
  case unloadNone =>
    rw [exec_unload, execUnload, State.run_live hl, if_neg (by simp [hruns, hjob, h2]), if_pos (by simp [ha])]
  case unloadBusy =>
    rw [exec_unload, execUnload, State.run_live hl, if_neg (by simp [hruns, hjob, h2]), if_neg (by simp [ha]), if_pos (by simp [ht])]
  case unload =>
    rw [exec_unload, execUnload, State.run_live hl, if_neg (by simp [hruns, hjob, h2]), if_neg (by simp [ha]), if_neg (by simp [ht])]
  case again => rw [exec_admitPlan_part hl hruns hjob, Dev.admPart, if_pos ⟨h0, hseq⟩, if_neg (Nat.not_le.mpr hm)]
  case unstable => rw [exec_admitPlan_part hl hruns hjob, Dev.admPart, if_pos ⟨h0, hseq⟩, if_pos hm]
  case part => rw [exec_admitPlan_part hl hruns hjob, Dev.admPart, if_neg fun h => h.2 (h0 h.1), if_pos h8]
  case done => rw [exec_admitPlan_part hl hruns hjob, Dev.admPart, if_neg (by omega), if_neg (by omega)]

/-! ### The Pool Manager (R250 to R266) -/

/-- A Pool Manager's task that is ready runs. -/
theorem Dev.poolTask_ready {d : Dev} {t : Task} {op : Nat} (h : d.PoolReady t op) (g : Dev → Task → Dev) :
    d.poolTask t.tag op g = g (d.acceptTask t.tag) t := by
  obtain ⟨hsent, hfr, hen, hbad⟩ := h
  rw [Dev.poolTask, hsent]
  dsimp only
  rw [if_neg (by simp [hfr, hen]), if_neg (by simp [hbad])]

/-- Settles O23: the tasks by their tier and the room there is, the loop by its pin, a stall by what waits. -/
theorem poolCompletes : Obligations.PoolCompletes := by
  unfold Obligations.PoolCompletes
  intro s hl d
  refine ⟨fun t hr ht => ?evictLower, fun t hr ht => ?evictT1, fun t hr => ?reserve, fun hfr => ?grant, fun pt dir => ?arbitration,
    fun hsl hrun htied hpin => ?age, fun hsl f c slot x hx hst => ?stream, fun hsl h hst => ?drain, fun hsl h c hc hst => ?chain⟩
  case evictLower => rw [exec_evict, execEvict, State.run_live hl, Dev.poolTask_ready hr, if_neg ht]
  case evictT1 => rw [exec_evict, execEvict, State.run_live hl, Dev.poolTask_ready hr, if_pos ht]
  case reserve =>
    intro e room
    refine ⟨fun hroom hq => ?fits, fun hsvc hq => ?quota, fun hroom hsvc hq => ?refused, fun hroom hsvc => ?waits⟩
    case fits =>
      rw [exec_reserve, execReserve, State.run_live hl, Dev.poolTask_ready hr, Dev.tryReserve,
        if_neg (fun h => Bool.false_ne_true ((hq h.1).symm.trans h.2)), if_pos hroom]
    case quota => rw [exec_reserve, execReserve, State.run_live hl, Dev.poolTask_ready hr, Dev.tryReserve, if_pos ⟨hsvc, hq⟩]
    case refused =>
      rw [exec_reserve, execReserve, State.run_live hl, Dev.poolTask_ready hr, Dev.tryReserve,
        if_neg (fun h => Bool.false_ne_true (hq.symm.trans h.2)), if_neg hroom, if_pos hsvc]
    case waits =>
      rw [exec_reserve, execReserve, State.run_live hl, Dev.poolTask_ready hr, Dev.tryReserve, if_neg (by omega), if_neg hroom,
        if_neg (by omega), if_neg Bool.false_ne_true]
  case grant => rw [exec_allocationGrant, execAllocationGrant, State.run_live hl, if_neg (by rw [show s.dev.frozen 5 = false from hfr]; simp)]
  case arbitration => rw [exec_arbitrationGrant, execArbitrationGrant, State.run_live hl]
  case age =>
    have hnot : ¬ (s.dev.asleep = true ∨ s.dev.pool.ageRun < 19200) := by rw [show s.dev.asleep = false from hsl]; simpa using hrun
    have hpinned : (s.dev.get .AGE_PIN_PIN_EN == 1) = false := by rw [show s.dev.get .AGE_PIN_PIN_EN = 0 from hpin]; rfl
    intro a lo hi sh u e g
    rw [exec_ageLoopUpdate, execAgeLoopUpdate, State.run_live hl, if_neg hnot]
    dsimp only
    rw [show s.dev.isTied 0x31 0 = false from htied, hpinned, if_neg Bool.false_ne_true, if_neg Bool.false_ne_true, Bool.not_false,
      Bool.true_and]
  case stream =>
    rw [exec_engineStallExpiry, execEngineStallExpiry, State.run_live hl, if_neg (by rw [show s.dev.asleep = false from hsl]; simp)]
    dsimp only
    rw [show s.dev.stream? (f, c, slot) = some x from hx]
    exact congrArg (fun x => Host.Outcome.next (s.on x)) (if_pos hst)
  case drain =>
    rw [exec_engineStallExpiry, execEngineStallExpiry, State.run_live hl, if_neg (by rw [show s.dev.asleep = false from hsl]; simp)]
    exact congrArg (fun x => Host.Outcome.next (s.on x)) (if_pos hst)
  case chain =>
    rw [exec_engineStallExpiry, execEngineStallExpiry, State.run_live hl, if_neg (by rw [show s.dev.asleep = false from hsl]; simp)]
    dsimp only
    rw [show (s.dev.chains.find? fun c => c.handle == h) = some c from hc]
    exact congrArg (fun x => Host.Outcome.next (s.on x)) (if_pos hst)

end Sys2Proof.Machine

/-! The Flume's streams and its context commands (chapter 12). -/
namespace Sys2Proof.Machine

/-! ### Streams (R272 to R291) -/

/-- A stream task that is ready: refused with its check's cause, or started. -/
theorem Dev.acceptStream_ready {d : Dev} {t : Task} {c op : Nat} (h : d.StreamReady t c op) :
    d.acceptStream t.tag op = match d.checkSpec (t.spec c) with
      | some cause => (if cause = cHandleStale then d.staleHandle (t.spec c).obj else d).refuse t.tag cause
      | none => match ((d.acceptTask t.tag).startStream (t.spec c)).2 with
        | some cause => ((d.acceptTask t.tag).startStream (t.spec c)).1.refuse t.tag cause
        | none => ((d.acceptTask t.tag).startStream (t.spec c)).1.issueAll t.inst := by
  obtain ⟨hsent, hctx, hen, hfr, hbad⟩ := h
  rw [Dev.acceptStream, hsent]
  dsimp only
  rw [hctx]
  dsimp only
  rw [if_neg (by simp [hen, hfr]), if_neg (by simp [hbad])] <;> rfl

theorem exec_stream {s : State} {op : Nat} {cmd : Nat → Instr} (hl : s.Live)
    (hcmd : (op = 1 ∧ cmd = Instr.park) ∨ (op = 2 ∧ cmd = Instr.lift) ∨ (op = 3 ∧ cmd = Instr.compress) ∨ (op = 4 ∧ cmd = Instr.observe))
    (tag : Nat) : exec (cmd tag) s = .next (s.on (s.dev.acceptStream tag op)) := by
  rcases hcmd with ⟨rfl, rfl⟩ | ⟨rfl, rfl⟩ | ⟨rfl, rfl⟩ | ⟨rfl, rfl⟩
  · rw [exec_park, execPark, State.run_live hl]
  · rw [exec_lift, execLift, State.run_live hl]
  · rw [exec_compress, execCompress, State.run_live hl]
  · rw [exec_observe, execObserve, State.run_live hl]

/-- A read of a stream of an object, of a tier that answers or faults at once. -/
theorem exec_transferRead {s : State} {f c slot : Nat} {x : Stream} {o : Obj} {fault : Bool} (hl : s.Live)
    (hx : (s.dev.ctxUse f c).stream? (f, c, slot) = some x) (ho : (s.dev.ctxUse f c).obj? x.handle = some o)
    (hout : x.nextRead.isSome = true) (h3 : x.src.tier = 3 → fault = true) (h4 : x.src.tier ≠ 4) :
    exec (.transferComplete f c slot false fault) s = .next (s.on (
      if fault = true ∧ x.src.tier = 3 then ((s.dev.ctxUse f c).pageFault x false o).issueAll f
      else (((s.dev.ctxUse f c).readDone x o).turnSettle f c).issueAll f)) := by
  rw [exec_transferComplete, execTransferComplete, State.run_live hl]
  simp only [hx, ho, hout, h4, Bool.false_eq_true, Bool.not_true, if_false, false_and]
  split
  next => rfl
  next hno => rw [if_neg fun h => hno ⟨h3 h.1, h.1⟩]

/-- A write of the same. -/
theorem exec_transferWrite {s : State} {f c slot : Nat} {x : Stream} {o : Obj} {q : Place} {fault : Bool} (hl : s.Live)
    (hx : (s.dev.ctxUse f c).stream? (f, c, slot) = some x) (ho : (s.dev.ctxUse f c).obj? x.handle = some o)
    (hq : x.dst = some q) (hout : 0 < x.wi) (h4 : q.tier ≠ 4) :
    exec (.transferComplete f c slot true fault) s = .next (s.on (
      if fault = true ∧ q.tier = 3 then ((s.dev.ctxUse f c).pageFault x true o).issueAll f
      else (((s.dev.ctxUse f c).writeDone x).turnSettle f c).issueAll f)) := by
  rw [exec_transferComplete, execTransferComplete, State.run_live hl]
  simp only [hx, ho, hq, hout, h4, if_true, decide_true, Bool.not_true, Bool.false_eq_true, if_false, false_and, and_false]

/-- Settles O24: a stream task by its checks, a transfer by its tier, a response by its request. -/
theorem streamsComplete : Obligations.StreamsComplete := by
  unfold Obligations.StreamsComplete
  intro s hl
  dsimp only
  refine ⟨fun op cmd hcmd t c hr => ⟨fun cause hc hne => ?refused, fun hc => ?stale, fun hc hs => ?starts, fun cause hc hs => ?noSpace⟩,
    fun f c x hx => ?liftStart,
    fun f c slot x o hx ho => ⟨fun hn h3 h4 fault => ?read, fun q hq hw h3 h4 fault => ?write, fun hn h3 => ?readFault, fun q hq hw h3 => ?writeFault⟩,
    fun f g pasid ok e hp he => ?pri, fun f g pasid ok hp => ?stray, fun f c slot x hx hst h1 h2 => ?halted, fun f c slot x hx hst h1 h2 => ?aborted⟩
  case refused => rw [exec_stream hl hcmd, Dev.acceptStream_ready hr, hc]; dsimp only; rw [if_neg hne]
  case stale => rw [exec_stream hl hcmd, Dev.acceptStream_ready hr, hc]; dsimp only; rw [if_pos rfl]
  case starts => rw [exec_stream hl hcmd, Dev.acceptStream_ready hr, hc]; dsimp only; rw [hs]
  case noSpace => rw [exec_stream hl hcmd, Dev.acceptStream_ready hr, hc]; dsimp only; rw [hs]
  case liftStart =>
    rw [exec_liftStart, execLiftStart, State.run_live hl]
    dsimp only
    rw [hx]
    rfl
  case read => rw [exec_transferRead hl hx ho hn (fun h => absurd h h3) h4, if_neg fun h => h3 h.2]
  case write => rw [exec_transferWrite hl hx ho hq hw h4, if_neg fun h => h3 h.2]
  case readFault => rw [exec_transferRead hl hx ho hn (fun _ => rfl) (by omega), if_pos ⟨rfl, h3⟩]
  case writeFault => rw [exec_transferWrite hl hx ho hq hw (by omega), if_pos ⟨rfl, h3⟩]
  case pri => rw [exec_priResponse, execPriResponse, State.run_live hl]
  case stray =>
    have hnone : (if pasid = s.dev.get .HOST_T3_PASID_PASID then s.dev.flm.pri.find? fun e => e.flume == f && e.group == some g
        else none) = none := by
      rcases hp with hp | hp
      · exact if_neg hp
      · rw [hp, ite_self]
    rw [exec_priResponse, execPriResponse, State.run_live hl, Dev.priResponse, hnone]
  case halted => rw [exec_streamHaltComplete, execStreamHaltComplete, State.run_live hl]
  case aborted => rw [exec_streamAbortComplete, execStreamAbortComplete, State.run_live hl]

/-! ### FLM_CTX_CMD (R286 to R289) -/

/-- A context without a turnout program has none after its streams' faults. -/
theorem Dev.updTurn_turn?_none {d : Dev} {f c : Nat} (h : d.turn? f c = none) (a b : Nat) (g : Turn → Turn)
    (hg : ∀ t, (g t).flume = t.flume ∧ (g t).ctx = t.ctx) : (d.updTurn a b g).turn? f c = none := by
  simp only [Dev.turn?, List.find?_eq_none, Dev.updTurn, List.mem_map] at h ⊢
  rintro _ ⟨t, ht, rfl⟩
  have hold := h t ht
  split
  next => rwa [(hg t).1, (hg t).2]
  next => exact hold

theorem Dev.streamFault_turn?_none {d : Dev} {f c : Nat} (h : d.turn? f c = none) (k : Nat × Nat × Nat) (cause : Nat) :
    (d.streamFault k cause).turn? f c = none := by
  rw [Dev.streamFault]
  split
  next => exact h
  next x _ =>
    split
    next => exact h
    next =>
      split
      next => exact h
      next =>
        dsimp only
        split
        next => exact Dev.updTurn_turn?_none h _ _ _ fun _ => ⟨rfl, rfl⟩
        next => exact h

theorem Dev.foldl_streamFault_turn?_none (xs : List Stream) {d : Dev} {f c : Nat} (h : d.turn? f c = none) (cause : Nat) :
    (xs.foldl (fun e x => e.streamFault x.key cause) d).turn? f c = none := by
  induction xs generalizing d with
  | nil => exact h
  | cons x xs ih => exact ih (Dev.streamFault_turn?_none h _ _)

/-- The word that a command of FLM_CTX_CMD writes, and its fields. -/
theorem ctxCmd_word {tag cmd c v : Nat} (ht : tag < 65536) (hc : c < 16) (hcmd : cmd < 4) (hv : v = cmd * 256) :
    bitsOf (tag * 65536 + v + c) 0 4 = c ∧ bitsOf (tag * 65536 + v + c) 8 2 = cmd ∧ bitsOf (tag * 65536 + v + c) 16 16 = tag := by
  simp only [bitsOf]
  omega

/-- Settles O25: a command by its tag, then by its context's state. -/
theorem flumeContextCommandsComplete : Obligations.FlumeContextCommandsComplete := by
  unfold Obligations.FlumeContextCommandsComplete
  intro s p f c tag hl hw hf hc ht d stale
  have hresume : exec (.flmCtxResume p f c tag) s = .next (s.on (s.dev.ctxCmd p f (tag * 65536 + 0x100 + c))) := by
    rw [exec_flmCtxResume, execFlmCtxResume, State.run_live hl, Nat.mod_eq_of_lt ht, Nat.mod_eq_of_lt hc, if_neg (by omega),
      Dev.viaReg_writes hw]
  have habort : exec (.flmCtxAbort p f c tag) s = .next (s.on (s.dev.ctxCmd p f (tag * 65536 + 0x200 + c))) := by
    rw [exec_flmCtxAbort, execFlmCtxAbort, State.run_live hl, Nat.mod_eq_of_lt ht, Nat.mod_eq_of_lt hc, if_neg (by omega),
      Dev.viaReg_writes hw]
  have hhalt : exec (.flmCtxHalt p f c tag) s = .next (s.on (s.dev.ctxCmd p f (tag * 65536 + 0x300 + c))) := by
    rw [exec_flmCtxHalt, execFlmCtxHalt, State.run_live hl, Nat.mod_eq_of_lt ht, Nat.mod_eq_of_lt hc, if_neg (by omega),
      Dev.viaReg_writes hw]
  rw [hresume, habort, hhalt]
  obtain ⟨hc1, hm1, ht1⟩ := ctxCmd_word (cmd := 1) (v := 0x100) ht hc (by decide) rfl
  obtain ⟨hc2, hm2, ht2⟩ := ctxCmd_word (cmd := 2) (v := 0x200) ht hc (by decide) rfl
  obtain ⟨hc3, hm3, ht3⟩ := ctxCmd_word (cmd := 3) (v := 0x300) ht hc (by decide) rfl
  have hd : s.dev.ctxUse f c = d := rfl
  refine ⟨fun htag hst hmask => ?resume, fun htag hst => ?abort, fun htag hst hturn => ?halt,
    fun htag => ⟨?resumeStale, ?abortStale, ?haltStale⟩, fun htag hst => ?resumeState⟩
  case resume =>
    rw [Dev.ctxCmd]
    dsimp only
    rw [hc1, hm1, ht1, hd, if_neg (by decide), if_neg (not_not.mpr htag), if_neg (by decide), if_neg (not_not.mpr hst), if_neg (by decide),
      if_neg (by simp [hmask])]
  case abort =>
    rw [Dev.ctxCmd]
    dsimp only
    rw [hc2, hm2, ht2, hd, if_neg (by decide), if_neg (not_not.mpr htag), if_neg (by decide), if_neg (not_not.mpr hst), if_pos rfl]
  case halt =>
    rw [Dev.ctxCmd]
    dsimp only
    rw [hc3, hm3, ht3, hd, if_neg (by decide), if_neg (not_not.mpr htag), if_pos rfl, if_pos hst, Dev.foldl_streamFault_turn?_none _ hturn]
  case resumeStale =>
    rw [Dev.ctxCmd]
    dsimp only
    rw [hc1, hm1, ht1, hd, if_neg (by decide), if_pos htag, if_neg (fun h => h.1 rfl)]
  case abortStale =>
    rw [Dev.ctxCmd]
    dsimp only
    rw [hc2, hm2, ht2, hd, if_neg (by decide), if_pos htag, if_congr (and_iff_right (by decide)) rfl rfl]
  case haltStale =>
    rw [Dev.ctxCmd]
    dsimp only
    rw [hc3, hm3, ht3, hd, if_neg (by decide), if_pos htag, if_congr (and_iff_right (by decide)) rfl rfl]
  case resumeState =>
    rw [Dev.ctxCmd]
    dsimp only
    rw [hc1, hm1, ht1, hd, if_neg (by decide), if_neg (not_not.mpr htag), if_neg (by decide), if_pos hst]

end Sys2Proof.Machine

/-! Turnout programs: their instructions, waits, acceptance and window (chapter 13). -/
namespace Sys2Proof.Machine

/-! ### What a statement of several obligations says once -/

/-- A TURNOUT task that is ready enters its context (R296). -/
theorem exec_turnout_ready {s : State} (hl : s.Live) {k : Task} {x : Nat} (hsent : s.dev.sentTask k.tag 0x40 5 = some k)
    (hctx : s.dev.freeCtx k.inst = some x) (hen : s.dev.enabled (6 + k.inst) = true) (hfr : s.dev.frozen (6 + k.inst) = false)
    (hsvc : k.badSvc = false) (h60 : bitsOf k.w3 60 1 = 0) (h9 : bitsOf k.w3 9 27 = 0) :
    let e := (s.dev.acceptTask k.tag).freshCtx k.inst x
    exec (.turnout k.tag) s = .next (s.on { e with flm := { e.flm with turns := e.flm.turns ++ [turnInit k.inst x k] } }) := by
  rw [exec_turnout, execTurnout, State.run_live hl, hsent]
  dsimp only
  rw [hctx]
  dsimp only
  rw [if_neg (by simp [hen, hfr]), if_neg (by simp [hsvc, h60, h9])]

/-- A write of the program window, refused while a program runs there (R295). -/
theorem exec_turnoutProgramWrite_writes {s : State} {p : Path} {f i : Nat} (v : Word) (hl : s.Live) (hw : s.dev.Writes p) (hf : f < 32)
    (hi : i < 512) : exec (.turnoutProgramWrite p f i v) s = .next (s.on (s.dev.turnProgWrite p f i v.toNat)) := by
  rw [exec_turnoutProgramWrite, execTurnoutProgramWrite, State.run_live hl, if_pos ⟨hi, hf⟩, Dev.viaReg_writes hw]

theorem Dev.turnProgWrite_free {d : Dev} {f : Nat} (ht : (d.flm.turns.any fun t => t.flume == f) = false)
    (hk : (d.hg.tasks.any fun t => t.st == 1 && t.cls == 0x40 && t.op == 5 && t.inst == f) = false) (p : Path) (i v : Nat) :
    d.turnProgWrite p f i v = (d.wr (.FLM_PROG i) v f).eccWrite 6 (f * 512 + i) := by
  rw [Dev.turnProgWrite, ht, hk, if_neg (by simp)]

theorem Dev.turnProgWrite_busy {d : Dev} {f : Nat} (ht : (d.flm.turns.any fun t => t.flume == f) = true) (p : Path) (i v : Nat) :
    d.turnProgWrite p f i v = d.errWr p (6 + f) 1 (0x800 + 4 * i) 0x0513 v := by
  rw [Dev.turnProgWrite, ht, if_pos (by simp)]

/-- The command of an illegal word, for the context that is next (R298, R299). -/
theorem exec_turnIllegal_next {s : State} {f c : Nat} {t : Turn} (hl : s.Live) (hn : s.dev.TurnNext f c t) (ue : Bool) :
    exec (.turnIllegal f c ue) s = .next (s.on (
      if (ue || s.dev.turnBad t) = true then ((s.dev.turnServe f c).eccBad 6 (f * 512 + t.pc)).turnEcc t
      else if tIllegal (s.dev.rd (.FLM_PROG t.pc) f) = true then (s.dev.turnBegun f c).turnFault t 0x0520 (s.dev.rd (.FLM_PROG t.pc) f)
      else s.dev)) := by
  rw [exec_turnIllegal, execTurnIllegal, State.run_live hl, ctxUse_clean hn]
  dsimp only
  rw [hn.1]
  dsimp only
  rw [if_neg (by simp [hn.2.1])]
  rfl

/-- WAITB's result leaves the program where it is. -/
theorem tWaitbStep_place (t : Turn) (dd m : Nat) :
    (tWaitbStep t dd m).flume = t.flume ∧ (tWaitbStep t dd m).ctx = t.ctx ∧ (tWaitbStep t dd m).pc = t.pc := by
  rw [tWaitbStep]
  split <;> exact ⟨rfl, rfl, rfl⟩

/-- WAITO on an object that is gone, or past its limit: counted, and the program goes on. -/
theorem Dev.waitoLost_at {d e : Dev} {f c : Nat} {t : Turn} (h : d.turn? f c = some t) (z : Bool) (hpc : t.pc < 511) :
    e.waitoLost t z = (e.bump .WAITO_TIMEOUT_COUNT f).turnTo f c { t with wait := .none, t := true, z := z } (t.pc + 1) := by
  obtain ⟨rfl, rfl⟩ := turn_name h
  exact turnGo_at h (fun u => { u with t := true, z := z }) ⟨rfl, rfl, rfl⟩ hpc

/-! ### The ends of waits (R303, R305, R309) -/

section Waits
variable {s : State} {f c : Nat} {t : Turn} (hl : s.Live)
include hl

theorem exec_waittEnd_reached {v : Nat} (hw : s.dev.TurnWaits f c t (.waitt v)) (hv : v ≤ s.dev.tnow t) (hpc : t.pc < 511) :
    exec (.waittEnd f c) s = .next (s.on (s.dev.turnTo f c { t with wait := .none } (t.pc + 1))) := by
  obtain ⟨hturn, hwait, hlive⟩ := hw
  rw [exec_waittEnd, execWaittEnd, State.run_live hl, hturn]
  simp only [hwait]
  rw [if_pos ⟨hv, hlive⟩, turnGo_at hturn id ⟨rfl, rfl, rfl⟩ hpc, id]

theorem exec_waitoEnd_hit {o h m : Nat} {b : Bool} {l : Option Nat} (hw : s.dev.TurnWaits f c t (.waito o h m b l true)) (hpc : t.pc < 511) :
    exec (.waitoEnd f c) s = .next (s.on (s.dev.turnTo f c { t with wait := .none, t := false, z := false } (t.pc + 1))) := by
  obtain ⟨hturn, hwait, hlive⟩ := hw
  rw [exec_waitoEnd, execWaitoEnd, State.run_live hl, hturn]
  simp only [hwait]
  rw [if_neg (by simp [hlive]), if_pos trivial, turnGo_at hturn _ ⟨rfl, rfl, rfl⟩ hpc]

theorem exec_waitoEnd_lost {o h m : Nat} {b : Bool} {l : Option Nat} (hw : s.dev.TurnWaits f c t (.waito o h m b l false))
    (ho : s.dev.obj? h = none) (hpc : t.pc < 511) :
    exec (.waitoEnd f c) s =
      .next (s.on ((s.dev.bump .WAITO_TIMEOUT_COUNT f).turnTo f c { t with wait := .none, t := true, z := true } (t.pc + 1))) := by
  obtain ⟨hturn, hwait, hlive⟩ := hw
  rw [exec_waitoEnd, execWaitoEnd, State.run_live hl, hturn]
  simp only [hwait]
  rw [if_neg (by simp [hlive]), if_neg Bool.false_ne_true, if_pos (by rw [ho]; rfl), Dev.waitoLost_at hturn true hpc]

theorem exec_waitoTimeout_due {o h m : Nat} {b : Bool} {l : Nat} (hw : s.dev.TurnWaits f c t (.waito o h m b (some l) false))
    (hdue : l ≤ s.dev.gh.timer) (hpc : t.pc < 511) :
    exec (.waitoTimeout f c) s = .next (s.on (((s.dev.bump .WAITO_TIMEOUT_COUNT f).turnTo f c
      { t with wait := .none, t := true, z := false } (t.pc + 1)).raise (6 + f) 1 3)) := by
  obtain ⟨hturn, hwait, hlive⟩ := hw
  rw [exec_waitoTimeout, execWaitoTimeout, State.run_live hl, hturn]
  simp only [hwait]
  rw [if_pos (by simp [hlive, hdue]), Dev.waitoLost_at hturn false hpc]

theorem exec_burstSlotFree_free {w : Nat} (hw : s.dev.TurnWaits f c t (.burst w)) (hfree : s.dev.slotBusy f c (bitsOf w 24 2) = false) :
    exec (.burstSlotFree f c) s = .next (s.on (s.dev.startBurst t w)) := by
  obtain ⟨hturn, hwait, hlive⟩ := hw
  rw [exec_burstSlotFree, execBurstSlotFree, State.run_live hl, hturn]
  simp only [hwait]
  rw [if_pos (by simp [hlive, hfree])]

theorem exec_waitbEnd_done {dd m : Nat} (hw : s.dev.TurnWaits f c t (.waitb dd m)) (hdone : s.dev.waitbDone t m = true) (hpc : t.pc < 511) :
    exec (.waitbEnd f c) s = .next (s.on (s.dev.turnTo f c (tWaitbStep { t with wait := .none } dd m) (t.pc + 1))) := by
  obtain ⟨hturn, hwait, hlive⟩ := hw
  rw [exec_waitbEnd, execWaitbEnd, State.run_live hl, hturn]
  simp only [hwait]
  rw [if_pos (by simp [hlive, hdone]), turnGo_at hturn _ (tWaitbStep_place _ dd m) hpc]

theorem exec_endRecord_idle {fail : Bool} (hw : s.dev.TurnWaits f c t (.ending fail)) (hidle : s.dev.anyBusy f c = false) :
    exec (.endRecord f c) s = .next (s.on (s.dev.turnRecord t fail)) := by
  obtain ⟨hturn, hwait, hlive⟩ := hw
  rw [exec_endRecord, execEndRecord, State.run_live hl, hturn]
  simp only [hwait]
  rw [if_neg (by simp [hlive, hidle])]

end Waits

/-- Settles O28: the ends of the waits, the illegal word, the task and its window. -/
theorem turnoutEventsComplete : Obligations.TurnoutEventsComplete := by
  unfold Obligations.TurnoutEventsComplete
  intro s f c t hl
  dsimp only
  refine ⟨fun v hw hv hpc => exec_waittEnd_reached hl hw hv hpc, fun o h m b l hw hpc => exec_waitoEnd_hit hl hw hpc,
    fun o h m b l hw ho hpc => exec_waitoEnd_lost hl hw ho hpc, fun o h m b l hw hdue hpc => exec_waitoTimeout_due hl hw hdue hpc,
    fun w hw hfree => exec_burstSlotFree_free hl hw hfree, fun dd m hw hdone hpc => exec_waitbEnd_done hl hw hdone hpc,
    fun fail hw hidle => exec_endRecord_idle hl hw hidle, fun hn => ⟨?ecc, fun hbad => ?bad, fun hbad hill => ?illegal⟩,
    fun k x hsent hctx hen hfr hsvc h60 h9 => exec_turnout_ready hl hsent hctx hen hfr hsvc h60 h9,
    fun p i v hw hf hi ht hk => ?write, fun p i v hw hf hi ht => ?writeBusy⟩
  case ecc => rw [exec_turnIllegal_next hl hn, if_pos (by simp)]
  case bad => rw [exec_turnIllegal_next hl hn, if_pos (by simp [hbad])]
  case illegal => rw [exec_turnIllegal_next hl hn, if_neg (by simp [hbad]), if_pos hill]
  case write => rw [exec_turnoutProgramWrite_writes v hl hw hf hi, Dev.turnProgWrite_free ht hk]
  case writeBusy => rw [exec_turnoutProgramWrite_writes v hl hw hf hi, Dev.turnProgWrite_busy ht]

/-! ### Instructions (Table 13-2) -/

/-- A command that is the instruction at the pc of the context that is next runs it. -/
theorem State.run_turnExec {s : State} {f c opc : Nat} {t : Turn} {w : Nat} (hl : s.Live) (hat : s.dev.TurnAt f c opc t w)
    (g : Dev → Turn → Nat → Dev) : (s.run fun d => d.turnExec f c opc g) = .next (s.on (g (s.dev.turnBegun f c) t w)) := by
  rw [State.run_live hl, turnExec_at hat]

/-- An instruction that changes registers of its context alone. -/
theorem State.run_turnStep {s : State} {f c opc : Nat} {t : Turn} {w : Nat} (hl : s.Live) (hat : s.dev.TurnAt f c opc t w)
    (hpc : t.pc < 511) (g : Dev → Turn → Nat → Turn)
    (hg : ∀ e, (g e t w).flume = t.flume ∧ (g e t w).ctx = t.ctx ∧ (g e t w).pc = t.pc) :
    (s.run fun d => d.turnStep f c opc g) =
      .next (s.on ((s.dev.turnBegun f c).turnTo f c (g (s.dev.turnBegun f c) t w) (t.pc + 1))) := by
  rw [State.run_live hl, turnStep_at hat g hg hpc]

/-- A jump within the program. -/
theorem Dev.turnGoto_inside (d : Dev) {f c : Nat} {t : Turn} (ht : t.flume = f ∧ t.ctx = c) {pc : Int} {p : Nat} (hp : pc = p) (h : p < 512)
    (w : Nat) : d.turnGoto t pc w = d.turnPc f c p := by
  obtain ⟨rfl, rfl⟩ := ht
  rw [Dev.turnGoto, if_neg (by omega), hp]
  rfl

theorem Dev.turnBegun_mem (d : Dev) (f c : Nat) : (d.turnBegun f c).mem = d.mem := by
  rw [Dev.turnBegun, Dev.turnCount, Dev.add64, Dev.wr64, Dev.wr_mem, Dev.wr_mem, Dev.turnServe]

theorem Dev.turnBegun_lostEpoch (d : Dev) (f c : Nat) : (d.turnBegun f c).lostEpoch = d.lostEpoch := by
  rw [Dev.turnBegun, Dev.turnCount, Dev.add64, Dev.wr64, Dev.wr_lostEpoch, Dev.wr_lostEpoch, Dev.turnServe]

theorem Dev.turnBegun_ld (d : Dev) (f c sp a n : Nat) : (d.turnBegun f c).ld sp a n = d.ld sp a n := by
  rw [Dev.ld, Dev.ld, Dev.rbs, Dev.rbs, Dev.turnBegun_lostEpoch, Dev.turnBegun_mem]

theorem Dev.turnBegun_streams (d : Dev) (f c : Nat) : (d.turnBegun f c).flm.streams = d.flm.streams := by
  rw [Dev.turnBegun, Dev.turnCount, Dev.add64, Dev.wr64, Dev.wr_flm, Dev.wr_flm, Dev.turnServe]

theorem tAluStep_place (t : Turn) (w : Nat) :
    (tAluStep t w).flume = t.flume ∧ (tAluStep t w).ctx = t.ctx ∧ (tAluStep t w).pc = t.pc := by
  rw [tAluStep]
  split <;> exact ⟨rfl, rfl, rfl⟩

/-- Settles O26: the task, its window and the illegal word, and each instruction by what it makes of its context. -/
theorem turnoutComputeInstructions : Obligations.TurnoutComputeInstructions := by
  unfold Obligations.TurnoutComputeInstructions
  refine ⟨fun s hl => ⟨fun k x hsent hctx hen hfr hsvc h60 h9 => exec_turnout_ready hl hsent hctx hen hfr hsvc h60 h9,
    fun p f i v hw hf hi ht hk => ?write, fun f c t hn hbad hill => ?illegal⟩, fun s f c opc t w hl hat hpc => ?instr⟩
  case write => rw [exec_turnoutProgramWrite_writes v hl hw hf hi, Dev.turnProgWrite_free ht hk]
  case illegal =>
    have hb : s.dev.turnBad t = false := hbad
    rw [exec_turnIllegal_next hl hn, if_neg (by simp [hb]), if_pos hill]
  case instr =>
    intro d e r
    have hname : t.flume = f ∧ t.ctx = c := turn_name hat.1.1
    refine ⟨fun ho => ?nop, fun ho hf => ?cmp, fun ho hf => ?alu, fun ho => ?addi, fun ho => ?movi, fun ho => ?movhi, fun ho => ?bset,
      fun ho => ?badd, fun ho a ha h4 hr => ?ldw, fun ho => ?ldobj, fun ho => ?ldlead, fun ho => ?tnow, fun ho => ?lanes, fun ho => ?obsid,
      fun ho => ?dline, fun ho => ?sig⟩ <;> subst ho
    case nop => exact State.run_turnStep hl hat hpc _ fun _ => ⟨rfl, rfl, rfl⟩
    case cmp =>
      refine (State.run_turnStep hl hat hpc _ fun _ => tAluStep_place t w).trans ?_
      rw [tAluStep, if_pos hf]
    case alu =>
      refine (State.run_turnStep hl hat hpc _ fun _ => tAluStep_place t w).trans ?_
      rw [tAluStep, if_neg hf]
    case addi => exact State.run_turnStep hl hat hpc _ fun _ => ⟨rfl, rfl, rfl⟩
    case movi => exact State.run_turnStep hl hat hpc _ fun _ => ⟨rfl, rfl, rfl⟩
    case movhi => exact State.run_turnStep hl hat hpc _ fun _ => ⟨rfl, rfl, rfl⟩
    case bset => exact State.run_turnStep hl hat hpc _ fun _ => ⟨rfl, rfl, rfl⟩
    case badd => exact State.run_turnStep hl hat hpc _ fun _ => ⟨rfl, rfl, rfl⟩
    case ldw =>
      subst ha
      rw [exec_ldw, execLdw, State.run_turnExec hl hat]
      dsimp only
      rw [if_neg (by omega), Dev.turnBegun_ld]
      exact congrArg (fun x => Host.Outcome.next (s.on x)) (turnGoto_upd e f c _ w _ r rfl (by omega) hname)
    case ldobj => exact State.run_turnStep hl hat hpc _ fun _ => ⟨rfl, rfl, rfl⟩
    case ldlead =>
      refine (State.run_turnStep hl hat hpc _ fun _ => ⟨rfl, rfl, rfl⟩).trans ?_
      refine congrArg (fun v => Host.Outcome.next (s.on (e.turnTo f c (t.setA (tD w) v) r))) ?_
      cases (e.obj? (t.ra (tS w))).bind Obj.slot <;> rfl
    case tnow => exact State.run_turnStep hl hat hpc _ fun _ => ⟨rfl, rfl, rfl⟩
    case lanes => exact State.run_turnStep hl hat hpc _ fun _ => ⟨rfl, rfl, rfl⟩
    case obsid => exact State.run_turnStep hl hat hpc _ fun _ => ⟨rfl, rfl, rfl⟩
    case dline => exact State.run_turnStep hl hat hpc _ fun _ => ⟨rfl, rfl, rfl⟩
    case sig =>
      refine (State.run_turnExec hl hat _).trans ?_
      exact congrArg (fun x => Host.Outcome.next (s.on x)) (Dev.turnGoto_inside _ hname (p := r) rfl (by omega) w)

/-- What keeps a context's bursts in progress is its streams alone. -/
theorem Dev.anyBusy_congr {d e : Dev} (h : d.flm.streams = e.flm.streams) (f c : Nat) : d.anyBusy f c = e.anyBusy f c := by
  simp only [Dev.anyBusy, Dev.slotBusy, Dev.stream?, h]

theorem Dev.turnWait_streams (d : Dev) (t : Turn) (x : TWait) : (d.turnWait t x).flm.streams = d.flm.streams := rfl

theorem Dev.turnWait_anyBusy (d : Dev) (f c : Nat) (t : Turn) (x : TWait) :
    ((d.turnBegun f c).turnWait t x).anyBusy f c = d.anyBusy f c :=
  Dev.anyBusy_congr ((Dev.turnWait_streams _ t x).trans (d.turnBegun_streams f c)) f c

/-- Settles O27: the ends of the waits, and each branching, ending or waiting instruction by its condition. -/
theorem turnoutControlInstructions : Obligations.TurnoutControlInstructions := by
  unfold Obligations.TurnoutControlInstructions
  refine ⟨fun s f c t hl => ?waits, fun s f c opc t w hl hat => ?instr⟩
  case waits =>
    dsimp only
    exact ⟨fun v hw hv hpc => exec_waittEnd_reached hl hw hv hpc, fun o h m b l hw hpc => exec_waitoEnd_hit hl hw hpc,
      fun o h m b l hw ho hpc => exec_waitoEnd_lost hl hw ho hpc, fun o h m b l hw hdue hpc => exec_waitoTimeout_due hl hw hdue hpc,
      fun w hw hfree => exec_burstSlotFree_free hl hw hfree, fun dd m hw hdone hpc => exec_waitbEnd_done hl hw hdone hpc,
      fun fail hw hidle => exec_endRecord_idle hl hw hidle⟩
  case instr =>
    intro d e
    have hturn : s.dev.turn? f c = some t := hat.1.1
    have hname : t.flume = f ∧ t.ctx = c := turn_name hturn
    refine ⟨fun ho hc p hp h => ?branch, fun ho hc hpc => ?noBranch, fun ho hc hout => ?branchFault, fun ho v hv hv0 p hp h => ?djnz,
      fun ho h1 hpc => ?djnzEnd, fun ho hb => ?endNow, fun ho hb => ?endWaits, fun ho hv hpc => ?waittNow, fun ho hv => ?waitt,
      fun ho o hobj hhit hpc => ?waitoNow, fun ho o hobj hhit => ?waito, fun ho hb => ?burst, fun ho hb => ?burstWaits,
      fun ho hb hpc => ?waitbNow, fun ho hb => ?waitb⟩ <;> subst ho
    case branch =>
      rw [exec_turnB, execTurnB, State.run_turnExec hl hat, if_pos hc]
      exact congrArg (fun x => Host.Outcome.next (s.on x)) (Dev.turnGoto_inside e hname hp h w)
    case noBranch =>
      rw [exec_turnB, execTurnB, State.run_turnExec hl hat, if_neg (by simp [hc])]
      exact congrArg (fun x => Host.Outcome.next (s.on x)) (Dev.turnGoto_inside e hname (p := t.pc + 1) rfl (by omega) w)
    case branchFault =>
      rw [exec_turnB, execTurnB, State.run_turnExec hl hat, if_pos hc, Dev.turnGoto]
      exact congrArg (fun x => Host.Outcome.next (s.on x)) (if_pos hout)
    case djnz =>
      rw [exec_djnz, execDjnz, State.run_turnExec hl hat]
      dsimp only
      rw [← hv, if_neg hv0]
      exact congrArg (fun x => Host.Outcome.next (s.on x)) (turnGoto_upd e f c _ w _ p hp h hname)
    case djnzEnd =>
      have hv : (t.ra (tD w) + (2 ^ 32 - 1)) % 2 ^ 32 = 0 := by rw [h1]; decide
      rw [exec_djnz, execDjnz, State.run_turnExec hl hat]
      dsimp only
      rw [hv, if_pos rfl]
      exact congrArg (fun x => Host.Outcome.next (s.on x)) (turnGoto_upd e f c _ w _ (t.pc + 1) rfl (by omega) hname)
    case endNow =>
      have hidle : ((s.dev.turnBegun f c).turnWait t (.ending (bitsOf w 0 1 == 1))).anyBusy f c = false :=
        (Dev.turnWait_anyBusy ..).trans hb
      rw [exec_turnEnd, execTurnEnd, State.run_turnExec hl hat]
      dsimp only
      rw [if_neg (by simp [hidle])]
    case endWaits =>
      have hbusy : ((s.dev.turnBegun f c).turnWait t (.ending (bitsOf w 0 1 == 1))).anyBusy f c = true :=
        (Dev.turnWait_anyBusy ..).trans hb
      rw [exec_turnEnd, execTurnEnd, State.run_turnExec hl hat]
      dsimp only
      rw [if_pos hbusy]
    case waittNow =>
      rw [exec_waitt, execWaitt, State.run_turnExec hl hat, if_pos hv, turnGo_at hturn id ⟨rfl, rfl, rfl⟩ hpc, id]
    case waitt => rw [exec_waitt, execWaitt, State.run_turnExec hl hat, if_neg (Nat.not_le.mpr hv)]
    case waitoNow =>
      rw [exec_waito, execWaito, State.run_turnExec hl hat]
      dsimp only
      rw [show (s.dev.turnBegun f c).obj? (t.ra (tS w)) = some o from hobj]
      dsimp only
      rw [if_pos hhit, turnGo_at hturn _ ⟨rfl, rfl, rfl⟩ hpc]
    case waito =>
      rw [exec_waito, execWaito, State.run_turnExec hl hat]
      dsimp only
      rw [show (s.dev.turnBegun f c).obj? (t.ra (tS w)) = some o from hobj]
      dsimp only
      rw [if_neg (by simp [hhit])]
    case burst => rw [exec_burst, execBurst, State.run_turnExec hl hat, if_neg (by rw [show _ = false from hb]; exact Bool.false_ne_true)]
    case burstWaits => rw [exec_burst, execBurst, State.run_turnExec hl hat, if_pos hb]
    case waitbNow =>
      rw [exec_waitb, execWaitb, State.run_turnExec hl hat, if_pos hb, turnGo_at hturn _ (tWaitbStep_place _ _ _) hpc]
    case waitb => rw [exec_waitb, execWaitb, State.run_turnExec hl hat, if_neg (by rw [show _ = false from hb]; exact Bool.false_ne_true)]

end Sys2Proof.Machine

/-! The Sluice's lanes and key registers (chapter 14). -/
namespace Sys2Proof.Machine

/-! ### Lanes (R312 to R328) -/

/-- Settles O29: each block by its escape mark, its key and its codec, each slot by its checks. -/
theorem sluiceBlocksComplete : Obligations.SluiceBlocksComplete := by
  unfold Obligations.SluiceBlocksComplete
  intro s n b st o hl
  dsimp only
  refine ⟨fun hat he key hk hc => ?encrypt, fun hat he key hk hc hovr hacc => ?compress, fun hat he key hk hc hovr hacc => ?compressOver,
    fun hat he key hk hroom hq hfull => ?escape, fun hat _ hk he => ?noKey, fun hat hc key hk hdata => ?decrypt,
    fun hat hc hcheck key hk => ⟨fun hbit => ?expand, fun hbit => ?expandEscape⟩, fun hat hc hk => ?expandNoKey,
    fun hat hc code hcheck => ?checkFail⟩
  case encrypt =>
    rw [exec_blockCompress, execBlockCompress, State.run_live hl, onLane_at hat]
    dsimp only
    rw [if_neg (by simp [he]), hk]
    dsimp only
    rw [if_pos hc]
    cases key <;> rfl
  case compress =>
    have hno : ¬ (((b.work o (st.blk b.rel)).1 || (b.work o (st.blk b.rel)).2.ovr) && !o.accept) = true := by
      rcases hacc with h | h <;> simp [h, hovr]
    rw [exec_blockCompress, execBlockCompress, State.run_live hl, onLane_at hat]
    dsimp only
    rw [if_neg (by simp [he]), hk]
    dsimp only
    rw [if_neg hc, if_neg hno, if_neg (by simp [hovr])]
  case compressOver =>
    rw [exec_blockCompress, execBlockCompress, State.run_live hl, onLane_at hat]
    dsimp only
    rw [if_neg (by simp [he]), hk]
    dsimp only
    rw [if_neg hc, if_neg (by simp [hacc]), if_pos hovr]
  case escape =>
    rw [exec_escapeDecision, execEscapeDecision, State.run_live hl, onLane_at hat]
    dsimp only
    rw [if_neg (by simp only [he, hq, hfull]; decide), hk]
    dsimp only
    rw [if_pos hroom]
  case noKey =>
    rw [exec_blockCompress, execBlockCompress, State.run_live hl, onLane_at hat]
    dsimp only
    rw [if_neg (by simp [he]), hk]
  case decrypt =>
    rw [exec_blockExpand, execBlockExpand, State.run_live hl, onLane_at hat]
    dsimp only
    rw [if_pos hc]
    dsimp only
    rw [hk]
    dsimp only
    rw [if_pos hc]
    cases key with
    | none => rfl
    | some x =>
      dsimp only
      rw [if_neg (by simpa using hdata)]
      rfl
  case expand =>
    rw [exec_blockExpand, execBlockExpand, State.run_live hl, onLane_at hat]
    dsimp only
    rw [if_neg hc, hcheck]
    dsimp only
    rw [hk]
    dsimp only
    rw [if_neg hc, if_neg (by simp [hbit])]
    cases key <;> rfl
  case expandEscape =>
    rw [exec_blockExpand, execBlockExpand, State.run_live hl, onLane_at hat]
    dsimp only
    rw [if_neg hc, hcheck]
    dsimp only
    rw [hk]
    dsimp only
    rw [if_neg hc, if_pos hbit]
    cases key <;> rfl
  case expandNoKey =>
    have hnone : (if o.codec = 0 then none else headerCheck b.data o (st.blk b.rel)) = none := by
      rcases hc with h | h
      · exact if_pos h
      · rw [h, ite_self]
    rw [exec_blockExpand, execBlockExpand, State.run_live hl, onLane_at hat]
    dsimp only
    rw [hnone]
    dsimp only
    rw [hk]
  case checkFail =>
    rw [exec_blockExpand, execBlockExpand, State.run_live hl, onLane_at hat]
    dsimp only
    rw [if_neg hc, hcheck]

/-! ### Keys (R326 to R329) -/

/-- The path's staging is discarded; no key and no register changes. -/
theorem Dev.setKeyStage_keyOf (d : Dev) (p : Path) (l : List Word) (n : Nat) : (d.setKeyStage p l).keyOf n = d.keyOf n := rfl

/-- Settles O30: each key register's write, LOAD by its checks in their order. -/
theorem keySlotsComplete : Obligations.KeySlotsComplete := by
  unfold Obligations.KeySlotsComplete
  intro s p hl hw
  dsimp only
  have hload : exec (.keyLoad p) s = .next (s.on (s.dev.keyLoad p)) := by
    rw [exec_keyLoad, execKeyLoad, State.run_live hl, Dev.viaReg_writes hw]
  refine ⟨fun v => ?sel, fun v hroom => ?data, fun v hfull => ?dataFull, fun hall hslot hk => ?load, fun hmiss => ?loadMissing,
    fun hall hslot => ?loadHeld, fun hall hslot hk => ?loadEqual, ?clear, fun v hx => ?retain, fun v hx => ?retainX5⟩
  case sel => rw [exec_keySelWrite, execKeySelWrite, State.run_live hl, Dev.viaReg_writes hw, Dev.keySel]
  case data => rw [exec_keyDataWrite, execKeyDataWrite, State.run_live hl, Dev.viaReg_writes hw, Dev.keyData, if_pos hroom]
  case dataFull =>
    rw [exec_keyDataWrite, execKeyDataWrite, State.run_live hl, Dev.viaReg_writes hw, Dev.keyData, if_neg (Nat.not_lt.mpr hfull)]
  case load =>
    rw [hload, Dev.keyLoad, if_neg (Nat.not_lt.mpr hall), Dev.setKeyStage_keyOf, hslot, if_neg (by simp), if_neg hk]
  case loadMissing =>
    rw [hload, Dev.keyLoad]
    exact congrArg (fun x => Host.Outcome.next (s.on x)) (if_pos hmiss)
  case loadHeld =>
    rw [hload, Dev.keyLoad, if_neg (Nat.not_lt.mpr hall), Dev.setKeyStage_keyOf, if_pos hslot]
  case loadEqual =>
    rw [hload, Dev.keyLoad, if_neg (Nat.not_lt.mpr hall), Dev.setKeyStage_keyOf, hslot, if_neg (by simp), if_pos hk]
  case clear => rw [exec_keyClear, execKeyClear, State.run_live hl, Dev.viaReg_writes hw, Dev.keyClear]
  case retain =>
    rw [exec_keyRetainWrite, execKeyRetainWrite, State.run_live hl, Dev.viaReg_writes hw, Dev.keyRetain, if_neg (by simp [hx])]
  case retainX5 =>
    rw [exec_keyRetainWrite, execKeyRetainWrite, State.run_live hl, Dev.viaReg_writes hw, Dev.keyRetain, if_pos hx]

end Sys2Proof.Machine

/-! The Siphon's chains (chapter 17). -/
namespace Sys2Proof.Machine

/-- A tile with a chain to work, past its freezes. -/
theorem exec_descriptorExecute_ready {s : State} {c : Chain} {n : Nat} (hl : s.Live)
    (hc : (s.dev.chains.find? fun x => x.st == 1 && x.left.contains n) = some c) (hf : s.dev.frozen 63 = false)
    (hft : s.dev.frozen (47 + n) = false) (hen : s.dev.enabled (47 + n) = true) :
    exec (.descriptorExecute n) s = .next (s.on (
      if c.opened then (if c.need.isEmpty then s.dev.tileFinish n c else s.dev)
      else if (s.dev.openOp c).2 then match (s.dev.openOp c).1.chains.find? fun x => x.handle == c.handle with
        | some x => if x.need.isEmpty then (s.dev.openOp c).1.tileFinish n x else (s.dev.openOp c).1
        | none => (s.dev.openOp c).1
      else (s.dev.openOp c).1)) := by
  rw [exec_descriptorExecute, execDescriptorExecute, State.run_live hl, hc]
  dsimp only
  rw [if_neg (by simp [hf, hft, hen])] <;> rfl

/-- The only chain that asks wins, and is marked as having lost nothing. -/
theorem Dev.losers_only (d : Dev) (c : Chain) : d.losers c.req [c.req] = d.updChain c.handle fun x => { x with lost := false } := by
  rw [Dev.losers, List.foldl_cons, List.foldl_nil, if_pos rfl]
  rfl

/-- The only chain there is starts when its tiles are free (R353). -/
theorem exec_chainStart_only {s : State} {c : Chain} {e : Dev} (hl : s.Live) (hfr : s.dev.frozen 63 = false)
    (hen : s.dev.enabled 63 = true) (hauto : s.dev.auto = []) (hchains : s.dev.chains = [c]) (hst : c.st = 0)
    (htiles : (s.dev.tilesOf c.mask).isEmpty = false)
    (hfree : ((s.dev.tilesOf c.mask).all fun t => !s.dev.busyTiles.contains t) = true) (hsvc : c.svc = 0)
    (he : e = { s.dev with pool := { s.dev.pool with
      arb := Sparse.put (fun _ => (1, 0)) s.dev.pool.arb 28 (Sparse.get (fun _ => (1, 0)) s.dev.pool.arb 28) } }) :
    exec .chainStart s =
      .next (s.on ((e.updChain c.handle fun x => { x with lost := false }).chainStart { c with lost := false })) := by
  have hauto' : (s.dev.auto.take (16 - s.dev.chains.length)).foldl (fun e a => e.takeAuto a)
      ({ s.dev with auto := s.dev.auto.drop (16 - s.dev.chains.length) } : Dev) = s.dev := by
    rw [hauto, List.take_nil, List.drop_nil, List.foldl_nil, ← hauto]
  have hready : (s.dev.chains.filter fun c => c.st == 0 && !(s.dev.tilesOf c.mask).isEmpty &&
      (s.dev.tilesOf c.mask).all fun t => !s.dev.busyTiles.contains t) = [c] := by
    rw [hchains, List.filter_cons_of_pos (by rw [hfree, htiles, hst]; rfl), List.filter_nil]
  have hasks : (s.dev.chains.filter fun c => c.st == 0) = [c] := by
    rw [hchains, List.filter_cons_of_pos (by rw [hst]; rfl), List.filter_nil]
  have hfirst : ([c.req].filter fun r => r.svc == 0) = [c.req] := by
    rw [List.filter_cons_of_pos (by rw [Chain.req, hsvc]; rfl), List.filter_nil]
  have hwon : firstReq [c.req] = some c.req := rfl
  have hchain : ((e.updChain c.handle fun x => { x with lost := false }).chains.find? fun x => some x.handle == c.req.chain) =
      some { c with lost := false } := by
    have hmap : (e.updChain c.handle fun x => { x with lost := false }).chains = [{ c with lost := false }] := by
      rw [Dev.updChain, he]
      change s.dev.chains.map _ = _
      rw [hchains, List.map_cons, if_pos (by simp), List.map_nil]
    rw [hmap, List.find?_cons_of_pos (by rw [Chain.req]; simp)]
  rw [exec_chainStart, execChainStart, State.run_live hl, if_neg (by simp [hfr, hen]), hauto']
  dsimp only
  rw [hready, List.map_singleton, hfirst, hwon]
  dsimp only
  rw [hasks, List.map_singleton, ← he, Dev.losers_only, hchain]

/-- Settles O31: a chain by its task's checks, its start by the tiles that are free, a tile by its chain's operation. -/
theorem siphonCompletes : Obligations.SiphonCompletes := by
  unfold Obligations.SiphonCompletes
  intro s hl
  dsimp only
  refine ⟨fun t o hsent hfr hen hroom hbad hix hhome hobj hst hno htiles hbytes => ?accept, fun t hsent hfr hen hroom hbad => ?refused,
    fun c hfr hen hauto hchains hst htiles hfree hsvc => ?start, fun c hfr hc hst => ?binding,
    fun c n hc hf hft hen ho hneed => ?execute, fun c n hc hf hft hen ho hop => ?openFails, fun c n x hc hf hft hen ho hop hx hneed => ?opens⟩
  case accept =>
    rw [exec_runChain, execRunChain, State.run_live hl, hsent]
    dsimp only
    rw [if_neg (by simp [hfr, hen, hroom]), if_neg (by simp [hbad, hix]), if_neg (by simp [hhome]), hobj]
    dsimp only
    rw [if_neg (by rw [hno]; simp [hst]), if_neg (by simp [htiles]), if_neg (Nat.not_lt.mpr hbytes)]
  case refused =>
    rw [exec_runChain, execRunChain, State.run_live hl, hsent]
    dsimp only
    rw [if_neg (by simp [hfr, hen, hroom]), if_pos hbad]
  case start =>
    exact exec_chainStart_only hl hfr hen hauto hchains hst htiles hfree hsvc rfl
  case binding =>
    rw [exec_bindingReady, execBindingReady, State.run_live hl, hc]
    dsimp only
    rw [if_pos ⟨hst, by simp [hfr]⟩]
    cases c.tag <;> rfl
  case execute => rw [exec_descriptorExecute_ready hl hc hf hft hen, if_pos ho, if_pos (by rw [hneed]; rfl)]
  case openFails => rw [exec_descriptorExecute_ready hl hc hf hft hen, if_neg (by simp [ho]), if_neg (by simp [hop])]
  case opens =>
    rw [exec_descriptorExecute_ready hl hc hf hft hen, if_neg (by simp [ho]), if_pos hop, hx]
    dsimp only
    rw [if_pos (by rw [hneed]; rfl)]

end Sys2Proof.Machine

/-! The Freeboard: scales and votes (chapter 18). -/
namespace Sys2Proof.Machine

/-! ### Scales (R390 to R405) -/

/-- Settles O32: a block or a commit at the front of its queue, PUBLISH by its checks in their order. -/
theorem freeboardScalesComplete : Obligations.FreeboardScalesComplete := by
  unfold Obligations.FreeboardScalesComplete
  intro s hl hfree
  dsimp only
  refine ⟨fun b rest hq => ?observe, fun t count hsent hen hcount hfit h56 h2 h3 hstep hq => ?publish,
    fun t count hsent hen hcount hbad => ?publishParam, fun t count hsent hen hcount hfit h56 h2 h3 hstep hq => ?publishStep,
    fun t amax u rest hc => ?commit, fun t amax hc => ⟨fun hw => ?commitLast, fun x w hw => ?commitVerdict⟩⟩
  case observe =>
    rw [exec_observeBlock, execObserveBlock, State.run_live hl, hq]
    dsimp only
    rw [if_pos hfree]
  case publish =>
    have hnone : s.dev.fb.step.isNone = false := by rw [hstep]; rfl
    rw [exec_publish, execPublish, State.run_live hl, hsent]
    dsimp only
    rw [← hcount, if_neg (by simp [hen, hfree]), if_neg (by simp [hfit, h56, h2, h3]), hnone]
    simp only [Bool.false_or, hq, Bool.false_eq_true, if_false]
    rw [if_neg (not_not.mpr hstep)]
  case publishParam =>
    rw [exec_publish, execPublish, State.run_live hl, hsent]
    dsimp only
    rw [← hcount, if_neg (by simp [hen, hfree]), if_pos hbad]
  case publishStep =>
    have hpath : ¬ (s.dev.obsQ.any fun b => b.step == bitsOf t.w1 0 32 && (s.dev.fb.step.isNone ||
        (decide (bitsOf t.w1 32 12 ≤ b.tensor) && decide (b.tensor < bitsOf t.w1 32 12 + count)))) = true := by
      rw [List.any_eq_true]
      rintro ⟨b, hb, hstepb⟩
      rw [Bool.and_eq_true] at hstepb
      exact absurd hstepb.1 (List.any_eq_false.mp hq b hb)
    rw [exec_publish, execPublish, State.run_live hl, hsent]
    dsimp only
    rw [← hcount, if_neg (by simp [hen, hfree]), if_neg (by simp [hfit, h56, h2, h3]), if_neg hpath, if_pos hstep]
  case commit =>
    rw [exec_scaleCommit, execScaleCommit, State.run_live hl, hc]
    dsimp only
    rw [if_neg (by simp [hfree]), if_neg (by simp)]
  case commitLast =>
    rw [exec_scaleCommit, execScaleCommit, State.run_live hl, hc]
    dsimp only
    rw [if_neg (by simp [hfree]), if_pos List.isEmpty_nil, hw]
  case commitVerdict =>
    rw [exec_scaleCommit, execScaleCommit, State.run_live hl, hc]
    dsimp only
    rw [if_neg (by simp [hfree]), if_pos List.isEmpty_nil, hw]

/-! ### Votes (R396 to R401) -/

/-- The verdict records are read as they are where their memory holds no error. -/
theorem Dev.touchVerdict_clean {d : Dev} (h : d.EccFree 9) (step : Nat) : d.touchVerdict step = d := by
  rw [Dev.touchVerdict, eccTouch_free h]

/-- Settles O33: the vote by its step, a message by its sender, the windows by their time. -/
theorem votesComplete : Obligations.VotesComplete := by
  unfold Obligations.VotesComplete
  intro s hl hfree
  dsimp only
  refine ⟨fun t hsent hen h33 h2 h3 hmissed hecc hvoted hwait hstep hvote => ?vote, fun t hsent hen h33 h2 h3 hmissed hecc hvoted => ?voteAgain,
    fun l m c hbusy hat h12 h8 h9 hA hB hcfg hchild hecc hdec => ?voteMsg,
    fun l m hat h16 h5 h14 h4 h40 hA hB hcfg hpar v hecc hv hvstep hsentAt hlocal hdec => ?voteResult,
    fun v hv hroot htime => ?windowClose, fun v t hv hsentAt hroot hdec htime => ?resultTimeout⟩
  case vote =>
    have hopen : ¬ (match s.dev.fb.vote with
        | some v => v.step != bitsOf t.w1 0 32
        | none => false) = true := by
      cases hv : s.dev.fb.vote with
      | none => simp
      | some v => simp [hvote v hv]
    rw [exec_vote, execVote, State.run_live hl, hsent]
    dsimp only
    rw [if_neg (by simp [hen, hfree]), if_neg (by simp [h33, h2, h3]), if_neg hmissed, Dev.touchVerdict_clean hecc, if_neg (by simp [hvoted]),
      if_neg (by simp [hwait]), if_neg (fun h => h.2 hstep), if_neg,
      if_neg (by simp [hstep])]
    exact hopen
  case voteAgain =>
    rw [exec_vote, execVote, State.run_live hl, hsent]
    dsimp only
    rw [if_neg (by simp [hen, hfree]), if_neg (by simp [h33, h2, h3]), if_neg hmissed, Dev.touchVerdict_clean hecc, if_pos hvoted]
  case voteMsg =>
    rw [exec_voteMsg, execVoteMsg, State.run_live hl, if_neg (by simp [hbusy]), lrTake_at hat _ (by simp [h12, h8, h9, hA, hB]), if_pos hcfg, hchild]
    dsimp only
    rw [Dev.touchVerdict_clean hecc, if_neg (by simp [hdec])]
  case voteResult =>
    have hsent : v.sentAt.isNone = false := by rw [Option.isNone_eq_false_iff]; exact hsentAt
    rw [exec_voteResult, execVoteResult, State.run_live hl, lrTake_at hat _ (by simp [h16, h5, h14, h4, h40, hA, hB]),
      if_neg (by simp [hcfg, hpar])]
    dsimp only
    rw [Dev.touchVerdict_clean hecc, if_neg (by simp [hlocal]), if_neg (by simp [hdec]), hv]
    simp only [if_pos hvstep, hsent, Bool.false_eq_true, if_false]
  case windowClose =>
    rw [exec_voteWindowClose, execVoteWindowClose, State.run_live hl, hv]
    dsimp only
    rw [if_pos ⟨hroot, hfree, htime⟩]
  case resultTimeout =>
    rw [exec_resultTimeout, execResultTimeout, State.run_live hl, hv]
    dsimp only
    rw [hsentAt]
    dsimp only
    rw [if_neg (by simp [hroot, hfree, hdec, htime])]

end Sys2Proof.Machine

/-! The Cistern: what leaves it as it is, its tasks and timers (chapter 19). -/
namespace Sys2Proof.Machine

/-! ### What leaves the Cistern, or the restore in progress, as it is -/

@[simp] theorem Dev.ite_ck (c : Prop) [Decidable c] (d e : Dev) : (if c then d else e).ck = if c then d.ck else e.ck := apply_ite Dev.ck c d e

/-- A loop of updates that each keep the Cistern keeps it. -/
theorem Dev.foldl_ck {α : Type} {f : Dev → α → Dev} (hf : ∀ e x, (f e x).ck = e.ck) (l : List α) (d : Dev) : (l.foldl f d).ck = d.ck := by
  induction l generalizing d with
  | nil => rfl
  | cons x xs ih => rw [List.foldl_cons, ih, hf]

@[simp] theorem Dev.bump_ck (d : Dev) (r : Reg) (i : Nat) : (d.bump r i).ck = d.ck := (Dev.Kin.bump ..).ck
@[simp] theorem Dev.wr64_ck (d : Dev) (r : Reg) (v i : Nat) : (d.wr64 r v i).ck = d.ck := (Dev.Kin.wr64 ..).ck
@[simp] theorem Dev.add64_ck (d : Dev) (r : Reg) (n i : Nat) : (d.add64 r n i).ck = d.ck := Dev.wr64_ck ..
@[simp] theorem Dev.setBit_ck (d : Dev) (r : Reg) (n : Nat) (v : Bool) (i : Nat) : (d.setBit r n v i).ck = d.ck := Dev.wr_ck ..

@[simp] theorem Dev.alertDrive_ck (d : Dev) : d.alertDrive.ck = d.ck := by
  unfold Dev.alertDrive
  extract_lets held drive m e wire was g
  have he : e.ck = d.ck := by unfold e; split <;> rfl
  have hg : g.ck = d.ck := by rw [Dev.set_ck, Dev.set_ck, he]
  split
  · rw [Dev.raise_ck, hg]
  · exact hg

@[simp] theorem Dev.alert_ck (d : Dev) (n : Nat) : (d.alert n).ck = d.ck := by simp [Dev.alert]
@[simp] theorem Dev.pldmEvent_ck (d : Dev) (sensor level : Nat) : (d.pldmEvent sensor level).ck = d.ck := by
  unfold Dev.pldmEvent; split <;> simp
@[simp] theorem Dev.sensorLevel_ck (d : Dev) (sensor level : Nat) : (d.sensorLevel sensor level).ck = d.ck := by simp [Dev.sensorLevel]
@[simp] theorem Dev.fatal_ck (d : Dev) (level cause : Nat) : (d.fatal level cause).ck = d.ck := by simp [Dev.fatal]
@[simp] theorem Dev.ueSeen_ck (d : Dev) (b mem word : Nat) : (d.ueSeen b mem word).ck = d.ck := by simp [Dev.ueSeen]
@[simp] theorem Dev.controlUe_ck (d : Dev) (b page mem word : Nat) : (d.controlUe b page mem word).ck = d.ck := by simp [Dev.controlUe]
@[simp] theorem Dev.eccUse_ck (d : Dev) (b page mem w n : Nat) : (d.eccUse b page mem w n).ck = d.ck := Dev.foldl_ck (fun _ _ => Dev.controlUe_ck ..) ..

@[simp] theorem Dev.scaleEcc_ck (d : Dev) (t : Nat) : (d.scaleEcc t).ck = d.ck := by
  unfold Dev.scaleEcc
  simp only
  split <;> exact Dev.eccUse_ck ..

/-- The record's draws of new words change no Cistern. -/
theorem Dev.verdictFix_ck (bad w : List Nat) (p : Nat) (l : List Nat) (a : List Nat × Dev) :
    (l.foldl (Dev.verdictFix bad w p) a).2.ck = a.2.ck := by
  induction l generalizing a with
  | nil => rfl
  | cons j l ih =>
    rw [List.foldl_cons, ih, Dev.verdictFix]
    split_ifs <;> rfl

@[simp] theorem Dev.verdictEcc_ck (d : Dev) (p : Nat) : (d.verdictEcc p).ck = d.ck :=
  (Dev.verdictFix_ck ..).trans (Dev.eccUse_ck ..)

@[simp] theorem Dev.touchScales_ck (d : Dev) (p : Nat → Bool) : (d.touchScales p).ck = d.ck := Dev.foldl_ck Dev.scaleEcc_ck ..
@[simp] theorem Dev.touchVerdict_ck (d : Dev) (step : Nat) : (d.touchVerdict step).ck = d.ck := Dev.foldl_ck Dev.verdictEcc_ck ..

/-! Sending on the links. -/

@[simp] theorem Dev.linkEmit_ck (l : Nat) : ∀ (n : Nat) (fs : List Flit) (d : Dev), (d.linkEmit l n fs).ck = d.ck
  | 0, _, _ => rfl
  | n + 1, fs, d => by
    have hgroup (e : Dev) (gs : List Flit) : (e.linkGroup l gs).ck = e.ck := rfl
    simp [Dev.linkEmit, Dev.linkEmit_ck l n, hgroup]
@[simp] theorem Dev.linkPump_ck (d : Dev) (l : Nat) : (d.linkPump l).ck = d.ck := by
  unfold Dev.linkPump
  split
  · exact (Dev.linkEmit_ck ..).trans (Dev.foldl_ck (fun _ _ => Dev.bump_ck ..) ..)
  · rfl
@[simp] theorem Dev.linkQueue_ck (d : Dev) (l need : Nat) (m : Flit) : (d.linkQueue l need m).ck = d.ck := Dev.linkPump_ck ..
@[simp] theorem Dev.detoured_ck (d : Dev) (s : Nat) : (d.detoured s).ck = d.ck := by
  rw [← Dev.bump_ck d .DETOUR_COUNT 0]
  unfold Dev.detoured
  simp only
  generalize d.bump .DETOUR_COUNT = e
  split
  · rfl
  · exact Dev.raise_ck ..
@[simp] theorem Dev.setPath_ck (d : Dev) (tier unit : Nat) (failed : Bool) : (d.setPath tier unit failed).ck = d.ck := by
  unfold Dev.setPath Dev.t4Paths
  cases hn : d.nodeReg unit <;> simp
@[simp] theorem Dev.routesChanged_ck (d : Dev) : d.routesChanged.ck = d.ck := by
  unfold Dev.routesChanged
  refine (Dev.foldl_ck (fun e n => ?_) ..).trans ((Dev.foldl_ck (fun _ _ => Dev.raise_ck ..) ..).trans rfl)
  simp
@[simp] theorem Dev.touchRoute_ck (d : Dev) (node : Nat) : (d.touchRoute node).ck = d.ck := by
  unfold Dev.touchRoute
  simp only
  split
  · exact (Dev.routesChanged_ck _).trans (Dev.eccUse_ck ..)
  · rfl
@[simp] theorem Dev.routeAll_ck (d : Dev) (dst : Nat) (inDim : Option Nat) (ms : List Flit) : (d.routeAll dst inDim ms).1.ck = d.ck := by
  rw [← Dev.touchRoute_ck d dst]
  unfold Dev.routeAll
  simp only
  generalize d.touchRoute dst = e
  split
  · exact Dev.foldl_ck (fun _ _ => Dev.bump_ck ..) ..
  · split
    · rfl
    · refine (Dev.foldl_ck (fun _ _ => Dev.linkQueue_ck ..) ..).trans ?_
      split
      · exact Dev.foldl_ck (fun _ _ => Dev.detoured_ck ..) ..
      · rfl
@[simp] theorem Dev.lrSend_ck (d : Dev) (dst : Nat) (ms : List Flit) : (d.lrSend dst ms).1.ck = d.ck := by
  unfold Dev.lrSend
  split
  · rfl
  · exact Dev.routeAll_ck ..

/-! A task's end. -/

@[simp] theorem Dev.updTask_ck (d : Dev) (tag : Nat) (f : Task → Task) : (d.updTask tag f).ck = d.ck := rfl
@[simp] theorem Dev.acceptTask_ck (d : Dev) (tag : Nat) : (d.acceptTask tag).ck = d.ck := rfl
@[simp] theorem Dev.dropTask_ck (d : Dev) (tag : Nat) : (d.dropTask tag).ck = d.ck := rfl
@[simp] theorem Dev.hdone_ck (d : Dev) (tag : Nat) : (d.hdone tag).ck = d.ck := by
  refine Dev.foldl_ck (fun e n => ?_) ..
  split <;> rfl
@[simp] theorem Dev.orphan_ck (d : Dev) (t : Task) : (d.orphan t).ck = d.ck := by simp [Dev.orphan]
@[simp] theorem Dev.countLate_ck (d : Dev) (t : Task) : (d.countLate t).ck = d.ck := by simp [Dev.countLate, Dev.traceStall]
@[simp] theorem Dev.writeRecord_ck (d : Dev) (t : Task) : (d.writeRecord t).ck = d.ck := by simp [Dev.writeRecord, Dev.traceTaskDone]
@[simp] theorem Dev.ringFull_ck (d : Dev) (t : Task) : (d.ringFull t).ck = d.ck := by simp [Dev.ringFull]
@[simp] theorem Dev.tryRecord_ck (d : Dev) (tag : Nat) : (d.tryRecord tag).ck = d.ck := by
  unfold Dev.tryRecord; split <;> simp
@[simp] theorem Dev.taskEnd_ck (d : Dev) (tag outcome cause moved : Nat) : (d.taskEnd tag outcome cause moved).ck = d.ck := by
  unfold Dev.taskEnd
  cases d.task? tag with
  | none => rfl
  | some t0 =>
    simp only
    split_ifs <;> simp
@[simp] theorem Dev.served_ck (d : Dev) (tag moved : Nat) : (d.served tag moved).ck = d.ck := Dev.taskEnd_ck ..
@[simp] theorem Dev.refuse_ck (d : Dev) (tag cause : Nat) : (d.refuse tag cause).ck = d.ck := by
  unfold Dev.refuse; split <;> simp

/-! The Cistern's own work leaves the restore in progress. -/

/-- A loop of updates that each keep the restore keeps it. -/
theorem Dev.foldl_restore {α : Type} {f : Dev → α → Dev} (hf : ∀ e x, (f e x).ck.restore = e.ck.restore) (l : List α) (d : Dev) :
    (l.foldl f d).ck.restore = d.ck.restore := by
  induction l generalizing d with
  | nil => rfl
  | cons x xs ih => rw [List.foldl_cons, ih, hf]

@[simp] theorem Dev.updRegion_restore (d : Dev) (r : Nat) (f : Region → Region) : (d.updRegion r f).ck.restore = d.ck.restore := rfl
@[simp] theorem Dev.updNbr_restore (d : Dev) (r x : Nat) (f : Nbr → Nbr) : (d.updNbr r x f).ck.restore = d.ck.restore := rfl
@[simp] theorem Dev.offer_restore (d : Dev) (r x op epoch : Nat) : (d.offer r x op epoch).ck.restore = d.ck.restore := by
  unfold Dev.offer; split <;> simp
@[simp] theorem Dev.offerOpen_restore (d : Dev) (r : Nat) : (d.offerOpen r).ck.restore = d.ck.restore := by
  unfold Dev.offerOpen
  split
  · rfl
  · refine Dev.foldl_restore (fun e x => ?_) ..
    split
    · split <;> simp
    · rfl
theorem Dev.commitTasks_ck (d : Dev) (r : Nat) (prev : Option Nat) (step : Nat) (unprot : Bool) : (d.commitTasks r prev step unprot).ck = d.ck :=
  Dev.foldl_ck (fun e t => by simp) ..
@[simp] theorem Dev.commitDone_restore (d : Dev) (r : Nat) (c : CkPoint) (unprot : Bool) : (d.commitDone r c unprot).ck.restore = d.ck.restore := by
  unfold Dev.commitDone
  rw [Dev.offerOpen_restore, Dev.commitTasks_ck]
  split <;> simp
@[simp] theorem Dev.regionEcc_restore (d : Dev) (r : Nat) : (d.regionEcc r).ck.restore = d.ck.restore := by
  unfold Dev.regionEcc
  refine (Dev.foldl_restore (fun e t => ?_) ..).trans ((Dev.updRegion_restore ..).trans (congrArg Ck.restore (Dev.eccUse_ck ..)))
  simp
@[simp] theorem Dev.touchRegions_restore (d : Dev) (p : Nat → Bool) : (d.touchRegions p).ck.restore = d.ck.restore :=
  Dev.foldl_restore Dev.regionEcc_restore ..
@[simp] theorem Dev.commitPoint_restore (d : Dev) (r : Nat) : (d.commitPoint r).ck.restore = d.ck.restore := by
  rw [← Dev.touchRegions_restore d fun x => x == r]
  unfold Dev.commitPoint
  simp only
  generalize d.touchRegions (fun x => x == r) = e
  cases e.region? r with
  | none => rfl
  | some g =>
    simp only
    split
    · rfl
    · simp only [Dev.ite_ck, apply_ite Ck.restore, Dev.commitDone_restore, Dev.wr64_ck]
      rw [ite_self]
      refine (Dev.foldl_restore (fun _ _ => Dev.updNbr_restore ..) ..).trans ?_
      have hck : ((e.touchScales fun _ => g.train).touchVerdict g.nextStep).ck = e.ck := (Dev.touchVerdict_ck ..).trans (Dev.touchScales_ck ..)
      generalize (e.touchScales fun _ => g.train).touchVerdict g.nextStep = f at hck ⊢
      exact (Dev.updRegion_restore ..).trans (congrArg Ck.restore hck : f.ck.restore = e.ck.restore)
@[simp] theorem Dev.takeQueued_restore (r : Nat) : ∀ (n : Nat) (d : Dev), (d.takeQueued r n).ck.restore = d.ck.restore
  | 0, _ => rfl
  | n + 1, d => by
    rw [Dev.takeQueued]
    split
    · split
      · rw [Dev.takeQueued_restore r n, Dev.commitPoint_restore, Dev.updRegion_restore]
      · rfl
    · rfl
@[simp] theorem Dev.commitCheck_restore (d : Dev) (r : Nat) : (d.commitCheck r).ck.restore = d.ck.restore := by
  unfold Dev.commitCheck
  split
  · split <;> simp
  · rfl
/-- The loss of a neighbour ends no restore. -/
@[simp] theorem Dev.nbrLost_restore (d : Dev) (r x : Nat) : (d.nbrLost r x).ck.restore = d.ck.restore := Dev.commitCheck_restore ..

/-! ### Tasks and timers (R426 to R443) -/

/-- An update of a slot is judged by what it makes of that slot. -/
theorem Dev.updSlot_congr {d : Dev} {n : Nat} (hn : n < d.ck.slots.length) {f g : HSlot → HSlot} (h : f (d.slot n) = g (d.slot n)) :
    d.updSlot n f = d.updSlot n g := by
  have hget : d.slot n = d.ck.slots[n] := List.getD_eq_getElem _ _ hn
  rw [hget] at h
  have hmod : d.ck.slots.modify n f = d.ck.slots.modify n g := by
    rw [List.modify_eq_set_getElem?, List.modify_eq_set_getElem?, List.getElem?_eq_getElem hn,
      Option.map_eq_map, Option.map_some, Option.map_eq_map, Option.map_some, h]
  rw [Dev.updSlot, Dev.updSlot, hmod]

/-- RESTORE of one region whose objects are all DRY asks the node for its record (R434). -/
theorem exec_restore_one {s : State} (hl : s.Live) {t : Task} {g : Region} {e r : Dev} {rs : Restore} (h : s.dev.CkReady t 3) (h12 : bitsOf t.w1 12 20 = 0)
    (h41 : bitsOf t.w1 41 23 = 0) (hr : s.dev.ck.restore = none) (hoff : s.dev.regionOff t = false) (hgs : s.dev.namedRegions t = [g])
    (hpoint : g.point = false) (hdry : (g.objs.any fun h => ((s.dev.objAt (hIndex h)).map Obj.state).getD oFREE != oDRY) = false)
    (he : e = s.dev.acceptTask t.tag)
    {part : RPart} (hpart : part = { region := g.id, st := 0, record := [], wet := [], train := [], left := 0, todo := [] })
    (hrs : rs =
      { tag := t.tag, node := bitsOf t.w1 0 12, epoch := t.w2, force := bitsOf t.w1 40 1 == 1, stage := 0, parts := [part] })
    (hre : r = ((({ e with ck := { e.ck with restore := some rs } } : Dev).set .CK_STATUS_RESTORING 1).set .RESTORE_STATUS_BUSY 1).wr64
      .RESTORE_BYTES_LO 0) :
    exec (.restore t.tag) s = .next (s.on (r.lrMsg 7 (bitsOf t.w1 0 12) (g.id * 16 + 4) 0 (leBytes 8 t.w2 ++
      leBytes 2 (r.get .CK_GEN_GEN) ++ leBytes 2 r.plan.leaseMs ++ leBytes 4 (r.manifestCrc g) ++ leBytes 8 (g.blocks * 65536) ++
      leBytes 8 0))) := by
  rw [exec_restore, execRestore, State.run_live hl, ckTask_at h _ _ (by simp [h12, h41]), if_neg (by simp [hr]), hgs,
    if_neg (by simp [hoff, hpoint]), if_neg (by simp only [List.flatMap_cons, List.flatMap_nil, List.append_nil, hdry]; simp)]
  rw [he, Dev.acceptTask_ck, hrs, hpart] at hre
  extract_lets node p a c d1 d2
  have hd : d2 = r := hre.symm
  rw [hd, List.foldl_cons, List.foldl_nil]

/-- Settles O34: a task by its checks in their order, a timer when its time has come. -/
theorem cisternTasksComplete : Obligations.CisternTasksComplete := by
  unfold Obligations.CisternTasksComplete
  intro s hl
  dsimp only
  refine ⟨fun t h h40 h2 hoff hpast hunprot => ?commit, fun t h h40 h2 hoff => ?commitOff, fun t h h0 h41 h2 hoff => ?trickle,
    fun t h h12 h41 hr hoff => ?restoreBusy, fun t h h12 h41 hr hoff hgs => ?restoreNone,
    fun t g h h12 h41 hr hoff hgs hpoint hdry => ?restoreOne, fun node hsleep hdue => ?leaseSend,
    fun node g x y hsleep hregs hix hx hnode hsilent hr => ?leaseLost, fun node g x y hsleep hregs hix hx hnode hst hoff htime => ?reoffer,
    fun n b0 b1 t ms hsleep hlease htime hbufs h0 h1 hn => ?hostExpiry, fun p n v hp hn hlive => ?slotCtrl,
    fun p n v hp hn hlive => ?slotCtrlLive, fun p v g hp hv hg hhalt => ?resume⟩
  case commit =>
    rw [exec_commit, execCommit, State.run_live hl, ckTask_at h _ _ (by simp [h40, h2]), if_neg (by simp [hoff]), if_neg (by simp [hpast]),
      if_neg (by simp [hunprot])]
  case commitOff =>
    rw [exec_commit, execCommit, State.run_live hl, ckTask_at h _ _ (by simp [h40, h2]), if_pos hoff]
  case trickle =>
    rw [exec_trickle, execTrickle, State.run_live hl, ckTask_at h _ _ (by simp [h0, h41, h2]), if_neg (by simp [hoff])]
  case restoreBusy =>
    rw [exec_restore, execRestore, State.run_live hl, ckTask_at h _ _ (by simp [h12, h41]), if_neg (by simp [hr]), if_pos (by simp [hoff])]
  case restoreNone =>
    rw [exec_restore, execRestore, State.run_live hl, ckTask_at h _ _ (by simp [h12, h41]), if_neg (by simp [hr]), hgs,
      if_neg (by simp [hoff]), if_neg (by simp), Dev.acceptTask_ck]
    rfl
  case restoreOne => exact exec_restore_one hl h h12 h41 hr hoff hgs hpoint hdry rfl rfl rfl rfl
  case leaseSend =>
    rw [exec_leaseSendTimer, execLeaseSendTimer, State.run_live hl, if_pos (by rw [hdue, hsleep]; rfl)]
  case leaseLost =>
    have hrest : (((s.dev.bump .LEASE_LOST_COUNT).raise ckBlk 0 1).nbrLost g.id x).ck.restore = none := by simp [hr]
    rw [exec_leaseLost, execLeaseLost, State.run_live hl]
    simp only [hregs, List.flatMap_cons, List.flatMap_nil, List.append_nil, hix, List.filter_cons, List.filter_nil, hx, hnode, hsilent,
      beq_self_eq_true, Bool.and_self, if_true, List.map_cons, List.map_nil, List.isEmpty_cons, Bool.false_eq_true, false_or, hsleep, if_false,
      List.foldl_cons, List.foldl_nil, hrest]
  case reoffer =>
    rw [exec_reofferTimer, execReofferTimer, State.run_live hl, if_neg (by simp [hsleep]), hregs, List.foldl_cons, List.foldl_nil, hix,
      List.foldl_cons, List.foldl_nil, hx]
    dsimp only
    rw [if_pos ⟨hnode, hst, by simp [hoff], htime⟩]
  case hostExpiry =>
    rw [exec_hostLeaseExpiry, execHostLeaseExpiry, State.run_live hl, hlease]
    dsimp only
    rw [if_neg (by simp [hsleep, htime]), Dev.updSlot_congr hn]
    simp [hbufs, h0, h1]
  case slotCtrl =>
    rw [exec_hostSlotCtrlWrite, execHostSlotCtrlWrite, State.run_live hl, Dev.viaReg_writes hp, Dev.hostSlotWrite, if_neg (by omega),
      if_neg (by simp [hlive])]
  case slotCtrlLive =>
    rw [exec_hostSlotCtrlWrite, execHostSlotCtrlWrite, State.run_live hl, Dev.viaReg_writes hp, Dev.hostSlotWrite, if_neg (by omega),
      if_pos hlive]
  case resume =>
    rw [exec_ckRegionResume, execCkRegionResume, State.run_live hl, Dev.viaBus_writes hp, Dev.ckRegionWrite, if_neg (not_not.mpr hv), hg]
    dsimp only
    rw [if_pos hhalt]

end Sys2Proof.Machine

/-! The Cistern's messages: those of a writer's neighbours and those of a writer at its host (chapter 19). -/
namespace Sys2Proof.Machine

theorem Dev.touchRegions_clean {d : Dev} (h : d.EccFree 0x0A) (p : Nat → Bool) : d.touchRegions p = d := by
  rw [Dev.touchRegions, eccTouch_free h]

/-- Settles O35: each answer is taken from the front, its sender found among the region's neighbours. -/
theorem checkpointAnswersComplete : Obligations.CheckpointAnswersComplete := by
  unfold Obligations.CheckpointAnswersComplete
  intro s l m hl
  dsimp only
  refine ⟨fun ⟨hat, hop, hecc⟩ hok hB g x n hg hn hoffer => ?accept, fun ⟨hat, hop, hecc⟩ hok hB g x n hg hn hoffer => ?acceptEpoch,
    fun ⟨hat, hop, hecc⟩ hok x n hn hlive => ?refuse, fun ⟨hat, hop, hecc⟩ h16 hB h8 h10 x n j hn hj hstage hepoch hst => ?commitAck,
    fun ⟨hat, hop, hecc⟩ h64 hB h12 t g p ht hg hp hnode hst h4 h3 hcrc htrain => ?record,
    fun ⟨hat, hop, hecc⟩ hbody hB h8 t p ht hp hnode hst => ?noRecord,
    fun ⟨hat, hop, hecc⟩ h8 hB h4 h6 g y hregs hnbrs hnode hasked hbit => ?lease,
    fun ⟨hat, hop, hecc⟩ h16 hB h8 h10 g x hg hx => ?fence⟩
  case accept =>
    rw [exec_ckptOfferAccept, execCkptOfferAccept, State.run_live hl, lrTake_op hat hop _ (by simp [hok, hB])]
    dsimp only
    rw [Dev.touchRegions_clean hecc, hg, hn]
    dsimp only
    rw [hoffer]
    simp
  case acceptEpoch =>
    rw [exec_ckptOfferAccept, execCkptOfferAccept, State.run_live hl, lrTake_op hat hop _ (by simp [hok, hB])]
    dsimp only
    rw [Dev.touchRegions_clean hecc, hg, hn]
    dsimp only
    rw [hoffer]
    simp
  case refuse =>
    rw [exec_ckptOfferRefuse, execCkptOfferRefuse, State.run_live hl, lrTake_op hat hop _ hok]
    dsimp only
    rw [hn]
    dsimp only
    rw [if_pos hlive]
  case commitAck =>
    rw [exec_ckptCommitAck, execCkptCommitAck, State.run_live hl, lrTake_op hat hop _ (by simp [h16, hB, h8, h10])]
    dsimp only
    rw [Dev.touchRegions_clean hecc, hn]
    dsimp only
    rw [hj]
    dsimp only
    rw [if_neg (by simp [hstage, hepoch]), if_neg hst]
  case record =>
    rw [exec_ckptCommitRecord, execCkptCommitRecord, State.run_live hl, lrTake_op hat hop _ (by simp [h64, hB, h12])]
    dsimp only
    rw [ht, hg, hp]
    dsimp only
    rw [if_neg (by simp [hnode, hst]), if_neg h4, if_neg (by rcases h3 with h3 | h3 <;> simp [h3]), if_neg (by simp [hcrc, htrain])]
  case noRecord =>
    rw [exec_ckptCommitNoRecord, execCkptCommitNoRecord, State.run_live hl,
      lrTake_op hat hop _ (by rcases hB with hB | hB <;> simp [hbody, hB, h8]), ht, hp]
    dsimp only
    rw [if_pos ⟨hnode, hst⟩]
  case lease =>
    rw [exec_leaseAnswer, execLeaseAnswer, State.run_live hl, lrTake_op hat hop _ (by simp [h8, hB, h4, h6])]
    dsimp only
    rw [hregs, if_pos (by simp [hnbrs, hnode, hasked, hbit])]
    simp [hnbrs, hnode, hasked, hbit]
  case fence =>
    rw [exec_fenceAck, execFenceAck, State.run_live hl, lrTake_op hat hop _ (by simp [h16, hB, h8, h10])]
    dsimp only
    rw [hg]
    dsimp only [Option.bind_some]
    rw [hx]

theorem Dev.touchHost_clean {d : Dev} (h : d.EccFree 0x0A) (src region : Nat) : d.touchHost src region = d := by
  unfold Dev.touchHost
  split
  · rw [Dev.touchSlot, eccTouch_free h]
  · rfl

/-- An offer of a writer that no slot names is refused (R432). -/
theorem Dev.hostOffer_noSlot {d : Dev} {l op : Nat} {m : Flit} (h : d.CkMsgAt l 7 op m) (hreply : d.canReply m.src 1 = true)
    (hok : offerOk m = true) (hB : m.msgB = 0) (hslot : (d.rxPop l m).slotFor m.src (bitsOf m.msgA 4 4) = none) :
    d.hostOffer l op = (d.rxPop l m).hostRefuse m.src (bitsOf m.msgA 4 4) (m.fld 0 8) (m.fld 8 2) cNoSlot := by
  obtain ⟨hat, hop, hecc⟩ := h
  have hhead : d.rxHead l 1 = some m := hat.1
  rw [Dev.hostOffer, hhead]
  dsimp only
  rw [if_neg (by simp [hreply]), lrTake_op hat hop _ (by simp [hok, hB])]
  rw [Dev.touchHost_clean hecc, hslot]

/-- A new offer that the slot has room for is accepted (R430). -/
theorem Dev.hostOffer_accept {d : Dev} {l op : Nat} {m : Flit} (h : d.CkMsgAt l 7 op m) (hreply : d.canReply m.src 1 = true)
    (hok : offerOk m = true) (hB : m.msgB = 0) {n : Nat} (hslot : (d.rxPop l m).slotFor m.src (bitsOf m.msgA 4 4) = some n)
    (hgen : ((d.rxPop l m).slot n).gen ≤ m.fld 8 2)
    (hneed : slotNeed (m.fld 16 8) ≤ (((d.rxPop l m).slot n).place.map Place.size).getD 0)
    (hlast : ((d.rxPop l m).slot n).last ≠ some (op, m.fld 0 8, m.fld 8 2))
    (hprev : op = 2 → (((d.rxPop l m).slot n).buf ((m.fld 0 8 + 1) % 2)).st = 2 ∧
      (((d.rxPop l m).slot n).buf ((m.fld 0 8 + 1) % 2)).epoch + 1 = m.fld 0 8) :
    d.hostOffer l op = (d.rxPop l m).hostAccept n op m := by
  obtain ⟨hat, hop, hecc⟩ := h
  have hhead : d.rxHead l 1 = some m := hat.1
  have hbuf : ¬ (op = 2 ∧ (!((((d.rxPop l m).slot n).buf ((m.fld 0 8 + 1) % 2)).st == 2 &&
      (((d.rxPop l m).slot n).buf ((m.fld 0 8 + 1) % 2)).epoch + 1 == m.fld 0 8)) = true) := by
    rintro ⟨h2, hbad⟩
    obtain ⟨hst, hepoch⟩ := hprev h2
    simp [hst, hepoch] at hbad
  rw [Dev.hostOffer, hhead]
  dsimp only
  rw [if_neg (by simp [hreply]), lrTake_op hat hop _ (by simp [hok, hB])]
  rw [Dev.touchHost_clean hecc, hslot]
  dsimp only
  rw [if_neg (fun h => hlast h.1), if_neg (Nat.not_lt.mpr hgen), if_neg (Nat.not_lt.mpr hneed), if_neg hbuf, if_pos rfl]

theorem exec_offer {s : State} (hl : s.Live) {l op : Nat} {cmd : Instr}
    (hcmd : (op = 1 ∧ cmd = Instr.ckptOfferFirst l) ∨ (op = 2 ∧ cmd = Instr.ckptOfferEpoch l) ∨ (op = 3 ∧ cmd = Instr.ckptOfferRejoin l)) :
    exec cmd s = .next (s.on (s.dev.hostOffer l op)) := by
  rcases hcmd with ⟨rfl, rfl⟩ | ⟨rfl, rfl⟩ | ⟨rfl, rfl⟩
  · rw [exec_ckptOfferFirst, execCkptOfferFirst, State.run_live hl]
  · rw [exec_ckptOfferEpoch, execCkptOfferEpoch, State.run_live hl]
  · rw [exec_ckptOfferRejoin, execCkptOfferRejoin, State.run_live hl]

/-- Of the sixteen regions a mask of 1 names the first. -/
theorem regionsOfMask_one : (List.range 16).filter (fun r => bitsOf 1 r 1 == 1) = [0] := by decide

/-- Settles O36: each message is taken from the front, its slot found by the sender and the region. -/
theorem hostingCompletes : Obligations.HostingCompletes := by
  unfold Obligations.HostingCompletes
  intro s l m hl
  dsimp only
  refine ⟨fun op cmd hcmd h hreply hok hB => ⟨fun hslot => ?noSlot, fun n hslot hgen hneed hlast hprev => ?accept⟩,
    fun ⟨hat, hop, hecc⟩ hreply hok hB n b hslot hb hepoch hst => ?query, fun ⟨hat, hop, hecc⟩ hbody h16 n b hslot hfill hgen harea => ?data,
    fun ⟨hat, hop, hecc⟩ h64 hB h8 n ep g b hslot hep hg hb hgen hst hepoch => ?commit,
    fun ⟨hat, hop, hecc⟩ h8 hB h4 h6 h0 n hslot hgen => ?renew, fun ⟨hat, hop, hecc⟩ h16 hB h8 h10 n hslot hgen => ?fence⟩
  case noSlot => rw [exec_offer hl hcmd, Dev.hostOffer_noSlot h hreply hok hB hslot]
  case accept => rw [exec_offer hl hcmd, Dev.hostOffer_accept h hreply hok hB hslot hgen hneed hlast hprev]
  case query =>
    have hhead : s.dev.rxHead l 1 = some m := hat.1
    rw [exec_ckptOfferQuery, execCkptOfferQuery, State.run_live hl, hhead]
    dsimp only
    rw [if_neg (by simp [hreply]), lrTake_op hat hop _ (by simp [hok, hB])]
    rw [hslot]
    dsimp only
    rw [← hb, if_neg (by rcases hst with hst | hst <;> simp [hepoch, hst]), if_neg (by rcases hst with hst | hst <;> simp [hst])]
  case data =>
    rw [exec_ckptData, execCkptData, State.run_live hl, lrTake_at hat _ (by simp [hbody, h16])]
    dsimp only
    rw [Dev.touchHost_clean hecc, hslot]
    dsimp only
    rw [hfill]
    dsimp only
    rw [if_neg (not_not.mpr hgen), harea]
    rfl
  case commit =>
    rw [exec_ckptCommitCommit, execCkptCommitCommit, State.run_live hl, lrTake_op hat hop _ (by simp [h64, hB, h8])]
    dsimp only
    rw [Dev.touchHost_clean hecc, hslot]
    dsimp only
    rw [← hep, ← hg, ← hb, if_neg (Nat.not_lt.mpr hgen), if_neg (by simp [hst]), if_pos ⟨hst, hepoch⟩]
  case renew =>
    rw [exec_leaseRenew, execLeaseRenew, State.run_live hl, lrTake_op hat hop _ (by simp [h8, hB, h4, h6])]
    dsimp only
    rw [h0, regionsOfMask_one]
    simp only [List.foldl_cons, List.foldl_nil, hslot, if_neg (Nat.not_lt.mpr hgen)]
    rw [if_neg (by simp), Nat.zero_add, pow_zero]
  case fence =>
    rw [exec_fenceFence, execFenceFence, State.run_live hl, lrTake_op hat hop _ (by simp [h16, hB, h8, h10])]
    dsimp only
    rw [Dev.touchHost_clean hecc, hslot]
    dsimp only
    rw [if_neg (Nat.not_lt.mpr hgen)]

end Sys2Proof.Machine

/-! The partner ports (chapter 20). -/
namespace Sys2Proof.Machine

/-! ### What a trace packet leaves unchanged -/

/-- The registers of every block before the Trace Unit's read in `e` as in `d`. -/
structure Dev.Low (d e : Dev) : Prop where
  rdk : ∀ k < regKey 108 0 0, e.rdk k = d.rdk k

theorem Dev.Low.refl (d : Dev) : d.Low d := ⟨fun _ _ => rfl⟩
theorem Dev.Low.trans {d e f : Dev} (h : d.Low e) (g : e.Low f) : d.Low f := ⟨fun k hk => (g.rdk k hk).trans (h.rdk k hk)⟩
theorem Dev.Low.of_regs {d e : Dev} (h : e.regs = d.regs) : d.Low e := ⟨fun k _ => Dev.rdk_congr h k⟩
theorem Dev.Low.withTrc (d : Dev) (t : Trc) : d.Low { d with trc := t } := .of_regs rfl

theorem Dev.Low.wbs (d : Dev) (sp a : Nat) (v : List Byte) : d.Low (d.wbs sp a v) := .of_regs (Dev.wbs_regs ..)

theorem Dev.Low.hwr (d : Dev) {b : Nat} (hb : 108 ≤ b) (page off v : Nat) : d.Low (d.hwr b page off v) :=
  ⟨fun k hk => Dev.rdk_wrk_ne d v (by unfold regKey at *; omega)⟩

theorem Dev.Low.wr (d : Dev) {r : Reg} (hr : 108 ≤ blkBase r.cls) (v i : Nat) : d.Low (d.wr r v i) :=
  Dev.Low.hwr d (Nat.le_add_right_of_le hr) ..

theorem Dev.Low.set (d : Dev) {f : Fld} (hf : 108 ≤ blkBase f.reg.cls) (v i : Nat) : d.Low (d.set f v i) := Dev.Low.wr d hf ..
theorem Dev.Low.bump (d : Dev) {r : Reg} (hr : 108 ≤ blkBase r.cls) (i : Nat) : d.Low (d.bump r i) := Dev.Low.wr d hr ..

theorem Dev.Low.wr64 (d : Dev) {r : Reg} (hr : 108 ≤ blkBase r.cls) (hi : 108 ≤ blkBase r.hi.cls) (v i : Nat) : d.Low (d.wr64 r v i) :=
  (Dev.Low.wr d hr ..).trans (Dev.Low.wr _ hi ..)

theorem Dev.Low.irqSet (d : Dev) {b : Nat} (hb : 108 ≤ b) (page bit : Nat) : d.Low (d.irqSet b page bit) :=
  ((Dev.Low.hwr d hb ..).trans (Dev.Low.hwr _ hb ..)).trans (.of_regs (Dev.irqSet_regs ..))

theorem Dev.Low.setLine (d : Dev) (l : List Byte) : d.Low (d.setLine l) := (Dev.Low.withTrc ..).trans (Dev.Low.set _ (by decide) ..)

theorem Dev.Low.trcStop (d : Dev) (c : Nat) : d.Low (d.trcStop c) :=
  ((((Dev.Low.set d (by decide) ..).trans (Dev.Low.set _ (by decide) ..)).trans (Dev.Low.set _ (by decide) ..)).trans
    (Dev.Low.set _ (by decide) ..)).trans (Dev.Low.withTrc ..)

theorem Dev.Low.trcDrop (d : Dev) (s : Nat) : d.Low (d.trcDrop s) := (Dev.Low.bump d (by decide) ..).trans (Dev.Low.withTrc ..)

theorem Dev.Low.trcClose (d : Dev) : d.Low d.trcClose := by
  unfold Dev.trcClose
  refine .trans ?_ (Dev.Low.wr64 _ (by decide) (by decide) _ _)
  refine .trans ?_ (Dev.Low.setLine ..)
  refine .trans ?_ (Dev.Low.wbs ..)
  exact .withTrc ..

theorem Dev.Low.trcWriteLine (d : Dev) : d.Low d.trcWriteLine.1 := by
  unfold Dev.trcWriteLine
  split
  · exact Dev.Low.refl d
  · have h := Dev.Low.trcClose d
    generalize d.trcClose = e at h ⊢
    refine h.trans ?_
    simp only
    split
    · split
      · exact .withTrc ..
      · exact .refl e
    · refine Dev.Low.trans ?_ (Dev.Low.withTrc ..)
      split
      · exact .withTrc ..
      · exact .refl e

theorem Dev.Low.trcAppend (d : Dev) (t : Nat) (body : List Byte) : d.Low (d.trcAppend t body).1 := by
  unfold Dev.trcAppend
  refine Dev.Low.trans (Dev.Low.trans ?_ (Dev.Low.setLine ..)) (Dev.Low.withTrc ..)
  generalize d.trc.line.length + _ = c
  by_cases h : 64 < c
  · rw [if_pos h]; exact Dev.Low.trcWriteLine d
  · rw [if_neg h]; exact Dev.Low.refl d

theorem Dev.Low.trcLost (d : Dev) : d.Low d.trcLost.1 := by
  unfold Dev.trcLost
  split
  · exact Dev.Low.refl d
  · exact (Dev.Low.trcAppend ..).trans (Dev.Low.withTrc ..)

theorem Dev.Low.trcRecord (d : Dev) (p : Pkt) : d.Low (d.trcRecord p).1 := by
  unfold Dev.trcRecord
  split
  · exact Dev.Low.refl d
  · split
    · exact Dev.Low.trcDrop ..
    · refine (Dev.Low.withTrc d ((d.trc.inTick d.gh.timer).take p.src)).trans ?_
      generalize ({ d with trc := (d.trc.inTick d.gh.timer).take p.src } : Dev) = e
      refine (Dev.Low.trcLost e).trans ?_
      simp only
      split
      · exact Dev.Low.trcDrop ..
      · exact Dev.Low.trcAppend ..

theorem Dev.Low.trcSyncAt (d : Dev) (t ao reason : Nat) : d.Low (d.trcSyncAt t ao reason).1 := (Dev.Low.trcRecord ..).trans (Dev.Low.withTrc ..)

theorem Dev.Low.trcCountHits : ∀ (l : List Nat) (d : Dev), d.Low (d.trcCountHits l).1
  | [], d => Dev.Low.refl d
  | t :: l, d => (((Dev.Low.bump d (r := .TRIG_HITS t) (show 108 ≤ blkBase 0xd0 by decide) 0).trans (Dev.Low.withTrc ..)).trans
      (Dev.Low.trcRecord ..)).trans (Dev.Low.trcCountHits l _)

theorem Dev.Low.trcAct (d : Dev) (hits : List Nat) : d.Low (d.trcAct hits).1 := by
  unfold Dev.trcAct
  simp only
  split
  · exact (Dev.Low.trcStop ..).trans (Dev.Low.trcWriteLine ..)
  · split
    · split
      · exact Dev.Low.refl d
      · exact (Dev.Low.set d (by decide) ..).trans (Dev.Low.withTrc ..)
    · split
      · exact (((Dev.Low.set d (by decide) ..).trans (Dev.Low.set _ (by decide) ..)).trans (Dev.Low.set _ (by decide) ..)).trans
          (Dev.Low.trcSyncAt ..)
      · exact Dev.Low.refl d

theorem Dev.Low.foldl {α : Type} {f : Dev → α → Dev} (hf : ∀ (e : Dev) x, e.Low (f e x)) : ∀ (l : List α) (d : Dev), d.Low (l.foldl f d)
  | [], d => Dev.Low.refl d
  | x :: l, d => (hf d x).trans (Dev.Low.foldl hf l _)

theorem Dev.Low.trcPacket : ∀ (fuel : Nat) (p : Pkt) (d : Dev), d.Low (Dev.trcPacket fuel p d)
  | 0, _, d => Dev.Low.refl d
  | n + 1, p, d => by
    unfold Dev.trcPacket
    simp only
    refine Dev.Low.trans ?_ (Dev.Low.foldl (fun e x => ?_) ..)
    · refine Dev.Low.trans (Dev.Low.trans ?_ (Dev.Low.trcCountHits ..)) (Dev.Low.trcAct ..)
      split
      · exact Dev.Low.refl d
      · exact Dev.Low.trcRecord ..
    · cases x with
      | ev bit => exact (Dev.Low.irqSet e (b := 108) (by decide) ..).trans (Dev.Low.trcPacket n ..)
      | pkt type key => exact Dev.Low.trcPacket n ..

theorem Dev.Low.trace (d : Dev) (p : Pkt) : d.Low (d.trace p) := Dev.Low.trcPacket ..

/-- An event changes two words of its page's header, and the Trace Unit. -/
theorem Dev.raise_rd (d : Dev) {b page : Nat} (bit : Nat) {r : Reg} {i : Nat} (hr : r.key i < regKey 108 0 0)
    (hp : r.key i ≠ regKey b page offPend) (hs : r.key i ≠ regKey b page offSeq) : (d.raise b page bit).rd r i = d.rd r i := by
  rw [Dev.rd, Dev.raise, (Dev.Low.trace ..).rdk _ hr, Dev.rdk_congr (Dev.irqSet_regs ..)]
  exact (Dev.rdk_wrk_ne _ _ hs).trans (Dev.rdk_wrk_ne _ _ hp)

/-! ### A partner's accesses (R447 to R464) -/

/-- A register of a port's second page has a place of its own. -/
theorem Reg.key_page1_ne {r : Reg} (hc : r.cls = 0x90) (hp : r.page = 1) (ho : r.off < 4096) (p : Nat) :
    Reg.PORT_STATUS.key p ≠ r.key p := by
  simp only [Reg.key, hc, hp, regKey, Reg.PORT_STATUS]
  omega

/-- An event of the second page leaves the status of the first. -/
theorem Dev.raise_portStatus (d : Dev) {p : Nat} (hp : p < 8) (bit : Nat) : (d.raise (ppb p) 1 bit).rd .PORT_STATUS p = d.rd .PORT_STATUS p := by
  have hk : Reg.PORT_STATUS.key p = regKey (66 + p) 0 0x80 := rfl
  refine Dev.raise_rd d bit ?_ ?_ ?_
  · rw [hk, regKey, regKey]; omega
  · rw [hk, regKey, regKey, ppb, offPend]; omega
  · rw [hk, regKey, regKey, ppb, offSeq]; omega

/-- The record of a violation leaves the port's mode. -/
theorem Dev.pViol_portCxl (d : Dev) {p : Nat} (hp : p < 8) (addr handle : Nat) :
    (d.pViol p 0x0A0C addr handle).portCxl p = d.portCxl p := by
  have hwr {r : Reg} (e : Dev) (v : Nat) (hc : r.cls = 0x90) (h1 : r.page = 1) (ho : r.off < 4096) :
      (e.wr r v p).rd .PORT_STATUS p = e.rd .PORT_STATUS p := Dev.rd_wr_ne e v (Reg.key_page1_ne hc h1 ho p)
  have hupd (e : Dev) (f : Port → Port) : (e.updPort p f).rd .PORT_STATUS p = e.rd .PORT_STATUS p := rfl
  have hrd : (d.pViol p 0x0A0C addr handle).rd .PORT_STATUS p = d.rd .PORT_STATUS p := by
    unfold Dev.pViol
    simp only [apply_ite (fun e : Dev => e.rd .PORT_STATUS p), hupd, ite_self]
    rw [Dev.raise_portStatus _ hp, apply_ite (fun e : Dev => e.rd .PORT_STATUS p), hwr (r := .VIOL_HANDLE) _ _ rfl rfl (by decide), Dev.wr64, Dev.set, Dev.set,
      hwr (r := Reg.VIOL_ADDR_LO.hi) _ _ rfl rfl (by decide), hwr (r := .VIOL_ADDR_LO) _ _ rfl rfl (by decide),
      hwr (r := Fld.VIOL_FIRST_CODE.reg) _ _ rfl rfl (by decide),
      hwr (r := Fld.VIOL_FIRST_VALID.reg) _ _ rfl rfl (by decide), ite_self]
    exact hwr (r := .PP_VIOL_COUNT (0x0A0C - 0x0A00)) _ _ rfl rfl (by decide)
  rw [Dev.portCxl, Dev.portCxl, Dev.get, Dev.get]
  exact congrArg (fun w => bitsOf w 26 2 == 1) hrd

theorem Dev.pRead_served {d : Dev} {p a len tid : Nat} (hwait : (d.touchBlocks p a len).waitsFor p a len = none)
    (hearly : ((readParts a len).filterMap fun x => match (d.touchBlocks p a len).readPart p (a + x.1) with
      | .hold h => some (a + x.1, h)
      | _ => none) = []) (hfr : (d.touchBlocks p a len).frozen (ppb p) = false) :
    d.pRead p a len tid = (d.touchBlocks p a len).pServe p a len tid := by
  unfold Dev.pRead
  extract_lets e early hold f
  have hnone : early = [] := hearly
  have hf : f = e := by rw [show f = early.foldl (fun e x => e.pViol p 0x0A07 x.1 x.2) e from rfl, hnone, List.foldl_nil]
  rw [hf, hwait]
  dsimp only
  rw [if_neg (by rw [hfr]; exact Bool.false_ne_true)]

theorem Dev.gateRead_entry {d : Dev} {p off size tid g : Nat} (hsize : (size = 8 ∧ off % 8 = 0) ∨ (size = 4 ∧ off % 4 = 0))
    (hg : d.gateOf p off = some g) :
    d.gateRead p off size tid = d.emit (.partner p tid 0 (((leBytes 8 g).drop (off % 8)).take size)) := by
  rw [Dev.gateRead, if_neg (by simp [hsize]), hg]

theorem Dev.gateRead_none {d : Dev} {p off size tid : Nat} (hsize : (size = 8 ∧ off % 8 = 0) ∨ (size = 4 ∧ off % 4 = 0))
    (hg : d.gateOf p off = none) : d.gateRead p off size tid =
      (d.pViol p 0x0A08 off ((off - 0x800000) / 8)).emit (.partner p tid 0 (List.replicate size 0)) := by
  rw [Dev.gateRead, if_neg (by simp [hsize]), hg]

/-- Settles O37: each access at its port, in RUN, by the checks of its kind. -/
theorem partnerAccessesComplete : Obligations.PartnerAccessesComplete := by
  unfold Obligations.PartnerAccessesComplete
  intro s p hl hrun hup
  dsimp only
  refine ⟨fun a data => ?write, fun a data => ?writePoison, fun a len tid hwait hearly hfr => ?read,
    fun off hoff tid size hsize => ⟨fun g hg => ?gate, fun hg => ?gateNone⟩, fun off hoff h4 h20 tid => ?regRead, fun v tid => ?regWrite,
    fun v => ?mark, fun v off size hbad => ?markBad, fun h hh v => ?hint, fun a => ?memspecrd, fun a tid hcxl => ?unsupported,
    fun r tid e he hr hreads hr' hwait hfr hsleep => ?release, fun r tid hr htime hpath => ?expired⟩
  case write =>
    rw [exec_partnerWindowWrite, execPartnerWindowWrite, State.run_live hl, if_pos hup, Dev.heldAccess_inRun hrun, Dev.pWrite,
      if_neg (by simp)]
  case writePoison =>
    rw [exec_partnerWindowWrite, execPartnerWindowWrite, State.run_live hl, if_pos hup, Dev.heldAccess_inRun hrun, Dev.pWrite, if_pos rfl]
  case read =>
    rw [exec_partnerWindowRead, execPartnerWindowRead, State.run_live hl]
    simp only [Bool.false_eq_true, if_false]
    rw [if_pos hup, Dev.heldAccess_inRun hrun, Dev.pRead_served hwait hearly hfr]
  case gate =>
    rw [exec_gateMirrorRead, execGateMirrorRead, State.run_live hl, if_pos ⟨hup, hoff⟩, Dev.heldAccess_inRun hrun,
      Dev.gateRead_entry (by omega) hg, show (0x800000 + off) % 8 = off % 8 by omega]
  case gateNone =>
    rw [exec_gateMirrorRead, execGateMirrorRead, State.run_live hl, if_pos ⟨hup, hoff⟩, Dev.heldAccess_inRun hrun,
      Dev.gateRead_none (by omega) hg, Nat.add_sub_cancel_left]
  case regRead =>
    rw [exec_portRegisterBlockAccess, execPortRegisterBlockAccess, State.run_live hl, if_pos hup, Dev.heldAccess_inRun hrun, Dev.portReg,
      Dev.portRead, if_neg (by omega), if_neg (by simp [h4])]
    have hmirror : s.dev.mirrorRead p off = (s.dev.portWord p off, s.dev) := by rw [Dev.mirrorRead, if_neg (by omega)]
    rw [hmirror]
    dsimp only
    rw [if_neg h20, if_neg (by decide)]
  case regWrite =>
    rw [exec_portRegisterBlockAccess, execPortRegisterBlockAccess, State.run_live hl, if_pos hup, Dev.heldAccess_inRun hrun, Dev.portReg,
      Dev.portWrite, if_pos (by decide), Dev.markWrite, if_neg (by decide)]
  case mark =>
    rw [exec_markDoorbell, execMarkDoorbell, State.run_live hl, if_pos hup, Dev.heldAccess_inRun hrun, Dev.markWrite, if_neg (by decide),
      Nat.mod_eq_of_lt v.isLt]
  case markBad =>
    rw [exec_markDoorbell, execMarkDoorbell, State.run_live hl, if_pos hup, Dev.heldAccess_inRun hrun, Dev.markWrite, if_pos hbad]
  case hint =>
    rw [exec_hintWrite, execHintWrite, State.run_live hl, if_pos hup, Dev.heldAccess_inRun hrun, Dev.hintWrite, if_neg (by omega)]
  case memspecrd => rw [exec_memspecrd, execMemspecrd, State.run_live hl]
  case unsupported =>
    have hp : p < 8 := by
      rw [Dev.portUp, Bool.and_eq_true] at hup
      exact of_decide_eq_true hup.1
    rw [exec_memUnsupported, execMemUnsupported, State.run_live hl, if_neg (by simp [hup]), if_neg (by simp [Dev.pViol_portCxl _ hp, hcxl]),
      if_pos rfl]
  case release =>
    rw [exec_heldReadRelease, execHeldReadRelease, State.run_live hl, Dev.asleep_inRun hrun, if_neg (by simp), he]
    dsimp only
    rw [hreads, List.foldl_cons, List.foldl_nil, hr']
    dsimp only
    rw [if_neg (by simp [hwait, hfr, hsleep])]
  case expired =>
    rw [exec_readExpired, execReadExpired, State.run_live hl, hr]
    dsimp only
    rw [if_neg (by simp [Dev.asleep_inRun hrun, htime]), hpath, if_neg (by simp), if_neg (by simp)]

/-! ### A partner's link (R445 to R465) -/

theorem Dev.mailbox_cxl {d : Dev} {p : Nat} (hup : d.portUp p = true) (hcxl : d.portCxl p = true) (op : Nat) (ok : Bool) (vals : List Nat) :
    d.mailbox p op ok vals = d.emit (.mailbox p op ok vals) := by
  rw [Dev.mailbox, if_pos (by rw [hup, hcxl]; rfl)]

/-- Settles O38: the link's events by its state, the mailbox of a CXL partner. -/
theorem partnerLinkCompletes : Obligations.PartnerLinkCompletes := by
  unfold Obligations.PartnerLinkCompletes
  intro s p hl hp
  dsimp only
  refine ⟨fun hup => ?down, fun w r htrain hup hboot hlink hlast => ?up, fun hlink hleft => ?expiry, fun hperst hsleep => ?perst,
    fun hup => ?flr, fun hup hcxl base size hsize hmax => ?commit, fun hup hcxl k base size ways skip hk hbad => ?commitBad,
    fun hup hcxl => ⟨?info, ?warn, fun n => ?clear, ?logs, ?log, ?identify, ?health, fun op hop => ?unsupported⟩⟩
  case down => rw [exec_partnerLinkDown, execPartnerLinkDown, State.run_live hl, Dev.partnerDown, if_neg (by simp [hup])]
  case up =>
    rw [exec_partnerLinkUp, execPartnerLinkUp, State.run_live hl,
      if_neg (by simp only [htrain, hup]; simp only [Bool.not_true, Bool.false_eq_true, false_or, not_or]; omega)]
    simp only [if_true, if_neg hlink, hlast, ne_eq, not_true_eq_false, false_and, if_false]
  case expiry =>
    rw [exec_partnerHoldExpiry, execPartnerHoldExpiry, State.run_live hl, if_neg (by omega)]
  case perst =>
    rw [exec_ppPerstNFall, execPpPerstNFall, State.run_live hl, if_neg (by omega)]
    exact congrArg (fun d : Dev => Host.Outcome.next (s.on ((d.partnerReset p).partnerDown p))) (if_neg fun h => Bool.false_ne_true (hsleep.symm.trans h))
  case flr => rw [exec_partnerConfigRequest, execPartnerConfigRequest, State.run_live hl, if_pos ⟨hup, rfl⟩]
  case commit =>
    rw [exec_hdmDecoderCommit, execHdmDecoderCommit, State.run_live hl, if_neg (by simp [hup, hcxl]), if_pos ⟨rfl, rfl, hsize, hmax, .inl rfl⟩,
      if_pos rfl]
  case commitBad =>
    rw [exec_hdmDecoderCommit, execHdmDecoderCommit, State.run_live hl, if_neg (by simp [hup, hcxl]; omega), if_neg (by omega)]
  case info => rw [exec_getEventRecords, execGetEventRecords, State.run_live hl, if_pos rfl, Dev.mailbox_cxl hup hcxl]
  case warn => rw [exec_getEventRecords, execGetEventRecords, State.run_live hl, if_neg (by decide), if_pos rfl, Dev.mailbox_cxl hup hcxl]
  case clear =>
    rw [exec_clearEventRecords, execClearEventRecords, State.run_live hl, if_pos (by rw [hup, hcxl]; rfl)]
    simp only [if_true]
  case logs => rw [exec_getSupportedLogs, execGetSupportedLogs, State.run_live hl, Dev.mailbox_cxl hup hcxl]
  case log => rw [exec_getLog, execGetLog, State.run_live hl, Dev.mailbox_cxl hup hcxl]
  case identify => rw [exec_identifyMemoryDevice, execIdentifyMemoryDevice, State.run_live hl, Dev.mailbox_cxl hup hcxl]
  case health => rw [exec_getHealthInfo, execGetHealthInfo, State.run_live hl, Dev.mailbox_cxl hup hcxl]
  case unsupported =>
    rw [exec_mailboxUnsupported, execMailboxUnsupported, State.run_live hl, if_neg (by simp only [hop]; decide), Dev.mailbox_cxl hup hcxl]

end Sys2Proof.Machine

/-! The host and expander ports (chapter 21). -/
namespace Sys2Proof.Machine

/-- Settles O39: the resets by their kind, a request of the running link by its address. -/
theorem hostCommandsComplete : Obligations.HostCommandsComplete := by
  unfold Obligations.HostCommandsComplete
  intro s hl
  dsimp only
  refine ⟨fun hup => ⟨?hot, ?flr⟩, fun hperst hsleep hup => ?perst, fun hperst hboot hless => ?release, fun hst hperst w r => ?linkUp,
    fun hup hretry c tid => ?cfgRetry, fun hup hretry tid => ⟨?cfgRead, fun on => ?cfgBme, ?cfgOther⟩, fun hup hrun v w x hv hw => ?msix,
    fun hup hrun a len tid ha => ⟨fun he => ?apOff, fun c hc he => ?apErr, fun o off he h1 h2 h3 h4 => ?apState⟩,
    fun hup hrun a data o off ha he hen hw => ?apWrite, fun hup g a len => ?ats, fun g x hx hheld => ?atsDone⟩
  case hot =>
    rw [exec_hostReset, execHostReset, State.run_live hl, if_neg (by simp [hup])]
    simp only [hup, if_neg (show ¬ HostRst.hot = .perst by decide), if_neg (show ¬ HostRst.hot = .flr by decide)]
    rw [if_pos (by decide)]
  case flr =>
    rw [exec_hostReset, execHostReset, State.run_live hl, if_neg (by simp [hup])]
    simp only [if_neg (show ¬ HostRst.flr = .perst by decide), if_true]
    rw [if_neg (by simp)]
  case perst =>
    have hdown : Dev.hostUp { s.dev with pins := { s.dev.pins with hostPerst := false } } = false := hup
    rw [exec_hostReset, execHostReset, State.run_live hl, if_neg (by simp [hperst])]
    simp only [if_true, hsleep, Bool.false_eq_true, if_false, hdown, if_neg (show ¬ HostRst.perst = .flr by decide), Bool.and_false]
  case release =>
    rw [exec_hostPerstRelease, execHostPerstRelease, State.run_live hl, if_neg (by simp [hperst])]
    refine congrArg (fun d : Dev => Host.Outcome.next (s.on d)) (if_pos ?_)
    exact Bool.and_eq_true_iff.mpr ⟨hboot, by rw [Bool.not_eq_true']; exact hless⟩
  case linkUp =>
    rw [exec_hostLinkUp, execHostLinkUp, State.run_live hl, if_neg (by simp [hst, hperst])]
  case cfgRetry =>
    rw [exec_hostConfigRequest, execHostConfigRequest, State.run_live hl, if_neg (by simp [hup]), if_pos hretry]
  case cfgRead =>
    rw [exec_hostConfigRequest, execHostConfigRequest, State.run_live hl, if_neg (by simp [hup]), if_neg (by simp [hretry])]
    rfl
  case cfgBme =>
    rw [exec_hostConfigRequest, execHostConfigRequest, State.run_live hl, if_neg (by simp [hup]), if_neg (by simp [hretry])]
  case cfgOther =>
    rw [exec_hostConfigRequest, execHostConfigRequest, State.run_live hl, if_neg (by simp [hup]), if_neg (by simp [hretry])]
  case msix =>
    rw [exec_msiXTableWrite, execMsiXTableWrite, State.run_live hl, if_neg (by simp [hup]; omega), Dev.heldAccess_inRun hrun, Dev.msixWrite,
      BitVec.ofNat_toNat, BitVec.setWidth_eq]
  case apOff =>
    rw [exec_apertureRead, execApertureRead, State.run_live hl, if_neg (by simp [hup]; omega), Dev.heldAccess_inRun hrun, Dev.apRead,
      Dev.apReadAgain, he]
    dsimp only
    rw [if_pos rfl]
  case apErr =>
    rw [exec_apertureRead, execApertureRead, State.run_live hl, if_neg (by simp [hup]; omega), Dev.heldAccess_inRun hrun, Dev.apRead,
      Dev.apReadAgain, he]
    dsimp only
    rw [if_neg hc]
  case apState =>
    rw [exec_apertureRead, execApertureRead, State.run_live hl, if_neg (by simp [hup]; omega), Dev.heldAccess_inRun hrun, Dev.apRead,
      Dev.apReadAgain, he]
    dsimp only
    rw [if_pos (by simp [h1, h2, h3, h4])]
  case apWrite =>
    rw [exec_apertureWrite, execApertureWrite, State.run_live hl, if_neg (by simp [hup]; omega), Dev.heldAccess_inRun hrun, Dev.apWrite, he]
    dsimp only
    rw [if_neg (not_or.mpr ⟨hen, by simp [hw]⟩)]
    refine congrArg (fun f : Dev → Nat × Nat → Dev => Host.Outcome.next (s.on (List.foldl f _ _))) ?_
    funext e y
    cases e.obj? o.handle with
    | none => rfl
    | some z => rfl
  case ats => rw [exec_atsInvalidation, execAtsInvalidation, State.run_live hl, if_neg (by simp [hup])]
  case atsDone =>
    rw [exec_atsInvalidationComplete, execAtsInvalidationComplete, State.run_live hl, hx]
    dsimp only
    rw [hheld, if_neg (by simp), List.foldl_nil]

end Sys2Proof.Machine

/-! The expander ports (chapter 21) and the lateral links (chapter 22). -/
namespace Sys2Proof.Machine

/-- Settles O40: a failed read by the tier it came from, an expander's link by its state. -/
theorem expanderEventsComplete : Obligations.ExpanderEventsComplete := by
  unfold Obligations.ExpanderEventsComplete
  intro s hl
  dsimp only
  refine ⟨fun f c k x i hx hi htier er => ?error2, fun f c k x i hx hi htier er => ?error3, fun e he h2 h4 => ?down,
    fun e w r fl he htrain hst => ?up, fun e t hdown hst htime hpres => ?downLimit, fun e w n he hsleep hst hn => ?poll⟩
  case error2 =>
    rw [exec_tierCompletionError, execTierCompletionError, State.run_live hl, hx]
    dsimp only
    rw [hi]
    dsimp only
    rw [if_neg (by omega), if_neg (by omega)]
  case error3 =>
    rw [exec_tierCompletionError, execTierCompletionError, State.run_live hl, hx]
    dsimp only
    rw [hi]
    dsimp only
    rw [if_neg (by omega), if_pos htier]
  case down =>
    rw [exec_expanderLinkDown, execExpanderLinkDown, State.run_live hl]
    dsimp only
    have htimer : (((s.dev.expLink e 1).bump .EXP_RETRAIN_COUNT e).set .EXP_STATUS_PATH_FAILED 1 e).gh = s.dev.gh := by
      rw [Dev.set_gh, (Dev.Kin.bump ..).gh, Dev.expLink, Dev.traceLink, Dev.trace_gh, Dev.set_gh]
    rw [if_neg (by omega), htimer]
  case up =>
    rw [exec_expanderLinkUp, execExpanderLinkUp, State.run_live hl]
    dsimp only
    rw [if_neg (by simp only [htrain, Bool.not_true, Bool.false_eq_true, false_or, not_or]; omega)]
  case downLimit =>
    rw [exec_expanderDownLimit, execExpanderDownLimit, State.run_live hl, hdown]
    dsimp only
    rw [if_neg (by simp [hst, htime, hpres])]
  case poll =>
    rw [exec_expanderEventPoll, execExpanderEventPoll, State.run_live hl,
      if_neg (by simp only [hsleep, Bool.false_eq_true, false_or, not_or]; omega), if_neg hn]

/-- Settles O41: each flit is taken from the front of its link. -/
theorem linkFlitsComplete : Obligations.LinkFlitsComplete := by
  unfold Obligations.LinkFlitsComplete
  intro s l m hl
  dsimp only
  refine ⟨fun h i hi => ⟨fun hst => ?nak, fun hst => ?nakOther⟩, fun h => ?credit, fun h h1 => ?paramVersion, fun h h1 hnode hlanes hrate => ?param,
    fun h => ?paramAck, fun h hst hlanes => ?laneDrop, fun h lane hdrop hlanes => ?laneDropAck, fun h => ?lpReq, fun h hst hsent => ?lpAck,
    fun h i hi => ?resume⟩
  case nak =>
    rw [exec_nak, execNak, State.run_live hl, rxLocal_at h]
    dsimp only
    rw [hi]
    dsimp only
    rw [if_pos hst]
  case nakOther =>
    rw [exec_nak, execNak, State.run_live hl, rxLocal_at h]
    dsimp only
    rw [hi]
    dsimp only
    rw [if_neg hst]
  case credit => rw [exec_credit, execCredit, State.run_live hl, rxLocal_at h]
  case paramVersion =>
    rw [exec_param, execParam, State.run_live hl, rxLocal_at h]
    dsimp only
    rw [if_pos (.inl h1)]
  case param =>
    rw [exec_param, execParam, State.run_live hl, rxLocal_at h]
    dsimp only
    rw [if_neg (by simp only [List.drop_zero, h1, hlanes, hrate, hnode, ne_eq, not_true_eq_false, or_self, not_false_eq_true])]
  case paramAck => rw [exec_paramAck, execParamAck, State.run_live hl, rxLocal_at h]
  case laneDrop =>
    rw [exec_laneDrop, execLaneDrop, State.run_live hl, rxLocal_at h]
    dsimp only
    rw [if_pos ⟨hst, hlanes⟩]
  case laneDropAck =>
    rw [exec_laneDropAck, execLaneDropAck, State.run_live hl, rxLocal_at h, hdrop]
    dsimp only
    rw [if_pos hlanes]
  case lpReq => rw [exec_lpReq, execLpReq, State.run_live hl, rxLocal_at h]
  case lpAck => rw [exec_lpAck, execLpAck, State.run_live hl, rxLocal_at h, if_pos ⟨hst, hsent⟩]
  case resume =>
    have hany : ((s.dev.localPop l).link l).replay.any (fun g => g.seq == bitsOf m.msgA 0 12) = true := by
      rw [← List.findIdx?_isSome, hi]; rfl
    rw [exec_linkResume, execLinkResume, State.run_live hl, rxLocal_at h]
    dsimp only
    rw [hi, hany, if_pos rfl]

end Sys2Proof.Machine

/-! The lateral links' events (chapter 22) and the router (chapter 23). -/
namespace Sys2Proof.Machine

/-- Settles O42: each event of a link by its state and by the time that has passed. -/
theorem linkEventsComplete : Obligations.LinkEventsComplete := by
  unfold Obligations.LinkEventsComplete
  intro s l hl
  dsimp only
  refine ⟨fun lanes h4 h6 => ?group, fun h6 hnak htime => ?nakRepeat, fun h6 htime => ?ackTimeout, fun h6 hdue => ?credit, fun h1 => ?energy,
    fun bits peer eq hst => ?tsFrame, fun hexit => ⟨fun hst htime hlock => ?train2, fun hst htime => ?train3, fun hst htime hagain => ?train4⟩,
    fun hexit hst htime => ?trainExit, fun hst htime hpres hquar => ?retry, fun hst htime a b u hwin hthr => ?fec,
    fun hst hen htime hchange => ?promote, fun p v hl24 hp hallow hgo h2 h6 => ?retrain, fun hst => ?wake⟩
  case group => rw [exec_fecGroupReceive, execFecGroupReceive, State.run_live hl]
  case nakRepeat =>
    rw [exec_nakRepeatTimer, execNakRepeatTimer, State.run_live hl, if_pos ⟨hnak, h6, htime⟩]
  case ackTimeout => rw [exec_ackTimeout, execAckTimeout, State.run_live hl, if_pos ⟨h6, htime⟩]
  case credit => rw [exec_creditSend, execCreditSend, State.run_live hl, if_pos ⟨h6, hdue⟩]
  case energy => rw [exec_energyDetect, execEnergyDetect, State.run_live hl, if_pos h1]
  case tsFrame => rw [exec_tsFrame, execTsFrame, State.run_live hl]
  case train2 =>
    rw [exec_trainTimeout, execTrainTimeout, State.run_live hl, hst, if_neg (by simp [Dev.trainOver, hexit, htime]), if_neg (by simp [hexit]),
      if_pos rfl, if_neg (by simp [hlock])]
  case train3 =>
    rw [exec_trainTimeout, execTrainTimeout, State.run_live hl, hst, if_neg (by simp [Dev.trainOver, hexit, htime]), if_neg (by simp [hexit]),
      if_neg (by decide), if_pos rfl]
  case train4 =>
    rw [exec_trainTimeout, execTrainTimeout, State.run_live hl, hst, if_neg (by simp [Dev.trainOver, hexit, htime]), if_neg (by simp [hexit]),
      if_neg (by decide), if_neg (by decide), if_pos rfl, if_pos hagain]
  case trainExit =>
    rw [exec_trainTimeout, execTrainTimeout, State.run_live hl]
    dsimp only
    rw [if_neg (by simp [Dev.trainOver, hexit, htime]), if_pos hexit, if_pos hst]
  case retry => rw [exec_linkRetryTimer, execLinkRetryTimer, State.run_live hl, if_pos ⟨hst, htime, hpres, hquar⟩]
  case fec =>
    have htrig : (decide (s.dev.get .FEC_THRESH_CORR l ≤ a + b) || (s.dev.get .FEC_THRESH_UNCORR l != 0 &&
        decide (s.dev.get .FEC_THRESH_UNCORR l ≤ u))) = true := by simp [hthr]
    rw [exec_fecWindow, execFecWindow, State.run_live hl, if_neg (by simp [hst, htime]), hwin]
    simp only [List.getD_cons_zero, List.getD_cons_succ, htrig, Bool.true_or, if_true]
  case promote =>
    rw [exec_promotePeriod, execPromotePeriod, State.run_live hl]
    dsimp only
    rw [if_pos ⟨hst, hen, htime⟩, if_neg fun h => hchange.elim (· h.1) (· h.2)]
  case retrain =>
    rw [exec_retrain, execRetrain, State.run_live hl, if_neg (by omega), Dev.viaReg_writes hp, Dev.llCtrlWrite]
    dsimp only
    rw [if_neg hallow, if_pos hgo, if_pos ⟨h2, h6⟩]
  case wake =>
    rw [exec_linkWakeSignal, execLinkWakeSignal, State.run_live hl]
    dsimp only
    rw [if_pos hst]

/-- Settles O43: a message by its checks at the node, a register by the value written. -/
theorem routerCompletes : Obligations.RouterCompletes := by
  unfold Obligations.RouterCompletes
  intro s hl
  dsimp only
  refine ⟨fun l m n hat hbody h16 h10 hwin hfit hpath => ?write, fun l m hat hdst hreply hok hlen hspace hread => ?readReq,
    fun l m rest hat hq hdst hreply hok hlen => ?flush, fun l m t hat hB h5 h8 h0 ht hdead hst hgot hfail => ?readRsp,
    fun t hsent hfr hen hsleep hg h40 h2 h3 htag => ?barrier, fun l m c hat hop hok hcfg hchild => ?arrive,
    fun l m hat hop hok hres hcfg hpar => ?release, fun g st b hb hroot hfr htime => ?rootTimeout,
    fun g st b t tag hb hsentAt htag hroot htime => ?timeout, fun p hp htopo => ?applyBad, fun p hp htopo => ?apply, fun l hl24 hquar => ?quarantine,
    fun p v hp hv => ?routeData, fun p n v hp hn hwas hv => ?hostCtrl⟩
  case write =>
    rw [exec_write, execWrite, State.run_live hl, lrTake_at hat _ (by simp [hbody, h16, h10])]
    dsimp only
    rw [hwin]
    dsimp only
    rw [if_neg (Nat.not_lt.mpr hfit), if_neg (by simp [hpath])]
  case readReq =>
    have hhead : s.dev.rxHead l 1 = some m := hat.1
    rw [exec_readReq, execReadReq, State.run_live hl, hhead]
    dsimp only
    rw [if_neg (by simp [hreply, hlen]), lrTake_at hat _ rfl]
    rw [if_neg (by simp [hok]), if_neg hspace, if_pos hread]
  case flush =>
    rw [exec_flushAnswer, execFlushAnswer, State.run_live hl, hq]
    dsimp only
    rw [if_neg (by simp [hat.2.1, hdst, hok, hlen, hreply]), lrTake_at hat _ rfl]
  case readRsp =>
    have hwhole (n k : Nat) : (bitsOf m.msgA 8 4 != 0 || n == k) = true := by simp [hfail]
    rw [exec_readRsp, execReadRsp, State.run_live hl, lrTake_at hat _ (by simp [hB, h5, h8, h0])]
    dsimp only
    rw [ht]
    dsimp only
    rw [if_neg (by simp [hdead]), if_neg (by simp only [hst, hgot, Option.isSome_none, Bool.false_eq_true, or_self, not_false_eq_true]), hwhole,
      if_pos rfl, if_pos rfl]
  case barrier =>
    rw [exec_barrier, execBarrier, State.run_live hl, hsent]
    dsimp only
    rw [if_neg (by simp [hfr, hen, hsleep]), if_neg (by omega), if_neg (by simp only [htag]; simp)]
  case arrive =>
    rw [exec_barrierArrive, execBarrierArrive, State.run_live hl, lrTake_op hat hop _ hok, if_pos hcfg, hchild]
  case release =>
    rw [exec_barrierRelease, execBarrierRelease, State.run_live hl, lrTake_op hat hop _ (by simp [hok, hres]), if_neg (by simp [hcfg, hpar])]
  case rootTimeout =>
    rw [exec_barrierRootTimeout, execBarrierRootTimeout, State.run_live hl, hb]
    dsimp only
    rw [if_pos ⟨hroot, by simp [hfr], htime⟩]
  case timeout =>
    rw [exec_barrierTimeout, execBarrierTimeout, State.run_live hl, hb]
    dsimp only
    rw [hsentAt, htag]
    dsimp only
    rw [if_neg (by simp [hroot, htime])]
  case applyBad => rw [exec_lrApply, execLrApply, State.run_live hl, Dev.viaReg_writes hp, Dev.lrApply, if_neg (by simp [htopo])]
  case apply => rw [exec_lrApply, execLrApply, State.run_live hl, Dev.viaReg_writes hp, Dev.lrApply, if_pos htopo]
  case quarantine => rw [exec_lrQuarantine, execLrQuarantine, State.run_live hl, Dev.quarantine, if_neg (by omega)]
  case routeData =>
    have hknown (c : Bool) : (!(v.toNat % 16 == 0xE || v.toNat % 16 == 0xF || c)) = false := by rcases hv with hv | hv <;> simp [hv]
    rw [exec_lrRouteDataWrite, execLrRouteDataWrite, State.run_live hl, Dev.viaReg_writes hp, Dev.routeDataWrite]
    dsimp only
    rw [hknown, if_neg Bool.false_ne_true]
  case hostCtrl =>
    rw [exec_lrHostCtrlWrite, execLrHostCtrlWrite, State.run_live hl, if_neg (by omega), Dev.viaReg_writes hp, Dev.hostCtrlWrite]
    rw [if_neg (by omega), if_pos hv]

end Sys2Proof.Machine

/-! The HBM stacks (chapter 24) and the trace unit (chapter 25). -/
namespace Sys2Proof.Machine

/-- A sensor whose alarm is raised shows level 1. -/
theorem Dev.sensorLevel_alarm (d e : Dev) (sensor : Nat) (c : Prop) [Decidable c] :
    (if decide c = true then e else d).sensorLevel sensor (bit01 (decide c)) = if c then e.sensorLevel sensor 1 else d.sensorLevel sensor 0 := by
  by_cases h : c
  · rw [if_pos (decide_eq_true h), if_pos h, decide_eq_true h]; rfl
  · rw [if_neg (by simpa using h), if_neg h, decide_eq_false h]; rfl

/-- Settles O44: a stack's event by its number, the setting by the plan. -/
theorem hbmCompletes : Obligations.HbmCompletes := by
  unfold Obligations.HbmCompletes
  intro s n hl hst
  dsimp only
  refine ⟨fun pc hpc => ?refresh, fun t ht => ?hot, fun t ht => ?cool, fun c hfr hc h0 h1 => ?calibrate, fun c hfr hc => ?calibrateFail,
    fun k hk0 hk4 => ?parity, ?parityLast, fun p v hn hp hplan hv => ?ilv, fun p v hn hp hplan => ?ilvLocked⟩
  case refresh =>
    rw [exec_refreshDue, execRefreshDue, State.run_live hl, if_pos (by simp [hst, hpc])]
  case hot =>
    rw [exec_hbmTempRead, execHbmTempRead, State.run_live hl, if_neg (by simp [hst])]
    simp only [if_pos ht, Dev.sensorLevel_alarm]
  case cool =>
    rw [exec_hbmTempRead, execHbmTempRead, State.run_live hl, if_neg (by simp [hst])]
    simp only [if_neg (show ¬ 85 ≤ t by omega), if_pos ht, Dev.sensorLevel_alarm]
  case calibrate =>
    rw [exec_hbmCalibration, execHbmCalibration, State.run_live hl, if_neg (by simp [hst, hfr]; omega), if_neg (by simp)]
    dsimp only
    rw [if_neg (by rw [decide_eq_true_eq]; omega)]
  case calibrateFail =>
    rw [exec_hbmCalibration, execHbmCalibration, State.run_live hl, if_neg (by simp [hst, hfr]; omega), if_pos (by decide)]
  case parity =>
    rw [exec_caParityError, execCaParityError, State.run_live hl, if_neg (by simp [hst]; omega), if_neg (by omega)]
  case parityLast =>
    rw [exec_caParityError, execCaParityError, State.run_live hl, if_neg (by simp [hst]), if_pos rfl]
  case ilv =>
    rw [exec_hbmIlvWrite, execHbmIlvWrite, State.run_live hl, if_neg (by omega), Dev.viaReg_writes hp, Dev.ilvWrite, if_neg (by simp [hplan]),
      if_neg hv]
  case ilvLocked =>
    rw [exec_hbmIlvWrite, execHbmIlvWrite, State.run_live hl, if_neg (by omega), Dev.viaReg_writes hp, Dev.ilvWrite, if_pos hplan]

/-- A write of TRC_CTRL that keeps the mode and sets RECORD starts a recording (R563). -/
theorem Dev.trcCtrlWrite_starts {d : Dev} {v : Nat} (hmode : bitsOf v 4 2 = d.get .TRC_CTRL_MODE) (hflush : bitsOf v 2 1 = 0)
    (hoff : d.get .TRC_CTRL_RECORD = 0) (hrec : bitsOf v 1 1 = 1) (p : Path) :
    d.trcCtrlWrite p v = (d.set .TRC_CTRL_HANDLE_EN (bitsOf v 3 1)).trcStart := by
  rw [Dev.trcCtrlWrite]
  rw [if_pos ⟨hoff, hrec⟩, if_neg (by omega), if_pos hmode]

/-- Settles O45: a timer by the trace time, a register by the value written. -/
theorem traceCompletes : Obligations.TraceCompletes := by
  unfold Obligations.TraceCompletes
  intro s hl
  dsimp only
  refine ⟨fun hidle => ?idle, fun hrec htime => ?sync, fun hpost => ?stop, fun p hp => ⟨?flush, fun v n hmode hflush hoff hrec => ?record,
    fun v hlo hhi => ?rd, fun v hout => ?rdBad, fun v => ?sw⟩⟩
  case idle => rw [exec_traceIdleFlush, execTraceIdleFlush, State.run_live hl, if_pos hidle]
  case sync => rw [exec_syncPeriodic, execSyncPeriodic, State.run_live hl, if_pos ⟨hrec, htime⟩]
  case stop => rw [exec_stopAfterDone, execStopAfterDone, State.run_live hl, if_pos hpost]
  case flush => rw [exec_trcFlush, execTrcFlush, State.run_live hl, Dev.viaReg_writes hp]
  case record =>
    rw [exec_trcRecordWrite, execTrcRecordWrite, State.run_live hl, Dev.viaReg_writes hp, Dev.trcCtrlWrite_starts hmode hflush hoff hrec]
  case rd =>
    rw [exec_trcRdWrite, execTrcRdWrite, State.run_live hl, Dev.viaReg_writes hp, Dev.trcRdHi, Dev.trcRdWrite, if_pos ⟨hlo, hhi⟩]
  case rdBad =>
    rw [exec_trcRdWrite, execTrcRdWrite, State.run_live hl, Dev.viaReg_writes hp, Dev.trcRdHi, Dev.trcRdWrite, if_neg (by omega)]
  case sw => rw [exec_trcSwHiWrite, execTrcSwHiWrite, State.run_live hl, Dev.viaReg_writes hp, Dev.trcSwHi]

end Sys2Proof.Machine

/-! The Management Block: its commands, the flash, MCTP and PLDM (chapter 27). -/
namespace Sys2Proof.Machine

/-! ### Registers, verdicts and the ledger (Table 27-1) -/

/-- The time at which an SMBus transaction began decides nothing else. -/
theorem Dev.mgmtBegin_bootBusy (d : Dev) (src : MSrc) : (d.mgmtBegin src).bootBusy = d.bootBusy := by
  unfold Dev.mgmtBegin; split <;> rfl

theorem Dev.mgmtBegin_rebootOk (d : Dev) (src : MSrc) : (d.mgmtBegin src).rebootOk = d.rebootOk := by
  unfold Dev.mgmtBegin; split <;> rfl

theorem Dev.mgmtBegin_flash (d : Dev) (src : MSrc) : (d.mgmtBegin src).mgmt.flash = d.mgmt.flash := by
  unfold Dev.mgmtBegin; split <;> rfl

theorem fits_four {v : Nat} (h : v < 2 ^ 32) : fits 4 v = true := decide_eq_true h

/-- A command that only reads is answered with what it reads. -/
theorem Dev.mgmtServe_up {d : Dev} {src : MSrc} {pec : Pec} {w ok : Bool} (h : d.MgmtUp src pec w) (hok : ok = true) (data : Dev → List Byte) :
    d.mgmtServe src pec w ok data = d.mgmtAnswer (some src) 0 0 (data d) := by
  rw [Dev.mgmtServe, mgmtArrive_up h, hok, if_pos rfl, Dev.mgmtOk]

/-- A command that its enable does not allow is denied (R604). -/
theorem Dev.mgmtCmd_denied {d : Dev} {src : MSrc} {pec : Pec} (ht : d.pwr.tripped = false) (h : d.MgmtUp src pec true)
    (h3 : d.bootPast 3 = true) {ok : Bool} (hok : ok = true) {allowed : Dev → Bool} (hno : allowed d = false) (k : Early) (c : MCmd) :
    d.mgmtCmd src pec k ok allowed c = d.mgmtDenied src := by
  rw [Dev.mgmtCmd, mgmtArrive_up h, if_neg (by simp [Dev.notReady, ht, h3]), if_neg (by simp [hok]), if_pos (by simp [hno])]

/-- Settles O46: a command that is taken runs on the state at its start, with no error met. -/
theorem managementCommandsComplete : Obligations.ManagementCommandsComplete := by
  unfold Obligations.ManagementCommandsComplete
  intro s src pec hl hrun hup h3
  have hcmd (k : Early) (ok : Bool) (al : Dev → Bool) (c : MCmd) (ho : ok = true) (ha : al s.dev = true) :=
    mgmtCmd_up hl.2 hrun hup h3 k ok al c ho ha
  dsimp only
  refine ⟨fun a ha => ?read, fun a v ha hen => ?write, fun a ha => ?read64, fun a lo hi ha hen => ?write64, fun a v ha hen => ?denied,
    fun n off c hn h4 hoff hc4 h4c hc => ?ledger, fun i hi => ?verdict, fun i hi hbusy => ?clear, fun hbusy => ?clearAll, fun v hv hen => ?pref,
    fun hok => ?reboot, fun k hk hk32 => ?rebootKey⟩
  case read => rw [exec_regRead, execRegRead, State.runOn_defined hl.1, hcmd _ _ _ _ (fits_four ha) rfl, Dev.mgmtRun]
  case write =>
    rw [exec_regWrite, execRegWrite, State.runOn_defined hl.1, hcmd _ _ _ _ (fits_four ha) (by simp [Dev.mayWrite, hen]), Dev.mgmtRun]
  case read64 => rw [exec_regRead64, execRegRead64, State.runOn_defined hl.1, hcmd _ _ _ _ (fits_four ha) rfl, Dev.mgmtRun]
  case write64 =>
    rw [exec_regWrite64, execRegWrite64, State.runOn_defined hl.1, hcmd _ _ _ _ (fits_four ha) (by simp [Dev.mayWrite, hen]), Dev.mgmtRun]
  case denied =>
    rw [exec_regWrite, execRegWrite, State.runOn_defined hl.1,
      Dev.mgmtCmd_denied hl.2 hup h3 (fits_four ha) (by simp [Dev.mayWrite, hen]), Dev.mgmtDenied]
  case ledger =>
    rw [exec_ledgerRead, execLedgerRead, State.runOn_defined hl.1, Dev.mgmtServe_up hup (by simp [hn, h4, hoff, hc4, h4c, hc])]
  case verdict => rw [exec_verdictRead, execVerdictRead, State.runOn_defined hl.1, Dev.mgmtServe_up hup (decide_eq_true hi)]
  case clear =>
    have hfree : Dev.bootBusy { s.dev.mgmtBegin src with errSeen := 0 } = false := (Dev.mgmtBegin_bootBusy ..).trans hbusy
    rw [exec_mgmtVerdictClear, execMgmtVerdictClear, State.runOn_defined hl.1, hcmd _ _ _ _ (by simp [hi]) rfl, Dev.mgmtRun]
    rw [hfree, if_neg Bool.false_ne_true, if_neg (by omega), Dev.mgmtOk]
  case clearAll =>
    have hfree : Dev.bootBusy { s.dev.mgmtBegin src with errSeen := 0 } = false := (Dev.mgmtBegin_bootBusy ..).trans hbusy
    rw [exec_mgmtVerdictClear, execMgmtVerdictClear, State.runOn_defined hl.1, hcmd _ _ _ _ (by decide) rfl, Dev.mgmtRun]
    rw [hfree, if_neg Bool.false_ne_true, if_pos rfl, Dev.mgmtOk]
  case pref =>
    rw [exec_imagePrefWrite, execImagePrefWrite, State.runOn_defined hl.1,
      hcmd _ _ _ _ (decide_eq_true hv) (by simp [Dev.mayFlash, hen]), Dev.mgmtRun, Dev.mgmtOk]
  case reboot =>
    have hready : Dev.rebootOk { s.dev.mgmtBegin src with errSeen := 0 } = true := (Dev.mgmtBegin_rebootOk ..).trans hok
    rw [exec_reboot, execReboot, State.runOn_defined hl.1, hcmd _ _ _ _ (by decide) rfl, Dev.mgmtRun]
    rw [if_neg (by decide), hready, if_neg (by decide), Dev.mgmtOk]
  case rebootKey =>
    rw [exec_reboot, execReboot, State.runOn_defined hl.1, hcmd _ _ _ _ (fits_four hk32) rfl, Dev.mgmtRun]
    rw [if_pos hk, Dev.mgmtRefused]

/-! ### Flash (R611 to R613) and the SMBus's timeouts (R602) -/

/-- A flash command of the management path on a free controller fills its block and starts. -/
theorem Dev.mgmtFlash_free {d : Dev} (h : d.mgmt.flash = none) (src : Option MSrc) (cmd addr len : Nat) (data : List Byte)
    (hok : ((((d.setFlashAddr .mgmt addr).setFlashLen .mgmt len).setFlashBuf .mgmt 0 data).flashStart .mgmt (if cmd = 1 then src else none) cmd).2
      = 0) : d.mgmtFlash src cmd addr len data =
        let r := (((d.setFlashAddr .mgmt addr).setFlashLen .mgmt len).setFlashBuf .mgmt 0 data).flashStart .mgmt (if cmd = 1 then src else none) cmd
        if cmd = 1 then r.1 else r.1.mgmtOk src [] := by
  rw [Dev.mgmtFlash, h, if_neg (by simp)]
  dsimp only
  rw [hok, if_neg (not_not.mpr rfl)]

/-- The four flash commands are writes of FLASH_CMD, which a fatal device takes too. -/
theorem exec_flashCmd {s : State} (hl : s.Live) {p : Path} (hp : s.dev.Reach p) {n : Nat} {cmd : Instr}
    (hcmd : (n = 1 ∧ cmd = Instr.flashCmdRead p) ∨ (n = 2 ∧ cmd = Instr.flashCmdProgram p) ∨
      (n = 3 ∧ cmd = Instr.flashCmdErase4k p) ∨ (n = 4 ∧ cmd = Instr.flashCmdErase64k p)) :
    exec cmd s = .next (s.on (s.dev.flashCmdWrite p n)) := by
  have hopen (v : Nat) (f : Dev → Dev) : s.dev.viaReg p .FLASH_CMD 0 v f = f s.dev :=
    Dev.viaReg_reach hp (by rw [Dev.fatalShut, Bool.and_eq_false_iff]; exact .inr (by decide)) v f
  rcases hcmd with ⟨rfl, rfl⟩ | ⟨rfl, rfl⟩ | ⟨rfl, rfl⟩ | ⟨rfl, rfl⟩
  · rw [exec_flashCmdRead, execFlashCmdRead, State.run_live hl, hopen]
  · rw [exec_flashCmdProgram, execFlashCmdProgram, State.run_live hl, hopen]
  · rw [exec_flashCmdErase4k, execFlashCmdErase4k, State.run_live hl, hopen]
  · rw [exec_flashCmdErase64k, execFlashCmdErase64k, State.run_live hl, hopen]

/-- A command that FLASH_CMD holds and the path may give starts, or is refused with a code (R612). -/
theorem Dev.flashCmdWrite_eq {d : Dev} {p : Path} {n : Nat} (h1 : 1 ≤ n) (h4 : n ≤ 4)
    (hmay : p = .host ∨ n = 1 ∨ d.get .MGMT_CTRL_FLASH_WR_EN ≠ 0) :
    d.flashCmdWrite p n = if (d.flashStart p none n).2 ≠ 0 then (d.flashStart p none n).1.errWr p 109 0 0x108 (d.flashStart p none n).2 n
      else (d.flashStart p none n).1 := by
  have hn : n % 16 = n := by omega
  have hallowed : ¬ (p = .mgmt ∧ n ≠ 1 ∧ d.get .MGMT_CTRL_FLASH_WR_EN = 0) := by
    rintro ⟨rfl, hne, hen⟩
    rcases hmay with h | h | h
    · exact absurd h (by decide)
    · exact hne h
    · exact h hen
  rw [Dev.flashCmdWrite, hn]
  dsimp only
  rw [if_neg (by omega), if_neg hallowed]

/-- On a free controller the command alone decides. -/
theorem Dev.flashCode_free {d : Dev} (h : d.mgmt.flash = none) (c : Nat) : (if d.mgmt.flash.isSome = true then 0x1102 else c) = c := by
  rw [h]; rfl

theorem Dev.flashStart_taken {d : Dev} {p : Path} {n : Nat} (hfree : d.mgmt.flash = none) (src : Option MSrc)
    (h : d.flashRefusal n (d.flashAddr p) (d.flashLen p) = 0) :
    d.flashStart p src n = ({ d.setResult p 0 with mgmt := { d.mgmt with
      flash := some { mgmt := p == .mgmt, src := src, cmd := n, addr := d.flashAddr p, len := d.flashLen p } } }, 0) := by
  rw [Dev.flashStart, Dev.flashCode_free hfree, h, if_neg (not_not.mpr rfl)]

theorem Dev.flashStart_refused {d : Dev} {p : Path} {n c : Nat} (hfree : d.mgmt.flash = none) (src : Option MSrc)
    (h : d.flashRefusal n (d.flashAddr p) (d.flashLen p) = c) (hc : c ≠ 0) : d.flashStart p src n = (d.setResult p c, c) := by
  rw [Dev.flashStart, Dev.flashCode_free hfree, h, if_pos hc]

/-- Settles O47: a command of the bus by its enable, a flash command by what it names. -/
theorem flashCommandsComplete : Obligations.FlashCommandsComplete := by
  unfold Obligations.FlashCommandsComplete
  intro s hl hrun
  dsimp only
  refine ⟨fun src pec hup => ⟨?status, ?temp, ?flashStatus⟩, fun src pec hup h3 hfree => ?commands, fun c hc => ?unlisted,
    fun hwait htime => ?stretch, ?clockLow,
    fun p n cmd hp hcmd hfree hmay => ⟨fun hok => ?cmdTaken, fun c hc hbad => ?cmdRefused⟩, fun j bad hj hcopy hsrc => ?done,
    fun v hp hlock hv => ?ctrl, fun v hp => ?ctrlMgmt⟩
  case status => rw [exec_status, execStatus, State.runOn_defined hl.1, Dev.mgmtServe_up hup rfl]
  case temp => rw [exec_temp, execTemp, State.runOn_defined hl.1, Dev.mgmtServe_up hup rfl]
  case flashStatus => rw [exec_flashStatus, execFlashStatus, State.runOn_defined hl.1, Dev.mgmtServe_up hup rfl]
  case commands =>
    have hcmd (k : Early) (ok : Bool) (al : Dev → Bool) (c : MCmd) (ho : ok = true) (ha : al s.dev = true) :=
      mgmtCmd_up hl.2 hrun hup h3 k ok al c ho ha
    have he : (Dev.mgmt { s.dev.mgmtBegin src with errSeen := 0 }).flash = none := (Dev.mgmtBegin_flash ..).trans hfree
    refine ⟨fun a n ha h1 h240 hok => ?flashRead, fun a b ha h1 h240 hen hok => ?flashProgram, fun a sz ha hsz hen hok => ?flashErase⟩
    case flashRead =>
      rw [exec_flashRead, execFlashRead, State.runOn_defined hl.1, hcmd _ _ _ _ (by simp [fits_four ha, h1, h240]) rfl, Dev.mgmtRun,
        Dev.mgmtFlash_free he _ _ _ _ _ hok]
      rfl
    case flashProgram =>
      rw [exec_flashProgram, execFlashProgram, State.runOn_defined hl.1,
        hcmd _ _ _ _ (by simp [fits_four ha, h1, h240]) (by simp [Dev.mayFlash, hen]), Dev.mgmtRun, Dev.mgmtFlash_free he _ _ _ _ _ hok]
      rfl
    case flashErase =>
      rw [exec_flashErase, execFlashErase, State.runOn_defined hl.1, hcmd _ _ _ _ (by simp [fits_four ha, hsz]) (by simp [Dev.mayFlash, hen]),
        Dev.mgmtRun, Dev.mgmtFlash_free he _ _ _ _ _ (by rw [if_neg (by omega)]; exact hok)]
      dsimp only
      rw [if_neg (by omega), if_neg (by omega), Dev.mgmtOk]
  case unlisted =>
    rw [exec_unlistedSmbusCommand, execUnlistedSmbusCommand, State.runOn_defined hl.1, if_neg (by simp [hc])]
  case stretch =>
    rw [exec_smbStretchTimeout, execSmbStretchTimeout, State.runOn_defined hl.1, if_pos (by simp [hwait, htime])]
  case clockLow => rw [exec_smbClockLowTimeout, execSmbClockLowTimeout, State.runOn_defined hl.1]
  case cmdTaken =>
    rw [exec_flashCmd hl hp hcmd, Dev.flashCmdWrite_eq (by omega) (by omega) hmay, Dev.flashStart_taken hfree none hok, if_neg (not_not.mpr rfl)]
  case cmdRefused =>
    rw [exec_flashCmd hl hp hcmd, Dev.flashCmdWrite_eq (by omega) (by omega) hmay, Dev.flashStart_refused hfree none hbad hc, if_pos hc]
  case done =>
    rw [exec_flashCommandDone, execFlashCommandDone, State.run_live hl, hj]
    dsimp only
    rw [if_neg hcopy, hsrc]
  case ctrl =>
    rw [exec_mgmtCtrlWrite, execMgmtCtrlWrite, State.run_live hl, Dev.viaReg_writes hp, Dev.mgmtCtrlWrite, if_neg (by decide)]
    dsimp only
    rw [hlock, if_pos rfl, if_neg (by simp [hv])]
  case ctrlMgmt =>
    rw [exec_mgmtCtrlWrite, execMgmtCtrlWrite, State.run_live hl, Dev.viaReg_writes hp, Dev.mgmtCtrlWrite, if_pos rfl]

end Sys2Proof.Machine

/-! MCTP and PLDM, JTAG, the pins and the alert wire (chapter 27). -/
namespace Sys2Proof.Machine

/-! ### MCTP and PLDM (R607 to R610) -/

/-- A request that changes a setting is served once the device is ready for it (R606). -/
theorem Dev.pldmSet_ready {d : Dev} {src : MSrc} (h : d.MctpUp src) (heid : d.eid src ≠ 0) (ht : d.pwr.tripped = false)
    (h3 : d.bootPast 3 = true) (f : Dev → Dev) : d.pldmSet src f = f d := by
  rw [Dev.pldmSet, mctp_up h _ _ (.inr heid), if_neg (by simp [Dev.notReady, ht, h3])]

/-- Settles O48: a request that reaches the block is answered by its kind. -/
theorem mctpRequestsComplete : Obligations.MctpRequestsComplete := by
  unfold Obligations.MctpRequestsComplete
  intro s src hl hup
  have hcontrol (f : Dev → Dev) : s.dev.mctp src true f = f s.dev := mctp_up hup true f (.inl rfl)
  dsimp only
  refine ⟨fun n h0 hff hsrc => ?setSmb, fun n h0 hff hsrc => ?setVdm, ?getEid, ?uuid, fun t => ?version, ?types, ?vendor, fun heid => ?pldm⟩
  case setSmb =>
    rw [exec_setEndpointId, execSetEndpointId, State.runOn_defined hl.1, hcontrol, if_neg (by omega), if_neg (by simp [hsrc])]
  case setVdm =>
    rw [exec_setEndpointId, execSetEndpointId, State.runOn_defined hl.1, hcontrol, if_neg (by omega), if_pos hsrc]
  case getEid => rw [exec_getEndpointId, execGetEndpointId, State.runOn_defined hl.1, hcontrol]
  case uuid => rw [exec_getEndpointUuid, execGetEndpointUuid, State.runOn_defined hl.1, hcontrol]
  case version => rw [exec_getMctpVersionSupport, execGetMctpVersionSupport, State.runOn_defined hl.1, hcontrol]
  case types => rw [exec_getMessageTypeSupport, execGetMessageTypeSupport, State.runOn_defined hl.1, hcontrol]
  case vendor => rw [exec_getVendorDefinedMessageSupport, execGetVendorDefinedMessageSupport, State.runOn_defined hl.1, hcontrol]
  case pldm =>
    have hpldm (f : Dev → Dev) : s.dev.mctp src false f = f s.dev := mctp_up hup false f (.inr heid)
    refine ⟨?tid, fun h3 t => ?setTid, fun t => ?pldmVersion, ?pldmTypes, fun t => ?commands, fun i v a hi ha => ?sensor, fun i v hi => ?state,
      ?pdrInfo, fun h => ?pdr, fun h3 n => ?receiver⟩
    case tid => rw [exec_gettid, execGettid, State.runOn_defined hl.1, hpldm]
    case setTid => rw [exec_settid, execSettid, State.runOn_defined hl.1, Dev.pldmSet_ready hup heid hl.2 h3]
    case pldmVersion => rw [exec_getpldmversion, execGetpldmversion, State.runOn_defined hl.1, hpldm]
    case pldmTypes => rw [exec_getpldmtypes, execGetpldmtypes, State.runOn_defined hl.1, hpldm]
    case commands => rw [exec_getpldmcommands, execGetpldmcommands, State.runOn_defined hl.1, hpldm]
    case sensor =>
      rw [exec_getsensorreading, execGetsensorreading, State.runOn_defined hl.1, hpldm, hi]
      dsimp only
      rw [if_neg (by rcases ha with ha | ha <;> simp [ha, hl.2])]
    case state => rw [exec_getstatesensorreadings, execGetstatesensorreadings, State.runOn_defined hl.1, hpldm, hi]
    case pdrInfo => rw [exec_getpdrrepositoryinfo, execGetpdrrepositoryinfo, State.runOn_defined hl.1, hpldm]
    case pdr => rw [exec_getpdr, execGetpdr, State.runOn_defined hl.1, hpldm]
    case receiver => rw [exec_seteventreceiver, execSeteventreceiver, State.runOn_defined hl.1, Dev.pldmSet_ready hup heid hl.2 h3]

/-! ### JTAG, the pins and the alert wire (R615 to R621) -/

/-- With TEST_EN_N high at the reset's release an instruction is taken as it is. -/
theorem Dev.tapUpdate_free {d : Dev} (h : d.boot.held = false) (ir : Nat) : d.tapUpdate ir = (d.setIr ir).tapCapture ir := by
  rw [Dev.tapUpdate, if_neg (by simp [h])]

/-- BYPASS is in force whichever way it is reached. -/
theorem Dev.tapUpdate_bypass (d : Dev) : d.tapUpdate 0xFF = (d.setIr 0xFF).emit (.tdo 0xFF 0) := by
  rw [Dev.tapUpdate, ite_self]
  rw [Dev.tapCapture, if_neg (by decide), if_neg (by decide)]

theorem Dev.tapTest_taken {d : Dev} (hheld : d.boot.held = false) (h : d.get .BOOT_STATUS_RESULT = 2 ∨ d.pins.devReset = true) (ir : Nat) :
    d.tapTest ir = (d.setIr ir).tapCapture ir := by rw [Dev.tapTest, if_pos h.symm, Dev.tapUpdate_free hheld]

theorem Dev.tapTest_refused {d : Dev} (hres : d.get .BOOT_STATUS_RESULT ≠ 2) (hrst : d.pins.devReset = false) (ir : Nat) :
    d.tapTest ir = ((d.bump .JTAG_REFUSED_COUNT).setIr 0xFF).emit (.tdo 0xFF 0) := by
  rw [Dev.tapTest, if_neg (by simp [hres, hrst]), Dev.tapUpdate_bypass]

/-- An edge that is enabled on a pin with no wake function is recorded and raised (R618). -/
theorem exec_gpioEdge {s : State} (hu : s.dev.undef = false) {n : Nat} {high : Bool} (hn : n < 8)
    (hnew : bitsOf s.dev.gh.gpio n 1 ≠ bit01 high) {e f : Dev}
    (he : e = { s.dev with gh := { s.dev.gh with gpio := putBits s.dev.gh.gpio n 1 (bit01 high) } })
    (hfunc : bitsOf (e.rd .GPIO_FUNC) (3 * n) 3 = 0) (hen : e.bit .GPIO_EDGE_EN (if high then n else 8 + n) = true)
    (hf : f = (e.setBit .GPIO_EDGE (if high then n else 8 + n) true).raise 109 0 7) (hwake : f.bit .GH_GPIO_WAKE n = false) :
    exec (.gpioInputEdge n high) s = .next (s.on f) := by
  rw [exec_gpioInputEdge, execGpioInputEdge, State.runOn_defined hu, if_neg (by omega), ← he, if_neg (not_not.mpr hfunc)]
  dsimp only
  rw [if_pos hen, ← hf, if_neg (fun h => Bool.false_ne_true (hwake.symm.trans h.1))]

/-- Settles O49: an instruction by the reset and the boot's result, a pin by its function. -/
theorem pinsComplete : Obligations.PinsComplete := by
  unfold Obligations.PinsComplete
  intro s hu
  dsimp only
  refine ⟨fun hheld => ⟨?idcode, ?sample, fun hmay => ⟨?extest, ?highz, ?clamp, ?pulse, ?train⟩, fun hres hrst c hc => ?refused,
    fun wr off v hen hwr hup => ?access⟩, ?bypass, ?trst, fun n high hn hnew hfunc hwake hen hwake' => ?gpio, fun low => ?alert⟩
  case idcode => rw [exec_idcode, execIdcode, State.runOn_defined hu, Dev.tapUpdate_free hheld, Dev.tapCapture, if_pos rfl]
  case sample => rw [exec_samplePreload, execSamplePreload, State.runOn_defined hu, Dev.tapUpdate_free hheld]
  case extest => rw [exec_extest, execExtest, State.runOn_defined hu, Dev.tapTest_taken hheld hmay]
  case highz =>
    rw [exec_highz, execHighz, State.runOn_defined hu, Dev.tapTest_taken hheld hmay, Dev.tapCapture, if_neg (by decide), if_neg (by decide)]
  case clamp =>
    rw [exec_clamp, execClamp, State.runOn_defined hu, Dev.tapTest_taken hheld hmay, Dev.tapCapture, if_neg (by decide), if_neg (by decide)]
  case pulse => rw [exec_extestPulse, execExtestPulse, State.runOn_defined hu, Dev.tapTest_taken hheld hmay]
  case train => rw [exec_extestTrain, execExtestTrain, State.runOn_defined hu, Dev.tapTest_taken hheld hmay]
  case refused =>
    have htest (ir : Nat) : s.runOn (fun d => d.tapTest ir) = .next (s.on (((s.dev.bump .JTAG_REFUSED_COUNT).setIr 0xFF).emit (.tdo 0xFF 0))) := by
      rw [State.runOn_defined hu, Dev.tapTest_refused hres hrst]
    simp only [List.mem_cons, List.not_mem_nil, or_false] at hc
    rcases hc with rfl | rfl | rfl | rfl | rfl
    · exact htest 0x00
    · exact htest 0x03
    · exact htest 0x04
    · exact htest 0x05
    · exact htest 0x06
  case access =>
    rw [exec_mgmtAccess, execMgmtAccess, State.runOn_defined hu, if_neg (by simp [hheld])]
    dsimp only
    rw [if_neg, if_neg (by simp [hup])]
    rintro (h | ⟨h, hno⟩)
    · exact hen h
    · simp [Dev.mayWrite, hwr h] at hno
  case bypass => rw [exec_bypass, execBypass, State.runOn_defined hu, Dev.tapUpdate_bypass]
  case trst => rw [exec_trstNReset, execTrstNReset, State.runOn_defined hu]
  case gpio => exact exec_gpioEdge hu hn hnew rfl hfunc hen rfl hwake'
  case alert => rw [exec_fleetAlertWire, execFleetAlertWire, State.runOn_defined hu]

end Sys2Proof.Machine
